-- ==== Sys2Proof/Word.lean ====
section
/-!
DEFINITION. Sys2Proof/Word.lean: the sizes of data that the spec names (R1, R4), as bit vectors.
-/

namespace Sys2Proof

/-- A byte. -/
abbrev Byte := BitVec 8

/-- A 32-bit instruction word (R61). -/
abbrev Word := BitVec 32

/-- The 64 bits of a scalar register (R69) and of a register of the control page (R29). -/
abbrev Dword := BitVec 64

/-- The 256 bits of one lane of a vector register (R69). -/
abbrev LaneReg := BitVec 256

/-- A vector register of a group: eight lanes, lane l in bits 256 l + 255 to 256 l (R69). -/
abbrev VecReg := BitVec 2048

/-- A register field of an instruction word (R61). -/
abbrev Field := BitVec 7

end Sys2Proof
end

