-- ==== Sys2Proof/Machine/OpTable.lean ====
section
/-!
DEFINITION. Sys2Proof/Machine/OpTable.lean: what the opcode map (03 R79) says of each opcode: its format, the kind of
each register field (R69), whether it is privileged (R80) and whether it must end its run (R66).
-/

namespace Sys2Proof.Machine

/-- What a seven-bit field of a word holds (R69); `zero` is a field that the form does not use (R61), `code` one that
holds a code and no register. -/
inductive RegKind where
  | scalar | vector | pred | handle | yreg | zero | code
  deriving DecidableEq, Repr

/-- The formats of R61. -/
inductive Format where
  | A | B | C | long | short | M | X | none
  deriving DecidableEq, Repr

/-- The form of an opcode's words: `d`, `a`, `b` are the kinds of the fields [20:14], [13:7] and [6:0]. -/
structure Sig where
  fmt : Format
  d : RegKind
  a : RegKind
  b : RegKind
  privileged : Bool
  endsRun : Bool
  deriving DecidableEq, Repr

/-- Format A (R61). -/
def sigA (d a b : RegKind) : Sig := ⟨.A, d, a, b, false, false⟩
/-- Format B (R61). -/
def sigB (d a : RegKind) : Sig := ⟨.B, d, a, .code, false, false⟩
/-- Format C (R61). -/
def sigC (d : RegKind) : Sig := ⟨.C, d, .code, .code, false, false⟩
/-- Format D, long (R61). -/
def sigL : Sig := ⟨.long, .code, .code, .code, false, false⟩
/-- Format D, short (R61). -/
def sigS (d : RegKind) : Sig := ⟨.short, d, .code, .code, false, false⟩
/-- Words without operands (R61). -/
def sigN : Sig := ⟨.none, .zero, .zero, .zero, false, false⟩
/-- Format M (R61). -/
def sigM : Sig := ⟨.M, .code, .vector, .vector, false, false⟩
/-- Format X (R61). -/
def sigX : Sig := ⟨.X, .code, .code, .code, false, false⟩
/-- A privileged instruction (R80). -/
def Sig.priv (g : Sig) : Sig := { g with privileged := true }
/-- A word of R66. -/
def Sig.ends (g : Sig) : Sig := { g with endsRun := true }

/-- Opcodes 0x000 to 0x03F of R79. -/
def sigsScalar : List (Nat × Sig) := [
  (0x001, sigA .scalar .scalar .scalar),
  (0x002, sigA .scalar .scalar .scalar),
  (0x003, sigA .scalar .scalar .scalar),
  (0x004, sigA .scalar .scalar .scalar),
  (0x005, sigA .scalar .scalar .scalar),
  (0x006, sigA .scalar .scalar .scalar),
  (0x007, sigA .scalar .scalar .scalar),
  (0x008, sigA .scalar .scalar .scalar),
  (0x009, sigA .scalar .scalar .scalar),
  (0x00A, sigA .scalar .scalar .scalar),
  (0x00B, sigA .scalar .scalar .scalar),
  (0x00C, sigA .scalar .scalar .scalar),
  (0x00D, sigA .scalar .scalar .scalar),
  (0x00E, sigA .scalar .scalar .scalar),
  (0x00F, sigA .scalar .scalar .scalar),
  (0x010, sigA .scalar .scalar .scalar),
  (0x011, sigA .scalar .scalar .scalar),
  (0x012, sigA .scalar .scalar .scalar),
  (0x013, sigA .scalar .scalar .scalar),
  (0x014, sigA .scalar .scalar .scalar),
  (0x015, sigA .scalar .scalar .scalar),
  (0x016, sigA .scalar .scalar .scalar),
  (0x017, sigA .scalar .scalar .scalar),
  (0x018, sigA .scalar .scalar .zero),
  (0x019, sigA .scalar .scalar .zero),
  (0x01A, sigA .scalar .scalar .zero),
  (0x01B, sigB .scalar .scalar),
  (0x01C, sigA .scalar .scalar .scalar),
  (0x020, sigB .scalar .scalar),
  (0x021, sigB .scalar .scalar),
  (0x022, sigB .scalar .scalar),
  (0x023, sigB .scalar .scalar),
  (0x024, sigB .scalar .scalar),
  (0x025, sigB .scalar .scalar),
  (0x026, sigB .scalar .scalar),
  (0x027, sigC .scalar)]

/-- Opcodes 0x040 to 0x05F of R79. -/
def sigsControl : List (Nat × Sig) := [
  (0x040, sigL.ends),
  (0x041, (sigS .scalar).ends),
  (0x042, (sigS .scalar).ends),
  (0x043, (sigS .pred).ends),
  (0x044, (sigS .pred).ends),
  (0x045, sigL.ends),
  (0x046, sigN.ends),
  (0x047, (sigS .scalar).ends),
  (0x048, (sigS .pred).ends),
  (0x049, sigN.ends),
  (0x04A, sigN.ends),
  (0x04B, sigN),
  (0x04C, sigC .zero),
  (0x050, sigA .zero .scalar .zero),
  (0x051, sigC .code),
  (0x052, sigA .scalar .zero .zero),
  (0x053, sigC .scalar),
  (0x054, sigC .scalar)]

/-- Opcodes 0x060 to 0x07F of R79. -/
def sigsSystem : List (Nat × Sig) := [
  (0x060, sigC .zero),
  (0x061, sigN.priv.ends),
  (0x062, sigC .zero),
  (0x063, sigN.priv),
  (0x064, (sigA .zero .scalar .scalar).priv),
  (0x065, (sigB .zero .zero).priv),
  (0x066, sigB .zero .scalar),
  (0x067, (sigB .scalar .vector).priv),
  (0x068, (sigB .vector .scalar).priv),
  (0x069, (sigA .scalar .scalar .scalar).priv),
  (0x06A, sigB .scalar .zero),
  (0x06B, sigA .scalar .scalar .zero)]

/-- Opcodes 0x080 to 0x0FF of R79. -/
def sigsMemory : List (Nat × Sig) := [
  (0x080, sigB .scalar .scalar),
  (0x081, sigB .scalar .scalar),
  (0x082, sigB .scalar .scalar),
  (0x083, sigB .scalar .scalar),
  (0x084, sigB .scalar .scalar),
  (0x085, sigB .scalar .scalar),
  (0x086, sigB .scalar .scalar),
  (0x088, sigB .scalar .scalar),
  (0x089, sigB .scalar .scalar),
  (0x08A, sigB .scalar .scalar),
  (0x08B, sigB .scalar .scalar),
  (0x08C, sigB .scalar .scalar),
  (0x08D, sigB .scalar .scalar),
  (0x08E, sigB .scalar .scalar),
  (0x08F, sigB .scalar .scalar),
  (0x090, sigC .zero),
  (0x091, sigA .scalar .scalar .scalar),
  (0x0A0, sigA .scalar .scalar .scalar),
  (0x0A1, sigA .scalar .scalar .scalar),
  (0x0A2, sigA .scalar .scalar .scalar),
  (0x0A3, sigA .scalar .scalar .scalar),
  (0x0A4, sigA .scalar .scalar .scalar),
  (0x0A5, sigA .scalar .scalar .scalar),
  (0x0A6, sigA .scalar .scalar .scalar),
  (0x0A7, sigA .scalar .scalar .scalar),
  (0x0A8, sigA .scalar .scalar .scalar),
  (0x0A9, sigA .scalar .scalar .scalar),
  (0x0AA, sigA .scalar .scalar .scalar),
  (0x0B0, sigB .scalar .scalar),
  (0x0B1, sigB .scalar .scalar),
  (0x0B2, sigB .scalar .scalar),
  (0x0B3, sigB .scalar .scalar)]

/-- Opcodes 0x100 to 0x12F of R79. -/
def sigsVecInt : List (Nat × Sig) := [
  (0x100, sigA .vector .vector .vector),
  (0x101, sigA .vector .vector .vector),
  (0x102, sigA .vector .vector .vector),
  (0x103, sigA .vector .vector .vector),
  (0x104, sigA .vector .vector .vector),
  (0x105, sigA .vector .vector .vector),
  (0x106, sigA .vector .vector .vector),
  (0x107, sigA .vector .vector .vector),
  (0x108, sigA .vector .vector .vector),
  (0x109, sigA .vector .vector .vector),
  (0x10A, sigA .vector .vector .zero),
  (0x10B, sigA .vector .vector .zero),
  (0x10C, sigA .vector .vector .vector),
  (0x10D, sigA .vector .vector .vector),
  (0x10E, sigA .vector .vector .vector),
  (0x10F, sigA .vector .vector .zero),
  (0x110, sigA .vector .vector .vector),
  (0x111, sigA .vector .vector .vector),
  (0x112, sigA .vector .vector .vector),
  (0x113, sigA .vector .vector .zero),
  (0x114, sigA .vector .vector .zero),
  (0x115, sigA .pred .vector .vector),
  (0x116, sigA .pred .vector .vector),
  (0x117, sigA .pred .vector .vector),
  (0x118, sigA .pred .vector .vector),
  (0x119, sigA .vector .vector .vector),
  (0x120, sigB .vector .vector),
  (0x121, sigB .vector .vector),
  (0x122, sigB .vector .vector),
  (0x123, sigB .vector .vector),
  (0x124, sigB .vector .vector)]

/-- Opcodes 0x130 to 0x17F of R79. -/
def sigsVecMove : List (Nat × Sig) := [
  (0x130, sigA .vector .vector .zero),
  (0x131, sigA .vector .scalar .zero),
  (0x132, sigA .vector .scalar .scalar),
  (0x133, sigA .vector .vector .vector),
  (0x134, sigA .vector .vector .vector),
  (0x135, sigB .vector .vector),
  (0x136, sigB .vector .vector),
  (0x137, sigA .vector .vector .vector),
  (0x138, sigA .vector .vector .zero),
  (0x139, sigA .vector .vector .vector),
  (0x13A, sigA .vector .vector .vector),
  (0x13B, sigA .vector .zero .zero),
  (0x140, sigA .pred .pred .pred),
  (0x141, sigA .pred .pred .pred),
  (0x142, sigA .pred .pred .pred),
  (0x143, sigA .pred .pred .zero),
  (0x144, sigA .pred .scalar .zero),
  (0x145, sigA .scalar .pred .zero),
  (0x150, sigA .yreg .vector .zero),
  (0x151, sigA .yreg .vector .zero),
  (0x152, sigA .yreg .vector .zero),
  (0x153, sigA .yreg .vector .zero),
  (0x154, sigA .yreg .vector .zero),
  (0x155, sigA .vector .vector .zero),
  (0x156, sigA .vector .vector .zero),
  (0x157, sigB .scalar .yreg),
  (0x158, sigA .scalar .yreg .zero),
  (0x160, sigC .vector)]

/-- Opcodes 0x180 to 0x19F of R79. -/
def sigsFloat : List (Nat × Sig) := [
  (0x180, sigA .vector .vector .vector),
  (0x181, sigA .vector .vector .vector),
  (0x182, sigA .vector .vector .vector),
  (0x183, sigA .vector .vector .vector),
  (0x184, sigA .vector .vector .vector),
  (0x185, sigA .vector .vector .vector),
  (0x186, sigA .vector .vector .vector),
  (0x187, sigA .vector .vector .vector),
  (0x188, sigA .vector .vector .zero),
  (0x189, sigA .vector .vector .zero),
  (0x18A, sigA .vector .vector .vector),
  (0x18B, sigA .vector .vector .zero),
  (0x18C, sigA .vector .vector .zero),
  (0x18D, sigA .vector .vector .zero),
  (0x18E, sigA .vector .vector .zero),
  (0x18F, sigA .vector .vector .zero),
  (0x190, sigA .vector .vector .zero),
  (0x191, sigA .pred .vector .vector),
  (0x192, sigA .pred .vector .vector),
  (0x193, sigA .pred .vector .vector),
  (0x194, sigA .pred .vector .vector),
  (0x195, sigA .vector .vector .zero),
  (0x196, sigA .vector .vector .zero),
  (0x197, sigA .vector .vector .vector)]

/-- Opcodes 0x1A0 to 0x1FF of R79. -/
def sigsConv : List (Nat × Sig) := [
  (0x1A0, sigA .vector .vector .zero),
  (0x1A1, sigA .vector .vector .zero),
  (0x1A2, sigA .vector .vector .zero),
  (0x1A3, sigA .vector .vector .scalar),
  (0x1A4, sigA .vector .vector .zero),
  (0x1A5, sigA .vector .vector .zero),
  (0x1A6, sigA .vector .vector .zero),
  (0x1A7, sigA .vector .vector .scalar),
  (0x1A8, sigA .vector .vector .vector),
  (0x1A9, sigA .vector .vector .zero)]

/-- Opcodes 0x200 to 0x23F of R79. -/
def sigsVecMem : List (Nat × Sig) := [
  (0x200, sigA .vector .scalar .vector),
  (0x201, sigA .vector .scalar .vector),
  (0x202, sigA .vector .scalar .vector),
  (0x203, sigA .vector .scalar .vector),
  (0x204, sigA .vector .scalar .vector),
  (0x205, sigA .vector .scalar .vector),
  (0x206, sigA .vector .scalar .vector),
  (0x207, sigA .vector .scalar .vector),
  (0x208, sigA .vector .scalar .vector),
  (0x209, sigA .vector .scalar .vector),
  (0x20A, sigA .vector .scalar .vector),
  (0x20B, sigA .vector .scalar .vector),
  (0x20C, sigA .vector .scalar .vector),
  (0x20D, sigA .vector .scalar .vector),
  (0x20E, sigA .vector .scalar .vector),
  (0x20F, sigA .vector .scalar .vector),
  (0x210, sigA .vector .scalar .vector),
  (0x211, sigA .vector .scalar .vector),
  (0x212, sigA .vector .scalar .vector),
  (0x213, sigA .vector .scalar .vector),
  (0x214, sigA .vector .scalar .vector),
  (0x215, sigA .vector .scalar .vector),
  (0x218, sigA .vector .scalar .zero),
  (0x219, sigA .vector .scalar .zero),
  (0x21A, sigA .vector .scalar .vector),
  (0x21B, sigA .vector .scalar .vector),
  (0x220, sigA .vector .scalar .vector),
  (0x221, sigA .vector .scalar .vector),
  (0x222, sigA .vector .scalar .vector),
  (0x223, sigA .vector .scalar .vector),
  (0x224, sigA .vector .scalar .vector),
  (0x225, sigA .vector .scalar .vector),
  (0x228, sigA .vector .scalar .vector),
  (0x229, sigA .vector .scalar .vector),
  (0x22A, sigA .vector .scalar .vector),
  (0x22B, sigA .vector .scalar .vector),
  (0x22C, sigA .vector .scalar .vector),
  (0x230, sigA .zero .scalar .vector)]

/-- Opcodes 0x240 to 0x27F of R79. -/
def sigsLacer : List (Nat × Sig) := [
  (0x240, sigB .scalar .scalar),
  (0x241, sigB .zero .scalar),
  (0x242, sigB .scalar .zero),
  (0x243, sigB .zero .scalar),
  (0x244, sigB .scalar .zero),
  (0x245, sigB .zero .scalar),
  (0x246, sigB .scalar .zero),
  (0x247, sigB .zero .zero),
  (0x248, sigB .scalar .scalar)]

/-- Opcodes 0x280 to 0x28F of R79. -/
def sigsBarrier : List (Nat × Sig) := [
  (0x280, sigB .scalar .zero),
  (0x281, sigB .scalar .zero),
  (0x282, sigB .zero .scalar),
  (0x283, sigB .scalar .zero),
  (0x284, sigB .zero .scalar),
  (0x285, sigB .scalar .zero),
  (0x288, sigA .scalar .scalar .zero),
  (0x289, sigA .scalar .scalar .zero),
  (0x28A, sigA .zero .scalar .scalar),
  (0x28B, sigA .scalar .scalar .zero),
  (0x28C, sigA .zero .scalar .scalar),
  (0x28D, sigA .scalar .scalar .zero)]

/-- Opcodes 0x290 to 0x37F of R79. -/
def sigsObject : List (Nat × Sig) := [
  (0x290, sigA .scalar .scalar .zero),
  (0x291, sigN.ends),
  (0x292, sigN.ends),
  (0x293, sigA .scalar .scalar .zero),
  (0x298, sigB .zero .scalar),
  (0x299, sigB .zero .scalar),
  (0x29A, sigB .zero .scalar),
  (0x29B, sigB .scalar .zero),
  (0x29C, sigB .zero .zero),
  (0x2A0, sigA .zero .zero .zero),
  (0x2A1, sigA .scalar .scalar .scalar),
  (0x2A2, sigA .scalar .scalar .scalar),
  (0x2A3, sigA .scalar .scalar .scalar),
  (0x2A4, sigA .zero .scalar .zero),
  (0x2B0, sigN.ends)]

/-- Opcodes 0x380 to 0x3FF of R79. -/
def sigsTile : List (Nat × Sig) := [
  (0x380, sigA .zero .handle .zero),
  (0x381, sigA .vector .handle .scalar),
  (0x382, sigA .vector .handle .scalar),
  (0x383, sigA .handle .vector .scalar),
  (0x384, sigA .vector .handle .scalar),
  (0x385, sigA .handle .scalar .zero),
  (0x386, (sigA .handle .scalar .scalar).priv),
  (0x387, sigA .scalar .handle .scalar),
  (0x388, sigA .scalar .handle .scalar),
  (0x3C0, sigM),
  (0x3C1, sigM),
  (0x3C2, sigM),
  (0x3C3, sigM),
  (0x3C4, sigM),
  (0x3C5, sigM),
  (0x3C6, sigM),
  (0x3C7, sigM),
  (0x3FF, sigX)]

/-- The opcode map: every assigned opcode with the form of its words (R79). -/
def opSigs : List (Nat × Sig) :=
  sigsScalar ++ sigsControl ++ sigsSystem ++ sigsMemory ++ sigsVecInt ++ sigsVecMove ++ sigsFloat ++
  sigsConv ++ sigsVecMem ++ sigsLacer ++ sigsBarrier ++ sigsObject ++ sigsTile

/-- The form of an opcode, none where it is unassigned (R79). -/
def sigOf (op : Nat) : Option Sig := opSigs.lookup op

end Sys2Proof.Machine
end

