-- ==== Sys2Proof/Syntax.lean ====
section
/-!
DEFINITION. Sys2Proof/Syntax.lean: the instructions. One inductive with one constructor for each row of the opcode
table: the 278 instruction words of the opcode map (R79), their fields as the encodings name them, and the 107 events
of the part that the table lists beside them (spec/95_what_each_step_holds.md), each with what distinguishes it.
-/

namespace Sys2Proof

/-- An instruction word, or an event of the part (R61, R79, spec/95). -/
inductive Instr where
  /-- PART_RESET (R403): the compute dies that calibrate and those that are absent as shipped (R402), the I/O dies that calibrate, whether
  link 16 trains, and the UCIe links that train at half width (R362). -/
  | partReset (imageOk : Bool) (cdOk : BitVec 4 × BitVec 4) (xdOk : BitVec 2) (linkOk : Bool × BitVec 9)
  /-- DIE_OUT_OF_SERVICE (R15). -/
  | dieOutOfService (die : Nat)
  /-- RCVCMD_COMMIT (R375). -/
  | rcvcmdCommit
  /-- RECOVERY_CHECK_DONE (R409): the verdict, and the compute and I/O dies that calibrate at the restart. -/
  | recoveryCheckDone (pass : Bool) (found : BitVec 4 × BitVec 2)
  /-- POWER_TICK (R404). -/
  | powerTick (watts : Nat)
  /-- PWRLIM_WRITE (R404). -/
  | pwrlimWrite (value : BitVec 64)
  /-- SCRUB (R405). -/
  | scrub
  /-- FRAME_RETIRE (R407): the address of the frame's leaf, its corrected errors within 24 hours, and whether an uncorrectable one is left
  after a rewrite. -/
  | frameRetire (frame : Nat × Nat × Bool)
  /-- MASTER_RELEASE (R408). -/
  | masterRelease (off : Nat) (value : BitVec 64)
  /-- ATTESTATION_REPORT (R410). -/
  | attestationReport (nonce : Nat)
  /-- REGISTER_WRITE (R6). -/
  | registerWrite (off : Nat) (value : BitVec 64)
  /-- COMMAND_WRITE_DROPPED (R411). -/
  | commandWriteDropped (off : Nat)
  /-- CTXTAB_WRITE (R88). -/
  | ctxtabWrite (value : BitVec 64)
  /-- QTAB_WRITE (R102). -/
  | qtabWrite (value : BitVec 64)
  /-- WINDOW_ACCESS (R32). -/
  | windowAccess (write : Bool) (pa : Nat) (size : Nat) (data : Nat)
  /-- CREATE (R92). -/
  | ctxCreate (ctx : Nat)
  /-- LOAD (R91). -/
  | ctxLoad (ctx : Nat)
  /-- RUN (R92). -/
  | ctxRun (ctx : Nat)
  /-- RESTORE_RELOAD (R100). -/
  | restoreReload (ctx : Nat)
  /-- DRAIN (R95). -/
  | ctxDrain (ctx : Nat)
  /-- PARK (R96). -/
  | ctxPark (ctx : Nat)
  /-- RESET (R97). -/
  | ctxReset (ctx : Nat)
  /-- DESTROY (R92). -/
  | ctxDestroy (ctx : Nat)
  /-- D1_EXPIRE (R92). -/
  | d1Expire (ctx : Nat)
  /-- D2_EXPIRE (R92). -/
  | d2Expire (ctx : Nat)
  /-- SAVE_COMPLETE (R96). -/
  | saveComplete (ctx : Nat)
  /-- RESET_COMPLETE (R97). -/
  | resetComplete (ctx : Nat)
  /-- GROUP_PARK_STOP (R96). -/
  | groupParkStop (agent : Nat)
  /-- OPEN (R112). -/
  | queueOpen (queue : Nat)
  /-- PAUSE (R112). -/
  | queuePause (queue : Nat)
  /-- RESUME (R112). -/
  | queueResume (queue : Nat)
  /-- QUEUE_DRAIN (R112). -/
  | queueDrain (queue : Nat)
  /-- CLOSE (R112). -/
  | queueClose (queue : Nat)
  /-- CLEAR (R112). -/
  | queueClear (queue : Nat)
  /-- TAIL_OBSERVATION (R108). -/
  | tailObservation (queue : Nat) (hostTail : BitVec 64)
  /-- QUEUE_ADMIT (R110). -/
  | queueAdmit (die : Nat)
  /-- QUEUE_PRIORITY_AGING (R110). -/
  | queuePriorityAging (queue : Nat)
  /-- GRAPH_COMPLETE (R120). -/
  | graphComplete (graph : Nat)
  /-- NODE_FIRE (R123). -/
  | nodeFire (die : Nat)
  /-- NODE_AGING (R123). -/
  | nodeAging (graph : Nat) (node : Nat)
  /-- NODE_WORK_DONE (R125). -/
  | nodeWorkDone (graph : Nat) (node : Nat)
  /-- CONE_VISIT (R130). -/
  | coneVisit (graph : Nat)
  /-- NODE_TIMEOUT (R412). -/
  | nodeTimeout (graph : Nat) (node : Nat)
  /-- NODE_ENGINE_DONE (R121). -/
  | nodeEngineDone (engine : Nat)
  /-- CLUSTER_OFFER (R139). -/
  | clusterOffer (die : Nat)
  /-- CLUSTER_RESERVE (R140). -/
  | clusterReserve (grid : Nat)
  /-- RECUT (R145). -/
  | recut (core : Nat)
  /-- BLOCK_LAUNCH_DONE (R146). -/
  | blockLaunchDone (block : Nat)
  /-- BLOCK_EXIT (R148). -/
  | blockExit (block : Nat)
  /-- ISSUE_ARBITRATION (R154). -/
  | issueArbitration (core : Nat) (quadrant : Nat)
  /-- ISSUE_PROMOTION (R154). -/
  | issuePromotion (agent : Nat)
  /-- DEPENDENCE_RESOLVED (R152). -/
  | dependenceResolved (agent : Nat)
  /-- PHASE_OVERRUN (R166). -/
  | phaseOverrun (agent : Nat)
  /-- ASYNC_TRAP_DELIVERY (R167). -/
  | asyncTrapDelivery (agent : Nat)
  /-- VRED_LAND (R202). -/
  | vredLand (agent : Nat)
  /-- ACC_COMPLETE (R289). -/
  | accComplete (core : Nat)
  /-- REQ (R365). -/
  | homeReq (index : Nat)
  /-- RSP (R365). -/
  | homeRsp (index : Nat)
  /-- INV (R369). -/
  | homeInv (index : Nat)
  /-- WATCH_FIRE (R247). -/
  | watchFire (index : Nat)
  /-- VWAIT_EXPIRE (R260). -/
  | vwaitExpire (agent : Nat)
  /-- HOST_WINDOW_POLL (R260). -/
  | hostWindowPoll (agent : Nat) (value : BitVec 64)
  /-- LACER_UNIT (R264). -/
  | lacerUnit (core : Nat) (lacer : Nat)
  /-- LACER_COMMAND_END (R271). -/
  | lacerCommandEnd (core : Nat) (lacer : Nat)
  /-- DMASUB (R268). -/
  | dmasub (value : BitVec 64)
  /-- DMA_DESCRIPTOR_START (R269). -/
  | dmaDescriptorStart (engine : Nat)
  /-- DMA_DESCRIPTOR_COMPLETE (R269). -/
  | dmaDescriptorComplete (engine : Nat)
  /-- BARRIER_BATCH (R306). -/
  | barrierBatch (bar : Nat)
  /-- MONITOR_COLLECT (R319). -/
  | monitorCollect (check : Nat) (slice : Nat)
  /-- MONITOR_CHECK_DONE (R319). -/
  | monitorCheckDone (check : Nat)
  /-- BARRIER_WATCHDOG (R309). -/
  | barrierWatchdog (bar : Nat)
  /-- CLUSTER_BARRIER_EXCHANGE (R303). -/
  | clusterBarrierExchange (bar : Nat)
  /-- STOP_MARKING (R335). -/
  | stopMarking (index : Nat)
  /-- REENTRY (R340). -/
  | reentry (agent : Nat)
  /-- LOG_APPLIED (R329). -/
  | logApplied (index : Nat)
  /-- PAGE_WALK_DONE (R352). -/
  | pageWalkDone (index : Nat)
  /-- TLB_INVALIDATE_PAGE (R354). -/
  | tlbInvalidatePage (ctx : Nat) (va : Nat)
  /-- TLB_INVALIDATE_CONTEXT (R354). -/
  | tlbInvalidateContext (ctx : Nat)
  /-- TLB_INVALIDATE_LEASE (R354). -/
  | tlbInvalidateLease (lease : Nat)
  /-- LEASE_REVOKE (R360). -/
  | leaseRevoke (lease : Nat)
  /-- LEASE_RETURN (R360). -/
  | leaseReturn (lease : Nat)
  /-- REVOCATION_MESSAGE (R360). -/
  | revocationMessage (lease : Nat)
  /-- LEASE_DEADLINE (R360). -/
  | leaseDeadline (lease : Nat)
  /-- LEASE_ACKNOWLEDGE (R360). -/
  | leaseAcknowledge (lease : Nat)
  /-- LEASE_ACK_TIMEOUT (R360). -/
  | leaseAckTimeout (lease : Nat)
  /-- LINK_ENABLE (R362). -/
  | linkEnable (link : Nat)
  /-- LINK_DISABLE (R362). -/
  | linkDisable (link : Nat)
  /-- RETRAIN (R362). -/
  | retrain (link : Nat)
  /-- LINK_TRAINED (R362). -/
  | linkTrained (link : Nat) (half : Bool) (fast : Bool) (hdm : Nat) (cxlCache : Bool)
  /-- LINK_TRAIN_FAILED (R362). -/
  | linkTrainFailed (link : Nat)
  /-- REPLAY_FAILURE (R362). -/
  | replayFailure (link : Nat)
  /-- HOST_ACCESS (R370, R372): `kind` 0 reads, 1 writes, 2 is FetchAdd, 3 Swap, 4 CAS, whose `data` are the
  compare value and, above it, the new one; `bar` 6 is configuration space. -/
  | hostAccess (xd : Nat) (fn : Nat) (bar : Nat) (off : Nat) (kind : Nat) (size : Nat) (data : Nat)
  /-- CXL_MEM_ACCESS (R374). -/
  | cxlMemAccess (xd : Nat) (off : Nat) (write : Bool) (data : Nat)
  /-- CXL_CACHE_SNOOP (R224). -/
  | cxlCacheSnoop (line : Nat)
  /-- FABRIC_REQUEST (R377). -/
  | fabricRequest (port : Nat) (peer : Nat) (kind : Nat) (op : Nat) (et : Nat) (addr : Nat) (size : Nat) (data : Nat) (cmp : Nat)
  /-- HALT (R395). -/
  | dbgHalt (ctx : Nat)
  /-- DBG_RESUME (R395). -/
  | dbgResume (ctx : Nat)
  /-- DUMP (R396). -/
  | dbgDump (ctx : Nat)
  /-- DUMP_DONE (R396). -/
  | dumpDone (ctx : Nat)
  /-- GROUP_BROADCAST_STOP (R394). -/
  | groupBroadcastStop (agent : Nat)
  /-- BROADCAST_COMPLETE (R394). -/
  | broadcastComplete (ctx : Nat)
  /-- SNAPSHOT_TICK (R400). -/
  | snapshotTick
  /-- SADD (R170). -/
  | sadd (e : Bool) (d : BitVec 7) (a : BitVec 7) (b : BitVec 7)
  /-- SSUB (R170). -/
  | ssub (e : Bool) (d : BitVec 7) (a : BitVec 7) (b : BitVec 7)
  /-- SMUL (R170). -/
  | smul (e : Bool) (d : BitVec 7) (a : BitVec 7) (b : BitVec 7)
  /-- SMULH (R170). -/
  | smulh (e : Bool) (d : BitVec 7) (a : BitVec 7) (b : BitVec 7)
  /-- SMULHU (R170). -/
  | smulhu (e : Bool) (d : BitVec 7) (a : BitVec 7) (b : BitVec 7)
  /-- SDIV (R171). -/
  | sdiv (e : Bool) (d : BitVec 7) (a : BitVec 7) (b : BitVec 7)
  /-- SDIVU (R171). -/
  | sdivu (e : Bool) (d : BitVec 7) (a : BitVec 7) (b : BitVec 7)
  /-- SREM (R171). -/
  | srem (e : Bool) (d : BitVec 7) (a : BitVec 7) (b : BitVec 7)
  /-- SREMU (R171). -/
  | sremu (e : Bool) (d : BitVec 7) (a : BitVec 7) (b : BitVec 7)
  /-- SAND (R170). -/
  | sand (e : Bool) (d : BitVec 7) (a : BitVec 7) (b : BitVec 7)
  /-- SOR (R170). -/
  | sor (e : Bool) (d : BitVec 7) (a : BitVec 7) (b : BitVec 7)
  /-- SXOR (R170). -/
  | sxor (e : Bool) (d : BitVec 7) (a : BitVec 7) (b : BitVec 7)
  /-- SSHL (R170). -/
  | sshl (e : Bool) (d : BitVec 7) (a : BitVec 7) (b : BitVec 7)
  /-- SSHR (R170). -/
  | sshr (e : Bool) (d : BitVec 7) (a : BitVec 7) (b : BitVec 7)
  /-- SSRA (R170). -/
  | ssra (e : Bool) (d : BitVec 7) (a : BitVec 7) (b : BitVec 7)
  /-- SMIN (R170). -/
  | smin (e : Bool) (d : BitVec 7) (a : BitVec 7) (b : BitVec 7)
  /-- SMAX (R170). -/
  | smax (e : Bool) (d : BitVec 7) (a : BitVec 7) (b : BitVec 7)
  /-- SMINU (R170). -/
  | sminu (e : Bool) (d : BitVec 7) (a : BitVec 7) (b : BitVec 7)
  /-- SMAXU (R170). -/
  | smaxu (e : Bool) (d : BitVec 7) (a : BitVec 7) (b : BitVec 7)
  /-- SSEQ (R170). -/
  | sseq (e : Bool) (d : BitVec 7) (a : BitVec 7) (b : BitVec 7)
  /-- SSLT (R170). -/
  | sslt (e : Bool) (d : BitVec 7) (a : BitVec 7) (b : BitVec 7)
  /-- SSLTU (R170). -/
  | ssltu (e : Bool) (d : BitVec 7) (a : BitVec 7) (b : BitVec 7)
  /-- SSEL (R170). -/
  | ssel (e : Bool) (d : BitVec 7) (a : BitVec 7) (b : BitVec 7)
  /-- SCLZ (R172). -/
  | sclz (e : Bool) (d : BitVec 7) (a : BitVec 7)
  /-- SPOPC (R172). -/
  | spopc (e : Bool) (d : BitVec 7) (a : BitVec 7)
  /-- SBREV (R172). -/
  | sbrev (e : Bool) (d : BitVec 7) (a : BitVec 7)
  /-- SEXT (R172). -/
  | sext (e : Bool) (d : BitVec 7) (a : BitVec 7) (i : BitVec 7)
  /-- SLEA (R170). -/
  | slea (e : Bool) (d : BitVec 7) (a : BitVec 7) (b : BitVec 7)
  /-- SADDI (R173). -/
  | saddi (e : Bool) (d : BitVec 7) (a : BitVec 7) (i : BitVec 7)
  /-- SANDI (R173). -/
  | sandi (e : Bool) (d : BitVec 7) (a : BitVec 7) (i : BitVec 7)
  /-- SORI (R173). -/
  | sori (e : Bool) (d : BitVec 7) (a : BitVec 7) (i : BitVec 7)
  /-- SXORI (R173). -/
  | sxori (e : Bool) (d : BitVec 7) (a : BitVec 7) (i : BitVec 7)
  /-- SSHLI (R173). -/
  | sshli (e : Bool) (d : BitVec 7) (a : BitVec 7) (i : BitVec 7)
  /-- SSHRI (R173). -/
  | sshri (e : Bool) (d : BitVec 7) (a : BitVec 7) (i : BitVec 7)
  /-- SSRAI (R173). -/
  | ssrai (e : Bool) (d : BitVec 7) (a : BitVec 7) (i : BitVec 7)
  /-- SLI (R173). -/
  | sli (e : Bool) (d : BitVec 7) (i : BitVec 14)
  /-- BR (R176). -/
  | br (i : BitVec 21)
  /-- BRZ (R176). -/
  | brz (a : BitVec 7) (o : BitVec 14)
  /-- BRNZ (R176). -/
  | brnz (a : BitVec 7) (o : BitVec 14)
  /-- BRANY (R176). -/
  | brany (a : BitVec 7) (o : BitVec 14)
  /-- BRALL (R176). -/
  | brall (a : BitVec 7) (o : BitVec 14)
  /-- CALL (R176). -/
  | call (i : BitVec 21)
  /-- RET (R176). -/
  | ret
  /-- JMP (R176). -/
  | jmp (a : BitVec 7) (o : BitVec 14)
  /-- VBR (R179). -/
  | vbr (a : BitVec 7) (o : BitVec 14)
  /-- VJOIN (R180). -/
  | vjoin
  /-- EXIT (R181). -/
  | exit
  /-- NOP (R177). -/
  | nop (e : Bool)
  /-- PHASE (R177). -/
  | phase (e : Bool) (i : BitVec 14)
  /-- SETMODE (R182). -/
  | setmode (e : Bool) (a : BitVec 7)
  /-- MODEI (R182). -/
  | modei (e : Bool) (d : BitVec 7) (i : BitVec 14)
  /-- GETMODE (R182). -/
  | getmode (e : Bool) (d : BitVec 7)
  /-- SRD (R183). -/
  | srd (e : Bool) (d : BitVec 7) (i : BitVec 14)
  /-- SWR (R183). -/
  | swr (e : Bool) (d : BitVec 7) (i : BitVec 14)
  /-- TRAP (R185). -/
  | trap (e : Bool) (i : BitVec 14)
  /-- TRET (R164). -/
  | tret
  /-- BKPT (R185). -/
  | bkpt (e : Bool) (i : BitVec 14)
  /-- HALT_INSN (R186). -/
  | haltInsn (e : Bool)
  /-- WPSET (R187). -/
  | wpset (e : Bool) (a : BitVec 7) (b : BitVec 7)
  /-- WPCLR (R187). -/
  | wpclr (e : Bool) (i : BitVec 7)
  /-- TRC (R188). -/
  | trc (e : Bool) (a : BitVec 7) (i : BitVec 7)
  /-- GGET (R189). -/
  | gget (e : Bool) (d : BitVec 7) (a : BitVec 7) (i : BitVec 7)
  /-- GPUT (R189). -/
  | gput (e : Bool) (d : BitVec 7) (a : BitVec 7) (i : BitVec 7)
  /-- MBOX (R393). -/
  | mbox (e : Bool) (d : BitVec 7) (a : BitVec 7) (b : BitVec 7)
  /-- PERFRD (R191). -/
  | perfrd (e : Bool) (d : BitVec 7) (i : BitVec 7)
  /-- ENRD (R191). -/
  | enrd (e : Bool) (d : BitVec 7) (a : BitVec 7)
  /-- SLD_B (R249). -/
  | sldB (e : Bool) (d : BitVec 7) (a : BitVec 7) (i : BitVec 7)
  /-- SLD_H (R249). -/
  | sldH (e : Bool) (d : BitVec 7) (a : BitVec 7) (i : BitVec 7)
  /-- SLD_W (R249). -/
  | sldW (e : Bool) (d : BitVec 7) (a : BitVec 7) (i : BitVec 7)
  /-- SLD_D (R249). -/
  | sldD (e : Bool) (d : BitVec 7) (a : BitVec 7) (i : BitVec 7)
  /-- SLDU_B (R249). -/
  | slduB (e : Bool) (d : BitVec 7) (a : BitVec 7) (i : BitVec 7)
  /-- SLDU_H (R249). -/
  | slduH (e : Bool) (d : BitVec 7) (a : BitVec 7) (i : BitVec 7)
  /-- SLDU_W (R249). -/
  | slduW (e : Bool) (d : BitVec 7) (a : BitVec 7) (i : BitVec 7)
  /-- SST_B (R249). -/
  | sstB (e : Bool) (d : BitVec 7) (a : BitVec 7) (i : BitVec 7)
  /-- SST_H (R249). -/
  | sstH (e : Bool) (d : BitVec 7) (a : BitVec 7) (i : BitVec 7)
  /-- SST_W (R249). -/
  | sstW (e : Bool) (d : BitVec 7) (a : BitVec 7) (i : BitVec 7)
  /-- SST_D (R249). -/
  | sstD (e : Bool) (d : BitVec 7) (a : BitVec 7) (i : BitVec 7)
  /-- SLD_D_ACQ (R249). -/
  | sldDAcq (e : Bool) (d : BitVec 7) (a : BitVec 7) (i : BitVec 7)
  /-- SST_D_REL (R249). -/
  | sstDRel (e : Bool) (d : BitVec 7) (a : BitVec 7) (i : BitVec 7)
  /-- SLD_W_ACQ (R249). -/
  | sldWAcq (e : Bool) (d : BitVec 7) (a : BitVec 7) (i : BitVec 7)
  /-- SST_W_REL (R249). -/
  | sstWRel (e : Bool) (d : BitVec 7) (a : BitVec 7) (i : BitVec 7)
  /-- FENCE (R259). -/
  | fence (e : Bool) (i : BitVec 14)
  /-- WAITV (R260). -/
  | waitv (e : Bool) (d : BitVec 7) (a : BitVec 7) (b : BitVec 7)
  /-- ATOM_ADD (R255). -/
  | atomAdd (e : Bool) (d : BitVec 7) (a : BitVec 7) (b : BitVec 7)
  /-- ATOM_AND (R255). -/
  | atomAnd (e : Bool) (d : BitVec 7) (a : BitVec 7) (b : BitVec 7)
  /-- ATOM_OR (R255). -/
  | atomOr (e : Bool) (d : BitVec 7) (a : BitVec 7) (b : BitVec 7)
  /-- ATOM_XOR (R255). -/
  | atomXor (e : Bool) (d : BitVec 7) (a : BitVec 7) (b : BitVec 7)
  /-- ATOM_MIN (R255). -/
  | atomMin (e : Bool) (d : BitVec 7) (a : BitVec 7) (b : BitVec 7)
  /-- ATOM_MAX (R255). -/
  | atomMax (e : Bool) (d : BitVec 7) (a : BitVec 7) (b : BitVec 7)
  /-- ATOM_MINU (R255). -/
  | atomMinu (e : Bool) (d : BitVec 7) (a : BitVec 7) (b : BitVec 7)
  /-- ATOM_MAXU (R255). -/
  | atomMaxu (e : Bool) (d : BitVec 7) (a : BitVec 7) (b : BitVec 7)
  /-- ATOM_EXCH (R255). -/
  | atomExch (e : Bool) (d : BitVec 7) (a : BitVec 7) (b : BitVec 7)
  /-- ATOM_CAS (R255). -/
  | atomCas (e : Bool) (d : BitVec 7) (a : BitVec 7) (b : BitVec 7)
  /-- ATOM_FADD (R255). -/
  | atomFadd (e : Bool) (d : BitVec 7) (a : BitVec 7) (b : BitVec 7)
  /-- PLD_W (R250). -/
  | pldW (e : Bool) (d : BitVec 7) (a : BitVec 7) (i : BitVec 7)
  /-- PLD_D (R250). -/
  | pldD (e : Bool) (d : BitVec 7) (a : BitVec 7) (i : BitVec 7)
  /-- PST_W (R250). -/
  | pstW (e : Bool) (d : BitVec 7) (a : BitVec 7) (i : BitVec 7)
  /-- PST_D (R250). -/
  | pstD (e : Bool) (d : BitVec 7) (a : BitVec 7) (i : BitVec 7)
  /-- VADD (R194). -/
  | vadd (e : Bool) (d : BitVec 7) (a : BitVec 7) (b : BitVec 7)
  /-- VSUB (R194). -/
  | vsub (e : Bool) (d : BitVec 7) (a : BitVec 7) (b : BitVec 7)
  /-- VMUL (R194). -/
  | vmul (e : Bool) (d : BitVec 7) (a : BitVec 7) (b : BitVec 7)
  /-- VMULH (R194). -/
  | vmulh (e : Bool) (d : BitVec 7) (a : BitVec 7) (b : BitVec 7)
  /-- VMULHU (R194). -/
  | vmulhu (e : Bool) (d : BitVec 7) (a : BitVec 7) (b : BitVec 7)
  /-- VMAD (R194). -/
  | vmad (e : Bool) (d : BitVec 7) (a : BitVec 7) (b : BitVec 7)
  /-- VMIN (R194). -/
  | vmin (e : Bool) (d : BitVec 7) (a : BitVec 7) (b : BitVec 7)
  /-- VMAX (R194). -/
  | vmax (e : Bool) (d : BitVec 7) (a : BitVec 7) (b : BitVec 7)
  /-- VMINU (R194). -/
  | vminu (e : Bool) (d : BitVec 7) (a : BitVec 7) (b : BitVec 7)
  /-- VMAXU (R194). -/
  | vmaxu (e : Bool) (d : BitVec 7) (a : BitVec 7) (b : BitVec 7)
  /-- VABS (R194). -/
  | vabs (e : Bool) (d : BitVec 7) (a : BitVec 7)
  /-- VNEG (R194). -/
  | vneg (e : Bool) (d : BitVec 7) (a : BitVec 7)
  /-- VAND (R194). -/
  | vand (e : Bool) (d : BitVec 7) (a : BitVec 7) (b : BitVec 7)
  /-- VOR (R194). -/
  | vor (e : Bool) (d : BitVec 7) (a : BitVec 7) (b : BitVec 7)
  /-- VXOR (R194). -/
  | vxor (e : Bool) (d : BitVec 7) (a : BitVec 7) (b : BitVec 7)
  /-- VNOT (R194). -/
  | vnot (e : Bool) (d : BitVec 7) (a : BitVec 7)
  /-- VSHL (R194). -/
  | vshl (e : Bool) (d : BitVec 7) (a : BitVec 7) (b : BitVec 7)
  /-- VSHR (R194). -/
  | vshr (e : Bool) (d : BitVec 7) (a : BitVec 7) (b : BitVec 7)
  /-- VSRA (R194). -/
  | vsra (e : Bool) (d : BitVec 7) (a : BitVec 7) (b : BitVec 7)
  /-- VCLZ (R194). -/
  | vclz (e : Bool) (d : BitVec 7) (a : BitVec 7)
  /-- VPOPC (R194). -/
  | vpopc (e : Bool) (d : BitVec 7) (a : BitVec 7)
  /-- VCMPEQ (R196). -/
  | vcmpeq (e : Bool) (d : BitVec 7) (a : BitVec 7) (b : BitVec 7)
  /-- VCMPLT (R196). -/
  | vcmplt (e : Bool) (d : BitVec 7) (a : BitVec 7) (b : BitVec 7)
  /-- VCMPLTU (R196). -/
  | vcmpltu (e : Bool) (d : BitVec 7) (a : BitVec 7) (b : BitVec 7)
  /-- VCMPLE (R196). -/
  | vcmple (e : Bool) (d : BitVec 7) (a : BitVec 7) (b : BitVec 7)
  /-- VSEL (R197). -/
  | vsel (e : Bool) (d : BitVec 7) (a : BitVec 7) (b : BitVec 7)
  /-- VADDI (R195). -/
  | vaddi (e : Bool) (d : BitVec 7) (a : BitVec 7) (i : BitVec 7)
  /-- VSHLI (R195). -/
  | vshli (e : Bool) (d : BitVec 7) (a : BitVec 7) (i : BitVec 7)
  /-- VSHRI (R195). -/
  | vshri (e : Bool) (d : BitVec 7) (a : BitVec 7) (i : BitVec 7)
  /-- VSRAI (R195). -/
  | vsrai (e : Bool) (d : BitVec 7) (a : BitVec 7) (i : BitVec 7)
  /-- VANDI (R195). -/
  | vandi (e : Bool) (d : BitVec 7) (a : BitVec 7) (i : BitVec 7)
  /-- VMOV (R198). -/
  | vmov (e : Bool) (d : BitVec 7) (a : BitVec 7)
  /-- VSPLAT (R198). -/
  | vsplat (e : Bool) (d : BitVec 7) (a : BitVec 7)
  /-- VINS (R198). -/
  | vins (e : Bool) (d : BitVec 7) (a : BitVec 7) (b : BitVec 7)
  /-- VPERM (R198). -/
  | vperm (e : Bool) (d : BitVec 7) (a : BitVec 7) (b : BitVec 7)
  /-- VSHFL (R198). -/
  | vshfl (e : Bool) (d : BitVec 7) (a : BitVec 7) (b : BitVec 7)
  /-- VBCAST (R198). -/
  | vbcast (e : Bool) (d : BitVec 7) (a : BitVec 7) (i : BitVec 7)
  /-- VROTL (R198). -/
  | vrotl (e : Bool) (d : BitVec 7) (a : BitVec 7) (i : BitVec 7)
  /-- VPACK (R199). -/
  | vpack (e : Bool) (d : BitVec 7) (a : BitVec 7) (b : BitVec 7)
  /-- VUNPK (R199). -/
  | vunpk (e : Bool) (d : BitVec 7) (a : BitVec 7)
  /-- VZIP (R200). -/
  | vzip (e : Bool) (d : BitVec 7) (a : BitVec 7) (b : BitVec 7)
  /-- VUNZIP (R200). -/
  | vunzip (e : Bool) (d : BitVec 7) (a : BitVec 7) (b : BitVec 7)
  /-- VIOTA (R198). -/
  | viota (e : Bool) (d : BitVec 7)
  /-- PAND (R201). -/
  | pand (e : Bool) (d : BitVec 7) (a : BitVec 7) (b : BitVec 7)
  /-- POR (R201). -/
  | por (e : Bool) (d : BitVec 7) (a : BitVec 7) (b : BitVec 7)
  /-- PXOR (R201). -/
  | pxor (e : Bool) (d : BitVec 7) (a : BitVec 7) (b : BitVec 7)
  /-- PNOT (R201). -/
  | pnot (e : Bool) (d : BitVec 7) (a : BitVec 7)
  /-- PMOV (R201). -/
  | pmov (e : Bool) (d : BitVec 7) (a : BitVec 7)
  /-- PGET (R201). -/
  | pget (e : Bool) (d : BitVec 7) (a : BitVec 7)
  /-- VRED_ADD (R202). -/
  | vredAdd (e : Bool) (d : BitVec 7) (a : BitVec 7)
  /-- VRED_MAX (R202). -/
  | vredMax (e : Bool) (d : BitVec 7) (a : BitVec 7)
  /-- VRED_MIN (R202). -/
  | vredMin (e : Bool) (d : BitVec 7) (a : BitVec 7)
  /-- VRED_AND (R202). -/
  | vredAnd (e : Bool) (d : BitVec 7) (a : BitVec 7)
  /-- VRED_OR (R202). -/
  | vredOr (e : Bool) (d : BitVec 7) (a : BitVec 7)
  /-- VREDL_ADD (R204). -/
  | vredlAdd (e : Bool) (d : BitVec 7) (a : BitVec 7)
  /-- VSCAN_ADD (R205). -/
  | vscanAdd (e : Bool) (d : BitVec 7) (a : BitVec 7)
  /-- YGET (R203). -/
  | yget (e : Bool) (d : BitVec 7) (a : BitVec 7) (i : BitVec 7)
  /-- YSEQ (R203). -/
  | yseq (e : Bool) (d : BitVec 7) (a : BitVec 7)
  /-- VSRD (R206). -/
  | vsrd (e : Bool) (d : BitVec 7) (i : BitVec 14)
  /-- FADD (R207). -/
  | fadd (e : Bool) (d : BitVec 7) (a : BitVec 7) (b : BitVec 7)
  /-- FSUB (R207). -/
  | fsub (e : Bool) (d : BitVec 7) (a : BitVec 7) (b : BitVec 7)
  /-- FMUL (R207). -/
  | fmul (e : Bool) (d : BitVec 7) (a : BitVec 7) (b : BitVec 7)
  /-- FFMA (R207). -/
  | ffma (e : Bool) (d : BitVec 7) (a : BitVec 7) (b : BitVec 7)
  /-- FFMS (R207). -/
  | ffms (e : Bool) (d : BitVec 7) (a : BitVec 7) (b : BitVec 7)
  /-- FNMA (R207). -/
  | fnma (e : Bool) (d : BitVec 7) (a : BitVec 7) (b : BitVec 7)
  /-- FMIN (R208). -/
  | fmin (e : Bool) (d : BitVec 7) (a : BitVec 7) (b : BitVec 7)
  /-- FMAX (R208). -/
  | fmax (e : Bool) (d : BitVec 7) (a : BitVec 7) (b : BitVec 7)
  /-- FABS (R209). -/
  | fabs (e : Bool) (d : BitVec 7) (a : BitVec 7)
  /-- FNEG (R209). -/
  | fneg (e : Bool) (d : BitVec 7) (a : BitVec 7)
  /-- FCPYS (R209). -/
  | fcpys (e : Bool) (d : BitVec 7) (a : BitVec 7) (b : BitVec 7)
  /-- FRCP (R207). -/
  | frcp (e : Bool) (d : BitVec 7) (a : BitVec 7)
  /-- FRSQ (R207). -/
  | frsq (e : Bool) (d : BitVec 7) (a : BitVec 7)
  /-- FSQRT (R207). -/
  | fsqrt (e : Bool) (d : BitVec 7) (a : BitVec 7)
  /-- FEXP2 (R207). -/
  | fexp2 (e : Bool) (d : BitVec 7) (a : BitVec 7)
  /-- FLOG2 (R207). -/
  | flog2 (e : Bool) (d : BitVec 7) (a : BitVec 7)
  /-- FTANH (R207). -/
  | ftanh (e : Bool) (d : BitVec 7) (a : BitVec 7)
  /-- FCMPEQ (R210). -/
  | fcmpeq (e : Bool) (d : BitVec 7) (a : BitVec 7) (b : BitVec 7)
  /-- FCMPLT (R210). -/
  | fcmplt (e : Bool) (d : BitVec 7) (a : BitVec 7) (b : BitVec 7)
  /-- FCMPLE (R210). -/
  | fcmple (e : Bool) (d : BitVec 7) (a : BitVec 7) (b : BitVec 7)
  /-- FCMPUN (R210). -/
  | fcmpun (e : Bool) (d : BitVec 7) (a : BitVec 7) (b : BitVec 7)
  /-- FCLASS (R211). -/
  | fclass (e : Bool) (d : BitVec 7) (a : BitVec 7)
  /-- FRND (R212). -/
  | frnd (e : Bool) (d : BitVec 7) (a : BitVec 7)
  /-- FSEL (R209). -/
  | fsel (e : Bool) (d : BitVec 7) (a : BitVec 7) (b : BitVec 7)
  /-- FCVT (R213). -/
  | fcvt (e : Bool) (d : BitVec 7) (a : BitVec 7)
  /-- FTOI (R213). -/
  | ftoi (e : Bool) (d : BitVec 7) (a : BitVec 7)
  /-- ITOF (R213). -/
  | itof (e : Bool) (d : BitVec 7) (a : BitVec 7)
  /-- MXQ (R214). -/
  | mxq (e : Bool) (d : BitVec 7) (a : BitVec 7) (b : BitVec 7)
  /-- MXDQ (R215). -/
  | mxdq (e : Bool) (d : BitVec 7) (a : BitVec 7)
  /-- KGET (R217). -/
  | kget (e : Bool) (d : BitVec 7) (a : BitVec 7)
  /-- KSET (R217). -/
  | kset (e : Bool) (d : BitVec 7) (a : BitVec 7)
  /-- KADD (R217). -/
  | kadd (e : Bool) (d : BitVec 7) (a : BitVec 7) (b : BitVec 7)
  /-- KMAX (R217). -/
  | kmax (e : Bool) (d : BitVec 7) (a : BitVec 7) (b : BitVec 7)
  /-- XCVT (R216). -/
  | xcvt (e : Bool) (d : BitVec 7) (a : BitVec 7)
  /-- VLD_W (R251). -/
  | vldW (e : Bool) (d : BitVec 7) (a : BitVec 7) (b : BitVec 7)
  /-- VLD_D (R251). -/
  | vldD (e : Bool) (d : BitVec 7) (a : BitVec 7) (b : BitVec 7)
  /-- VLD_Q (R251). -/
  | vldQ (e : Bool) (d : BitVec 7) (a : BitVec 7) (b : BitVec 7)
  /-- VLD_O (R251). -/
  | vldO (e : Bool) (d : BitVec 7) (a : BitVec 7) (b : BitVec 7)
  /-- VST_W (R251). -/
  | vstW (e : Bool) (d : BitVec 7) (a : BitVec 7) (b : BitVec 7)
  /-- VST_D (R251). -/
  | vstD (e : Bool) (d : BitVec 7) (a : BitVec 7) (b : BitVec 7)
  /-- VST_Q (R251). -/
  | vstQ (e : Bool) (d : BitVec 7) (a : BitVec 7) (b : BitVec 7)
  /-- VST_O (R251). -/
  | vstO (e : Bool) (d : BitVec 7) (a : BitVec 7) (b : BitVec 7)
  /-- VLDS_W (R251). -/
  | vldsW (e : Bool) (d : BitVec 7) (a : BitVec 7) (b : BitVec 7)
  /-- VLDS_D (R251). -/
  | vldsD (e : Bool) (d : BitVec 7) (a : BitVec 7) (b : BitVec 7)
  /-- VLDS_Q (R251). -/
  | vldsQ (e : Bool) (d : BitVec 7) (a : BitVec 7) (b : BitVec 7)
  /-- VLDS_O (R251). -/
  | vldsO (e : Bool) (d : BitVec 7) (a : BitVec 7) (b : BitVec 7)
  /-- VSTS_W (R251). -/
  | vstsW (e : Bool) (d : BitVec 7) (a : BitVec 7) (b : BitVec 7)
  /-- VSTS_D (R251). -/
  | vstsD (e : Bool) (d : BitVec 7) (a : BitVec 7) (b : BitVec 7)
  /-- VSTS_Q (R251). -/
  | vstsQ (e : Bool) (d : BitVec 7) (a : BitVec 7) (b : BitVec 7)
  /-- VSTS_O (R251). -/
  | vstsO (e : Bool) (d : BitVec 7) (a : BitVec 7) (b : BitVec 7)
  /-- VLD_O_ACQ (R251). -/
  | vldOAcq (e : Bool) (d : BitVec 7) (a : BitVec 7) (b : BitVec 7)
  /-- VST_O_REL (R251). -/
  | vstORel (e : Bool) (d : BitVec 7) (a : BitVec 7) (b : BitVec 7)
  /-- VLD_Q_ACQ (R251). -/
  | vldQAcq (e : Bool) (d : BitVec 7) (a : BitVec 7) (b : BitVec 7)
  /-- VST_Q_REL (R251). -/
  | vstQRel (e : Bool) (d : BitVec 7) (a : BitVec 7) (b : BitVec 7)
  /-- VLDMX (R253). -/
  | vldmx (e : Bool) (d : BitVec 7) (a : BitVec 7) (b : BitVec 7)
  /-- VSTMX (R253). -/
  | vstmx (e : Bool) (d : BitVec 7) (a : BitVec 7) (b : BitVec 7)
  /-- PLD_O (R252). -/
  | pldO (e : Bool) (d : BitVec 7) (a : BitVec 7)
  /-- PST_O (R252). -/
  | pstO (e : Bool) (d : BitVec 7) (a : BitVec 7)
  /-- PLDMX (R253). -/
  | pldmx (e : Bool) (d : BitVec 7) (a : BitVec 7) (b : BitVec 7)
  /-- PSTMX (R253). -/
  | pstmx (e : Bool) (d : BitVec 7) (a : BitVec 7) (b : BitVec 7)
  /-- VATOM_ADD (R256). -/
  | vatomAdd (e : Bool) (d : BitVec 7) (a : BitVec 7) (b : BitVec 7)
  /-- VATOM_MIN (R256). -/
  | vatomMin (e : Bool) (d : BitVec 7) (a : BitVec 7) (b : BitVec 7)
  /-- VATOM_MAX (R256). -/
  | vatomMax (e : Bool) (d : BitVec 7) (a : BitVec 7) (b : BitVec 7)
  /-- VATOM_EXCH (R256). -/
  | vatomExch (e : Bool) (d : BitVec 7) (a : BitVec 7) (b : BitVec 7)
  /-- VATOM_CAS (R256). -/
  | vatomCas (e : Bool) (d : BitVec 7) (a : BitVec 7) (b : BitVec 7)
  /-- VATOM_FADD (R256). -/
  | vatomFadd (e : Bool) (d : BitVec 7) (a : BitVec 7) (b : BitVec 7)
  /-- REDST_ADD (R258). -/
  | redstAdd (e : Bool) (d : BitVec 7) (a : BitVec 7) (b : BitVec 7)
  /-- REDST_MIN (R258). -/
  | redstMin (e : Bool) (d : BitVec 7) (a : BitVec 7) (b : BitVec 7)
  /-- REDST_MAX (R258). -/
  | redstMax (e : Bool) (d : BitVec 7) (a : BitVec 7) (b : BitVec 7)
  /-- REDST_FADD (R258). -/
  | redstFadd (e : Bool) (d : BitVec 7) (a : BitVec 7) (b : BitVec 7)
  /-- REDST_X (R258). -/
  | redstX (e : Bool) (d : BitVec 7) (a : BitVec 7) (b : BitVec 7)
  /-- VPREFETCH (R254). -/
  | vprefetch (e : Bool) (a : BitVec 7) (b : BitVec 7)
  /-- LACE (R271). -/
  | lace (e : Bool) (d : BitVec 7) (a : BitVec 7) (i : BitVec 2)
  /-- LACEW (R272). -/
  | lacew (e : Bool) (a : BitVec 7) (i : BitVec 2)
  /-- LACEQ (R272). -/
  | laceq (e : Bool) (d : BitVec 7) (i : BitVec 2)
  /-- LACEK (R273). -/
  | lacek (e : Bool) (a : BitVec 7) (i : BitVec 2)
  /-- RNGGET (R276). -/
  | rngget (e : Bool) (d : BitVec 7) (i : BitVec 4)
  /-- RNGPUT (R276). -/
  | rngput (e : Bool) (i : BitVec 4)
  /-- RNGPUT_INIT (R275). -/
  | rngputInit (e : Bool) (a : BitVec 7) (i : BitVec 4)
  /-- RNGACQ (R276). -/
  | rngacq (e : Bool) (d : BitVec 7) (i : BitVec 4)
  /-- RNGREL (R276). -/
  | rngrel (e : Bool) (i : BitVec 4)
  /-- TOWN (R274). -/
  | town (e : Bool) (d : BitVec 7) (a : BitVec 7) (i : BitVec 1)
  /-- BARA (R312). -/
  | bara (e : Bool) (d : BitVec 7) (i : BitVec 5)
  /-- BARAW (R312). -/
  | baraw (e : Bool) (d : BitVec 7) (i : BitVec 5)
  /-- BARW (R312). -/
  | barw (e : Bool) (a : BitVec 7) (i : BitVec 5)
  /-- BARD (R312). -/
  | bard (e : Bool) (d : BitVec 7) (i : BitVec 5)
  /-- BARX (R312). -/
  | barx (e : Bool) (a : BitVec 7) (i : BitVec 5)
  /-- BARQ (R312). -/
  | barq (e : Bool) (d : BitVec 7) (i : BitVec 5)
  /-- BARMA (R313). -/
  | barma (e : Bool) (d : BitVec 7) (a : BitVec 7)
  /-- BARMAW (R313). -/
  | barmaw (e : Bool) (d : BitVec 7) (a : BitVec 7)
  /-- BARMW (R313). -/
  | barmw (e : Bool) (a : BitVec 7) (b : BitVec 7)
  /-- BARMD (R313). -/
  | barmd (e : Bool) (d : BitVec 7) (a : BitVec 7)
  /-- BARMX (R313). -/
  | barmx (e : Bool) (a : BitVec 7) (b : BitVec 7)
  /-- BARMQ (R313). -/
  | barmq (e : Bool) (d : BitVec 7) (a : BitVec 7)
  /-- CAPB (R336). -/
  | capb (e : Bool) (d : BitVec 7) (a : BitVec 7)
  /-- CAPS (R337). -/
  | caps
  /-- CAPE (R338). -/
  | cape
  /-- CAPR (R341). -/
  | capr (e : Bool) (d : BitVec 7) (a : BitVec 7)
  /-- BMSET (R323). -/
  | bmset (e : Bool) (a : BitVec 7) (i : BitVec 4)
  /-- BMREF (R324). -/
  | bmref (e : Bool) (a : BitVec 7) (i : BitVec 4)
  /-- BMBIND (R324). -/
  | bmbind (e : Bool) (a : BitVec 7) (i : BitVec 4)
  /-- BMUNBIND (R324). -/
  | bmunbind (e : Bool) (a : BitVec 7) (i : BitVec 4)
  /-- BMRD (R325). -/
  | bmrd (e : Bool) (d : BitVec 7) (s : BitVec 2) (i : BitVec 4)
  /-- BMCLR (R323). -/
  | bmclr (e : Bool) (i : BitVec 4)
  /-- GTOK (R131). -/
  | gtok (e : Bool)
  /-- GLAUNCH (R132). -/
  | glaunch (e : Bool) (d : BitVec 7) (a : BitVec 7) (b : BitVec 7)
  /-- GSTAT (R133). -/
  | gstat (e : Bool) (d : BitVec 7) (a : BitVec 7) (b : BitVec 7)
  /-- GCANCEL (R134). -/
  | gcancel (e : Bool) (d : BitVec 7) (a : BitVec 7) (b : BitVec 7)
  /-- GFAIL (R135). -/
  | gfail (e : Bool) (a : BitVec 7)
  /-- YIELD (R156). -/
  | yield
  /-- AREL (R290). -/
  | arel (e : Bool) (a : BitVec 7)
  /-- RQNT (R293). -/
  | rqnt (e : Bool) (d : BitVec 7) (a : BitVec 7) (b : BitVec 7)
  /-- RQNTT (R293). -/
  | rqntt (e : Bool) (d : BitVec 7) (a : BitVec 7) (b : BitVec 7)
  /-- ALD (R292). -/
  | ald (e : Bool) (d : BitVec 7) (a : BitVec 7) (b : BitVec 7)
  /-- AST (R292). -/
  | ast (e : Bool) (d : BitVec 7) (a : BitVec 7) (b : BitVec 7)
  /-- AZERO (R291). -/
  | azero (e : Bool) (d : BitVec 7) (a : BitVec 7)
  /-- APATCH (R294). -/
  | apatch (e : Bool) (d : BitVec 7) (a : BitVec 7) (b : BitVec 7)
  /-- AGET (R294). -/
  | aget (e : Bool) (d : BitVec 7) (a : BitVec 7) (b : BitVec 7)
  /-- AHND (R295). -/
  | ahnd (e : Bool) (d : BitVec 7) (a : BitVec 7) (b : BitVec 7)
  /-- MMA (R288). -/
  | mma (e : Bool) (s : BitVec 3) (h : BitVec 4) (z : Bool) (n : Bool) (a : BitVec 7) (b : BitVec 7)
  /-- EXT (R67). -/
  | ext (p : BitVec 21)
  /-- UNASSIGNED_OPCODE (R79). -/
  | unassignedOpcode (word : BitVec 32)
  /-- RESERVED_FIELD_WORD (R61). -/
  | reservedFieldWord (word : BitVec 32)
  /-- LINK_LEVEL_REPLAY (R405). -/
  | linkLevelReplay (link : Nat)
  /-- HOST_OR_PEER_COMPLETION (R231). -/
  | hostOrPeerCompletion (id : Nat) (refused : Bool) (data : Nat)
  /-- ATTESTATION_KEY_CERTIFY (R410). -/
  | attestationKeyCertify
  deriving DecidableEq, Repr

end Sys2Proof
end

