-- ==== Sys2Proof/Decode.lean ====
section
/-!
DEFINITION. Sys2Proof/Decode.lean: the decoder, total on any bytes, and after it the encoder, both from the encodings of
the opcode map (03 R61, R79). A word that is no instruction has a name: an unassigned opcode (R79), or an assigned one
with a reserved field set or with the end-of-run bit that R66 and R68 forbid (R61).
-/

namespace Sys2Proof

/-- The end-of-run bit (R61). -/
def fieldE (w : Word) : Bool := w.getLsbD 31
/-- The opcode (R61). -/
def fieldOp (w : Word) : BitVec 10 := w.extractLsb' 21 10
/-- Bits [20:14] (R61). -/
def fieldD (w : Word) : Field := w.extractLsb' 14 7
/-- Bits [13:7] (R61). -/
def fieldA (w : Word) : Field := w.extractLsb' 7 7
/-- Bits [6:0] (R61). -/
def fieldB (w : Word) : Field := w.extractLsb' 0 7
/-- The 14-bit immediate or offset (R61). -/
def field14 (w : Word) : BitVec 14 := w.extractLsb' 0 14
/-- The 21-bit immediate or payload (R61). -/
def field21 (w : Word) : BitVec 21 := w.extractLsb' 0 21

/-! ### One reader per shape of word: none where a reserved field is set -/


/-- The shape of SADD, SSUB, SMUL and others (R61, R79). -/
def readEDAB (f : Bool → BitVec 7 → BitVec 7 → BitVec 7 → Instr) (w : Word) : Option Instr :=
  some (f (fieldE w) (fieldD w) (fieldA w) (fieldB w))

/-- The shape of SCLZ, SPOPC, SBREV and others (R61, R79). -/
def readEDA (f : Bool → BitVec 7 → BitVec 7 → Instr) (w : Word) : Option Instr :=
  if fieldB w = 0 then some (f (fieldE w) (fieldD w) (fieldA w)) else none

/-- The shape of SEXT, SADDI, SANDI and others (R61, R79). -/
def readEDAI7 (f : Bool → BitVec 7 → BitVec 7 → BitVec 7 → Instr) (w : Word) : Option Instr :=
  some (f (fieldE w) (fieldD w) (fieldA w) (fieldB w))

/-- The shape of SLI, MODEI, SRD and others (R61, R79). -/
def readEDI14 (f : Bool → BitVec 7 → BitVec 14 → Instr) (w : Word) : Option Instr :=
  some (f (fieldE w) (fieldD w) (field14 w))

/-- The shape of BR, CALL (R61, R79). -/
def readI21End (f : BitVec 21 → Instr) (w : Word) : Option Instr :=
  if fieldE w = true then some (f (field21 w)) else none

/-- The shape of BRZ, BRNZ, BRANY and others (R61, R79). -/
def readAO14End (f : BitVec 7 → BitVec 14 → Instr) (w : Word) : Option Instr :=
  if fieldE w = true then some (f (fieldD w) (field14 w)) else none

/-- The shape of RET, VJOIN, EXIT and others (R61, R79). -/
def readBareEnd (f : Instr) (w : Word) : Option Instr :=
  if fieldE w = true ∧ field21 w = 0 then some (f) else none

/-- The shape of NOP, HALT_INSN, GTOK (R61, R79). -/
def readE (f : Bool → Instr) (w : Word) : Option Instr :=
  if field21 w = 0 then some (f (fieldE w)) else none

/-- The shape of PHASE, TRAP, BKPT and others (R61, R79). -/
def readEI14 (f : Bool → BitVec 14 → Instr) (w : Word) : Option Instr :=
  if fieldD w = 0 then some (f (fieldE w) (field14 w)) else none

/-- The shape of SETMODE, GFAIL, AREL (R61, R79). -/
def readEA (f : Bool → BitVec 7 → Instr) (w : Word) : Option Instr :=
  if fieldB w = 0 ∧ fieldD w = 0 then some (f (fieldE w) (fieldA w)) else none

/-- The shape of GETMODE, VIOTA (R61, R79). -/
def readED (f : Bool → BitVec 7 → Instr) (w : Word) : Option Instr :=
  if field14 w = 0 then some (f (fieldE w) (fieldD w)) else none

/-- The shape of WPSET, VPREFETCH, BARMW and others (R61, R79). -/
def readEAB (f : Bool → BitVec 7 → BitVec 7 → Instr) (w : Word) : Option Instr :=
  if fieldD w = 0 then some (f (fieldE w) (fieldA w) (fieldB w)) else none

/-- The shape of WPCLR (R61, R79). -/
def readEI7 (f : Bool → BitVec 7 → Instr) (w : Word) : Option Instr :=
  if w.extractLsb' 7 14 = 0 then some (f (fieldE w) (fieldB w)) else none

/-- The shape of TRC (R61, R79). -/
def readEAI7 (f : Bool → BitVec 7 → BitVec 7 → Instr) (w : Word) : Option Instr :=
  if fieldD w = 0 then some (f (fieldE w) (fieldA w) (fieldB w)) else none

/-- The shape of PERFRD (R61, R79). -/
def readEDI7 (f : Bool → BitVec 7 → BitVec 7 → Instr) (w : Word) : Option Instr :=
  if fieldA w = 0 then some (f (fieldE w) (fieldD w) (fieldB w)) else none

/-- The shape of LACE (R61, R79). -/
def readEDAI2 (f : Bool → BitVec 7 → BitVec 7 → BitVec 2 → Instr) (w : Word) : Option Instr :=
  if w.extractLsb' 2 5 = 0 then some (f (fieldE w) (fieldD w) (fieldA w) (w.extractLsb' 0 2)) else none

/-- The shape of LACEW, LACEK (R61, R79). -/
def readEAI2 (f : Bool → BitVec 7 → BitVec 2 → Instr) (w : Word) : Option Instr :=
  if w.extractLsb' 2 5 = 0 ∧ fieldD w = 0 then some (f (fieldE w) (fieldA w) (w.extractLsb' 0 2)) else none

/-- The shape of LACEQ (R61, R79). -/
def readEDI2 (f : Bool → BitVec 7 → BitVec 2 → Instr) (w : Word) : Option Instr :=
  if w.extractLsb' 2 12 = 0 then some (f (fieldE w) (fieldD w) (w.extractLsb' 0 2)) else none

/-- The shape of RNGGET, RNGACQ (R61, R79). -/
def readEDI4 (f : Bool → BitVec 7 → BitVec 4 → Instr) (w : Word) : Option Instr :=
  if w.extractLsb' 4 10 = 0 then some (f (fieldE w) (fieldD w) (w.extractLsb' 0 4)) else none

/-- The shape of RNGPUT, RNGREL, BMCLR (R61, R79). -/
def readEI4 (f : Bool → BitVec 4 → Instr) (w : Word) : Option Instr :=
  if w.extractLsb' 4 17 = 0 then some (f (fieldE w) (w.extractLsb' 0 4)) else none

/-- The shape of RNGPUT_INIT, BMSET, BMREF and others (R61, R79). -/
def readEAI4 (f : Bool → BitVec 7 → BitVec 4 → Instr) (w : Word) : Option Instr :=
  if w.extractLsb' 4 3 = 0 ∧ fieldD w = 0 then some (f (fieldE w) (fieldA w) (w.extractLsb' 0 4)) else none

/-- The shape of TOWN (R61, R79). -/
def readEDAI1 (f : Bool → BitVec 7 → BitVec 7 → BitVec 1 → Instr) (w : Word) : Option Instr :=
  if w.extractLsb' 1 6 = 0 then some (f (fieldE w) (fieldD w) (fieldA w) (w.extractLsb' 0 1)) else none

/-- The shape of BARA, BARAW, BARD and others (R61, R79). -/
def readEDI5 (f : Bool → BitVec 7 → BitVec 5 → Instr) (w : Word) : Option Instr :=
  if w.extractLsb' 5 9 = 0 then some (f (fieldE w) (fieldD w) (w.extractLsb' 0 5)) else none

/-- The shape of BARW, BARX (R61, R79). -/
def readEAI5 (f : Bool → BitVec 7 → BitVec 5 → Instr) (w : Word) : Option Instr :=
  if w.extractLsb' 5 2 = 0 ∧ fieldD w = 0 then some (f (fieldE w) (fieldA w) (w.extractLsb' 0 5)) else none

/-- The shape of BMRD (R61, R79). -/
def readEDS2I4 (f : Bool → BitVec 7 → BitVec 2 → BitVec 4 → Instr) (w : Word) : Option Instr :=
  if w.extractLsb' 6 8 = 0 then some (f (fieldE w) (fieldD w) (w.extractLsb' 4 2) (w.extractLsb' 0 4)) else none

/-- The shape of MMA (R61, R79). -/
def readES3HZNAB (f : Bool → BitVec 3 → BitVec 4 → Bool → Bool → BitVec 7 → BitVec 7 → Instr) (w : Word) : Option Instr :=
  if w.extractLsb' 14 1 = 0 then some (f (fieldE w) (w.extractLsb' 21 3) (w.extractLsb' 17 4) (w.getLsbD 16) (w.getLsbD 15) (fieldA w) (fieldB w)) else none

/-- The shape of EXT (R61, R79). -/
def readP21 (f : BitVec 21 → Instr) (w : Word) : Option Instr :=
  if fieldE w = false then some (f (field21 w)) else none

/-- Two shapes of one opcode, told apart by imm7 [6] (R275, R324): the second reads the word with that bit cleared. -/
def readBit6 (plain set : Word → Option Instr) (w : Word) : Option Instr :=
  if w.getLsbD 6 then set (w &&& 0xFFFFFFBF#32) else plain w

/-- Opcodes 0x000 to 0x03F (R79). -/
noncomputable def readersScalar : List (Nat × (Word → Option Instr)) := [
  (0x001, readEDAB .sadd),
  (0x002, readEDAB .ssub),
  (0x003, readEDAB .smul),
  (0x004, readEDAB .smulh),
  (0x005, readEDAB .smulhu),
  (0x006, readEDAB .sdiv),
  (0x007, readEDAB .sdivu),
  (0x008, readEDAB .srem),
  (0x009, readEDAB .sremu),
  (0x00A, readEDAB .sand),
  (0x00B, readEDAB .sor),
  (0x00C, readEDAB .sxor),
  (0x00D, readEDAB .sshl),
  (0x00E, readEDAB .sshr),
  (0x00F, readEDAB .ssra),
  (0x010, readEDAB .smin),
  (0x011, readEDAB .smax),
  (0x012, readEDAB .sminu),
  (0x013, readEDAB .smaxu),
  (0x014, readEDAB .sseq),
  (0x015, readEDAB .sslt),
  (0x016, readEDAB .ssltu),
  (0x017, readEDAB .ssel),
  (0x018, readEDA .sclz),
  (0x019, readEDA .spopc),
  (0x01A, readEDA .sbrev),
  (0x01B, readEDAI7 .sext),
  (0x01C, readEDAB .slea),
  (0x020, readEDAI7 .saddi),
  (0x021, readEDAI7 .sandi),
  (0x022, readEDAI7 .sori),
  (0x023, readEDAI7 .sxori),
  (0x024, readEDAI7 .sshli),
  (0x025, readEDAI7 .sshri),
  (0x026, readEDAI7 .ssrai),
  (0x027, readEDI14 .sli)]

/-- Opcodes 0x040 to 0x05F (R79). -/
noncomputable def readersControl : List (Nat × (Word → Option Instr)) := [
  (0x040, readI21End .br),
  (0x041, readAO14End .brz),
  (0x042, readAO14End .brnz),
  (0x043, readAO14End .brany),
  (0x044, readAO14End .brall),
  (0x045, readI21End .call),
  (0x046, readBareEnd .ret),
  (0x047, readAO14End .jmp),
  (0x048, readAO14End .vbr),
  (0x049, readBareEnd .vjoin),
  (0x04A, readBareEnd .exit),
  (0x04B, readE .nop),
  (0x04C, readEI14 .phase),
  (0x050, readEA .setmode),
  (0x051, readEDI14 .modei),
  (0x052, readED .getmode),
  (0x053, readEDI14 .srd),
  (0x054, readEDI14 .swr)]

/-- Opcodes 0x060 to 0x07F (R79). -/
noncomputable def readersSystem : List (Nat × (Word → Option Instr)) := [
  (0x060, readEI14 .trap),
  (0x061, readBareEnd .tret),
  (0x062, readEI14 .bkpt),
  (0x063, readE .haltInsn),
  (0x064, readEAB .wpset),
  (0x065, readEI7 .wpclr),
  (0x066, readEAI7 .trc),
  (0x067, readEDAI7 .gget),
  (0x068, readEDAI7 .gput),
  (0x069, readEDAB .mbox),
  (0x06A, readEDI7 .perfrd),
  (0x06B, readEDA .enrd)]

/-- Opcodes 0x080 to 0x0FF (R79). -/
noncomputable def readersMemory : List (Nat × (Word → Option Instr)) := [
  (0x080, readEDAI7 .sldB),
  (0x081, readEDAI7 .sldH),
  (0x082, readEDAI7 .sldW),
  (0x083, readEDAI7 .sldD),
  (0x084, readEDAI7 .slduB),
  (0x085, readEDAI7 .slduH),
  (0x086, readEDAI7 .slduW),
  (0x088, readEDAI7 .sstB),
  (0x089, readEDAI7 .sstH),
  (0x08A, readEDAI7 .sstW),
  (0x08B, readEDAI7 .sstD),
  (0x08C, readEDAI7 .sldDAcq),
  (0x08D, readEDAI7 .sstDRel),
  (0x08E, readEDAI7 .sldWAcq),
  (0x08F, readEDAI7 .sstWRel),
  (0x090, readEI14 .fence),
  (0x091, readEDAB .waitv),
  (0x0A0, readEDAB .atomAdd),
  (0x0A1, readEDAB .atomAnd),
  (0x0A2, readEDAB .atomOr),
  (0x0A3, readEDAB .atomXor),
  (0x0A4, readEDAB .atomMin),
  (0x0A5, readEDAB .atomMax),
  (0x0A6, readEDAB .atomMinu),
  (0x0A7, readEDAB .atomMaxu),
  (0x0A8, readEDAB .atomExch),
  (0x0A9, readEDAB .atomCas),
  (0x0AA, readEDAB .atomFadd),
  (0x0B0, readEDAI7 .pldW),
  (0x0B1, readEDAI7 .pldD),
  (0x0B2, readEDAI7 .pstW),
  (0x0B3, readEDAI7 .pstD)]

/-- Opcodes 0x100 to 0x12F (R79). -/
noncomputable def readersVecInt : List (Nat × (Word → Option Instr)) := [
  (0x100, readEDAB .vadd),
  (0x101, readEDAB .vsub),
  (0x102, readEDAB .vmul),
  (0x103, readEDAB .vmulh),
  (0x104, readEDAB .vmulhu),
  (0x105, readEDAB .vmad),
  (0x106, readEDAB .vmin),
  (0x107, readEDAB .vmax),
  (0x108, readEDAB .vminu),
  (0x109, readEDAB .vmaxu),
  (0x10A, readEDA .vabs),
  (0x10B, readEDA .vneg),
  (0x10C, readEDAB .vand),
  (0x10D, readEDAB .vor),
  (0x10E, readEDAB .vxor),
  (0x10F, readEDA .vnot),
  (0x110, readEDAB .vshl),
  (0x111, readEDAB .vshr),
  (0x112, readEDAB .vsra),
  (0x113, readEDA .vclz),
  (0x114, readEDA .vpopc),
  (0x115, readEDAB .vcmpeq),
  (0x116, readEDAB .vcmplt),
  (0x117, readEDAB .vcmpltu),
  (0x118, readEDAB .vcmple),
  (0x119, readEDAB .vsel),
  (0x120, readEDAI7 .vaddi),
  (0x121, readEDAI7 .vshli),
  (0x122, readEDAI7 .vshri),
  (0x123, readEDAI7 .vsrai),
  (0x124, readEDAI7 .vandi)]

/-- Opcodes 0x130 to 0x17F (R79). -/
noncomputable def readersVecMove : List (Nat × (Word → Option Instr)) := [
  (0x130, readEDA .vmov),
  (0x131, readEDA .vsplat),
  (0x132, readEDAB .vins),
  (0x133, readEDAB .vperm),
  (0x134, readEDAB .vshfl),
  (0x135, readEDAI7 .vbcast),
  (0x136, readEDAI7 .vrotl),
  (0x137, readEDAB .vpack),
  (0x138, readEDA .vunpk),
  (0x139, readEDAB .vzip),
  (0x13A, readEDAB .vunzip),
  (0x13B, readED .viota),
  (0x140, readEDAB .pand),
  (0x141, readEDAB .por),
  (0x142, readEDAB .pxor),
  (0x143, readEDA .pnot),
  (0x144, readEDA .pmov),
  (0x145, readEDA .pget),
  (0x150, readEDA .vredAdd),
  (0x151, readEDA .vredMax),
  (0x152, readEDA .vredMin),
  (0x153, readEDA .vredAnd),
  (0x154, readEDA .vredOr),
  (0x155, readEDA .vredlAdd),
  (0x156, readEDA .vscanAdd),
  (0x157, readEDAI7 .yget),
  (0x158, readEDA .yseq),
  (0x160, readEDI14 .vsrd)]

/-- Opcodes 0x180 to 0x19F (R79). -/
noncomputable def readersFloat : List (Nat × (Word → Option Instr)) := [
  (0x180, readEDAB .fadd),
  (0x181, readEDAB .fsub),
  (0x182, readEDAB .fmul),
  (0x183, readEDAB .ffma),
  (0x184, readEDAB .ffms),
  (0x185, readEDAB .fnma),
  (0x186, readEDAB .fmin),
  (0x187, readEDAB .fmax),
  (0x188, readEDA .fabs),
  (0x189, readEDA .fneg),
  (0x18A, readEDAB .fcpys),
  (0x18B, readEDA .frcp),
  (0x18C, readEDA .frsq),
  (0x18D, readEDA .fsqrt),
  (0x18E, readEDA .fexp2),
  (0x18F, readEDA .flog2),
  (0x190, readEDA .ftanh),
  (0x191, readEDAB .fcmpeq),
  (0x192, readEDAB .fcmplt),
  (0x193, readEDAB .fcmple),
  (0x194, readEDAB .fcmpun),
  (0x195, readEDA .fclass),
  (0x196, readEDA .frnd),
  (0x197, readEDAB .fsel)]

/-- Opcodes 0x1A0 to 0x1FF (R79). -/
noncomputable def readersConv : List (Nat × (Word → Option Instr)) := [
  (0x1A0, readEDA .fcvt),
  (0x1A1, readEDA .ftoi),
  (0x1A2, readEDA .itof),
  (0x1A3, readEDAB .mxq),
  (0x1A4, readEDA .mxdq),
  (0x1A5, readEDA .kget),
  (0x1A6, readEDA .kset),
  (0x1A7, readEDAB .kadd),
  (0x1A8, readEDAB .kmax),
  (0x1A9, readEDA .xcvt)]

/-- Opcodes 0x200 to 0x23F (R79). -/
noncomputable def readersVecMem : List (Nat × (Word → Option Instr)) := [
  (0x200, readEDAB .vldW),
  (0x201, readEDAB .vldD),
  (0x202, readEDAB .vldQ),
  (0x203, readEDAB .vldO),
  (0x204, readEDAB .vstW),
  (0x205, readEDAB .vstD),
  (0x206, readEDAB .vstQ),
  (0x207, readEDAB .vstO),
  (0x208, readEDAB .vldsW),
  (0x209, readEDAB .vldsD),
  (0x20A, readEDAB .vldsQ),
  (0x20B, readEDAB .vldsO),
  (0x20C, readEDAB .vstsW),
  (0x20D, readEDAB .vstsD),
  (0x20E, readEDAB .vstsQ),
  (0x20F, readEDAB .vstsO),
  (0x210, readEDAB .vldOAcq),
  (0x211, readEDAB .vstORel),
  (0x212, readEDAB .vldQAcq),
  (0x213, readEDAB .vstQRel),
  (0x214, readEDAB .vldmx),
  (0x215, readEDAB .vstmx),
  (0x218, readEDA .pldO),
  (0x219, readEDA .pstO),
  (0x21A, readEDAB .pldmx),
  (0x21B, readEDAB .pstmx),
  (0x220, readEDAB .vatomAdd),
  (0x221, readEDAB .vatomMin),
  (0x222, readEDAB .vatomMax),
  (0x223, readEDAB .vatomExch),
  (0x224, readEDAB .vatomCas),
  (0x225, readEDAB .vatomFadd),
  (0x228, readEDAB .redstAdd),
  (0x229, readEDAB .redstMin),
  (0x22A, readEDAB .redstMax),
  (0x22B, readEDAB .redstFadd),
  (0x22C, readEDAB .redstX),
  (0x230, readEAB .vprefetch)]

/-- Opcodes 0x240 to 0x27F (R79). -/
noncomputable def readersLacer : List (Nat × (Word → Option Instr)) := [
  (0x240, readEDAI2 .lace),
  (0x241, readEAI2 .lacew),
  (0x242, readEDI2 .laceq),
  (0x243, readEAI2 .lacek),
  (0x244, readEDI4 .rngget),
  (0x245, readBit6 (readEI4 .rngput) (readEAI4 .rngputInit)),
  (0x246, readEDI4 .rngacq),
  (0x247, readEI4 .rngrel),
  (0x248, readEDAI1 .town)]

/-- Opcodes 0x280 to 0x28F (R79). -/
noncomputable def readersBarrier : List (Nat × (Word → Option Instr)) := [
  (0x280, readEDI5 .bara),
  (0x281, readEDI5 .baraw),
  (0x282, readEAI5 .barw),
  (0x283, readEDI5 .bard),
  (0x284, readEAI5 .barx),
  (0x285, readEDI5 .barq),
  (0x288, readEDA .barma),
  (0x289, readEDA .barmaw),
  (0x28A, readEAB .barmw),
  (0x28B, readEDA .barmd),
  (0x28C, readEAB .barmx),
  (0x28D, readEDA .barmq)]

/-- Opcodes 0x290 to 0x37F (R79). -/
noncomputable def readersObject : List (Nat × (Word → Option Instr)) := [
  (0x290, readEDA .capb),
  (0x291, readBareEnd .caps),
  (0x292, readBareEnd .cape),
  (0x293, readEDA .capr),
  (0x298, readEAI4 .bmset),
  (0x299, readEAI4 .bmref),
  (0x29A, readBit6 (readEAI4 .bmbind) (readEAI4 .bmunbind)),
  (0x29B, readEDS2I4 .bmrd),
  (0x29C, readEI4 .bmclr),
  (0x2A0, readE .gtok),
  (0x2A1, readEDAB .glaunch),
  (0x2A2, readEDAB .gstat),
  (0x2A3, readEDAB .gcancel),
  (0x2A4, readEA .gfail),
  (0x2B0, readBareEnd .yield)]

/-- Opcodes 0x380 to 0x3FF (R79). -/
noncomputable def readersTile : List (Nat × (Word → Option Instr)) := [
  (0x380, readEA .arel),
  (0x381, readEDAB .rqnt),
  (0x382, readEDAB .rqntt),
  (0x383, readEDAB .ald),
  (0x384, readEDAB .ast),
  (0x385, readEDA .azero),
  (0x386, readEDAB .apatch),
  (0x387, readEDAB .aget),
  (0x388, readEDAB .ahnd),
  (0x3C0, readES3HZNAB .mma),
  (0x3C1, readES3HZNAB .mma),
  (0x3C2, readES3HZNAB .mma),
  (0x3C3, readES3HZNAB .mma),
  (0x3C4, readES3HZNAB .mma),
  (0x3C5, readES3HZNAB .mma),
  (0x3C6, readES3HZNAB .mma),
  (0x3C7, readES3HZNAB .mma),
  (0x3FF, readP21 .ext)]

/-- The reader of each assigned opcode (R79). -/
noncomputable def readers : List (Nat × (Word → Option Instr)) :=
  readersScalar ++ readersControl ++ readersSystem ++ readersMemory ++ readersVecInt ++ readersVecMove ++ readersFloat ++
  readersConv ++ readersVecMem ++ readersLacer ++ readersBarrier ++ readersObject ++ readersTile

/-- The instruction that a word is (R61, R78 step 1): an unassigned opcode and an assigned one with a malformed word are
rejected by name. -/
noncomputable def decodeWord (w : Word) : Instr :=
  match readers.lookup (fieldOp w).toNat with
  | none => .unassignedOpcode w
  | some read => (read w).getD (.reservedFieldWord w)

/-- The word whose four bytes are given, the first at the lowest address (R4, R61). -/
def wordOfBytes (b0 b1 b2 b3 : Byte) : Word := b3 ++ b2 ++ b1 ++ b0

/-- The instruction at the head of a list of bytes, and the bytes after it; none only where fewer than four bytes are
left (R61). -/
noncomputable def decodeBytes : List Byte → Option (Instr × List Byte)
  | b0 :: b1 :: b2 :: b3 :: rest => some (decodeWord (wordOfBytes b0 b1 b2 b3), rest)
  | _ => none

/-- The four bytes of a word as the part stores them (R4). -/
def bytesOfWord (w : Word) : List Byte :=
  [w.extractLsb' 0 8, w.extractLsb' 8 8, w.extractLsb' 16 8, w.extractLsb' 24 8]

/-- The instruction of a row of the opcode table, from its bits numbered as the table numbers them. -/
noncomputable def decodeTableWord (nbits w : Nat) : Option Instr :=
  (decodeBytes (bytesOfWord (BitVec.ofNat 32 (w % 2 ^ nbits)))).map Prod.fst

/-! ### The encoder -/

/-- A word with its fields [20:14], [13:7], [6:0] (R61). -/
def word777 (e : Bool) (op : BitVec 10) (d a b : Field) : Word := BitVec.ofBool e ++ op ++ d ++ a ++ b
/-- A word with its fields [20:14] and [13:0] (R61). -/
def wordC (e : Bool) (op : BitVec 10) (d : Field) (i : BitVec 14) : Word := BitVec.ofBool e ++ op ++ d ++ i
/-- A word with one 21-bit field (R61). -/
def wordL (e : Bool) (op : BitVec 10) (i : BitVec 21) : Word := BitVec.ofBool e ++ op ++ i

/-- The word of an instruction (R61, R79); an event has none. -/
def encode : Instr → Option Word
  | .partReset _ _ _ _ => none
  | .dieOutOfService _ => none
  | .rcvcmdCommit => none
  | .recoveryCheckDone _ _ => none
  | .powerTick _ => none
  | .pwrlimWrite _ => none
  | .scrub => none
  | .frameRetire _ => none
  | .masterRelease _ _ => none
  | .attestationReport _ => none
  | .registerWrite _ _ => none
  | .commandWriteDropped _ => none
  | .ctxtabWrite _ => none
  | .qtabWrite _ => none
  | .windowAccess _ _ _ _ => none
  | .ctxCreate _ => none
  | .ctxLoad _ => none
  | .ctxRun _ => none
  | .restoreReload _ => none
  | .ctxDrain _ => none
  | .ctxPark _ => none
  | .ctxReset _ => none
  | .ctxDestroy _ => none
  | .d1Expire _ => none
  | .d2Expire _ => none
  | .saveComplete _ => none
  | .resetComplete _ => none
  | .groupParkStop _ => none
  | .queueOpen _ => none
  | .queuePause _ => none
  | .queueResume _ => none
  | .queueDrain _ => none
  | .queueClose _ => none
  | .queueClear _ => none
  | .tailObservation _ _ => none
  | .queueAdmit _ => none
  | .queuePriorityAging _ => none
  | .graphComplete _ => none
  | .nodeFire _ => none
  | .nodeAging _ _ => none
  | .nodeWorkDone _ _ => none
  | .coneVisit _ => none
  | .nodeTimeout _ _ => none
  | .nodeEngineDone _ => none
  | .clusterOffer _ => none
  | .clusterReserve _ => none
  | .recut _ => none
  | .blockLaunchDone _ => none
  | .blockExit _ => none
  | .issueArbitration _ _ => none
  | .issuePromotion _ => none
  | .dependenceResolved _ => none
  | .phaseOverrun _ => none
  | .asyncTrapDelivery _ => none
  | .vredLand _ => none
  | .accComplete _ => none
  | .homeReq _ => none
  | .homeRsp _ => none
  | .homeInv _ => none
  | .watchFire _ => none
  | .vwaitExpire _ => none
  | .lacerUnit _ _ => none
  | .lacerCommandEnd _ _ => none
  | .dmasub _ => none
  | .dmaDescriptorStart _ => none
  | .dmaDescriptorComplete _ => none
  | .barrierBatch _ => none
  | .monitorCollect _ _ => none
  | .monitorCheckDone _ => none
  | .barrierWatchdog _ => none
  | .clusterBarrierExchange _ => none
  | .stopMarking _ => none
  | .reentry _ => none
  | .logApplied _ => none
  | .pageWalkDone _ => none
  | .tlbInvalidatePage _ _ => none
  | .tlbInvalidateContext _ => none
  | .tlbInvalidateLease _ => none
  | .leaseRevoke _ => none
  | .leaseReturn _ => none
  | .revocationMessage _ => none
  | .leaseDeadline _ => none
  | .leaseAcknowledge _ => none
  | .leaseAckTimeout _ => none
  | .linkEnable _ => none
  | .linkDisable _ => none
  | .retrain _ => none
  | .linkTrained _ _ _ _ _ => none
  | .linkTrainFailed _ => none
  | .replayFailure _ => none
  | .hostAccess _ _ _ _ _ _ _ => none
  | .cxlMemAccess _ _ _ _ => none
  | .cxlCacheSnoop _ => none
  | .fabricRequest _ _ _ _ _ _ _ _ _ => none
  | .dbgHalt _ => none
  | .dbgResume _ => none
  | .dbgDump _ => none
  | .dumpDone _ => none
  | .groupBroadcastStop _ => none
  | .broadcastComplete _ => none
  | .snapshotTick => none
  | .sadd e d a b => some (word777 e 0x001 d a b)
  | .ssub e d a b => some (word777 e 0x002 d a b)
  | .smul e d a b => some (word777 e 0x003 d a b)
  | .smulh e d a b => some (word777 e 0x004 d a b)
  | .smulhu e d a b => some (word777 e 0x005 d a b)
  | .sdiv e d a b => some (word777 e 0x006 d a b)
  | .sdivu e d a b => some (word777 e 0x007 d a b)
  | .srem e d a b => some (word777 e 0x008 d a b)
  | .sremu e d a b => some (word777 e 0x009 d a b)
  | .sand e d a b => some (word777 e 0x00A d a b)
  | .sor e d a b => some (word777 e 0x00B d a b)
  | .sxor e d a b => some (word777 e 0x00C d a b)
  | .sshl e d a b => some (word777 e 0x00D d a b)
  | .sshr e d a b => some (word777 e 0x00E d a b)
  | .ssra e d a b => some (word777 e 0x00F d a b)
  | .smin e d a b => some (word777 e 0x010 d a b)
  | .smax e d a b => some (word777 e 0x011 d a b)
  | .sminu e d a b => some (word777 e 0x012 d a b)
  | .smaxu e d a b => some (word777 e 0x013 d a b)
  | .sseq e d a b => some (word777 e 0x014 d a b)
  | .sslt e d a b => some (word777 e 0x015 d a b)
  | .ssltu e d a b => some (word777 e 0x016 d a b)
  | .ssel e d a b => some (word777 e 0x017 d a b)
  | .sclz e d a => some (word777 e 0x018 d a 0)
  | .spopc e d a => some (word777 e 0x019 d a 0)
  | .sbrev e d a => some (word777 e 0x01A d a 0)
  | .sext e d a i => some (word777 e 0x01B d a i)
  | .slea e d a b => some (word777 e 0x01C d a b)
  | .saddi e d a i => some (word777 e 0x020 d a i)
  | .sandi e d a i => some (word777 e 0x021 d a i)
  | .sori e d a i => some (word777 e 0x022 d a i)
  | .sxori e d a i => some (word777 e 0x023 d a i)
  | .sshli e d a i => some (word777 e 0x024 d a i)
  | .sshri e d a i => some (word777 e 0x025 d a i)
  | .ssrai e d a i => some (word777 e 0x026 d a i)
  | .sli e d i => some (wordC e 0x027 d i)
  | .br i => some (wordL true 0x040 i)
  | .brz a o => some (wordC true 0x041 a o)
  | .brnz a o => some (wordC true 0x042 a o)
  | .brany a o => some (wordC true 0x043 a o)
  | .brall a o => some (wordC true 0x044 a o)
  | .call i => some (wordL true 0x045 i)
  | .ret => some (word777 true 0x046 0 0 0)
  | .jmp a o => some (wordC true 0x047 a o)
  | .vbr a o => some (wordC true 0x048 a o)
  | .vjoin => some (word777 true 0x049 0 0 0)
  | .exit => some (word777 true 0x04A 0 0 0)
  | .nop e => some (word777 e 0x04B 0 0 0)
  | .phase e i => some (wordC e 0x04C 0 i)
  | .setmode e a => some (word777 e 0x050 0 a 0)
  | .modei e d i => some (wordC e 0x051 d i)
  | .getmode e d => some (word777 e 0x052 d 0 0)
  | .srd e d i => some (wordC e 0x053 d i)
  | .swr e d i => some (wordC e 0x054 d i)
  | .trap e i => some (wordC e 0x060 0 i)
  | .tret => some (word777 true 0x061 0 0 0)
  | .bkpt e i => some (wordC e 0x062 0 i)
  | .haltInsn e => some (word777 e 0x063 0 0 0)
  | .wpset e a b => some (word777 e 0x064 0 a b)
  | .wpclr e i => some (word777 e 0x065 0 0 i)
  | .trc e a i => some (word777 e 0x066 0 a i)
  | .gget e d a i => some (word777 e 0x067 d a i)
  | .gput e d a i => some (word777 e 0x068 d a i)
  | .mbox e d a b => some (word777 e 0x069 d a b)
  | .perfrd e d i => some (word777 e 0x06A d 0 i)
  | .enrd e d a => some (word777 e 0x06B d a 0)
  | .sldB e d a i => some (word777 e 0x080 d a i)
  | .sldH e d a i => some (word777 e 0x081 d a i)
  | .sldW e d a i => some (word777 e 0x082 d a i)
  | .sldD e d a i => some (word777 e 0x083 d a i)
  | .slduB e d a i => some (word777 e 0x084 d a i)
  | .slduH e d a i => some (word777 e 0x085 d a i)
  | .slduW e d a i => some (word777 e 0x086 d a i)
  | .sstB e d a i => some (word777 e 0x088 d a i)
  | .sstH e d a i => some (word777 e 0x089 d a i)
  | .sstW e d a i => some (word777 e 0x08A d a i)
  | .sstD e d a i => some (word777 e 0x08B d a i)
  | .sldDAcq e d a i => some (word777 e 0x08C d a i)
  | .sstDRel e d a i => some (word777 e 0x08D d a i)
  | .sldWAcq e d a i => some (word777 e 0x08E d a i)
  | .sstWRel e d a i => some (word777 e 0x08F d a i)
  | .fence e i => some (wordC e 0x090 0 i)
  | .waitv e d a b => some (word777 e 0x091 d a b)
  | .atomAdd e d a b => some (word777 e 0x0A0 d a b)
  | .atomAnd e d a b => some (word777 e 0x0A1 d a b)
  | .atomOr e d a b => some (word777 e 0x0A2 d a b)
  | .atomXor e d a b => some (word777 e 0x0A3 d a b)
  | .atomMin e d a b => some (word777 e 0x0A4 d a b)
  | .atomMax e d a b => some (word777 e 0x0A5 d a b)
  | .atomMinu e d a b => some (word777 e 0x0A6 d a b)
  | .atomMaxu e d a b => some (word777 e 0x0A7 d a b)
  | .atomExch e d a b => some (word777 e 0x0A8 d a b)
  | .atomCas e d a b => some (word777 e 0x0A9 d a b)
  | .atomFadd e d a b => some (word777 e 0x0AA d a b)
  | .pldW e d a i => some (word777 e 0x0B0 d a i)
  | .pldD e d a i => some (word777 e 0x0B1 d a i)
  | .pstW e d a i => some (word777 e 0x0B2 d a i)
  | .pstD e d a i => some (word777 e 0x0B3 d a i)
  | .vadd e d a b => some (word777 e 0x100 d a b)
  | .vsub e d a b => some (word777 e 0x101 d a b)
  | .vmul e d a b => some (word777 e 0x102 d a b)
  | .vmulh e d a b => some (word777 e 0x103 d a b)
  | .vmulhu e d a b => some (word777 e 0x104 d a b)
  | .vmad e d a b => some (word777 e 0x105 d a b)
  | .vmin e d a b => some (word777 e 0x106 d a b)
  | .vmax e d a b => some (word777 e 0x107 d a b)
  | .vminu e d a b => some (word777 e 0x108 d a b)
  | .vmaxu e d a b => some (word777 e 0x109 d a b)
  | .vabs e d a => some (word777 e 0x10A d a 0)
  | .vneg e d a => some (word777 e 0x10B d a 0)
  | .vand e d a b => some (word777 e 0x10C d a b)
  | .vor e d a b => some (word777 e 0x10D d a b)
  | .vxor e d a b => some (word777 e 0x10E d a b)
  | .vnot e d a => some (word777 e 0x10F d a 0)
  | .vshl e d a b => some (word777 e 0x110 d a b)
  | .vshr e d a b => some (word777 e 0x111 d a b)
  | .vsra e d a b => some (word777 e 0x112 d a b)
  | .vclz e d a => some (word777 e 0x113 d a 0)
  | .vpopc e d a => some (word777 e 0x114 d a 0)
  | .vcmpeq e d a b => some (word777 e 0x115 d a b)
  | .vcmplt e d a b => some (word777 e 0x116 d a b)
  | .vcmpltu e d a b => some (word777 e 0x117 d a b)
  | .vcmple e d a b => some (word777 e 0x118 d a b)
  | .vsel e d a b => some (word777 e 0x119 d a b)
  | .vaddi e d a i => some (word777 e 0x120 d a i)
  | .vshli e d a i => some (word777 e 0x121 d a i)
  | .vshri e d a i => some (word777 e 0x122 d a i)
  | .vsrai e d a i => some (word777 e 0x123 d a i)
  | .vandi e d a i => some (word777 e 0x124 d a i)
  | .vmov e d a => some (word777 e 0x130 d a 0)
  | .vsplat e d a => some (word777 e 0x131 d a 0)
  | .vins e d a b => some (word777 e 0x132 d a b)
  | .vperm e d a b => some (word777 e 0x133 d a b)
  | .vshfl e d a b => some (word777 e 0x134 d a b)
  | .vbcast e d a i => some (word777 e 0x135 d a i)
  | .vrotl e d a i => some (word777 e 0x136 d a i)
  | .vpack e d a b => some (word777 e 0x137 d a b)
  | .vunpk e d a => some (word777 e 0x138 d a 0)
  | .vzip e d a b => some (word777 e 0x139 d a b)
  | .vunzip e d a b => some (word777 e 0x13A d a b)
  | .viota e d => some (word777 e 0x13B d 0 0)
  | .pand e d a b => some (word777 e 0x140 d a b)
  | .por e d a b => some (word777 e 0x141 d a b)
  | .pxor e d a b => some (word777 e 0x142 d a b)
  | .pnot e d a => some (word777 e 0x143 d a 0)
  | .pmov e d a => some (word777 e 0x144 d a 0)
  | .pget e d a => some (word777 e 0x145 d a 0)
  | .vredAdd e d a => some (word777 e 0x150 d a 0)
  | .vredMax e d a => some (word777 e 0x151 d a 0)
  | .vredMin e d a => some (word777 e 0x152 d a 0)
  | .vredAnd e d a => some (word777 e 0x153 d a 0)
  | .vredOr e d a => some (word777 e 0x154 d a 0)
  | .vredlAdd e d a => some (word777 e 0x155 d a 0)
  | .vscanAdd e d a => some (word777 e 0x156 d a 0)
  | .yget e d a i => some (word777 e 0x157 d a i)
  | .yseq e d a => some (word777 e 0x158 d a 0)
  | .vsrd e d i => some (wordC e 0x160 d i)
  | .fadd e d a b => some (word777 e 0x180 d a b)
  | .fsub e d a b => some (word777 e 0x181 d a b)
  | .fmul e d a b => some (word777 e 0x182 d a b)
  | .ffma e d a b => some (word777 e 0x183 d a b)
  | .ffms e d a b => some (word777 e 0x184 d a b)
  | .fnma e d a b => some (word777 e 0x185 d a b)
  | .fmin e d a b => some (word777 e 0x186 d a b)
  | .fmax e d a b => some (word777 e 0x187 d a b)
  | .fabs e d a => some (word777 e 0x188 d a 0)
  | .fneg e d a => some (word777 e 0x189 d a 0)
  | .fcpys e d a b => some (word777 e 0x18A d a b)
  | .frcp e d a => some (word777 e 0x18B d a 0)
  | .frsq e d a => some (word777 e 0x18C d a 0)
  | .fsqrt e d a => some (word777 e 0x18D d a 0)
  | .fexp2 e d a => some (word777 e 0x18E d a 0)
  | .flog2 e d a => some (word777 e 0x18F d a 0)
  | .ftanh e d a => some (word777 e 0x190 d a 0)
  | .fcmpeq e d a b => some (word777 e 0x191 d a b)
  | .fcmplt e d a b => some (word777 e 0x192 d a b)
  | .fcmple e d a b => some (word777 e 0x193 d a b)
  | .fcmpun e d a b => some (word777 e 0x194 d a b)
  | .fclass e d a => some (word777 e 0x195 d a 0)
  | .frnd e d a => some (word777 e 0x196 d a 0)
  | .fsel e d a b => some (word777 e 0x197 d a b)
  | .fcvt e d a => some (word777 e 0x1A0 d a 0)
  | .ftoi e d a => some (word777 e 0x1A1 d a 0)
  | .itof e d a => some (word777 e 0x1A2 d a 0)
  | .mxq e d a b => some (word777 e 0x1A3 d a b)
  | .mxdq e d a => some (word777 e 0x1A4 d a 0)
  | .kget e d a => some (word777 e 0x1A5 d a 0)
  | .kset e d a => some (word777 e 0x1A6 d a 0)
  | .kadd e d a b => some (word777 e 0x1A7 d a b)
  | .kmax e d a b => some (word777 e 0x1A8 d a b)
  | .xcvt e d a => some (word777 e 0x1A9 d a 0)
  | .vldW e d a b => some (word777 e 0x200 d a b)
  | .vldD e d a b => some (word777 e 0x201 d a b)
  | .vldQ e d a b => some (word777 e 0x202 d a b)
  | .vldO e d a b => some (word777 e 0x203 d a b)
  | .vstW e d a b => some (word777 e 0x204 d a b)
  | .vstD e d a b => some (word777 e 0x205 d a b)
  | .vstQ e d a b => some (word777 e 0x206 d a b)
  | .vstO e d a b => some (word777 e 0x207 d a b)
  | .vldsW e d a b => some (word777 e 0x208 d a b)
  | .vldsD e d a b => some (word777 e 0x209 d a b)
  | .vldsQ e d a b => some (word777 e 0x20A d a b)
  | .vldsO e d a b => some (word777 e 0x20B d a b)
  | .vstsW e d a b => some (word777 e 0x20C d a b)
  | .vstsD e d a b => some (word777 e 0x20D d a b)
  | .vstsQ e d a b => some (word777 e 0x20E d a b)
  | .vstsO e d a b => some (word777 e 0x20F d a b)
  | .vldOAcq e d a b => some (word777 e 0x210 d a b)
  | .vstORel e d a b => some (word777 e 0x211 d a b)
  | .vldQAcq e d a b => some (word777 e 0x212 d a b)
  | .vstQRel e d a b => some (word777 e 0x213 d a b)
  | .vldmx e d a b => some (word777 e 0x214 d a b)
  | .vstmx e d a b => some (word777 e 0x215 d a b)
  | .pldO e d a => some (word777 e 0x218 d a 0)
  | .pstO e d a => some (word777 e 0x219 d a 0)
  | .pldmx e d a b => some (word777 e 0x21A d a b)
  | .pstmx e d a b => some (word777 e 0x21B d a b)
  | .vatomAdd e d a b => some (word777 e 0x220 d a b)
  | .vatomMin e d a b => some (word777 e 0x221 d a b)
  | .vatomMax e d a b => some (word777 e 0x222 d a b)
  | .vatomExch e d a b => some (word777 e 0x223 d a b)
  | .vatomCas e d a b => some (word777 e 0x224 d a b)
  | .vatomFadd e d a b => some (word777 e 0x225 d a b)
  | .redstAdd e d a b => some (word777 e 0x228 d a b)
  | .redstMin e d a b => some (word777 e 0x229 d a b)
  | .redstMax e d a b => some (word777 e 0x22A d a b)
  | .redstFadd e d a b => some (word777 e 0x22B d a b)
  | .redstX e d a b => some (word777 e 0x22C d a b)
  | .vprefetch e a b => some (word777 e 0x230 0 a b)
  | .lace e d a i => some (word777 e 0x240 d a (0#5 ++ i))
  | .lacew e a i => some (word777 e 0x241 0 a (0#5 ++ i))
  | .laceq e d i => some (word777 e 0x242 d 0 (0#5 ++ i))
  | .lacek e a i => some (word777 e 0x243 0 a (0#5 ++ i))
  | .rngget e d i => some (word777 e 0x244 d 0 (0#3 ++ i))
  | .rngput e i => some (word777 e 0x245 0 0 (0#3 ++ i))
  | .rngputInit e a i => some (word777 e 0x245 0 a (1#1 ++ 0#2 ++ i))
  | .rngacq e d i => some (word777 e 0x246 d 0 (0#3 ++ i))
  | .rngrel e i => some (word777 e 0x247 0 0 (0#3 ++ i))
  | .town e d a i => some (word777 e 0x248 d a (0#6 ++ i))
  | .bara e d i => some (word777 e 0x280 d 0 (0#2 ++ i))
  | .baraw e d i => some (word777 e 0x281 d 0 (0#2 ++ i))
  | .barw e a i => some (word777 e 0x282 0 a (0#2 ++ i))
  | .bard e d i => some (word777 e 0x283 d 0 (0#2 ++ i))
  | .barx e a i => some (word777 e 0x284 0 a (0#2 ++ i))
  | .barq e d i => some (word777 e 0x285 d 0 (0#2 ++ i))
  | .barma e d a => some (word777 e 0x288 d a 0)
  | .barmaw e d a => some (word777 e 0x289 d a 0)
  | .barmw e a b => some (word777 e 0x28A 0 a b)
  | .barmd e d a => some (word777 e 0x28B d a 0)
  | .barmx e a b => some (word777 e 0x28C 0 a b)
  | .barmq e d a => some (word777 e 0x28D d a 0)
  | .capb e d a => some (word777 e 0x290 d a 0)
  | .caps => some (word777 true 0x291 0 0 0)
  | .cape => some (word777 true 0x292 0 0 0)
  | .capr e d a => some (word777 e 0x293 d a 0)
  | .bmset e a i => some (word777 e 0x298 0 a (0#3 ++ i))
  | .bmref e a i => some (word777 e 0x299 0 a (0#3 ++ i))
  | .bmbind e a i => some (word777 e 0x29A 0 a (0#3 ++ i))
  | .bmunbind e a i => some (word777 e 0x29A 0 a (1#1 ++ 0#2 ++ i))
  | .bmrd e d s i => some (word777 e 0x29B d 0 (0#1 ++ s ++ i))
  | .bmclr e i => some (word777 e 0x29C 0 0 (0#3 ++ i))
  | .gtok e => some (word777 e 0x2A0 0 0 0)
  | .glaunch e d a b => some (word777 e 0x2A1 d a b)
  | .gstat e d a b => some (word777 e 0x2A2 d a b)
  | .gcancel e d a b => some (word777 e 0x2A3 d a b)
  | .gfail e a => some (word777 e 0x2A4 0 a 0)
  | .yield => some (word777 true 0x2B0 0 0 0)
  | .arel e a => some (word777 e 0x380 0 a 0)
  | .rqnt e d a b => some (word777 e 0x381 d a b)
  | .rqntt e d a b => some (word777 e 0x382 d a b)
  | .ald e d a b => some (word777 e 0x383 d a b)
  | .ast e d a b => some (word777 e 0x384 d a b)
  | .azero e d a => some (word777 e 0x385 d a 0)
  | .apatch e d a b => some (word777 e 0x386 d a b)
  | .aget e d a b => some (word777 e 0x387 d a b)
  | .ahnd e d a b => some (word777 e 0x388 d a b)
  | .mma e s h z n a b => some (BitVec.ofBool e ++ 0b1111000#7 ++ s ++ h ++ BitVec.ofBool z ++ BitVec.ofBool n ++ 0#1 ++ a ++ b)
  | .ext p => some (wordL false 0x3FF p)
  | .unassignedOpcode w => some w
  | .reservedFieldWord w => some w
  | .hostWindowPoll _ _ => none
  | .linkLevelReplay _ => none
  | .hostOrPeerCompletion _ _ _ => none
  | .attestationKeyCertify => none

end Sys2Proof
end

