-- ==== Sys2Proof/Config.lean ====
section
/-!
DEFINITION. Sys2Proof/Config.lean: what the FN4-192 fixes (implementation figures of R2 that effects depend on), and the
values that the spec leaves open, which are opaque: nothing can be proved of them (log 3, log 5).
-/

namespace Sys2Proof.Config

/-- Cores per compute die, DEVCFG.CORES (R15). -/
def coresPerDie : Nat := 48
/-- Compute dies (R11). -/
def computeDies : Nat := 4
/-- I/O dies (R11). -/
def ioDies : Nat := 2
/-- Cores of the device (R14). -/
def cores : Nat := 192
/-- L2 slices per compute die (R19). -/
def slicesPerDie : Nat := 64
/-- Sets of a slice (R19). -/
def sliceSets : Nat := 1024
/-- Ways of a set of a slice (R19). -/
def sliceWays : Nat := 16
/-- Miss-status entries of a core (R226). -/
def missStatus : Nat := 1024
/-- Group slots of a core (R16). -/
def slotsPerCore : Nat := 512
/-- Group slots of a quadrant (R16). -/
def slotsPerQuadrant : Nat := 128
/-- Group slots of the device (R158). -/
def agents : Nat := 98304
/-- Contexts (R88). -/
def contexts : Nat := 256
/-- Active slots (R92). -/
def activeSlots : Nat := 16
/-- Queues (R102). -/
def queues : Nat := 1024
/-- DMA engines of both I/O dies (R13). -/
def engines : Nat := 32
/-- Accumulator slots of a core (R16). -/
def accSlots : Nat := 32
/-- The matrix array's queue (R289). -/
def accQueue : Nat := 8
/-- A Lacer's queue (R261). -/
def lacerQueue : Nat := 16
/-- A DMA engine's queue of privileged descriptors (R268). -/
def engineQueue : Nat := 16
/-- Watches of a home slice (R247). -/
def sliceWatches : Nat := 256
/-- Entries of the divergence stack (R158). -/
def stackEntries : Nat := 256
/-- Words of a run (R63). -/
def runWords : Nat := 24
/-- Variable-latency results outstanding of one group (R155). -/
def groupResults : Nat := 64
/-- Core TLB entries (R352). -/
def coreTlbEntries : Nat := 128
/-- Sets and ways of a die TLB, entries of a pointer cache, walkers of a compute die (R352). -/
def dieTlbSets : Nat := 2048
def dieTlbWays : Nat := 8
def pointerEntries : Nat := 1024
def walkers : Nat := 64
/-- Miss table entries of a compute die (R352). -/
def missEntries : Nat := 4096
/-- DEVCFG.VERSION (R15). -/
def archVersion : Nat := 1
/-- Bytes of an HBM stack: 64 GB, a GB of DRAM being 10^9 bytes (R5, R21). -/
def stackBytes : Nat := 64 * 10 ^ 9
/-- Bytes of the second tier behind one I/O die: 12 channels of 64 GB (R5, R22). -/
def secondTierBytes : Nat := 768 * 10 ^ 9
/-- Bytes of a save area (R98). -/
def saveBytes : Nat := 0xEBEB0000
/-- Trace packets that a core buffers (R397). -/
def traceBuffer : Nat := 512
/-- Bytes of the recovery image buffer (R375). -/
def recoveryBytes : Nat := 2 ^ 28

/-- The height of the tree of an LMS attestation key: an option of the LMS standard that the spec does not name (R410, log 5). -/
opaque lmsHeight : Nat
/-- Leaves of an LMS attestation key (R410). -/
def lmsLeaves : Nat := 2 ^ lmsHeight

/-- The signature bytes of an attestation report, from the message signed and the leaf (R410: LMS is left to its
standard, log 5). -/
opaque lmsSignature : Nat → Nat → Nat

/-- The signature bytes of a certificate, from the attestation key certified and the leaf of the device key (R410, log 5). -/
opaque deviceSignature : Nat → Nat → Nat

/-- The SHA-256 of the image that the part is shipped with (R409, log 5). -/
opaque shippedDigest : Nat

/-- The module's power as it is measured at a clock, where no POWER_TICK says it (R404, log 24). -/
opaque measuredWatts : Nat → Nat

/-- A value that the spec does not give, one for each draw of the counter in State (log 3). -/
opaque freeValue : Nat → BitVec 64

end Sys2Proof.Config
end

