-- ==== Sys2Proof/Machine/Num.lean ====
section
/-!
DEFINITION. Sys2Proof/Machine/Num.lean: number formats, exact values and the one rounding of the part (02 R34 to R60):
the nine element formats, exact sums and products, `round` with its flags, exact cells, MX blocks, requantisation
and the summation of a matrix element. Encoded elements are natural numbers below 2^width.
-/

namespace Sys2Proof.Machine

/-- The floating-point element formats (R36). -/
inductive Fmt where
  | fp64 | fp32 | bf16 | fp16 | e5m2 | e4m3 | e3m2 | e2m3 | e2m1
  deriving DecidableEq, Repr

/-- Bits of the exponent field (R36). -/
def Fmt.expBits : Fmt → Nat
  | .fp64 => 11 | .fp32 => 8 | .bf16 => 8 | .fp16 => 5 | .e5m2 => 5 | .e4m3 => 4 | .e3m2 => 3 | .e2m3 => 2 | .e2m1 => 2

/-- Bits of the mantissa field (R36). -/
def Fmt.manBits : Fmt → Nat
  | .fp64 => 52 | .fp32 => 23 | .bf16 => 7 | .fp16 => 10 | .e5m2 => 2 | .e4m3 => 3 | .e3m2 => 2 | .e2m3 => 3 | .e2m1 => 1

/-- Width of an element: sign, exponent, mantissa (R35). -/
def Fmt.width (F : Fmt) : Nat := 1 + F.expBits + F.manBits

/-- The exponent bias (R36). -/
def Fmt.bias (F : Fmt) : Nat := 2 ^ (F.expBits - 1) - 1

/-- The formats that hold infinities (R36, R45). -/
def Fmt.hasInf : Fmt → Bool
  | .fp64 | .fp32 | .bf16 | .fp16 | .e5m2 => true
  | .e4m3 | .e3m2 | .e2m3 | .e2m1 => false

/-- The formats whose subnormals FZ flushes (R43, R47). -/
def Fmt.flushes : Fmt → Bool
  | .fp64 | .fp32 | .bf16 | .fp16 => true
  | .e5m2 | .e4m3 | .e3m2 | .e2m3 | .e2m1 => false

/-- The encoding of the greatest finite magnitude (R36). -/
def Fmt.maxCode (F : Fmt) : Nat :=
  match F with
  | .e4m3 => 0x7E
  | .e3m2 => 0x1F
  | .e2m3 => 0x1F
  | .e2m1 => 0x7
  | F => (2 ^ F.expBits - 1) * 2 ^ F.manBits - 1

/-- The encoding of +Inf, for a format that has one (R36). -/
def Fmt.infCode (F : Fmt) : Nat := (2 ^ F.expBits - 1) * 2 ^ F.manBits

/-- The sign bit of an encoding, set for a negative value (R35). -/
def Fmt.signCode (F : Fmt) (neg : Bool) : Nat := if neg then 2 ^ (F.expBits + F.manBits) else 0

/-- The exact values that the part computes with (R43): NaN, an infinity, or a real with a sign.
`fin neg mag exp sticky` is the magnitude `mag * 2^exp`, or, when `sticky`, a real strictly between that and
`(mag + 1) * 2^exp`; only values that are rounded at once are sticky. -/
inductive XVal where
  | nan
  | inf (neg : Bool)
  | fin (neg : Bool) (mag : Nat) (exp : Int) (sticky : Bool)
  deriving DecidableEq, Repr

/-- The flags of FPSTAT (R48): bit 0 NV, 1 DZ, 2 OF, 3 UF, 4 NX. -/
abbrev FpFlags := BitVec 5

def flagNV : FpFlags := 1
def flagDZ : FpFlags := 2
def flagOF : FpFlags := 4
def flagUF : FpFlags := 8
def flagNX : FpFlags := 16

/-- Rounding modes (R43). -/
def rmRNE : Nat := 0
def rmRTZ : Nat := 1
def rmRDN : Nat := 2
def rmRUP : Nat := 3
def rmRSR : Nat := 4

/-- The exact zero of a sign. -/
def XVal.zero (neg : Bool) : XVal := .fin neg 0 0 false

/-- A value that is NaN. -/
def XVal.isNan : XVal → Bool
  | .nan => true
  | _ => false

/-- A value that is infinite. -/
def XVal.isInf : XVal → Bool
  | .inf _ => true
  | _ => false

/-- A value that is a zero of either sign. -/
def XVal.isZero : XVal → Bool
  | .fin _ 0 _ false => true
  | _ => false

/-- The sign of a value; NaN has none. -/
def XVal.neg? : XVal → Bool
  | .nan => false
  | .inf n => n
  | .fin n _ _ _ => n

/-- The value of an encoding (R35, R36). -/
def Fmt.decode (F : Fmt) (code : Nat) : XVal :=
  let m := F.manBits
  let s := code / 2 ^ (F.expBits + m) % 2 == 1
  let ef := code / 2 ^ m % 2 ^ F.expBits
  let mf := code % 2 ^ m
  let normal := XVal.fin s (2 ^ m + mf) ((ef : Int) - F.bias - m) false
  if ef = 0 then .fin s mf (1 - (F.bias : Int) - m) false
  else if ef = 2 ^ F.expBits - 1 then
    if F.hasInf then (if mf = 0 then .inf s else .nan)
    else if F = .e4m3 then (if mf = 7 then .nan else normal)
    else normal
  else normal

/-- An encoding is a subnormal or zero: its exponent field is zero (R35). -/
def Fmt.isSubnormalCode (F : Fmt) (code : Nat) : Bool := code / 2 ^ F.manBits % 2 ^ F.expBits == 0

/-- The value of an operand read under FZ: a subnormal of the formats that FZ reaches is a zero of its sign (R47). -/
def Fmt.decodeFz (F : Fmt) (fz : Bool) (code : Nat) : XVal :=
  if fz && F.flushes && F.isSubnormalCode code then
    .zero (code / 2 ^ (F.expBits + F.manBits) % 2 == 1)
  else F.decode code

/-- The canonical NaN (R38); zero for the formats that hold none (R46). -/
def Fmt.canonicalNan : Fmt → Nat
  | .fp64 => 0x7FF8000000000000
  | .fp32 => 0x7FC00000
  | .bf16 => 0x7FC0
  | .fp16 => 0x7E00
  | .e5m2 => 0x7E
  | .e4m3 => 0x7F
  | .e3m2 | .e2m3 | .e2m1 => 0

/-- A NaN converts to the canonical NaN, or to +0 with NV where the format has none (R46). -/
def nanResult (F : Fmt) : Nat × FpFlags :=
  match F with
  | .e3m2 | .e2m3 | .e2m1 => (0, flagNV)
  | F => (F.canonicalNan, 0)

/-- An infinity converts as R45 states. -/
def infResult (F : Fmt) (neg sat : Bool) : Nat × FpFlags :=
  if F.hasInf then (F.signCode neg + F.infCode, 0)
  else if F = .e4m3 then
    (if sat then (F.signCode neg + F.maxCode, flagOF) else (F.canonicalNan, flagNV))
  else (F.signCode neg + F.maxCode, flagOF)

/-- A rounded result above the greatest finite value (R44). -/
def overflowResult (F : Fmt) (neg : Bool) (rm : Nat) (sat : Bool) : Nat × FpFlags :=
  let big := F.signCode neg + F.maxCode
  let infinite := F.signCode neg + F.infCode
  if sat then (big, flagOF ||| flagNX)
  else if F = .e4m3 then (F.canonicalNan, flagOF ||| flagNX ||| flagNV)
  else if F.hasInf then
    (if rm = rmRTZ then big
     else if rm = rmRDN then (if neg then infinite else big)
     else if rm = rmRUP then (if neg then big else infinite)
     else infinite, flagOF ||| flagNX)
  else (big, flagOF ||| flagNX)

/-- Whether a magnitude between the grid points `t` and `t + 1` goes to the upper one (R43, R51): `rem` over `2^sh`
is the discarded fraction, with more below it when `sticky`; `r` is the lane's draw. -/
def roundsUp (rm : Nat) (neg : Bool) (t rem sh : Nat) (sticky : Bool) (r : Nat) : Bool :=
  if rm = rmRNE then
    let twice := 2 * rem + sticky.toNat
    2 ^ sh < twice || (twice == 2 ^ sh && t % 2 == 1)
  else if rm = rmRTZ then false
  else if rm = rmRDN then neg
  else if rm = rmRUP then !neg
  else
    let scaled := rem * 2 ^ 32
    let below := sticky || scaled % 2 ^ sh != 0
    r < scaled / 2 ^ sh + below.toNat

/-- `round` of R43: the encoding and the flags it sets. `r` is the state that the lane's generator has stepped to,
which RSR alone looks at; the caller steps it, once per call (R51). -/
def round (F : Fmt) (rm : Nat) (sat fz : Bool) (r : Nat) (x : XVal) : Nat × FpFlags :=
  match x with
  | .nan => nanResult F
  | .inf neg => infResult F neg sat
  | .fin neg mag exp sticky =>
    if mag = 0 ∧ sticky = false then (F.signCode neg, 0)
    else
      let lg : Int := (Nat.log2 mag : Int) + exp
      let tiny := decide (lg < 1 - (F.bias : Int))
      if fz && F.flushes && tiny then (F.signCode neg, flagUF ||| flagNX)
      else
        let top : Int := max lg (1 - (F.bias : Int))
        let grid : Int := top - F.manBits
        let sh := (grid - exp).toNat
        let scaled := mag * 2 ^ (exp - grid).toNat
        let t := scaled / 2 ^ sh
        let rem := scaled % 2 ^ sh
        let inexact := sticky || rem != 0
        let q := if inexact && roundsUp rm neg t rem sh sticky r then t + 1 else t
        let code := (top + F.bias - 1).toNat * 2 ^ F.manBits + q
        if F.maxCode < code then overflowResult F neg rm sat
        else (F.signCode neg + code,
          if inexact then (if tiny then flagNX ||| flagUF else flagNX) else 0)

/-- The sign of a value reversed. -/
def XVal.negate : XVal → XVal
  | .nan => .nan
  | .inf n => .inf (!n)
  | .fin n m e s => .fin (!n) m e s

/-- The exact product, with NV for 0 times an infinity (R59, R207). -/
def mulX : XVal → XVal → XVal × FpFlags
  | .nan, _ => (.nan, 0)
  | _, .nan => (.nan, 0)
  | .inf a, .inf b => (.inf (a != b), 0)
  | .inf a, .fin b m _ _ => if m = 0 then (.nan, flagNV) else (.inf (a != b), 0)
  | .fin a m _ _, .inf b => if m = 0 then (.nan, flagNV) else (.inf (a != b), 0)
  | .fin a m e _, .fin b m' e' _ => (.fin (a != b) (m * m') (e + e') false, 0)

/-- A finite magnitude as a signed multiple of `2^e0`, for `e0` at most its exponent. -/
def signedAt (neg : Bool) (mag : Nat) (exp e0 : Int) : Int :=
  let v : Int := (mag * 2 ^ (exp - e0).toNat : Nat)
  if neg then -v else v

/-- The exact sum of two values, with NV for infinities of opposite signs; an exact zero sum of operands of unlike
signs is +0, or -0 under RDN (R207). -/
def addX (rm : Nat) : XVal → XVal → XVal × FpFlags
  | .nan, _ => (.nan, 0)
  | _, .nan => (.nan, 0)
  | .inf a, .inf b => if a = b then (.inf a, 0) else (.nan, flagNV)
  | .inf a, .fin _ _ _ _ => (.inf a, 0)
  | .fin _ _ _ _, .inf b => (.inf b, 0)
  | .fin a m e _, .fin b m' e' _ =>
    let e0 := min e e'
    let v := signedAt a m e e0 + signedAt b m' e' e0
    if v = 0 then (.zero (if a = b then a else rm == rmRDN), 0)
    else (.fin (decide (v < 0)) v.natAbs e0 false, 0)

/-- The least exponent among the finite values of a list. -/
def minExp : List XVal → Int → Int
  | [], e => e
  | .fin _ _ e _ :: r, e0 => minExp r (min e e0)
  | _ :: r, e0 => minExp r e0

/-- The sum of the finite values of a list, in units of `2^e0`. -/
def sumAt (e0 : Int) : List XVal → Int
  | [] => 0
  | .fin n m e _ :: r => signedAt n m e e0 + sumAt e0 r
  | _ :: r => sumAt e0 r

/-- The exact sum of a set of values (R59): NaN where one is NaN, NaN with NV where both infinities occur, an
infinity where one sign of infinity occurs, and otherwise the real sum, an exact zero being +0. -/
def sumX (xs : List XVal) : XVal × FpFlags :=
  if xs.any XVal.isNan then (.nan, 0)
  else
    let pos := xs.contains (.inf false)
    let neg := xs.contains (.inf true)
    if pos && neg then (.nan, flagNV)
    else if pos then (.inf false, 0)
    else if neg then (.inf true, 0)
    else
      let e0 := minExp xs 0
      let v := sumAt e0 xs
      if v = 0 then (.zero false, 0) else (.fin (decide (v < 0)) v.natAbs e0 false, 0)

/-- The value of an integer. -/
def XVal.ofInt (v : Int) : XVal := .fin (decide (v < 0)) v.natAbs 0 false

/-- Comparison of two finite magnitudes: whether the first is at most the second. -/
def magLe (m : Nat) (e : Int) (m' : Nat) (e' : Int) : Bool :=
  let e0 := min e e'
  m * 2 ^ (e - e0).toNat ≤ m' * 2 ^ (e' - e0).toNat

/-- Order of two values, neither NaN, as reals with -0 equal to +0 (R210): whether the first is less. -/
def XVal.lt : XVal → XVal → Bool
  | .nan, _ => false
  | _, .nan => false
  | .inf a, .inf b => a && !b
  | .inf a, .fin _ _ _ _ => a
  | .fin _ _ _ _, .inf b => !b
  | .fin a m e _, .fin b m' e' _ =>
    let e0 := min e e'
    signedAt a m e e0 < signedAt b m' e' e0

/-- Equality of two values as reals (R210). -/
def XVal.eqv (x y : XVal) : Bool := !x.isNan && !y.isNan && !x.lt y && !y.lt x

/-- The order of R208, in which -0 lies below +0. -/
def XVal.ltMin (x y : XVal) : Bool :=
  x.lt y || (x.isZero && y.isZero && x.neg? && !y.neg?)

/-- An integral rounding of a finite magnitude (R52, R212): the integer, and whether it was inexact. -/
def roundIntegral (rm : Nat) (neg : Bool) (mag : Nat) (exp : Int) (r : Nat) : Nat × Bool :=
  let sh := (-exp).toNat
  let scaled := mag * 2 ^ exp.toNat
  let t := scaled / 2 ^ sh
  let rem := scaled % 2 ^ sh
  (if rem != 0 && roundsUp rm neg t rem sh false r then t + 1 else t, rem != 0)

/-- Float to INTn (R52), as an n-bit pattern with its flags. -/
def toInt (n rm r : Nat) (x : XVal) : Nat × FpFlags :=
  let least : Nat := 2 ^ (n - 1)
  match x with
  | .nan => (0, flagNV)
  | .inf neg => (if neg then least else least - 1, flagNV)
  | .fin neg mag exp _ =>
    let (v, inexact) := roundIntegral rm neg mag exp r
    if neg then
      (if v ≤ least then ((2 ^ n - v) % 2 ^ n, if inexact then flagNX else 0) else (least, flagNV))
    else
      (if v < least then (v, if inexact then flagNX else 0) else (least - 1, flagNV))

/-- Two's complement of an n-bit pattern (R34). -/
def sgOf (n x : Nat) : Int := if x < 2 ^ (n - 1) then (x : Int) else (x : Int) - (2 ^ n : Nat)

/-- The low n bits of an integer. -/
def wrapTo (n : Nat) (v : Int) : Nat := (v % (2 ^ n : Nat)).toNat

/-- An integer clamped to the INTn range (R194, R52). -/
def clampTo (n : Nat) (v : Int) : Int := max (-(2 ^ (n - 1) : Nat)) (min ((2 ^ (n - 1) : Nat) - 1) v)

/-! ### Generators (R50, R51) -/

/-- The generator state that SEED gives lane l (R50). -/
def seedLane (seed : BitVec 64) (l : Nat) : BitVec 32 :=
  let x := seed.truncate 32 ^^^ (seed >>> 32).truncate 32 ^^^ BitVec.ofNat 32 (0x9E3779B9 * (l + 1))
  if x = 0 then 0x6D2B79F5 else x

/-- One step of a lane's generator (R51). -/
def stepGenerator (x : BitVec 32) : BitVec 32 :=
  let a := x ^^^ (x <<< 13)
  let b := a ^^^ (a >>> 17)
  b ^^^ (b <<< 5)

/-- `round` with its draw (R43): under RSR the generator steps once, before any test. -/
def roundDraw (F : Fmt) (rm : Nat) (sat fz : Bool) (gen : BitVec 32) (x : XVal) : Nat × FpFlags × BitVec 32 :=
  let gen' := if rm = rmRSR then stepGenerator gen else gen
  let (c, f) := round F rm sat fz gen'.toNat x
  (c, f, gen')

/-! ### Exact cells (R53 to R56) -/

/-- The INVALID pattern of a cell, -2^255 (R53). -/
def cellInvalid : Nat := 2 ^ 255

/-- One contribution added to a cell (R54). -/
def cellAdd (cell : Nat) (v : XVal) : Nat :=
  if cell = cellInvalid then cell
  else
    match v with
    | .nan => cellInvalid
    | .inf _ => cellInvalid
    | .fin neg mag exp _ =>
      if magLe 1 159 mag exp then cellInvalid
      else
        let c := mag * 2 ^ (exp + 96).toNat / 2 ^ (-(exp + 96)).toNat
        wrapTo 256 ((cell : Int) + (if neg then -(c : Int) else c))

/-- The value of a cell that is not INVALID: N times 2^-96 (R53). -/
def cellValue (cell : Nat) : XVal :=
  let v := sgOf 256 cell
  .fin (decide (v < 0)) v.natAbs (-96) false

/-- `cell_to_float` (R56). -/
def cellToFloat (cell : Nat) (F : Fmt) (rm : Nat) (sat : Bool) (r : Nat) : Nat × FpFlags :=
  if cell = cellInvalid then ((nanResult F).1, flagNV) else round F rm sat false r (cellValue cell)

/-! ### MX blocks and requantisation (R37, R40, R57) -/

/-- The value of an MX element under its scale byte (R40). -/
def mxValue (F : Fmt) (scale code : Nat) : XVal :=
  if scale = 0xFF then .nan
  else
    match F.decode code with
    | .nan => .nan
    | .inf n => .inf n
    | .fin n m e s => .fin n m (e + scale - 127) s

/-- emax of the MX element formats (R57). -/
def Fmt.emax : Fmt → Int
  | .e4m3 => 8 | .e5m2 => 15 | .e3m2 => 4 | .e2m3 => 2 | .e2m1 => 2
  | .fp64 => 1023 | .fp32 => 127 | .bf16 => 127 | .fp16 => 15

/-- clip of R57: the sign is kept and the magnitude lowered to that of c. -/
def clipX (c : XVal) : XVal → XVal
  | .nan => .nan
  | .inf n =>
    match c with
    | .fin _ m e s => .fin n m e s
    | _ => .inf n
  | .fin n m e s =>
    match c with
    | .fin _ m' e' _ => if magLe m e m' e' then .fin n m e s else .fin n m' e' false
    | _ => .fin n m e s

/-- floor(log2 |y|) of a nonzero finite value. -/
def XVal.lg : XVal → Option Int
  | .fin _ m e _ => if m = 0 then none else some ((Nat.log2 m : Int) + e)
  | _ => none

/-- The greatest of the logarithms of a list of values, none where all are zero. -/
def maxLg : List XVal → Option Int
  | [] => none
  | x :: r =>
    match x.lg, maxLg r with
    | none, o => o
    | some a, none => some a
    | some a, some b => some (max a b)

/-- A value divided by 2^k, exactly. -/
def XVal.scaleDown (k : Int) : XVal → XVal
  | .fin n m e s => .fin n m (e - k) s
  | x => x

/-- `quantise_block` of R57: the scale byte and the elements. -/
def quantiseBlock (F : Fmt) (f c : XVal) (xs : List XVal) : Nat × List Nat :=
  let ys := xs.map fun x => clipX c (mulX f x).1
  if ys.any (fun y => y.isNan || y.isInf) then (0xFF, ys.map fun _ => 0)
  else
    match maxLg ys with
    | none => (0, ys.map fun y => F.signCode y.neg?)
    | some lg =>
      let X := max (-127) (min 127 (lg - F.emax))
      ((X + 127).toNat, ys.map fun y => (round F rmRNE true false 0 (y.scaleDown X)).1)

/-! ### Matrix summation (R59, R60) -/

/-- round32 of R60. -/
def round32 (x : XVal) : Nat := (round .fp32 rmRNE false false 0 x).1

/-- acc + x rounded to FP32 (R60). -/
def addRound32 (acc : Nat) (x : XVal) : Nat := round32 (addX rmRNE (Fmt.decode .fp32 acc) x).1

/-- `mma_element` (R60): `blocks` holds the products of each block of 32 k, in ascending k. -/
def mmaElement (nbv : Nat) (acc : Nat) (blocks : List (List XVal)) : Nat :=
  if nbv = 1 then
    blocks.foldl (fun a b => addRound32 a (Fmt.decode .fp32 (round32 (sumX b).1))) acc
  else addRound32 acc (sumX blocks.flatten).1

end Sys2Proof.Machine
end

