-- ==== Sys2Proof/Machine/State.lean ====
section
/-!
DEFINITION. Sys2Proof/Machine/State.lean: the state of the part as plain data, everything that the spec gives the machine,
and the state right after reset. INVENTORY.md lists each piece with its rule and its value at reset.
-/

namespace Sys2Proof.Machine

/-- Data by number: pairs with rising keys. -/
abbrev AMap (α : Type) := List (Nat × α)

/-! ### Groups (08 R151) -/

/-- The state codes of R151; a slot without a group has no entry (FREE). -/
inductive GState where
  | launching | ready | issuing | waitScore | waitMem | waitBarrier | waitMonitor | waitCapsule
  | trapped | halted | parked | exited
  deriving DecidableEq, Repr

/-- A path (R157). -/
structure Path where
  pc : BitVec 57
  mask : BitVec 8
  tag : BitVec 16
  ptag : BitVec 16
  deriving DecidableEq, Repr

/-- A reduction result register (R69, R203). -/
structure YReg where
  value : BitVec 64
  seq : BitVec 16
  deriving DecidableEq, Repr

/-- A `vred` issued and not yet landed (R202): the value that it delivers, the flags of a float `vred.add`, and the lanes
that it included. -/
structure PendVred where
  y : BitVec 2
  value : BitVec 64
  flags : FpFlags
  lanes : BitVec 8
  deriving DecidableEq, Repr

/-- The barrier that an arrival is at: a block's, a half's of a cluster, or an object by physical address (R302). -/
inductive BarId where
  | block (blk idx : Nat)
  | cluster (cl half idx : Nat)
  | object (pa : Nat)
  deriving DecidableEq, Repr

/-- A barrier arrival record of a group (R310): token, index and kind as its saved form has them; the object's address, where it is known,
and whether the arrival was made in trap mode. A group holds one for each arrival whose instruction is not complete, the newest first. -/
structure Arrived where
  token : BitVec 32
  index : Nat
  kind : Nat
  va : Option Nat
  trap : Bool
  deriving DecidableEq, Repr

/-- A store buffered in a capsule step (R332). -/
structure CapStore where
  pa : Nat
  va : Nat
  log2 : Nat
  data : BitVec 64
  deriving DecidableEq, Repr

/-- The capsule state of a group (R334), the stores and words of its step (R331, R332), the PC slot of the path that
opened it, and whether a re-entry is due (R340). -/
structure CapState where
  shadow : Vector (BitVec 64) 16
  line : Nat
  ownpc : BitVec 57
  cseq : BitVec 16
  role : Nat
  cmode : Bool
  cfpc : BitVec 57
  stores : List CapStore
  words : Nat
  onB : Bool
  reenter : Bool
  deriving DecidableEq, Repr

/-- An armed watchpoint (R386). -/
structure Wp where
  kinds : BitVec 3
  cond : Nat
  fmt : Nat
  lo : Nat
  hi : Nat
  t : BitVec 64
  deriving DecidableEq, Repr

/-- A wait for a barrier's phase (16 R307): the register that takes the token, the object's address, the scope of its acquire, the word
after the instruction, and the energy class of the instruction. -/
structure PhaseWait where
  dest : Option Nat
  va : BitVec 64
  scope : Nat
  next : BitVec 57
  cls : Nat
  deriving DecidableEq, Repr

/-- How a wait for a phase ends otherwise than by the phase's completion alone: by BARRIER_STALL (R309), or by BALANCE with its XAUX
(R320). -/
inductive Fate where
  | stall
  | balance (aux : BitVec 64)
  deriving DecidableEq, Repr

/-- What a waiting group waits for (R64, R152): each has a test that DEPENDENCE_RESOLVED makes. -/
inductive Dep where
  /-- Room in a bounded resource, or the end of an update in progress; the instruction tests it again. -/
  | again
  /-- A translation miss (R352) or a MIGRATING leaf (R357). -/
  | walk
  /-- The sequence number of a `y` register (R203). -/
  | yseq (y : BitVec 2) (seq : BitVec 16)
  /-- The end of a barrier phase (R307). -/
  | phase (bar : BarId) (token : BitVec 32) (w : PhaseWait)
  /-- An arrival of the group's that is still to be applied (R303, R306, R307): the object's address, and the wait that follows the arrival,
  none where the group goes on. -/
  | held (va : Option Nat) (w : Option PhaseWait)
  /-- The end of a check of a monitor (R323), or at an object (R324). -/
  | monitor (m : Nat)
  | object (pa : Nat)
  /-- A word watched (R247), a mailbox reply (R393), or a capsule line (R336). -/
  | watch
  /-- A reply of a host or peer (R224). -/
  | reply
  /-- The home of an address: a link of the route carries flits again (19 R362), or the host has given the line back (19 R374). -/
  | home (pa : Nat)
  /-- Acknowledgements of the group's writes to host and fabric windows (R231). -/
  | acks
  /-- Free miss-status entries (R226). -/
  | entries (n : Nat)
  /-- The registers that accumulator instructions of the group are still to write (14 R285, R289). -/
  | results
  /-- The matrix array with room (R289). -/
  | arrayRoom
  /-- A tile without accepted writes of the group (R285). -/
  | tileWritten (first : Nat)
  /-- Accumulator slots on the free list (R283). -/
  | slots (n : Nat)
  /-- A tile without accepted work of the group (R290). -/
  | tileIdle (first : Nat)
  /-- Room in a Lacer's queue (R271). -/
  | room (l : Nat)
  /-- The end of a command of a Lacer (R272), or of the cancelled ones from it on (R273). -/
  | ended (l t : Nat)
  | cancel (l t : Nat)
  /-- The tile at a scratchpad address owned by THREAD (R274). -/
  | tile (va : Nat)
  /-- A free or a filled slot of a ring (R276). -/
  | ringFree (r : Nat)
  | ringFilled (r : Nat)
  /-- The apply of a capsule log that the group committed (R337, R338). -/
  | apply (line : Nat)
  /-- Every core, slice and engine to have armed entry k of the watchpoints (R187), or disarmed it. -/
  | arm (k : Nat) (w : Option Wp)
  deriving DecidableEq, Repr

/-- Where a checked access goes: memory of this module, a host or peer, an on-chip window, scratchpad banks. -/
inductive Place where
  | mem (pa : Nat)
  | ext (pa : Nat)
  | chip (pa : Nat)
  | scr (core off : Nat)
  deriving DecidableEq, Repr

/-- A trap that has been taken and whose entry is not complete because a leaf is MIGRATING (R162), and whether its frame is written. -/
structure PendEntry where
  cause : Nat
  cobbler : Bool
  framed : Bool
  deriving DecidableEq, Repr

/-- The register files whose errors are poison of the value read (22 R405). -/
inductive RegFile where
  | scalar | vector | scale | pred | handle | yreg
  deriving DecidableEq, Repr

/-- What one poison covers of a group's registers (22 R406): a lane of a vector or scale register, or a whole register, with lane 0, of the
other files. -/
structure RegAt where
  file : RegFile
  reg : Nat
  lane : Nat
  deriving DecidableEq, Repr

/-- A group slot that holds a group (R151); `going` says where the accesses of an atomic lie that hosts or peers perform for the word that
it is at (11 R242), and `poison` which of its registers are poisoned (22 R405, R406). -/
structure Group where
  block : Nat
  gid : Nat
  kregs : Nat
  state : GState
  v : Vector (BitVec 2048) 128
  k : Vector (BitVec 128) 128
  s : Vector (BitVec 64) 32
  p : Vector (BitVec 8) 8
  h : Vector (BitVec 16) 16
  y : Vector YReg 4
  vreds : List PendVred
  mode : BitVec 32
  fpstat : BitVec 32
  seed : BitVec 64
  gen : Vector (BitVec 32) 8
  path0 : Option Path
  path1 : Option Path
  onB : Bool
  depth : Nat
  splitC : BitVec 16
  phase : BitVec 16
  phTimer : Nat
  pendPhase : Bool
  phOver : Bool
  pendFp : Option (BitVec 64)
  xpc : BitVec 57
  xmode : BitVec 32
  xcause : BitVec 8
  xaddr : BitVec 64
  xaux : BitVec 64
  trapMode : Bool
  cob : Bool
  cobRun : Bool
  stopCause : Nat
  energy : BitVec 64
  arrivals : List Arrived
  fate : Option Fate
  cap : CapState
  promo : Nat
  readyClk : Nat
  yielded : Bool
  dep : Option Dep
  woke : Bool
  sent : Bool
  waitClk : Nat
  exts : List (BitVec 21)
  runWords : Nat
  acqClk : Nat
  going : List Place
  entry : Option PendEntry
  poison : List RegAt
  deriving DecidableEq, Repr

/-! ### Blocks, clusters, grids (07) -/

/-- A block or cluster barrier (R303) with the clocks its watchdog has counted (R309). -/
structure Bar where
  phase : BitVec 16
  exp : Nat
  pend : Nat
  drops : Nat
  next : Nat
  wdog : Nat
  deriving DecidableEq, Repr

/-- An eyelet ring (R246, R275). -/
structure Ring where
  base : Nat
  slot : Nat
  n : Nat
  lfed : Bool
  free : Nat
  filled : Nat
  pidx : Nat
  cidx : Nat
  outp : Nat
  outc : Nat
  deriving DecidableEq, Repr

/-- A fault record (R267) or watch record (R389) of a Lacer, for one block: ticket, address, code. -/
structure LRec where
  ticket : Nat
  addr : BitVec 64
  code : Nat
  deriving DecidableEq, Repr

/-- The fields of a kernel descriptor (R136). -/
structure KDesc where
  entry : BitVec 64
  gdim : Nat
  bdim : Nat
  cldim : Nat
  straddle : Bool
  regs : Nat
  acc : Nat
  scr : Nat
  l1min : Nat
  nph : Nat
  psize : Nat
  param : BitVec 64
  phtab : BitVec 64
  kseed : BitVec 64
  deriving DecidableEq, Repr

/-- A resident block (R142 to R148), with the clock at which its launch ends (R146). -/
structure Block where
  core : Nat
  ctx : Nat
  grid : Nat
  bid : Nat
  cluster : Nat
  rank : Nat
  desc : KDesc
  phases : List Nat
  slots : List Nat
  regBase : Nat
  scrBase : Nat
  launching : Bool
  readyAt : Nat
  discarding : Bool
  bars : Vector Bar 16
  tickets : Vector Nat 4
  lscope : Vector (AMap Nat) 4
  lfault : Vector (Option LRec) 4
  lwatch : Vector (Option LRec) 4
  rings : AMap Ring
  holders : AMap Nat
  energy : BitVec 64
  deriving DecidableEq, Repr

/-- A resident cluster: its blocks by rank, whether it straddles a die pair (R141), and the cluster barriers of its
halves: half h, index i at 8 h + i (R303). -/
structure Cluster where
  ctx : Nat
  grid : Nat
  index : Nat
  cldim : Nat
  split : Bool
  blocks : List Nat
  bars : Vector Bar 16
  deriving DecidableEq, Repr

/-- The grid states of R149. -/
inductive GridState where
  | dispatching | resident | cancelling | ended
  deriving DecidableEq, Repr

/-- A kernel node's grid (R149), with its measured clocks (R126); of its next cluster, whether it has been offered, the clocks for which
it has been on offer since, and of its reservation the clock and the cores (R140). -/
structure Grid where
  graph : Nat
  node : Nat
  lseq : BitVec 64
  ctx : Nat
  die : Nat
  prio : Nat
  fired : Nat
  desc : KDesc
  phases : List Nat
  state : GridState
  nextCluster : Nat
  tried : Bool
  waited : Nat
  resClk : Nat
  reserved : List Nat
  started : Bool
  clocks : Nat
  busy : AMap (Nat × Nat)
  deriving DecidableEq, Repr

/-! ### Cores (01) -/

/-- An accumulator slot's table entry (R281). -/
structure AccSlot where
  used : Bool
  part : Nat
  cls : Nat
  first : Nat
  binds : Nat
  block : Nat
  deriving DecidableEq, Repr

/-- An accumulator instruction accepted and not yet complete (R289): what it does to the slots of its tile. -/
inductive AccWork where
  /-- `mma`: M, N, whether the tile element starts at +0, NBV, and for each row i and column j the operand rows. -/
  | mma (m n : Nat) (z neg : Bool) (nbv : Nat) (a b : List (List XVal))
  | azero
  | ald (row col : Nat) (vals : List (List Nat))
  | apatch (i j : Nat) (v : Nat)
  /-- `aget` of element (i, j) into scalar register d. -/
  | aget (i j d : Nat)
  /-- `ast` of the strip from row and column on into vector registers from d on. -/
  | ast (row col d : Nat)
  /-- `rqnt`, or `rqntt` with `cols`: element type, factor and clip, the first row or column, blocks, and the first register. -/
  | requant (cols : Bool) (et : Nat) (f clip : XVal) (n nb d : Nat)
  deriving DecidableEq, Repr

/-- An accepted accumulator instruction: its group, the class of its tile and the tile's slots by part (R289). -/
structure AccOp where
  agent : Nat
  cls : Nat
  first : Nat
  work : AccWork
  deriving DecidableEq, Repr

/-- The fields of a lace table entry (R262). -/
structure LEntry where
  kind : Nat
  srcsp : Bool
  dstsp : Bool
  et : Nat
  conv : Nat
  scope : Nat
  zord : Bool
  tr : Bool
  zlog : Nat
  ringen : Bool
  ring : Nat
  mcast : Nat
  rsv : Bool
  src : BitVec 64
  dst : BitVec 64
  size : Vector Nat 4
  sstr : Vector Int 4
  dstr : Vector Int 4
  aux : BitVec 64
  deriving DecidableEq, Repr

/-- A Lacer command (R261, R271): its place in the order of acceptance, its block, ticket, the group that issued it, the units done, the
tiles held, the bytes moved (R401), the bytes packed for a ring (R266), the watchpoint its next unit passes unchecked (R389), the first
clock of that unit, and the fault that it is to end with once its writes are released (R267, R271). -/
structure LCmd where
  seq : Nat
  block : Nat
  ticket : Nat
  agent : Nat
  user : Bool
  entry : LEntry
  unit : Nat
  tiles : List Nat
  moved : Nat
  packed : List Nat
  pass : Option Nat
  nextClk : Nat
  cancelled : Bool
  failed : Option (Nat × Nat)
  deriving DecidableEq, Repr

/-- A sector held in L1 with its fill clock (R222, R227), and the line of the pool that holds it, in units of 256 bytes (R145). -/
structure L1Sector where
  data : Nat
  fillClk : Nat
  line : Nat
  deriving DecidableEq, Repr

/-- A leaf held in a TLB (R352). -/
structure TlbEntry where
  ctx : Nat
  va : Nat
  level : Nat
  leaf : BitVec 64
  deriving DecidableEq, Repr

/-- A core's trace segment (R397): bytes written, the clock of the last packet, packets since SYNC; the packets buffered, each of one word
or two, and the number of those lost. -/
structure Trace where
  wptr : Nat
  lastClk : Nat
  since : Nat
  synced : Bool
  buf : List (BitVec 64 × Option (BitVec 64))
  lost : Nat
  deriving DecidableEq, Repr

/-- A core (R16, R17), with the cuts RB', SB' that re-cuts in progress write and the clock of each (07 R145), the sectors that hold its miss-status entries (11 R226),
the counters of R399, the clock that they count from, the energy count of R191, and the counters latched at a tick with the address that
their record is still to be written to (R400), and the poisoned 64-byte sectors of its pool and elements of its accumulator memory (22
R405, R406). -/
structure Core where
  rb : Nat
  sb : Nat
  lb : Nat
  werr : Bool
  recut : List (Nat × Nat × Nat)
  scr : List Host.Cell
  l1 : AMap L1Sector
  missing : List Nat
  acc : AMap Nat
  slots : Vector AccSlot 32
  accQ : List AccOp
  lacers : Vector (List LCmd) 4
  ctr : Vector (BitVec 64) 64
  trace : Trace
  tlb : List TlbEntry
  lastCtx : Option Nat
  energy : BitVec 64
  since : BitVec 64
  latch : Option (Nat × Nat)
  scrPoison : List Nat
  accPoison : List Nat
  deriving DecidableEq, Repr

/-! ### Contexts and queues (04, 05) -/

/-- The context states of R90. -/
inductive CState where
  | destroyed | created | loaded | running | draining | parking | parked | faulted | resetting
  deriving DecidableEq, Repr

/-- A monitor as the part holds it (R315), with the object it is bound to. -/
structure Mon where
  fmt : Nat
  delta : Bool
  action : Nat
  en : Bool
  offset : Nat
  stride : Nat
  base : Nat
  limit : Nat
  ref : BitVec 64
  babs : BitVec 64
  brel : BitVec 64
  status : BitVec 64
  last : BitVec 64
  bound : Option Nat
  deriving DecidableEq, Repr

/-- What the core record of a parked context holds of a block, beside its pages (R98): the block and the CORE.PART, bindings,
tiles, Lacer commands and cluster of it. -/
structure SavedBlock where
  id : Nat
  block : Block
  cluster : Cluster
  part : Nat × Nat × Nat
  slots : List (Nat × AccSlot)
  cmds : List (Nat × LCmd)
  groups : List Group
  deriving DecidableEq, Repr

/-- A context (R90 to R101), with the dump in progress: its base and the clock of its start (21 R396), and
whether tier 2 has shut the window accesses of its groups off (01 R32). -/
structure Ctx where
  state : CState
  nbv : Nat
  pinVariant : Bool
  levels : Nat
  ptroot : Nat
  savepa : Nat
  tvec : BitVec 64
  cvec : BitVec 64
  spill : BitVec 64
  montab : BitVec 64
  wptab : BitVec 64
  d1 : Nat
  d2 : Nat
  bwdog : Nat
  vwait : Nat
  seed0 : BitVec 64
  gen : BitVec 64
  fcause : BitVec 8
  fdetail : BitVec 56
  active : Bool
  dcnt : Nat
  mons : Vector Mon 16
  wps : Vector (Option Wp) 16
  bcast : Bool
  noFire : Bool
  resumeDue : Bool
  dumping : Option (Nat × BitVec 64)
  sealed : Bool
  saved : List SavedBlock
  restoring : Bool
  deriving DecidableEq, Repr

/-- The queue states of R104. -/
inductive QState where
  | closed | idle | watching | active | draining | paused | faulted
  deriving DecidableEq, Repr

/-- A queue (R104): the latched header, the entry taken and not complete, the graph that it launches (R109), and whether a DRAIN waits for
TAIL to be read at a host (R112). -/
structure Queue where
  state : QState
  prio : Nat
  ctx : Nat
  ring : BitVec 64
  log2n : Nat
  head : BitVec 64
  done : BitVec 64
  fcode : BitVec 8
  dlimit : BitVec 56
  tailpa : Nat
  tail : BitVec 64
  eff : Nat
  waitClk : Nat
  entry : Option (BitVec 64 × BitVec 64 × BitVec 64)
  flying : Option Nat
  drainDue : Bool
  deriving DecidableEq, Repr

/-! ### Graphs (06) -/

/-- A node of a running graph (R115), with what its firing waits for; `starting` holds the values that its firing has read while its work is
still to be started (R120). -/
structure Node where
  kind : Nat
  state : Nat
  policy : Nat
  idem : Bool
  early : Bool
  nvar : Nat
  vsel : Nat
  rbudget : Nat
  rused : Nat
  status : Nat
  fdom : Nat
  prio : Nat
  povr : Bool
  toksent : Bool
  walked : Bool
  need : Nat
  haveTok : Nat
  succs : List Nat
  payload : BitVec 64
  vars : Vector (BitVec 64) 4
  times : Vector Nat 4
  lseq : BitVec 64
  tFire : Nat
  wlink : Nat
  cores : Nat
  accs : Nat
  readyClk : Nat
  raised : Nat
  waited : Nat
  limit : Nat
  grid : Option Nat
  child : Option Nat
  engine : Option Nat
  ending : Option Nat
  starting : Option (List Nat)
  work : Vector (BitVec 64) 4
  watchPa : Nat
  deriving DecidableEq, Repr

/-- A running graph (R114, R119), with the first clock of its next cone visit (R130), the failed nodes whose HALT_GRAPH action is due
(R124, R129), COMPL and CVAL of the queue entry that launched it (05 R105), and whether COMPLETION has been written (R120). -/
structure Graph where
  va : BitVec 64
  ctx : Nat
  die : Nat
  queue : Option Nat
  parent : Option (Nat × Nat)
  depth : Nat
  prio : Nat
  fdom : Nat
  cores : Nat
  accs : Nat
  regions : List Nat
  nodesVa : BitVec 64
  state : Nat
  completion : BitVec 64
  failed : Nat
  whead : Nat
  wtail : Nat
  wact : Bool
  visitClk : Nat
  halts : List Nat
  halted : Bool
  cancelled : Bool
  admitted : Nat
  compl : BitVec 64
  cval : BitVec 64
  told : Bool
  nodes : List Node
  deriving DecidableEq, Repr

/-- A Marionette's distributor and queue arbiter (R139, R110), with the first clocks at which it may fire, offer, admit and make a cone
visit again. The cursor of its offers is the grid that it offered last in this pass and those that followed it then (none: the pass begins). -/
structure Die where
  cursor : List Nat
  lastQueue : Nat
  fireClk : Nat
  offerClk : Nat
  admitClk : Nat
  visitClk : Nat
  deriving DecidableEq, Repr

/-! ### Memory traffic (11, 19) -/

/-- What an atomic or reduction store does to its location (R255, R258). -/
inductive AtomOp where
  | add | and | or | xor | min | max | minu | maxu | exch | cas | fadd | cell
  deriving DecidableEq, Repr

/-- A write on its way to its home slice (R227, R365): a store, or a reduction store with its operation and format. The writes of one
instruction carry one `tie`, and those of one vector store to one sector are performed together (R225); 0 ties to nothing. The groups in
`seen` have read it in L1 (R228). -/
structure PendWrite where
  agent : Nat
  core : Nat
  ctx : Nat
  va : Nat
  pa : Nat
  size : Nat
  data : Nat
  red : Option (AtomOp × Nat)
  tie : Nat
  seen : List Nat
  deriving DecidableEq, Repr

/-- A guest fill of a 64-byte sector of a line in flight (R19, R223): the sector's data as the home read it. -/
structure Fill where
  die : Nat
  line : Nat
  sector : Nat
  data : Nat
  clk : Nat
  marked : Bool
  deriving DecidableEq, Repr

/-- A valid sector of a guest line held on a die (R19, R223). -/
structure Guest where
  data : Nat
  fillClk : Nat
  deriving DecidableEq, Repr

/-- A request outstanding at a host or a peer (R224), the link that carries it, and the agent and context that it acts for (no context of
the part where it acts for none): a write awaits an acknowledgement, a read its data; `cmd` is the Lacer command that sent it, by block and
ticket. -/
structure ExtReq where
  id : Nat
  link : Nat
  agent : Nat
  ctx : Nat
  write : Bool
  pa : Nat
  size : Nat
  reply : Option (Bool × Nat)
  cmd : Option (Nat × Nat)
  deriving DecidableEq, Repr

/-- What a watch ends (R247). -/
inductive WatchKind where
  | group (a : Nat)
  | queue (q : Nat)
  | node (g n : Nat)
  deriving DecidableEq, Repr

/-- A watch at a home slice, or in its overflow set (R247): the bytes watched, and whether a write has ended it. -/
structure Watch where
  kind : WatchKind
  pa : Nat
  size : Nat
  overflow : Bool
  fired : Bool
  deriving DecidableEq, Repr

/-- What reaches a barrier in a clock (R306, R308): an arrival, a drop, a count set by `barx` or `barmx` with the context that sets it,
or a monitor bound in place k, or place k freed. -/
inductive BarAct where
  | arrive
  | drop
  | expect (n ctx : Nat)
  | bind (k m : Nat)
  | unbind (k : Nat)
  deriving DecidableEq, Repr

/-- What has reached a barrier and is not yet applied: that of the present clock, and arrivals held at an object that checks or at a
half that waits (R306, R307, R303). The token goes to register `dest` of a group that has gone on, else to its arrival record. -/
structure Arrival where
  bar : BarId
  agent : Nat
  act : BarAct
  clk : Nat
  dest : Option Nat
  deriving DecidableEq, Repr

/-- A balance-monitor check in progress (R319): the object, its monitors, the slices still to collect, the sums and
flags gathered, and the phase that completes. -/
structure Check where
  pa : Nat
  ctx : Nat
  mons : List (Nat × Nat)
  slices : List Nat
  sums : AMap (Option Int × BitVec 4)
  deriving DecidableEq, Repr

/-- A monitor's partial in one slice (R317): the cell and its per-phase flags TRUNC, OVF, NONFIN, MALF. -/
structure Partial where
  cell : Nat
  flags : BitVec 4
  deriving DecidableEq, Repr

/-- A miss outstanding (R352): the context and address, the accesses that joined it. -/
structure Miss where
  die : Nat
  ctx : Nat
  va : Nat
  write : Bool
  joined : List (Nat × Nat)
  deriving DecidableEq, Repr

/-- A committed capsule log whose apply is in progress (R329): the line, the virtual addresses of its entries, and whether a
`cape` committed it (R338). -/
structure CapLog where
  line : Nat
  ctx : Nat
  vas : List Nat
  last : Bool
  deriving DecidableEq, Repr

/-! ### Links, engines, messages (19, 12) -/

/-- The link states of R361. -/
inductive LState where
  | disabled | training | active | retraining | down
  deriving DecidableEq, Repr

/-- A link (R361), with what its last training gave a host link (R348, R374): the role, the HDM range, CXL.cache. -/
structure Link where
  en : Bool
  fast : Bool
  role : Bool
  state : LState
  half : Bool
  refused : Bool
  fastOn : Bool
  replays : Nat
  retrains : Nat
  trained : Option Bool
  hdm : Option (Nat × Nat)
  cxlCache : Bool
  deriving DecidableEq, Repr

/-- A DMA engine (R268, R121): its privileged descriptors, its node work, whether it last served a descriptor, and a
violation that froze it with the work in hand (R408) and
its address, the units of that work done, what the engine has read of its descriptor or node, and whether the descriptor in hand has its
STATUS written and waits for its release (R269). -/
structure Engine where
  descs : List Nat
  current : Option Nat
  work : List (Nat × Nat)
  lastPriv : Bool
  held : Bool
  pass : Option Nat
  unit : Nat
  entry : Option LEntry
  compl : Nat
  cval : Nat
  faddr : Nat
  ending : Bool
  deriving DecidableEq, Repr

/-- What leaves the part: replies to hosts and peers, requests to them, and messages. -/
inductive OutMsg where
  | hostReply (x f : Nat) (refused : Bool) (data : Nat)
  | cxlReply (x : Nat) (poisoned : Bool) (data : Nat)
  | snoopReply (line : Nat) (data : Nat)
  | backSnoop (id line : Nat)
  | fabricReply (port : Nat) (refused : Bool) (data : Nat)
  | request (id : Nat) (write : Bool) (pa size data : Nat)
  | atomic (id pa size : Nat) (op : AtomOp) (et data cmp : Nat)
  | revoke (peer lease : Nat)
  | acknowledge (peer lease : Nat)
  | informed (lease : Nat)
  | report (message signature : Nat)
  | certificate (key signature : Nat)
  | windowReply (data : Nat)
  | reportRefused
  deriving DecidableEq, Repr

/-- What the coming bring-up meets (R362, R402, R403, R409): outcomes that the outside world decides, the UCIe links that train at half
width, and the compute dies that the package is shipped without. -/
structure BringUp where
  imageOk : Bool
  cdOk : BitVec 4
  xdOk : BitVec 2
  linkOk : Bool
  half : BitVec 9
  absent : BitVec 4
  deriving DecidableEq, Repr

/-- A stop record that is still to be written (R392): its agent, STOPW, STOPPC and STOPLSEQ. -/
structure StopRec where
  agent : Nat
  word : Nat
  pc : BitVec 57
  lseq : BitVec 64
  deriving DecidableEq, Repr

/-- What follows once requests have been answered that used translations since dropped (18 R355): a TLB command of a context is done, or a
borrower acknowledges the end of a lease (R360). -/
inductive Settled where
  | tlb (ctx : Nat)
  | lease (l : Nat)
  deriving DecidableEq, Repr

/-! ### The machine -/

/-- The state of the part. -/
structure State where
  clk : BitVec 64
  liveCd : BitVec 4
  liveXd : BitVec 2
  ready : Bool
  recovery : Bool
  calfail : Bool
  throttle : Bool
  stage : BitVec 4
  watts : BitVec 12
  mhz10 : BitVec 8
  regs : AMap (BitVec 64)
  ctxSts : BitVec 64
  qSts : BitVec 64
  tlbSts : BitVec 64
  dbgSts : BitVec 64
  dmaOvr : Bool
  dmaEngine : BitVec 5
  frzDma : BitVec 32
  frzHost : BitVec 4
  frzPort : BitVec 64
  frzAddr : BitVec 64
  rcvLen : BitVec 29
  rcvBusy : Bool
  rcvResult : BitVec 2
  links : AMap Link
  lseq : BitVec 64
  image : Option (Nat × List Host.Cell)
  lmsIndex : Nat
  attKey : Nat
  devIndex : Nat
  mem : List Host.Cell
  poison : List Nat
  hostLines : AMap Nat
  hdmHeld : List Nat
  guests : AMap (AMap Guest)
  writes : List PendWrite
  fills : List Fill
  invs : List (Nat × Nat)
  clLines : AMap Nat
  extReqs : List ExtReq
  heldMsgs : List (Nat × OutMsg)
  watches : List Watch
  partials : AMap Partial
  checks : List Check
  arrivals : List Arrival
  objDogs : AMap Nat
  objFails : AMap (BitVec 64)
  later : List (Nat × Nat × Nat × Nat)
  recWrites : List (Nat × Nat × BitVec 64 × BitVec 64)
  dieTlb : AMap (List TlbEntry)
  ptrCache : AMap (List (Nat × Nat))
  misses : List Miss
  settling : List (List Nat × List PendWrite × Settled)
  capLogs : List CapLog
  capVas : AMap (List Nat)
  ctxs : AMap Ctx
  queues : AMap Queue
  graphs : AMap Graph
  dies : AMap Die
  grids : AMap Grid
  clusters : AMap Cluster
  blocks : AMap Block
  cores : AMap Core
  groups : AMap Group
  issue : List Nat
  used : List Nat
  putOff : List Nat
  lastWin : AMap Nat
  engines : AMap Engine
  markings : List (Nat × Nat)
  revoking : List Nat
  heldCmd : Option Instr
  snapClk : Nat
  powerClk : Nat
  stopRecs : List StopRec
  regWrites : List Instr
  agenda : List Instr
  outbox : List OutMsg
  freeCtr : Nat
  bringUp : BringUp
  nextId : Nat
  deriving DecidableEq, Repr

/-- Where the model stops with a fault: a state that the machine itself never reaches. -/
inductive Fault where
  /-- An instruction word executed while no group holds an issue slot (R154): raised by every word's meaning through
  `issueWord`; safe, since the machine issues a word only for a group that holds a slot. -/
  | noIssuingGroup
  deriving DecidableEq, Repr

/-- Where the model refuses. -/
inductive Refusal where
  /-- An instruction without a meaning yet: raised by `exec`; safe. -/
  | notModelled (mnemonic : String)
  deriving DecidableEq, Repr

/-! ### Values at launch and at reset -/

/-- No capsule open (R334). -/
def CapState.none : CapState :=
  { shadow := Vector.replicate 16 0, line := 0, ownpc := 0, cseq := 0, role := 0, cmode := false, cfpc := 0,
    stores := [], words := 0, onB := false, reenter := false }

/-- A barrier at launch, with `n` arrivals expected (R303). -/
def Bar.launch (n : Nat) : Bar := ⟨0, n, n, 0, 0, 0⟩

/-- A group at launch (R146), LAUNCHING; the generator states are those of R50 for the seed. -/
def Group.launch (block gid kregs : Nat) (entry seed : BitVec 64) (gen : Vector (BitVec 32) 8) : Group :=
  { block := block, gid := gid, kregs := kregs, state := .launching,
    v := Vector.replicate 128 0, k := Vector.replicate 128 0, s := Vector.replicate 32 0,
    p := Vector.replicate 8 0, h := Vector.replicate 16 0, y := Vector.replicate 4 ⟨0, 0⟩, vreds := [],
    mode := 0, fpstat := 0, seed := seed, gen := gen,
    path0 := some ⟨entry.truncate 57, 0xFF, 0, 0⟩, path1 := none, onB := true, depth := 0, splitC := 2,
    phase := 0, phTimer := 0, pendPhase := false, phOver := false, pendFp := none,
    xpc := 0, xmode := 0, xcause := 0, xaddr := 0, xaux := 0,
    trapMode := false, cob := false, cobRun := false, stopCause := 0, energy := 0,
    arrivals := [], fate := none, cap := CapState.none, promo := 0, readyClk := 0, yielded := false, dep := none, woke := false,
    sent := false, waitClk := 0, exts := [], runWords := 0, acqClk := 0, going := [], entry := none, poison := [] }

/-- A monitor never set (log 6). -/
def Mon.reset : Mon := ⟨0, false, 0, false, 0, 0, 0, 0, 0, 0, 0, 0, 0, none⟩

/-- A context after part reset (R92, log 6). -/
def Ctx.reset : Ctx :=
  { state := .destroyed, nbv := 0, pinVariant := false, levels := 0, ptroot := 0, savepa := 0, tvec := 0, cvec := 0,
    spill := 0, montab := 0, wptab := 0, d1 := 0, d2 := 0, bwdog := 0, vwait := 0, seed0 := 0, gen := 0, fcause := 0,
    fdetail := 0, active := false, dcnt := 0, mons := Vector.replicate 16 Mon.reset, wps := Vector.replicate 16 none,
    bcast := false, noFire := false, resumeDue := false, dumping := none, sealed := false, saved := [], restoring := false }

/-- A queue after part reset (R104, log 6). -/
def Queue.reset : Queue :=
  { state := .closed, prio := 0, ctx := 0, ring := 0, log2n := 0, head := 0, done := 0, fcode := 0, dlimit := 0,
    tailpa := 0, tail := 0, eff := 0, waitClk := 0, entry := none, flying := none, drainDue := false }

/-- An accumulator slot that no tile holds (R281). -/
def AccSlot.reset : AccSlot := ⟨false, 0, 0, 0, 0, 0⟩

/-- A core after part reset (R17, R33, R281, R399, R403). -/
def Core.reset : Core :=
  { rb := 16, sb := 24, lb := 32, werr := false, recut := [], scr := [], l1 := [], missing := [], acc := [],
    slots := Vector.replicate 32 AccSlot.reset, accQ := [], lacers := Vector.replicate 4 [],
    ctr := Vector.replicate 64 0, trace := ⟨0, 0, 0, false, [], 0⟩, tlb := [], lastCtx := none, energy := 0,
    since := 0, latch := none, scrPoison := [], accPoison := [] }

/-- A link after part reset; EN is 1 for UCIe and host links and 0 for UALink ports (R361). -/
def Link.reset (l : Nat) : Link :=
  { en := decide (l < 32), fast := false, role := false, state := .disabled, half := false, refused := false,
    fastOn := false, replays := 0, retrains := 0, trained := none, hdm := none, cxlCache := false }

/-- An engine after part reset (R268). -/
def Engine.reset : Engine := ⟨[], none, [], false, false, none, 0, none, 0, 0, 0, false⟩

/-- The reset values of the control page registers that State.regs holds (R385, R401, R404): PWRLIM, PERFCTL, TRCFG and
the energy weights; every other register resets to 0. -/
def regReset (off : Nat) : BitVec 64 :=
  match off with
  | 0x0040 => 2000
  | 0x0180 => 20
  | 0x0198 => 12
  | 0x0200 => 30
  | 0x0202 => 120
  | 0x0204 => 200
  | 0x0206 => 600
  | 0x0208 => 150
  | 0x020A => 900
  | 0x020C => 2700
  | 0x020E => 1400
  | 0x0210 => 5300
  | 0x0212 => 400
  | 0x0214 => 2000
  | 0x0216 => 300
  | _ => 0

/-- The machine right after part reset, before the first step of bring-up (R403). -/
def State.reset : State :=
  { clk := 0, liveCd := 0xF, liveXd := 3, ready := false, recovery := false, calfail := false, throttle := false,
    stage := 0, watts := 0, mhz10 := 240, regs := [], ctxSts := 0, qSts := 0, tlbSts := 0, dbgSts := 0,
    dmaOvr := false, dmaEngine := 0, frzDma := 0, frzHost := 0, frzPort := 0, frzAddr := 0,
    rcvLen := 0, rcvBusy := false, rcvResult := 0, links := [], lseq := 0, image := none, lmsIndex := 0, attKey := 0, devIndex := 0,
    mem := [], poison := [], hostLines := [], hdmHeld := [], guests := [], writes := [], fills := [], invs := [], clLines := [],
    extReqs := [], heldMsgs := [], watches := [], partials := [], checks := [], arrivals := [], objDogs := [], objFails := [], later := [], recWrites := [], dieTlb := [], ptrCache := [],
    misses := [], settling := [], capLogs := [], capVas := [], ctxs := [], queues := [], graphs := [], dies := [], grids := [], clusters := [],
    blocks := [], cores := [], groups := [], issue := [], used := [], putOff := [], lastWin := [], engines := [], markings := [],
    revoking := [], heldCmd := none, snapClk := 0, powerClk := 0, stopRecs := [], regWrites := [], agenda := [], outbox := [], freeCtr := 0, bringUp := ⟨true, 0xF, 3, true, 0, 0⟩, nextId := 1 }

end Sys2Proof.Machine
end

