-- ==== Sys2Proof/Machine/Store.lean ====
section
/-!
DEFINITION. Sys2Proof/Machine/Store.lean: lookup and update of data by number, and bytes of memory: a list of cells in one
canonical form, rising addresses and no cell that equals what an unlisted byte reads as, which is zero (22 R403).
-/

namespace Sys2Proof.Machine

/-- The value at a key. -/
def amGet {α : Type} (m : AMap α) (k : Nat) : Option α :=
  match m with
  | [] => none
  | (k', v) :: r => if k' = k then some v else if k < k' then none else amGet r k

/-- A value put at a key, in its place. -/
def amSet {α : Type} (m : AMap α) (k : Nat) (v : α) : AMap α :=
  match m with
  | [] => [(k, v)]
  | (k', v') :: r => if k < k' then (k, v) :: (k', v') :: r else if k' = k then (k, v) :: r else (k', v') :: amSet r k v

/-- A key removed. -/
def amDel {α : Type} (m : AMap α) (k : Nat) : AMap α :=
  match m with
  | [] => []
  | (k', v') :: r => if k' = k then r else if k < k' then (k', v') :: r else (k', v') :: amDel r k

/-- A value changed where the key is present. -/
def amUpd {α : Type} (m : AMap α) (k : Nat) (f : α → α) : AMap α :=
  match amGet m k with
  | none => m
  | some v => amSet m k (f v)

/-- Every value changed. -/
def amMap {α β : Type} (f : Nat → α → β) (m : AMap α) : AMap β := m.map fun kv => (kv.1, f kv.1 kv.2)

/-- The pairs that satisfy a test. -/
def amFilter {α : Type} (p : Nat → α → Bool) (m : AMap α) : AMap α := m.filter fun kv => p kv.1 kv.2

/-- Keys rise strictly. -/
def amSorted {α : Type} : AMap α → Bool
  | [] => true
  | [_] => true
  | (k, _) :: (k', v') :: r => decide (k < k') && amSorted ((k', v') :: r)

/-- The byte at an address: an unlisted byte reads as zero (R403). -/
def byteAt (m : List Host.Cell) (a : Nat) : BitVec 8 := (amGet m a).getD 0

/-- A byte written; a zero byte is not listed. -/
def setByte (m : List Host.Cell) (a : Nat) (b : BitVec 8) : List Host.Cell :=
  if b = 0 then amDel m a else amSet m a b

/-- `n` bytes from an address as a little-endian number (R4). -/
def readLE (m : List Host.Cell) (a : Nat) : Nat → Nat
  | 0 => 0
  | n + 1 => (byteAt m a).toNat + 256 * readLE m (a + 1) n

/-- `n` bytes of a number written from an address, little-endian (R4). -/
def writeLE (m : List Host.Cell) (a : Nat) (n v : Nat) : List Host.Cell :=
  match n with
  | 0 => m
  | n + 1 => writeLE (setByte m a (BitVec.ofNat 8 v)) (a + 1) n (v / 256)

/-- The bytes of [lo, hi) cleared. -/
def clearRange (m : List Host.Cell) (lo hi : Nat) : List Host.Cell := m.filter fun c => c.1 < lo || hi ≤ c.1

/-- The canonical form of memory: rising addresses, no zero byte listed. -/
def Memory.wf (m : List Host.Cell) : Bool := amSorted m && m.all fun c => c.2 != 0

/-- The bytes of a number from byte i, n of them. -/
def bytesOf (v i n : Nat) : Nat := v / 256 ^ i % 256 ^ n

/-- A number with its n bytes from byte i replaced. -/
def patchBytes (v i n w : Nat) : Nat :=
  v % 256 ^ i + (w % 256 ^ n) * 256 ^ i + v / 256 ^ (i + n) * 256 ^ (i + n)

/-- Numbers a, a + 1, …, of which there are n. -/
def numsFrom (a : Nat) : Nat → List Nat
  | 0 => []
  | n + 1 => a :: numsFrom (a + 1) n

/-- Insertion of a number into a rising list without repeats. -/
def insertNat (k : Nat) : List Nat → List Nat
  | [] => [k]
  | x :: r => if k < x then k :: x :: r else if x = k then x :: r else x :: insertNat k r

/-- The exclusive OR of the n-bit chunks of x, `fuel` of them (R20). -/
def foldXor (n : Nat) : Nat → Nat → Nat
  | 0, _ => 0
  | fuel + 1, x => (x % 2 ^ n) ^^^ foldXor n fuel (x / 2 ^ n)

/-- fold(x, n) of R20 for a 44-bit line number. -/
def fold (x n : Nat) : Nat := foldXor n 44 x

/-- A 64-bit field of a register: bits [hi:lo] (R4). -/
def bitsOf (x : BitVec 64) (hi lo : Nat) : Nat := x.toNat / 2 ^ lo % 2 ^ (hi + 1 - lo)

/-- A vector with element i replaced, where i is in range. -/
def vset {α : Type} {n : Nat} (v : Vector α n) (i : Nat) (x : α) : Vector α n := v.setIfInBounds i x

/-- Element i of a vector, or a default beyond its end. -/
def vget {α : Type} {n : Nat} (v : Vector α n) (i : Nat) (d : α) : α := v.getD i d

end Sys2Proof.Machine
end

