-- ==== Sys2Proof/Machine/Phys.lean ====
section
/-!
DEFINITION. Sys2Proof/Machine/Phys.lean: physical memory as the home slices perform it: the address map (01 R27, R28), home
slices (R20), poison (22 R406), the write of bytes at their home with everything that follows from it (guest copies R223,
watches R247, monitor contributions R316, R317), and the registers of the control page that State.regs holds.
-/

namespace Sys2Proof.Machine

/-! ### Records of State by number -/

/-- Context c. -/
def State.ctx (s : State) (c : Nat) : Ctx := (amGet s.ctxs c).getD Ctx.reset
/-- Context c changed. -/
def State.setCtx (s : State) (c : Nat) (x : Ctx) : State := { s with ctxs := amSet s.ctxs c x }
/-- Context c changed by a function. -/
def State.updCtx (s : State) (c : Nat) (f : Ctx → Ctx) : State := s.setCtx c (f (s.ctx c))
/-- Core c (device number). -/
def State.core (s : State) (c : Nat) : Core := (amGet s.cores c).getD Core.reset
/-- Core c changed. -/
def State.setCore (s : State) (c : Nat) (x : Core) : State := { s with cores := amSet s.cores c x }
/-- Core c changed by a function. -/
def State.updCore (s : State) (c : Nat) (f : Core → Core) : State := s.setCore c (f (s.core c))
/-- The counter of a core raised (21 R399). -/
def Core.count (c : Core) (i n : Nat) : Core := { c with ctr := vset c.ctr i (vget c.ctr i 0 + BitVec.ofNat 64 n) }
/-- A counter of core c raised. -/
def State.countUp (s : State) (c i n : Nat) : State := s.updCore c fun k => k.count i n
/-- Queue q. -/
def State.queue (s : State) (q : Nat) : Queue := (amGet s.queues q).getD Queue.reset
/-- Queue q changed. -/
def State.setQueue (s : State) (q : Nat) (x : Queue) : State := { s with queues := amSet s.queues q x }
/-- Link l. -/
def State.link (s : State) (l : Nat) : Link := (amGet s.links l).getD (Link.reset l)
/-- Link l changed. -/
def State.setLink (s : State) (l : Nat) (x : Link) : State := { s with links := amSet s.links l x }
/-- Engine e. -/
def State.engine (s : State) (e : Nat) : Engine := (amGet s.engines e).getD Engine.reset
/-- Engine e changed. -/
def State.setEngine (s : State) (e : Nat) (x : Engine) : State := { s with engines := amSet s.engines e x }
/-- The Marionette of die d. -/
def State.die (s : State) (d : Nat) : Die := (amGet s.dies d).getD ⟨[], 0, 0, 0, 0, 0⟩
/-- The Marionette of die d changed. -/
def State.setDie (s : State) (d : Nat) (x : Die) : State := { s with dies := amSet s.dies d x }
/-- Group of agent number a (R306), none where the slot is FREE. -/
def State.grp (s : State) (a : Nat) : Option Group := amGet s.groups a
/-- Group a put. -/
def State.setGrp (s : State) (a : Nat) (g : Group) : State := { s with groups := amSet s.groups a g }
/-- Group a changed by a function. -/
def State.updGrp (s : State) (a : Nat) (f : Group → Group) : State := { s with groups := amUpd s.groups a f }
/-- Block b. -/
def State.blk (s : State) (b : Nat) : Option Block := amGet s.blocks b
/-- Block b changed by a function. -/
def State.updBlk (s : State) (b : Nat) (f : Block → Block) : State := { s with blocks := amUpd s.blocks b f }
/-- Cluster b changed by a function. -/
def State.updCl (s : State) (b : Nat) (f : Cluster → Cluster) : State := { s with clusters := amUpd s.clusters b f }
/-- Grid g changed by a function. -/
def State.updGrid (s : State) (g : Nat) (f : Grid → Grid) : State := { s with grids := amUpd s.grids g f }
/-- A register of the control page that State.regs holds. -/
def State.reg (s : State) (off : Nat) : BitVec 64 := (amGet s.regs off).getD (regReset off)
/-- Such a register written. -/
def State.setReg (s : State) (off : Nat) (v : BitVec 64) : State := { s with regs := amSet s.regs off v }
/-- A number not used before. -/
def State.fresh (s : State) : Nat × State := (s.nextId, { s with nextId := s.nextId + 1 })
/-- Something leaves the part. -/
def State.send (s : State) (m : OutMsg) : State := { s with outbox := m :: s.outbox }

/-- The core of an agent (R306). -/
def coreOf (a : Nat) : Nat := a / Config.slotsPerCore
/-- The slot index of an agent within its core (R14). -/
def slotOf (a : Nat) : Nat := a % Config.slotsPerCore
/-- The quadrant of an agent, numbered over the device (R14). -/
def quadOf (a : Nat) : Nat := a / Config.slotsPerQuadrant
/-- The compute die of a core (R14). -/
def dieOf (core : Nat) : Nat := core / Config.coresPerDie
/-- The number of a Lacer among the agents that ask hosts and peers. -/
def lacerAgent (core l : Nat) : Nat := Config.agents + core * 4 + l
/-- The number of a DMA engine among them. -/
def engineAgent (e : Nat) : Nat := Config.agents + Config.cores * 4 + e
/-- The number of the part itself among them. -/
def partAgent : Nat := Config.agents + Config.cores * 4 + Config.engines
/-- The number under which a host is asked to give a line back (19 R374). -/
def snoopAgent : Nat := partAgent + 1
/-- The least number of a list. -/
def leastOf (xs : List Nat) : Option Nat := xs.foldl (fun m x => some (m.elim x (min x))) none
/-- A group holds a slot that has not yet been used in this clock (08 R154, R155). -/
def State.unused (s : State) (a : Nat) : Bool := !(s.used.any fun u => quadOf u == quadOf a)
/-- The group that issues next in this clock: in ascending quadrant (14 R289), those last whose word is put off (17 R336). -/
def State.turn (s : State) : Option Nat := leastOf (s.issue.filter fun a => s.unused a && !(s.putOff.contains a))
/-- Of the groups whose word is put off to the end of the clock, the next one, by ascending agent (17 R336). -/
def State.lateTurn (s : State) : Option Nat := leastOf (s.issue.filter fun a => s.unused a && s.putOff.contains a)

/-! ### The address map -/

/-- Where a physical address lies (R27); a hole is an address with nothing behind it (R28). -/
inductive Region where
  | hbm (die : Nat)
  | second (xd : Nat)
  | chip
  | host (x : Nat)
  | fabric
  | hole
  deriving DecidableEq, Repr

/-- The window of R27 that an address lies in, populated or not. -/
def windowOf (pa : Nat) : Region :=
  if pa < 2 ^ 40 then .hbm (pa / 2 ^ 38)
  else if pa < 2 ^ 41 then .second 0
  else if pa < 3 * 2 ^ 40 then .second 1
  else if pa < 2 ^ 42 then .chip
  else if pa < 2 ^ 48 then .hole
  else if pa < 2 ^ 48 + 2 ^ 47 then .host 0
  else if pa < 2 ^ 49 then .host 1
  else if pa < 2 ^ 51 then .hole
  else if pa < 2 ^ 52 then .fabric
  else .hole

/-- Where an address lies, with the unpopulated parts of windows and the windows of dies out of service as holes
(R28). -/
def State.region (s : State) (pa : Nat) : Region :=
  match windowOf pa with
  | .hbm d => if s.liveCd.getLsbD d && pa % 2 ^ 37 < Config.stackBytes then .hbm d else .hole
  | .second x => if s.liveXd.getLsbD x && pa % 2 ^ 40 < Config.secondTierBytes then .second x else .hole
  | .host x => if s.liveXd.getLsbD x then .host x else .hole
  | r => r

/-- The host link of I/O die x (R361). -/
def State.hostLink (s : State) (x : Nat) : Link := s.link (16 + x)

/-- A link that is DOWN or DISABLED (R363). -/
def LState.lost (x : LState) : Bool := x == .down || x == .disabled

/-- A link that holds new flits: it trains or retrains (R362). -/
def LState.holds (x : LState) : Bool := x == .training || x == .retraining

/-- A message leaves over a link, or waits at its port while the link holds new flits (R362). -/
def State.post (s : State) (l : Nat) (m : OutMsg) : State :=
  if (s.link l).state.holds then { s with heldMsgs := s.heldMsgs ++ [(l, m)] } else s.send m

/-- The messages that wait at the port of a link leave in order (R362). -/
def State.postHeld (s : State) (l : Nat) : State :=
  (s.heldMsgs.filter fun x => x.1 == l).foldl (fun s x => s.send x.2) { s with heldMsgs := s.heldMsgs.filter fun x => x.1 != l }

/-- The host link whose range holds a line (R374). -/
def State.hdmLink (s : State) (line : Nat) : Nat :=
  if (s.hostLink 0).hdm.any fun r => decide (r.1 ≤ line * 256 ∧ line * 256 < r.1 + r.2) then 16 else 17

/-- A line that the host holds is asked back, once; HOST_OR_PEER_COMPLETION says when the host has given it back (R374). -/
def State.snoopBack (s : State) (line : Nat) : State :=
  if s.hdmHeld.contains line && !(s.extReqs.any fun r => r.agent == snoopAgent && r.pa == line * 256) then
    ({ s with nextId := s.nextId + 1,
              extReqs := s.extReqs ++ [(⟨s.nextId, s.hdmLink line, snoopAgent, Config.contexts, true, line * 256, 256, none, none⟩ : ExtReq)] }
      : State).post (s.hdmLink line) (.backSnoop s.nextId line)
  else s

/-- A host port that last trained in the MEMORY role and is not DOWN or DISABLED (R348, R363). -/
def Link.memory (x : Link) : Bool := x.trained == some true && x.state != .down && x.state != .disabled

/-- An address of this module's memory: HBM, second tier, or the window of a host port in the MEMORY role (R22, R348). -/
def State.isMemory (s : State) (pa : Nat) : Bool :=
  match s.region pa with
  | .hbm _ => true
  | .second _ => true
  | .host x => (s.hostLink x).memory
  | _ => false

/-- Addresses in the HBM and second-tier windows, populated (R305, R326). -/
def State.isHbmOrSecond (s : State) (pa : Nat) : Bool :=
  match s.region pa with
  | .hbm _ => true
  | .second _ => true
  | _ => false

/-- An address in the populated HBM window. -/
def State.isHbm (s : State) (pa : Nat) : Bool :=
  match s.region pa with
  | .hbm _ => true
  | _ => false

/-- The first live compute die at or after d (R20). -/
def nextLive (live : BitVec 4) : Nat → Nat → Nat
  | 0, d => d % 4
  | fuel + 1, d => if live.getLsbD (d % 4) then d % 4 else nextLive live fuel (d + 1)

/-- The home slice of an address, as die * 64 + stop (R20). -/
def State.homeSlice (s : State) (pa : Nat) : Nat :=
  let line := pa / 256
  let die := if pa < 2 ^ 40 then pa / 2 ^ 38 else nextLive s.liveCd 4 (fold line 2)
  die * Config.slicesPerDie + fold line 6

/-- The home die of an address (R20). -/
def State.homeDie (s : State) (pa : Nat) : Nat := s.homeSlice pa / Config.slicesPerDie

/-- The fabric port that serves a fabric address, none where it is a hole (R376). -/
def State.fabricPort (s : State) (pa : Nat) : Option Nat :=
  let peer := pa / 2 ^ 40 % 2 ^ 11
  let mask := readLE s.mem (bitsOf (s.reg 0x0030) 51 12 * 2 ^ 12 + peer * 8) 8
  let ports := (List.range 64).filter fun k =>
    (mask / 2 ^ k % 2 == 1) && decide ((s.link (32 + k)).state = .active)
  if peer = bitsOf (s.reg 0x0038) 10 0 ∨ ports.length = 0 then none
  else ports[fold (pa / 256) 6 % ports.length]?

/-! ### Poison (R406) -/

/-- The 64-byte sectors that [pa, pa + n) touches. -/
def sectorsOf (pa n : Nat) : List Nat := if n = 0 then [] else numsFrom (pa / 64) ((pa + n - 1) / 64 - pa / 64 + 1)

/-- Whether a read of [pa, pa + n) meets a poisoned sector. -/
def State.poisoned (s : State) (pa n : Nat) : Bool := (sectorsOf pa n).any fun k => s.poison.contains k

/-- The poison left after a write of [pa, pa + n): a sector written whole is clean (R406). -/
def clearPoison (poison : List Nat) (pa n : Nat) : List Nat :=
  poison.filter fun k => !(pa ≤ k * 64 && k * 64 + 64 ≤ pa + n)

/-! ### Watches (R247) -/

/-- The overflow filter bit of a line (R247). -/
def filterBit (pa : Nat) : Nat := fold (pa / 256) 12

/-- A write of [pa, pa + n) ends the watches on its bytes, and every overflow wait of its slice on its filter bit. -/
def fireWatches (s : State) (pa n : Nat) : List Watch :=
  s.watches.map fun w =>
    if (w.pa < pa + n && pa < w.pa + w.size) ||
        (w.overflow && filterBit w.pa == filterBit pa && s.homeSlice w.pa == s.homeSlice pa)
    then { w with fired := true } else w

/-- A watch installed at the home slice of its word, in the overflow set where the slice has none free (R247). -/
def State.arm (s : State) (kind : WatchKind) (pa size : Nat) : State :=
  let used := (s.watches.filter fun w => s.homeSlice w.pa == s.homeSlice pa && !w.overflow).length
  { s with watches := s.watches ++ [⟨kind, pa, size, decide (Config.sliceWatches ≤ used), false⟩] }

/-- The watches of one waiter dropped. -/
def State.disarm (s : State) (kind : WatchKind) : State :=
  { s with watches := s.watches.filter fun w => w.kind != kind }

/-! ### Monitor contributions (R315 to R318) -/

/-- Bytes of a monitored field (R315). -/
def Mon.size (m : Mon) : Nat :=
  match m.fmt with
  | 0 => 4 | 1 => 8 | 2 => 2 | 3 => 4 | _ => 8

/-- The value of a field in a monitor's format (R316). -/
def Mon.value (m : Mon) (raw : Nat) : XVal :=
  match m.fmt with
  | 0 => Fmt.decode .fp32 raw
  | 1 => Fmt.decode .fp64 raw
  | 2 => Fmt.decode .bf16 raw
  | 3 => XVal.ofInt (sgOf 32 raw)
  | _ => XVal.ofInt (sgOf 64 raw)

/-- The flags of a partial: bit 0 TRUNC, 1 OVF, 2 NONFIN, 3 MALF, in the order of word 0x30 (R315). -/
def monTrunc : BitVec 4 := 1
def monOvf : BitVec 4 := 2
def monNonfin : BitVec 4 := 4
def monMalf : BitVec 4 := 8

/-- A value in units of 2^-96, toward zero, and whether bits were lost (R317). -/
def truncCell : XVal → Int × Bool
  | .fin neg mag exp _ =>
    let up := mag * 2 ^ (exp + 96).toNat
    let d := 2 ^ (-(exp + 96)).toNat
    let c : Int := (up / d : Nat)
    (if neg then -c else c, up % d != 0)
  | _ => (0, false)

/-- Magnitude at least 2^159 (R54, R317). -/
def XVal.huge : XVal → Bool
  | .fin _ m e _ => magLe 1 159 m e
  | _ => false

/-- `monitor_add` of R317. -/
def monitorAdd (p : Partial) (delta : Bool) (new old : XVal) : Partial :=
  let bad := fun (x : XVal) => x.isNan || x.isInf
  if bad new || (delta && bad old) then ⟨cellInvalid, p.flags ||| monNonfin⟩
  else if p.cell = cellInvalid then p
  else if new.huge || (delta && old.huge) then ⟨cellInvalid, p.flags ||| monOvf⟩
  else
    let (c1, l1) := truncCell new
    let (c2, l2) := if delta then truncCell old else (0, false)
    let sum := sgOf 256 p.cell + c1 - c2
    let f1 := if l1 || l2 then p.flags ||| monTrunc else p.flags
    let f2 := if sum ≤ -(2 ^ 255 : Nat) ∨ (2 ^ 255 : Nat) ≤ sum then f1 ||| monOvf else f1
    ⟨wrapTo 256 sum, f2⟩

/-- The number of a partial: context, monitor, slice (R317). -/
def partialKey (ctx mon slice : Nat) : Nat := (ctx * 16 + mon) * 256 + slice

/-- A partial, zero where nothing has been added. -/
def State.monPartial (s : State) (ctx mon slice : Nat) : Partial := (amGet s.partials (partialKey ctx mon slice)).getD ⟨0, 0⟩

/-- The records of a monitor that a write of [va, va + n) may touch. -/
def Mon.touched (m : Mon) (va n : Nat) : List Nat :=
  if m.stride = 0 then []
  else
    let first := (va - (m.base + m.offset + (m.size - 1))) / m.stride
    numsFrom first (n / m.stride + 2)

/-- One field's contribution: covered whole, or in part (R316). -/
def contribute (m : Mon) (va n old new : Nat) (p : Partial) (r : Nat) : Partial :=
  let f := m.base + r * m.stride + m.offset
  if f < m.base ∨ m.limit < f + m.size ∨ va + n ≤ f ∨ f + m.size ≤ va then p
  else if va ≤ f ∧ f + m.size ≤ va + n then
    monitorAdd p m.delta (m.value (bytesOf new (f - va) m.size)) (m.value (bytesOf old (f - va) m.size))
  else { p with flags := p.flags ||| monMalf }

/-- A write of `new` over `old` at va of a context counted by the context's enabled monitors at the home slice
(R316). -/
def countWrite (s : State) (ctx va pa n old new : Nat) : AMap Partial :=
  (List.range 16).foldl (fun ps i =>
    let m := vget (s.ctx ctx).mons i Mon.reset
    if m.en then
      let key := partialKey ctx i (s.homeSlice pa)
      let p := (amGet ps key).getD ⟨0, 0⟩
      let p' := (m.touched va n).foldl (contribute m va n old new) p
      if p' = p then ps else amSet ps key p'
    else ps) s.partials

/-! ### Bytes at their home -/

/-- Bytes of memory as the home slice holds them. -/
def State.read (s : State) (pa n : Nat) : Nat := readLE s.mem pa n

/-- The key of a guest sector: four to a line (R19). -/
def guestKey (line sector : Nat) : Nat := line * 4 + sector

/-- Guest sectors without those of a line. -/
def dropLine (m : AMap Guest) (line : Nat) : AMap Guest := m.filter fun x => x.1 / 4 != line

/-- The dies that hold a guest copy of a line, or to which a fill of it is on its way. -/
def State.guestDies (s : State) (line : Nat) : List Nat :=
  (List.range Config.computeDies).filter fun d =>
    ((amGet s.guests d).any fun m => m.any fun x => x.1 / 4 == line) || s.fills.any fun f => f.die == d && f.line == line

/-- A die forgets its guest copy of a line and the fills of it on their way. -/
def State.dropGuest (s : State) (die line : Nat) : State :=
  { s with guests := amUpd s.guests die (fun m => dropLine m line),
           fills := s.fills.filter fun f => !(f.die == die && f.line == line) }

/-- A write of n bytes performed at the home slice of pa (R227): for `who`, the context and address that monitors match
(R316). Guest copies are invalidated (R223), watches on the bytes end (R247), and a line that a cluster unit holds is recalled (R242).
The accesses of agents wait until a line that the host holds has come back (R374, `State.homeOpen`); the part's own accesses to its tables
and records ask for it and go on in the same step (log 38). -/
def State.performBytes (s : State) (who : Option (Nat × Nat)) (pa n data : Nat) : State :=
  let line := pa / 256
  let old := s.read pa n
  { s with
    mem := writeLE s.mem pa n data
    poison := clearPoison s.poison pa n
    invs := s.invs ++ (s.guestDies line).map fun d => (d, line)
    watches := fireWatches s pa n
    clLines := amDel s.clLines line
    hdmHeld := s.hdmHeld.filter fun l => l != line
    outbox := if s.hdmHeld.contains line then .backSnoop 0 line :: s.outbox else s.outbox
    partials := match who with
      | none => s.partials
      | some (ctx, va) => countWrite s ctx va pa n old data }

/-- A read performed at the home for a die (R223, R228): the die's own copy of the line is out of date from then on; a cluster unit gives
the line back first (R242). -/
def State.touchHome (s : State) (die pa : Nat) : State :=
  let line := pa / 256
  let s := s.dropGuest die line
  { s with clLines := amDel s.clLines line, hdmHeld := s.hdmHeld.filter fun l => l != line,
           outbox := if s.hdmHeld.contains line then .backSnoop 0 line :: s.outbox else s.outbox }

/-- An 8-byte field of a table in physical memory. -/
def State.read64 (s : State) (pa : Nat) : BitVec 64 := BitVec.ofNat 64 (s.read pa 8)

/-- A write by the part itself, which counts for no monitor and no context. -/
def State.write64 (s : State) (pa : Nat) (v : BitVec 64) : State := s.performBytes none pa 8 v.toNat

end Sys2Proof.Machine
end

