-- ==== Sys2Proof/Machine/Xlat.lean ====
section
/-!
DEFINITION. Sys2Proof/Machine/Xlat.lean: translation (18): table entries, the walk, the checks of a leaf, TLB lookup, the
accessed and dirty bits, and the direct walk that engines and the part's own accesses make.
-/

namespace Sys2Proof.Machine

/-! ### Trap causes (R160) -/

def cIllegalOpcode : Nat := 0x01
def cIllegalOperand : Nat := 0x02
def cPrivilege : Nat := 0x03
def cMisalign : Nat := 0x04
def cPageNotPresent : Nat := 0x05
def cProtection : Nat := 0x06
def cPoison : Nat := 0x07
def cLeaseRevoked : Nat := 0x08
def cAccQuota : Nat := 0x09
def cShapeMismatch : Nat := 0x0A
def cAccUnallocated : Nat := 0x0B
def cCapsuleViolation : Nat := 0x0C
def cCapsuleLimit : Nat := 0x0D
def cBalance : Nat := 0x0E
def cWatchpoint : Nat := 0x0F
def cBreakpoint : Nat := 0x10
def cTrapInsn : Nat := 0x11
def cPhaseOverrun : Nat := 0x12
def cBarrierStall : Nat := 0x13
def cDivergedCall : Nat := 0x14
def cDivstackOverflow : Nat := 0x15
def cRingError : Nat := 0x16
def cLaceFault : Nat := 0x17
def cFpException : Nat := 0x18
def cRestoreCorrupt : Nat := 0x19
def cDoubleTrap : Nat := 0x1A
def cGraphError : Nat := 0x1B

/-- The access kinds of R350, coded as XAUX [7:6] of R351. -/
inductive Access where
  | read | write | fetch | rw
  deriving DecidableEq, Repr

/-- XAUX code of an access kind (R351). -/
def Access.code : Access → Nat
  | .read => 0 | .write => 1 | .fetch => 2 | .rw => 3

/-- An access that sets D (R356). -/
def Access.writes : Access → Bool
  | .write => true | .rw => true | .read => false | .fetch => false

/-! ### Table entries (R346 to R348) -/

/-- log2 of what an entry of a level covers (R346). -/
def levelShift (lv : Nat) : Nat := 7 + 9 * lv

/-- The first address that tables of L levels do not map (R346). -/
def vaLimit (levels : Nat) : Nat := if levels = 5 then 2 ^ 57 else 2 ^ (16 + 9 * levels)

/-- The index of an address at a level (R346). -/
def levelIndex (va lv : Nat) : Nat := va / 2 ^ levelShift lv % 512

/-- STATE of an entry (R347). -/
def pteState (e : BitVec 64) : Nat := bitsOf e 2 0
/-- TIER of a leaf (R347). -/
def pteTier (e : BitVec 64) : Nat := bitsOf e 4 3
/-- LEAF of an entry (R347). -/
def pteLeaf (e : BitVec 64) : Bool := e.getLsbD 5
/-- SYS of a leaf (R347). -/
def pteSys (e : BitVec 64) : Bool := e.getLsbD 9
/-- D of a leaf (R347). -/
def pteD (e : BitVec 64) : Bool := e.getLsbD 11
/-- ADDR of an entry as an address (R347). -/
def pteAddr (e : BitVec 64) : Nat := bitsOf e 51 12 * 2 ^ 12
/-- LEASE of a leaf (R347). -/
def pteLease (e : BitVec 64) : Nat := bitsOf e 63 52

/-- A leaf's ADDR lies in its tier's windows (R348). -/
def State.tierOk (s : State) (tier pa : Nat) (sys : Bool) : Bool :=
  match tier, windowOf pa with
  | 0, .hbm _ => true
  | 0, .chip => sys
  | 1, .second _ => true
  | 1, .host x => (s.hostLink x).trained == some true
  | 2, .host _ => true
  | 3, .fabric => true
  | _, _ => false

/-- A malformed entry (R348); the caller has seen that its STATE is not 0. -/
def State.malformed (s : State) (e : BitVec 64) (lv : Nat) : Bool :=
  if (lv = 1 ∧ pteLeaf e = false) ∨ (4 ≤ lv ∧ pteLeaf e = true) then true
  else if pteLeaf e then
    pteAddr e % 2 ^ levelShift lv != 0 ||
    ((1 ≤ pteState e && pteState e ≤ 4) && pteTier e + 1 != pteState e) ||
    !(s.tierOk (pteTier e) (pteAddr e) (pteSys e))
  else 2 ≤ pteState e || !s.isHbm (pteAddr e)

/-- Where a walk ends (R349). -/
inductive Walk where
  /-- A leaf, its level, and the address of the entry. -/
  | leaf (e : BitVec 64) (lv : Nat) (at' : Nat)
  /-- A fault: cause, level, STATE of the entry, reason of R351. -/
  | fault (cause lv st reason : Nat)
  deriving DecidableEq, Repr

/-- The walk from a node at a level downward (R349). -/
def State.walkFrom (s : State) (va : Nat) : Nat → Nat → Walk
  | 0, _ => .fault cProtection 0 0 4
  | lv + 1, node =>
    let at' := node + levelIndex va (lv + 1) * 8
    let e := s.read64 at'
    if s.poisoned at' 8 then .fault cPoison (lv + 1) (pteState e) 5
    else if pteState e = 0 then .fault cPageNotPresent (lv + 1) 0 0
    else if s.malformed e (lv + 1) then .fault cProtection (lv + 1) (pteState e) 4
    else if pteLeaf e then .leaf e (lv + 1) at'
    else s.walkFrom va lv (pteAddr e)

/-- The walk of an address in a context (R349). -/
def State.walk (s : State) (ctx va : Nat) : Walk :=
  let c := s.ctx ctx
  if vaLimit c.levels ≤ va then .fault cProtection 0 0 1 else s.walkFrom va c.levels c.ptroot

/-- XAUX of a translation fault (R351). -/
def xauxOf (lv st : Nat) (k : Access) (reason lease : Nat) : BitVec 64 :=
  BitVec.ofNat 64 (lv + st * 8 + k.code * 64 + reason * 256 + lease * 4096)

/-- STATE of a lease's entry (R359). -/
def State.leaseState (s : State) (l : Nat) : Nat :=
  s.read (bitsOf (s.reg 0x0020) 51 17 * 2 ^ 17 + l * 32) 1 % 4

/-- What translation gives an access. -/
inductive XRes where
  | ok (pa : Nat)
  | fault (cause : Nat) (aux : BitVec 64)
  /-- LEASE_REVOKED found through the lease: the leaf at an address takes STATE REVOKED first (R350). -/
  | revoke (aux : BitVec 64) (at' : Nat)
  /-- A MIGRATING leaf: the access waits for a write of its word (R357). -/
  | migrating (at' : Nat)
  /-- No cached leaf serves the access: it waits for a walk (R352), which is to end at an address. -/
  | miss (pa : Nat)
  deriving DecidableEq, Repr

/-- A leaf checked against an access (R350): its state first, then SYS, then R, W and X. -/
def State.checkLeaf (s : State) (e : BitVec 64) (lv at' va : Nat) (k : Access) (priv : Bool) : XRes :=
  let perm : XRes :=
    if pteSys e && !priv then .fault cProtection (xauxOf lv (pteState e) k 3 0)
    else
      let r := e.getLsbD 6
      let w := e.getLsbD 7
      let granted := match k with
        | .read => r | .write => w | .rw => r && w | .fetch => e.getLsbD 8
      if granted then .ok (pteAddr e + va % 2 ^ levelShift lv)
      else .fault cProtection (xauxOf lv (pteState e) k 2 0)
  match pteState e with
  | 1 => perm
  | 2 => perm
  | 3 => perm
  | 4 =>
    if s.leaseState (pteLease e) = 1 ∨ s.leaseState (pteLease e) = 2 then perm
    else .revoke (xauxOf lv 4 k 0 (pteLease e)) at'
  | 5 => .migrating at'
  | 6 => .fault cLeaseRevoked (xauxOf lv 6 k 0 (pteLease e))
  | _ => .fault cPoison (xauxOf lv 7 k 0 0)

/-- An access checked through the tables as they stand. -/
def State.walkCheck (s : State) (ctx va : Nat) (k : Access) (priv : Bool) : XRes :=
  match s.walk ctx va with
  | .fault c lv st reason => .fault c (xauxOf lv st k reason 0)
  | .leaf e lv at' => s.checkLeaf e lv at' va k priv

/-- A and D set in a leaf by an indivisible OR at its home (R356). -/
def State.setAD (s : State) (ctx va : Nat) (d : Bool) : State :=
  match s.walk ctx va with
  | .fault .. => s
  | .leaf e _ at' =>
    let e' := e ||| (if d then 0xC00 else 0x400)
    if e' = e then s else s.write64 at' e'

/-- STATE := REVOKED written into a leaf (R350). -/
def State.setRevoked (s : State) (at' : Nat) : State :=
  s.write64 at' ((s.read64 at' &&& ~~~7#64) ||| 6#64)

/-! ### TLBs (R352) -/

/-- A cached leaf maps an address of a context. -/
def TlbEntry.maps (t : TlbEntry) (ctx va : Nat) : Bool :=
  t.ctx == ctx && t.va / 2 ^ levelShift t.level == va / 2 ^ levelShift t.level

/-- The cached leaf for an address: the core's TLB, then the die's (R352). -/
def State.tlbLookup (s : State) (core ctx va : Nat) : Option TlbEntry :=
  match (s.core core).tlb.find? fun t => t.maps ctx va with
  | some t => some t
  | none => ((amGet s.dieTlb (dieOf core)).getD []).find? fun t => t.maps ctx va

/-- Translation of a group's access on its core (R219, R349 to R352, R356): a cached leaf serves it, unless the access
writes and D is clear; without one the tables decide a fault or a wait at once, and otherwise the access waits for a
walk. A cached leaf whose lease has ended is left to the walker, which writes its STATE (R350). -/
def State.translate (s : State) (core ctx va : Nat) (k : Access) (priv : Bool) : XRes :=
  if 2 ^ 57 ≤ va then .fault cProtection 0
  else
    let fresh : XRes :=
      match s.walkCheck ctx va k priv with
      | .ok pa => .miss pa
      | r => r
    match s.tlbLookup core ctx va with
    | none => fresh
    | some t =>
      if k.writes && !pteD t.leaf then fresh
      else
        match s.checkLeaf t.leaf t.level 0 va k priv with
        | .revoke _ _ => fresh
        | r => r

/-- A translation made outside the TLBs, by an engine or by the part itself: the walk, then A and D (R356). -/
def State.direct (s : State) (ctx va : Nat) (k : Access) (priv : Bool) : XRes × State :=
  if 2 ^ 57 ≤ va then (.fault cProtection 0, s)
  else
    match s.walkCheck ctx va k priv with
    | .ok pa => (.ok pa, s.setAD ctx va k.writes)
    | .revoke aux at' => (.fault cLeaseRevoked aux, s.setRevoked at')
    | r => (r, s)

/-- A list cut to its newest n. -/
def keepNewest {α : Type} (n : Nat) (xs : List α) : List α := xs.drop (xs.length - n)

/-- The set of a die TLB for a leaf: by 64 KiB page (the spec gives no index: log 13). -/
def TlbEntry.set (t : TlbEntry) : Nat := t.va / 2 ^ 16 % Config.dieTlbSets

/-- A die TLB with a leaf more; its set keeps its newest entries. -/
def fillSet (xs : List TlbEntry) (t : TlbEntry) : List TlbEntry :=
  let old := xs.filter fun x => !(x.maps t.ctx t.va)
  (old.filter fun x => x.set != t.set) ++ keepNewest Config.dieTlbWays ((old.filter fun x => x.set == t.set) ++ [t])

/-- A leaf filled into the TLBs of a die and a core (R352). -/
def State.fillTlb (s : State) (core : Nat) (t : TlbEntry) : State :=
  let drop := fun (xs : List TlbEntry) => xs.filter fun x => !(x.maps t.ctx t.va)
  let s := s.updCore core fun c => { c with tlb := keepNewest Config.coreTlbEntries (drop c.tlb ++ [t]) }
  { s with dieTlb := amSet s.dieTlb (dieOf core) (fillSet ((amGet s.dieTlb (dieOf core)).getD []) t) }

/-- A miss has the key of an address of a context on a die (R352). -/
def Miss.isFor (m : Miss) (die ctx va : Nat) : Bool := m.die == die && m.ctx == ctx && m.va / 2 ^ 16 == va / 2 ^ 16

/-- The miss table of a die holds the misses of addresses, or has room for those that join none (R352). -/
def State.missRoom (s : State) (die ctx : Nat) (vas : List Nat) : Bool :=
  let new := ((vas.filter fun va => !(s.misses.any fun m => m.isFor die ctx va)).map fun va => va / 2 ^ 16).eraseDups
  new == [] || decide ((s.misses.filter fun m => m.die == die).length + new.length ≤ Config.missEntries)

/-- A miss entered into the die's miss table, joining one of the same page, or with a walk of its own (R352, counters 10 and 11 of
21 R399). -/
def State.addMiss (s : State) (die ctx va agent core : Nat) (k : Access) : State :=
  let same := fun (m : Miss) => m.isFor die ctx va
  let s := s.countUp core 10 1
  if s.misses.any same then
    { s with misses := s.misses.map fun m =>
        if same m then { m with write := m.write || k.writes, joined := m.joined ++ [(agent, core)] } else m }
  else ({ s with misses := s.misses ++ [(⟨die, ctx, va, k.writes, [(agent, core)]⟩ : Miss)] } : State).countUp core 11 1

/-- The addresses that a core's TLB misses and its die's TLB holds (R352). -/
def State.dieHits (s : State) (core ctx : Nat) (vas : List Nat) : Nat :=
  (vas.filter fun va => !((s.core core).tlb.any fun t => t.maps ctx va) &&
    ((amGet s.dieTlb (dieOf core)).getD []).any fun t => t.maps ctx va).length

end Sys2Proof.Machine
end

