-- ==== Sys2Proof/Machine/Operands.lean ====
section
/-!
DEFINITION. Sys2Proof/Machine/Operands.lean: the fields of MODE (03 R72), element types and elements of lane registers
(02 R39), the register files of a group as an instruction reads and writes them (03 R69, R70), immediates and their
extension (03 R67), active lanes (03 R75).
-/

namespace Sys2Proof.Machine

/-! ### MODE (R72) -/

/-- MODE.G. -/
def modeG (m : BitVec 32) : BitVec 5 := m.extractLsb' 0 5
/-- MODE.ET. -/
def modeEt (m : BitVec 32) : Nat := (m.extractLsb' 5 4).toNat
/-- MODE.ET2. -/
def modeEt2 (m : BitVec 32) : Nat := (m.extractLsb' 9 4).toNat
/-- MODE.RM. -/
def modeRm (m : BitVec 32) : Nat := (m.extractLsb' 13 3).toNat
/-- MODE.SAT. -/
def modeSat (m : BitVec 32) : Bool := m.getLsbD 16
/-- MODE.FZ. -/
def modeFz (m : BitVec 32) : Bool := m.getLsbD 17
/-- MODE.SCOPE. -/
def modeScope (m : BitVec 32) : Nat := (m.extractLsb' 18 3).toNat
/-- MODE.TA. -/
def modeTa (m : BitVec 32) : Nat := (m.extractLsb' 21 3).toNat
/-- MODE.TB. -/
def modeTb (m : BitVec 32) : Nat := (m.extractLsb' 24 3).toNat

/-- The first bit, the width and the greatest legal code of the field that a `modei` code names (R72, R73, R74). -/
def modeField (code : Nat) : Option (Nat × Nat × Nat) :=
  match code with
  | 0 => some (0, 5, 31)
  | 1 => some (5, 4, 12)
  | 2 => some (9, 4, 12)
  | 3 => some (13, 3, 4)
  | 4 => some (16, 1, 1)
  | 5 => some (17, 1, 1)
  | 6 => some (18, 3, 5)
  | 7 => some (21, 3, 6)
  | 8 => some (24, 3, 6)
  | _ => none

/-- A MODE field replaced. -/
def setField (m : BitVec 32) (lo width v : Nat) : BitVec 32 :=
  BitVec.ofNat 32 (m.toNat % 2 ^ lo + v * 2 ^ lo + m.toNat / 2 ^ (lo + width) * 2 ^ (lo + width))

/-- No field of a MODE value holds a reserved code (R74). -/
def modeLegal (m : BitVec 32) : Bool :=
  decide (modeEt m ≤ 12 ∧ modeEt2 m ≤ 12 ∧ modeRm m ≤ 4 ∧ modeScope m ≤ 5 ∧ modeTa m ≤ 6 ∧ modeTb m ≤ 6)

/-! ### Element types (R72) -/

/-- Bits of an element of a type. -/
def etBits (et : Nat) : Nat :=
  match et with
  | 0x0 => 8 | 0x1 => 16 | 0x2 => 32 | 0x3 => 64 | 0x4 => 8 | 0x5 => 8 | 0x6 => 6 | 0x7 => 6 | 0x8 => 4
  | 0x9 => 16 | 0xA => 16 | 0xB => 32 | _ => 64

/-- Elements of a lane register of a type. -/
def etCount (et : Nat) : Nat :=
  match et with
  | 0x0 => 32 | 0x1 => 16 | 0x2 => 8 | 0x3 => 4 | 0x4 => 32 | 0x5 => 32 | 0x6 => 32 | 0x7 => 32 | 0x8 => 64
  | 0x9 => 16 | 0xA => 16 | 0xB => 8 | _ => 4

/-- The float format of a type, FP64 for the codes that are no float. -/
def etFmt (et : Nat) : Fmt :=
  match et with
  | 0x4 => .e4m3 | 0x5 => .e5m2 | 0x6 => .e3m2 | 0x7 => .e2m3 | 0x8 => .e2m1 | 0x9 => .bf16 | 0xA => .fp16
  | 0xB => .fp32 | _ => .fp64

/-- An integer type. -/
def isInt (et : Nat) : Bool := decide (et ≤ 3)
/-- A float type. -/
def isFloat (et : Nat) : Bool := decide (4 ≤ et ∧ et ≤ 12)
/-- BF16, FP16, FP32 or FP64. -/
def isWide (et : Nat) : Bool := decide (9 ≤ et ∧ et ≤ 12)
/-- An MX element type. -/
def isMx (et : Nat) : Bool := decide (4 ≤ et ∧ et ≤ 8)

/-- Element i of width w of a lane register (R39). -/
def elem (r w i : Nat) : Nat := r / 2 ^ (w * i) % 2 ^ w

/-- A lane register from its elements of width w, the lowest first; what they do not fill is zero. -/
def ofElems (w : Nat) : List Nat → Nat
  | [] => 0
  | x :: xs => x % 2 ^ w + 2 ^ w * ofElems w xs

/-- The elements of a lane register of a type. -/
def elems (et r : Nat) : List Nat := (List.range (etCount et)).map (elem r (etBits et))

/-- Registers of type `et` that hold n elements (10 R213). -/
def regsFor (et n : Nat) : Nat := (n + etCount et - 1) / etCount et

/-- Elements that a conversion keeps: those of the type with the more of them (10 R213). -/
def convCount (et et2 : Nat) : Nat := max (etCount et) (etCount et2)

/-- The element type of a TA or TB code (03 R72). -/
def taType (t : Nat) : Nat :=
  match t with
  | 0 => 0x4 | 1 => 0x5 | 2 => 0x6 | 3 => 0x7 | 4 => 0x8 | 5 => 0x9 | _ => 0xA

/-- Elements of a lane register of an operand type: kpr of 14 R286. -/
def kpr (et : Nat) : Nat := if et = 8 then 64 else if et = 9 ∨ et = 10 then 16 else 32

/-- Rows, columns, and K over 16 of a BF16 product, by shape (14 R286). -/
def shapeOf (code : Nat) : Nat × Nat × Nat :=
  match code with
  | 0 => (32, 32, 1) | 1 => (64, 64, 1) | 2 => (64, 64, 2) | 3 => (64, 64, 4)
  | 4 => (128, 64, 1) | 5 => (64, 128, 1) | 6 => (128, 128, 1) | _ => (128, 128, 2)

/-- Blocks of a register that requantisation writes, and the registers for nb blocks (14 R293). -/
def requantBpr (et : Nat) : Nat := if et = 8 then 2 else 1
def requantRegs (et nb : Nat) : Nat := (nb + requantBpr et - 1) / requantBpr et

/-! ### Register files -/

/-- Scalar register n. -/
def Group.sreg (g : Group) (n : Nat) : BitVec 64 := vget g.s n 0
/-- The poison of a group's registers left when one is written whole (22 R406). -/
def Group.cleaned (g : Group) (f : RegFile) (n l : Nat) : List RegAt := g.poison.filter fun r => r != ⟨f, n, l⟩
/-- Scalar register n written. -/
def Group.setS (g : Group) (n : Nat) (v : BitVec 64) : Group := { g with s := vset g.s n v, poison := g.cleaned .scalar n 0 }
/-- Predicate n. -/
def Group.preg (g : Group) (n : Nat) : BitVec 8 := vget g.p n 0
/-- Predicate n written. -/
def Group.setP (g : Group) (n : Nat) (v : BitVec 8) : Group := { g with p := vset g.p n v, poison := g.cleaned .pred n 0 }
/-- Handle n. -/
def Group.hreg (g : Group) (n : Nat) : BitVec 16 := vget g.h n 0
/-- Handle n written. -/
def Group.setH (g : Group) (n : Nat) (v : BitVec 16) : Group := { g with h := vset g.h n v, poison := g.cleaned .handle n 0 }
/-- Reduction result n. -/
def Group.yreg (g : Group) (n : Nat) : YReg := vget g.y n ⟨0, 0⟩

/-- Lane l of vector register n as a number. -/
def Group.vlane (g : Group) (n l : Nat) : Nat := (vget g.v n 0).toNat / 2 ^ (256 * l) % 2 ^ 256
/-- Lane l of scale register n as a number. -/
def Group.klane (g : Group) (n l : Nat) : Nat := (vget g.k n 0).toNat / 2 ^ (16 * l) % 2 ^ 16

/-- Lane l of a register of eight lanes of w bits replaced. -/
def setLane (w : Nat) (r : BitVec (8 * w)) (l v : Nat) : BitVec (8 * w) :=
  BitVec.ofNat (8 * w) (r.toNat % 2 ^ (w * l) + (v % 2 ^ w) * 2 ^ (w * l) + r.toNat / 2 ^ (w * (l + 1)) * 2 ^ (w * (l + 1)))

/-- Lane l of vector register n written. -/
def Group.setV (g : Group) (n l v : Nat) : Group :=
  { g with v := vset g.v n (setLane 256 (vget g.v n 0) l v), poison := g.cleaned .vector n l }
/-- Lane l of scale register n written. -/
def Group.setK (g : Group) (n l v : Nat) : Group :=
  { g with k := vset g.k n (setLane 16 (vget g.k n 0) l v), poison := g.cleaned .scale n l }
/-- Writes of parts of registers, after which they are poisoned as they were before (22 R406). -/
def Group.inPart (h g : Group) : Group := { h with poison := g.poison }

/-! ### Paths and lanes -/

/-- The path whose run the group issues: in trap mode the handler's, in PC slot 0 (R159, R162). -/
def Group.path (g : Group) : Option Path := if !g.trapMode && g.onB then g.path1 else g.path0

/-- That path's PC. -/
def Group.pc (g : Group) : BitVec 57 :=
  match g.path with
  | some p => p.pc
  | none => 0

/-- That path changed. -/
def Group.setPath (g : Group) (p : Option Path) : Group :=
  if !g.trapMode && g.onB then { g with path1 := p } else { g with path0 := p }

/-- The PC of that path moved. -/
def Group.moveTo (g : Group) (pc : BitVec 57) : Group := g.setPath (g.path.map fun p => { p with pc := pc })

/-- The lanes of that path: all eight in trap mode (R162). -/
def Group.mask (g : Group) : BitVec 8 :=
  if g.trapMode then 0xFF
  else match g.path with
    | some p => p.mask
    | none => 0

/-- The active lanes: the path's mask and the guard (R75). -/
def Group.active (g : Group) : BitVec 8 :=
  let gd := modeG g.mode
  if gd.getLsbD 3 then
    let p := g.preg (gd.extractLsb' 0 3).toNat
    g.mask &&& (if gd.getLsbD 4 then ~~~p else p)
  else g.mask

/-- Lanes of a mask, ascending. -/
def lanesOf (m : BitVec 8) : List Nat := (List.range 8).filter fun l => m.getLsbD l

/-! ### Fields of a word -/

/-- The number of bits of a field that its kind uses, as the bound of a register number (R69, R70). -/
def RegKind.fits (k : RegKind) (kregs f : Nat) : Bool :=
  match k with
  | .scalar => decide (f < 32)
  | .vector => decide (f < kregs)
  | .pred => decide (f < 8)
  | .handle => decide (f < 16)
  | .yreg => decide (f < 4)
  | .zero => decide (f = 0)
  | .code => true

/-- A span of n vector registers from one lies below the declared count (R70). -/
def spanFits (kregs first n : Nat) : Bool := decide (first + n ≤ kregs)

/-- The width of the immediate field of a format (R61). -/
def Format.immWidth : Format → Nat
  | .B => 7
  | .C => 14
  | .long => 21
  | .short => 14
  | _ => 0

/-- The raw immediate: the payloads of the prefixes, first to last, then the field (R67). -/
def rawImm (exts : List (BitVec 21)) (w f : Nat) : Nat :=
  exts.foldl (fun acc p => acc * 2 ^ 21 + p.toNat) 0 * 2 ^ w + f % 2 ^ w

/-- The signed immediate, none where R67 refuses it. -/
def signedImm (exts : List (BitVec 21)) (w f : Nat) : Option (BitVec 64) :=
  let n := 21 * exts.length + w
  let raw := rawImm exts w f
  if n ≤ 56 then some (BitVec.ofInt 64 (sgOf n raw))
  else if raw / 2 ^ 55 = 0 ∨ raw / 2 ^ 55 = 255 then some (BitVec.ofInt 64 (sgOf 56 (raw % 2 ^ 56)))
  else none

/-- The unsigned immediate, none where R67 refuses it. -/
def unsignedImm (exts : List (BitVec 21)) (w f : Nat) : Option (BitVec 64) :=
  let raw := rawImm exts w f
  if raw < 2 ^ 56 then some (BitVec.ofNat 64 raw) else none

end Sys2Proof.Machine
end

