-- ==== Sys2Proof/Machine/Flags.lean ====
section
/-!
DEFINITION. Sys2Proof/Machine/Flags.lean: FPSTAT (02 R48): the sticky flags and their trap enables (R49), and the rounding of
the elements of a lane with the lane's generator (R51).
-/

namespace Sys2Proof.Machine

/-- The trap enables of FPSTAT, in the order of the flags (R48). -/
def fpEnables (fpstat : BitVec 32) : FpFlags := fpstat.extractLsb' 8 5

/-- Flags set in FPSTAT: instructions only set them (R48). -/
def addFlags (fpstat : BitVec 32) (f : FpFlags) : BitVec 32 := fpstat ||| f.zeroExtend 32

/-- What a lane of an instruction computes: its value, its flags, its generator afterwards. -/
structure LaneOut where
  val : Nat
  flags : FpFlags
  gen : BitVec 32
  deriving DecidableEq, Repr

/-- The flags of every lane combined (R48). -/
def orFlags (fs : List FpFlags) : FpFlags := fs.foldl (· ||| ·) 0

/-- XAUX of FP_EXCEPTION (R49): the lanes that would set an enabled flag, and the enabled flags; none where no lane
would. -/
def fpTrap (fpstat : BitVec 32) (outs : List (Nat × FpFlags)) : Option (BitVec 64) :=
  let en := fpEnables fpstat
  let bad := outs.filter fun o => o.2 &&& en != 0
  if bad.length = 0 then none
  else
    let lanes := bad.foldl (fun m o => m + 2 ^ o.1) 0
    some (BitVec.ofNat 64 (lanes + (orFlags (bad.map fun o => o.2 &&& en)).toNat * 256))

/-- Roundings of a list of exact values in ascending element order, each with the flags found before it, drawing from one
lane's generator (R43, R51): codes, flags, the generator after. -/
def roundAll (F : Fmt) (rm : Nat) (sat fz : Bool) (gen : BitVec 32) : List (XVal × FpFlags) → List Nat × FpFlags × BitVec 32
  | [] => ([], 0, gen)
  | (x, f) :: xs =>
    let (c, f1, gen1) := roundDraw F rm sat fz gen x
    let (cs, f2, gen2) := roundAll F rm sat fz gen1 xs
    (c :: cs, f ||| f1 ||| f2, gen2)

end Sys2Proof.Machine
end

