-- ==== Sys2Proof/Machine/Array.lean ====
section
/-!
DEFINITION. Sys2Proof/Machine/Array.lean: accumulator memory, the slot table and the matrix array of a core (14): tiles by
their first slot and class, what an accepted accumulator instruction does to its tile (R285, R288 to R294), and the release
of handles (R290).
-/

namespace Sys2Proof.Machine

/-- Rows of a tile class (R280). -/
def classRows (cls : Nat) : Nat := if cls = 2 ∨ cls = 4 then 128 else 64
/-- Columns of a tile class (R280). -/
def classCols (cls : Nat) : Nat := if cls = 3 ∨ cls = 4 then 128 else 64
/-- Slots of a tile class (R280). -/
def classSlots (cls : Nat) : Nat := if cls = 4 then 4 else if cls = 2 ∨ cls = 3 then 2 else 1

/-- The part of a tile that holds element (i, j) (R280). -/
def elemPart (cls i j : Nat) : Nat :=
  match cls with
  | 2 => i / 64
  | 3 => j / 64
  | 4 => i / 64 + 2 * (j / 64)
  | _ => 0

/-- The slot that holds a part of the tile whose part 0 lies in `first`. -/
def Core.partSlot (c : Core) (first part : Nat) : Nat :=
  ((List.range Config.accSlots).find? fun k =>
    let e := vget c.slots k AccSlot.reset
    e.used && e.first == first && e.part == part).getD first

/-- Where element (i, j) of a tile sits in accumulator memory, in elements (R30, R280). -/
def Core.tileAt (c : Core) (cls first i j : Nat) : Nat :=
  c.partSlot first (elemPart cls i j) * 4096 + i % 64 * 64 + j % 64

/-- Element (i, j) of a tile: its FP32 bits. -/
def Core.tileGet (c : Core) (cls first i j : Nat) : Nat := (amGet c.acc (c.tileAt cls first i j)).getD 0

/-- An element of accumulator memory written; +0 is not listed. -/
def accPut (acc : AMap Nat) (k v : Nat) : AMap Nat := if v = 0 then amDel acc k else amSet acc k v

/-- Element (i, j) of a tile written. -/
def Core.tilePut (c : Core) (cls first i j v : Nat) : Core :=
  { c with acc := accPut c.acc (c.tileAt cls first i j) v, accPoison := c.accPoison.filter fun e => e != c.tileAt cls first i j }

/-- Element (i, j) of a tile added to: one that is poisoned stays so (22 R405). -/
def Core.tileAdd (c : Core) (cls first i j v : Nat) : Core := { c with acc := accPut c.acc (c.tileAt cls first i j) v }

/-- Element (i, j) of a tile is poisoned (22 R405). -/
def Core.tileBad (c : Core) (cls first i j : Nat) : Bool := c.accPoison.contains (c.tileAt cls first i j)

/-- The elements of a slot zeroed. -/
def clearSlot (acc : AMap Nat) (k : Nat) : AMap Nat := acc.filter fun e => e.1 / 4096 != k

/-- The poison of accumulator memory left when slots are zeroed. -/
def clearedSlots (bad ks : List Nat) : List Nat := bad.filter fun e => !(ks.contains (e / 4096))

/-- The slots of a tile. -/
def Core.tileSlots (c : Core) (first : Nat) : List Nat :=
  (List.range Config.accSlots).filter fun k =>
    let e := vget c.slots k AccSlot.reset
    e.used && e.first == first

/-- Every element of a tile set to +0 (R283, R291). -/
def Core.tileZero (c : Core) (first : Nat) : Core :=
  { c with acc := (c.tileSlots first).foldl clearSlot c.acc, accPoison := clearedSlots c.accPoison (c.tileSlots first) }

/-- Lists of products of one element by blocks of 32 k (R59). -/
def productBlocks (neg : Bool) (a b : List XVal) : Nat → List (List XVal)
  | 0 => []
  | n + 1 =>
    if a = [] then []
    else
      let ps := (List.zipWith (fun x y => (mulX x y).1) (a.take 32) (b.take 32)).map fun p => if neg then p.negate else p
      ps :: productBlocks neg (a.drop 32) (b.drop 32) n

/-- What an accepted instruction does when it completes. -/
def Core.applyWork (c : Core) (op : AccOp) : Core :=
  match op.work with
  | .azero => c.tileZero op.first
  | .apatch i j v => c.tilePut op.cls op.first i j v
  | .aget .. => c
  | .ast .. => c
  | .requant .. => c
  | .ald row col vals =>
    ((List.range 8).map fun l => ((List.range 64).map fun t => (l, t))).flatten.foldl
      (fun c lt => c.tilePut op.cls op.first (row + lt.1) (col + lt.2) ((vals.getD lt.1 []).getD lt.2 0)) c
  | .mma m n z neg nbv a b =>
    ((List.range m).map fun i => (List.range n).map fun j => (i, j)).flatten.foldl
      (fun c ij =>
        let acc := if z then 0 else c.tileGet op.cls op.first ij.1 ij.2
        (if z then Core.tilePut else Core.tileAdd) c op.cls op.first ij.1 ij.2
          (mmaElement nbv acc (productBlocks neg (a.getD ij.1 []) (b.getD ij.2 []) 8))) c

/-- A block of 32 elements of a tile: of row n from column 32 b, or of column n from row 32 b (R293). -/
def Core.tileBlock (c : Core) (cls first : Nat) (cols : Bool) (n b : Nat) : List XVal :=
  (List.range 32).map fun e =>
    Fmt.decode .fp32 (if cols then c.tileGet cls first (32 * b + e) n else c.tileGet cls first n (32 * b + e))

/-- Of register r of a lane that requantisation writes from row or column n, the elements and the scale bytes (R293). -/
def Core.requantLane (c : Core) (cls first : Nat) (cols : Bool) (et : Nat) (f clip : XVal) (n nb r : Nat) : Nat × Nat :=
  let F := etFmt et
  (List.range (requantBpr et)).foldl
    (fun (a : Nat × Nat) u =>
      let b := r * requantBpr et + u
      if b < nb then
        let q := quantiseBlock F f clip (c.tileBlock cls first cols n b)
        (a.1 + ofElems F.width q.2 * 2 ^ (32 * u * F.width), a.2 + q.1 * 2 ^ (8 * u))
      else a) (0, 0)

/-- A register that takes the value of poisoned elements is poisoned (22 R405). -/
def Group.taint (g : Group) (f : RegFile) (n l : Nat) (bad : Bool) : Group :=
  if bad then { g with poison := ⟨f, n, l⟩ :: g.poison } else g

/-- Row or column n of a tile holds a poisoned element among its 32 from 32 b on. -/
def Core.blockBad (c : Core) (cls first : Nat) (cols : Bool) (n b : Nat) : Bool :=
  (List.range 32).any fun e => if cols then c.tileBad cls first (32 * b + e) n else c.tileBad cls first n (32 * b + e)

/-- The registers that an instruction writes from poisoned elements of its tile are poisoned (22 R405). -/
def Core.taints (c : Core) (op : AccOp) (g : Group) : Group :=
  if c.accPoison = [] then g
  else
    match op.work with
    | .aget i j d => g.taint .scalar d 0 (c.tileBad op.cls op.first i j)
    | .ast row col d =>
      ((List.range 8).map fun l => (List.range 8).map fun v => (l, v)).flatten.foldl
        (fun g lv => g.taint .vector (d + lv.2) lv.1
          ((List.range 8).any fun t => c.tileBad op.cls op.first (row + lv.1) (col + 8 * lv.2 + t))) g
    | .requant cols et _ _ n nb d =>
      ((List.range 8).map fun l => (List.range (requantRegs et nb)).map fun r => (l, r)).flatten.foldl
        (fun g lr =>
          let bad := (List.range (requantBpr et)).any fun u =>
            let b := lr.2 * requantBpr et + u
            decide (b < nb) && c.blockBad op.cls op.first cols (n + lr.1) b
          (g.taint .vector (d + lr.2) lr.1 bad).taint .scale (d + lr.2) lr.1 bad) g
    | _ => g

/-- The registers of its group that an instruction writes from its tile as it completes (R289, R292 to R294). -/
def Core.written (c : Core) (op : AccOp) (g : Group) : Group :=
  match op.work with
  | .aget i j d => g.setS d (BitVec.ofNat 64 (c.tileGet op.cls op.first i j))
  | .ast row col d =>
    ((List.range 8).map fun l => (List.range 8).map fun v => (l, v)).flatten.foldl
      (fun g lv => g.setV (d + lv.2) lv.1
        (ofElems 32 ((List.range 8).map fun t => c.tileGet op.cls op.first (row + lv.1) (col + 8 * lv.2 + t)))) g
  | .requant cols et f clip n nb d =>
    ((List.range 8).map fun l => (List.range (requantRegs et nb)).map fun r => (l, r)).flatten.foldl
      (fun g lr =>
        let x := c.requantLane op.cls op.first cols et f clip (n + lr.1) nb lr.2
        (g.setV (d + lr.2) lr.1 x.1).setK (d + lr.2) lr.1 x.2) g
  | _ => g

/-- Those registers, with the poison of the elements that they take their values from. -/
def Core.results (c : Core) (op : AccOp) (g : Group) : Group := c.taints op (c.written op g)

/-- The registers that accepted work is to write: vector registers (with their scales) or a scalar, the first and the number. -/
def AccWork.writes : AccWork → Option (RegKind × Nat × Nat)
  | .aget _ _ d => some (.scalar, d, 1)
  | .ast _ _ d => some (.vector, d, 8)
  | .requant _ et _ _ _ nb d => some (.vector, d, requantRegs et nb)
  | _ => none

/-- The slots of a tile without bindings return to the free list when no accepted instruction on it is left (R283). -/
def Core.freeTile (c : Core) (first : Nat) : Core :=
  if (vget c.slots first AccSlot.reset).used && (vget c.slots first AccSlot.reset).binds == 0 &&
      !(c.accQ.any fun o => o.first == first) then
    { c with slots := (c.tileSlots first).foldl (fun s k => vset s k AccSlot.reset) c.slots }
  else c

/-- The oldest accepted instruction completes in the core (R289). -/
def Core.accStep (c : Core) : Core :=
  match c.accQ with
  | [] => c
  | op :: rest => ({ c with accQ := rest }.applyWork op).freeTile op.first

/-- The oldest accepted instruction of a core completes: its group's registers and its tile are written (R289). -/
def State.accStep (s : State) (core : Nat) : State :=
  let c := s.core core
  match c.accQ with
  | [] => s
  | op :: _ =>
    (if op.work.writes.isSome then s.updGrp op.agent (c.results op) else s).setCore core c.accStep

/-- Every accepted instruction of a core completes. -/
def State.accDrain (s : State) (core : Nat) : State := (s.core core).accQ.foldl (fun s _ => s.accStep core) s

/-- Registers of a group that accepted work is still to write (R285). -/
def Core.resultsDue (c : Core) (agent : Nat) : List (RegKind × Nat × Nat) :=
  (c.accQ.filter fun o => o.agent == agent).filterMap fun o => o.work.writes

/-- The group's accepted work on a tile. -/
def Core.ownWork (c : Core) (agent first : Nat) : Bool := c.accQ.any fun o => o.agent == agent && o.first == first
/-- The group's accepted writes on a tile. -/
def Core.ownWrites (c : Core) (agent first : Nat) : Bool := c.accQ.any fun o => o.agent == agent && o.first == first && o.work.writes.isNone
/-- The accumulator instructions of a group that are accepted and not complete. -/
def Core.ownCount (c : Core) (agent : Nat) : Nat := (c.accQ.filter fun o => o.agent == agent).length

/-- The binding word of a tile (R282). -/
def bindingWord (cls first : Nat) : BitVec 16 := BitVec.ofNat 16 (first + cls * 32)
/-- FIRST of a binding word. -/
def bindFirst (h : BitVec 16) : Nat := h.toNat % 32
/-- CLASS of a binding word. -/
def bindClass (h : BitVec 16) : Nat := h.toNat / 32 % 8

/-- BINDS of a tile changed, in each of its slots. -/
def Core.setBinds (c : Core) (first n : Nat) : Core :=
  { c with slots := (c.tileSlots first).foldl (fun s k => vset s k { vget s k AccSlot.reset with binds := n }) c.slots }

/-- A handle's binding released (R290). -/
def Core.unbind (c : Core) (first : Nat) : Core :=
  let n := (vget c.slots first AccSlot.reset).binds
  (c.setBinds first (n - 1)).freeTile first

/-- The slots that count toward a block's quota (R283). -/
def Core.heldSlots (c : Core) (block : Nat) : Nat :=
  ((List.range Config.accSlots).filter fun k =>
    let e := vget c.slots k AccSlot.reset
    e.used && e.block == block && e.binds != 0).length

/-- Slots of the free list, lowest first. -/
def Core.freeSlots (c : Core) : List Nat :=
  (List.range Config.accSlots).filter fun k => !(vget c.slots k AccSlot.reset).used

/-- A tile created for a block: its first slot and the core with the slots taken, zeroed and entered; none where the free
list is short (R283). -/
def Core.createTile (c : Core) (block cls : Nat) : Option (Nat × Core) :=
  let ks := c.freeSlots.take (classSlots cls)
  if ks.length < classSlots cls then none
  else
    let first := ks.headD 0
    let slots := (ks.zip (List.range 4)).foldl (fun s kp => vset s kp.1 ⟨true, kp.2, cls, first, 1, block⟩) c.slots
    some (first, { c with slots := slots, acc := ks.foldl clearSlot c.acc, accPoison := clearedSlots c.accPoison ks })

/-- A block's slots freed when it leaves the core (R148, R283). -/
def Core.dropBlockSlots (c : Core) (block : Nat) : Core :=
  let drop := fun (s : Vector AccSlot 32) (k : Nat) =>
    let e := vget s k AccSlot.reset
    if e.block == block && e.used then vset s k AccSlot.reset else s
  { c with slots := (List.range Config.accSlots).foldl drop c.slots }

end Sys2Proof.Machine
end

