-- ==== Sys2Proof/Machine/CapLine.lean ====
section
/-!
DEFINITION. Sys2Proof/Machine/CapLine.lean: the capsule line in memory and the operations that its home slice performs on it,
each one indivisible step (17 R326 to R329, R335 to R340).
-/

namespace Sys2Proof.Machine

/-! ### The line's fields (R326, R327) -/

/-- A 64-bit word of a line. -/
def State.lineWord (s : State) (line off : Nat) : BitVec 64 := s.read64 (line + off)
/-- STATE. -/
def State.lineState (s : State) (line : Nat) : Nat := bitsOf (s.lineWord line 0) 2 0
/-- CTX. -/
def State.lineCtx (s : State) (line : Nat) : Nat := bitsOf (s.lineWord line 0) 15 8
/-- HOLDER. -/
def State.lineHolder (s : State) (line : Nat) : Nat := bitsOf (s.lineWord line 0) 32 16
/-- ADOPTER. -/
def State.lineAdopter (s : State) (line : Nat) : Nat := bitsOf (s.lineWord line 0) 49 33
/-- STEP. -/
def State.lineStep (s : State) (line : Nat) : Nat := bitsOf (s.lineWord line 8) 4 0
/-- LOG. -/
def State.lineLog (s : State) (line : Nat) : Nat := bitsOf (s.lineWord line 8) 6 5
/-- NLOG. -/
def State.lineNlog (s : State) (line : Nat) : Nat := bitsOf (s.lineWord line 8) 9 7
/-- SEQ. -/
def State.lineSeq (s : State) (line : Nat) : Nat := bitsOf (s.lineWord line 8) 31 16
/-- ENTRY. -/
def State.lineEntry (s : State) (line : Nat) : BitVec 57 := (s.lineWord line 0x10).truncate 57
/-- EXIT. -/
def State.lineExit (s : State) (line : Nat) : BitVec 57 := (s.lineWord line 0x18).truncate 57

/-- The checkpoint: `s16` to `s31` (R326). -/
def State.lineCkpt (s : State) (line : Nat) : Vector (BitVec 64) 16 := Vector.ofFn fun i => s.lineWord line (0x20 + 8 * i.val)

/-- A lock word (R327). -/
def lockWord (st ctx holder adopter : Nat) : BitVec 64 :=
  BitVec.ofNat 64 (st + ctx * 2 ^ 8 + holder * 2 ^ 16 + adopter * 2 ^ 33)
/-- A step word (R327). -/
def stepWord (step log nlog seq : Nat) : BitVec 64 := BitVec.ofNat 64 (step + log * 2 ^ 5 + nlog * 2 ^ 7 + seq * 2 ^ 16)

/-- A malformed line (R327). -/
def State.lineMalformed (s : State) (line : Nat) : Bool :=
  let w0 := s.lineWord line 0
  let w1 := s.lineWord line 8
  bitsOf w0 7 3 != 0 || bitsOf w0 63 50 != 0 || decide (4 ≤ s.lineState line) ||
  bitsOf w1 15 10 != 0 || bitsOf w1 63 32 != 0 || s.lineLog line == 3 || decide (5 ≤ s.lineNlog line) ||
  decide (16 < s.lineStep line) ||
  bitsOf (s.lineWord line 0x10) 63 57 != 0 || bitsOf (s.lineWord line 0x18) 63 57 != 0 ||
  (List.range 4).any fun i =>
    let e := s.lineWord line (0xA0 + 24 * i)
    decide (i < s.lineNlog line) && (decide (4 < bitsOf e 63 60) || bitsOf e 59 52 != 0)

/-- The lock word written. -/
def State.setLock (s : State) (line st ctx holder adopter : Nat) : State :=
  s.write64 line (lockWord st ctx holder adopter)

/-! ### Applying a log (R329) -/

/-- The entries of the log applied in order, as device-scope writes on behalf of CTX; `vas` are the virtual addresses that
monitors match (R316), as far as they are known. -/
def State.applyEntries (s : State) (line : Nat) (vas : List Nat) : State :=
  (List.range (s.lineNlog line)).foldl
    (fun s i =>
      let e := s.lineWord line (0xA0 + 24 * i)
      let n := 2 ^ bitsOf e 63 60
      let who := (vas[i]?).map fun va => (s.lineCtx line, va)
      s.performBytes who (bitsOf e 51 0) n (s.read (line + 0xA8 + 24 * i) n)) s

/-- The delivery into the holder's record (R339). -/
def State.deliver (s : State) (line : Nat) : State :=
  let at' := (s.ctx (s.lineCtx line)).savepa + 0x13000000 + s.lineHolder line * 0x9000 + 0x200
  let data := s.read (line + 0x20) 128 + line * 2 ^ (8 * 0x80) + (s.lineExit line).toNat * 2 ^ (8 * 0x88) +
    s.lineSeq line * 2 ^ (8 * 0x90) + 2 ^ (8 * 0x92) + s.lineAdopter line * 2 ^ (8 * 0x94) + s.clk.toNat * 2 ^ (8 * 0x98)
  s.performBytes none at' 192 data

/-- The end of a `cape`: the delivery where the line was adopted, then FREE (R338). -/
def State.freeLine (s : State) (line : Nat) : State :=
  if s.lineState line = 3 then (s.deliver line).setLock line 0 (s.lineCtx line) 0 0
  else s.setLock line 0 (s.lineCtx line) 0 0

/-- The apply of a log in progress ends: LOG becomes APPLIED, and a `cape` then delivers and frees (R329, R338). -/
def State.finishLog (s : State) (c : CapLog) : State :=
  let s1 := { s with capLogs := s.capLogs.filter fun x => x.line != c.line }
  let s2 := s1.applyEntries c.line c.vas
  let s3 := s2.write64 (c.line + 8) (stepWord (s2.lineStep c.line) 2 (s2.lineNlog c.line) (s2.lineSeq c.line))
  if c.last then s3.freeLine c.line else s3

/-- An operation waits for an apply in progress (R329): the apply is finished first; a committed log without one is applied
first, and counted at the virtual addresses of the last commit to the line (log 36). -/
def State.settleLine (s : State) (line : Nat) : State :=
  match s.capLogs.find? fun c => c.line == line with
  | some c => s.finishLog c
  | none => if s.lineLog line = 1 then s.finishLog ⟨line, s.lineCtx line, (amGet s.capVas line).getD [], false⟩ else s

/-! ### The operations of the home slice -/

/-- What a `capb` is told (R336). -/
inductive CapReply where
  | acquired (seq : Nat)
  | adopt (ckpt : Vector (BitVec 64) 16) (entry : BitVec 57) (seq : Nat)
  | wait
  | prot
  | violation
  deriving DecidableEq, Repr

/-- `capb` at the home slice (R336): by agent `me` of a context, with the address of the next word and `s16` to `s31`. -/
def State.capAcquire (s : State) (line ctx me : Nat) (entry : BitVec 57) (regs : List (BitVec 64)) : CapReply × State :=
  if s.lineMalformed line then (.violation, s)
  else
    let s := s.settleLine line
    let st := s.lineState line
    if st ≠ 0 ∧ s.lineCtx line ≠ ctx then (.prot, s)
    else
      match st with
      | 0 =>
        let seq := (s.lineSeq line + 1) % 2 ^ 16
        let s := s.setLock line 1 ctx me 0
        let s := s.write64 (line + 8) (stepWord 0 0 0 seq)
        let s := s.write64 (line + 0x10) (entry.zeroExtend 64)
        let s := s.write64 (line + 0x18) 0
        let s := s.performBytes none (line + 0x20) 128 (ofElems 64 (regs.map (·.toNat)))
        (.acquired seq, s)
      | 2 =>
        let reply := CapReply.adopt (s.lineCkpt line) (s.lineEntry line) (s.lineSeq line)
        (reply, s.setLock line 3 (s.lineCtx line) (s.lineHolder line) me)
      | _ => (.wait, s)

/-- The bytes of a log (R328). -/
def logBytes (stores : List CapStore) : Nat :=
  (stores.zip (List.range 4)).foldl
    (fun n si => n + (si.1.pa + si.1.log2 * 2 ^ 60 + si.1.data.toNat % 2 ^ (8 * 2 ^ si.1.log2) * 2 ^ 64) * 2 ^ (192 * si.2)) 0

/-- A commit (R337, R338): refused unless the line names the group with the current SEQ; else the line is written and the
apply of its log is in progress. -/
def State.capCommit (s : State) (line me : Nat) (cseq : BitVec 16) (stores : List CapStore) (regs : List (BitVec 64))
    (next : BitVec 57) (last : Bool) : Bool × State :=
  let s := s.settleLine line
  let st := s.lineState line
  if ((st = 1 ∧ s.lineHolder line = me) ∨ (st = 3 ∧ s.lineAdopter line = me)) ∧ s.lineSeq line = cseq.toNat then
    let s := s.write64 (line + 8) (stepWord (s.lineStep line + 1) 1 stores.length (s.lineSeq line))
    let s := s.write64 (line + 0x10) (next.zeroExtend 64)
    let s := if last then s.write64 (line + 0x18) (next.zeroExtend 64) else s
    let s := s.performBytes none (line + 0x20) 128 (ofElems 64 (regs.map (·.toNat)))
    let s := s.performBytes none (line + 0xA0) 96 (logBytes stores)
    (true, { s with capLogs := s.capLogs ++ [⟨line, s.lineCtx line, stores.map (·.va), last⟩],
                    capVas := amSet s.capVas line (stores.map (·.va)) })
  else (false, s)

/-- A stop marking performed (R335). -/
def State.capMark (s : State) (me line : Nat) : State :=
  let s := s.settleLine line
  let st := s.lineState line
  if st = 1 ∧ s.lineHolder line = me then s.setLock line 2 (s.lineCtx line) me 0
  else if st = 3 ∧ s.lineAdopter line = me then s.setLock line 2 (s.lineCtx line) (s.lineHolder line) 0
  else s

/-- The markings of a group on their way, performed (R335). -/
def State.drainMarks (s : State) (me : Nat) : State :=
  let mine := s.markings.filter fun m => m.1 == me
  let s := { s with markings := s.markings.filter fun m => m.1 != me }
  mine.foldl (fun s m => s.capMark m.1 m.2) s

/-- The markings of a core's groups on their way, performed (R335). -/
def State.drainMarksOf (s : State) (core : Nat) : State :=
  let mine := s.markings.filter fun m => coreOf m.1 == core
  let s := { s with markings := s.markings.filter fun m => coreOf m.1 != core }
  mine.foldl (fun s m => s.capMark m.1 m.2) s

/-- What a re-entry is told (R340). -/
inductive ReReply where
  /-- Reclaim or re-adopt: the checkpoint and ENTRY. -/
  | resume (ckpt : Vector (BitVec 64) 16) (entry : BitVec 57)
  /-- The delivery: `s16` to `s31` and EXIT. -/
  | taken (regs : Vector (BitVec 64) 16) (exit : BitVec 57)
  | abandon
  | wait
  | violation
  deriving DecidableEq, Repr

/-- Re-entry at the home slice (R340), by an agent in a role. -/
def State.capReenter (s : State) (line ctx me role : Nat) (cseq : BitVec 16) : ReReply × State :=
  let s := (s.drainMarks me).settleLine line
  let st := s.lineState line
  let mine := decide (s.lineHolder line = me ∧ s.lineSeq line = cseq.toNat)
  if role = 1 then
    if st = 2 ∧ mine = true then
      (.resume (s.lineCkpt line) (s.lineEntry line), s.setLock line 1 (s.lineCtx line) me 0)
    else if st = 3 ∧ mine = true then (.wait, s)
    else
      let d := (s.ctx ctx).savepa + 0x13000000 + me * 0x9000 + 0x200
      if s.read (d + 0x92) 1 = 1 ∧ s.read (d + 0x80) 8 = line ∧ s.read (d + 0x90) 2 = cseq.toNat then
        (.taken (Vector.ofFn fun i => s.read64 (d + 8 * i.val)) ((s.read64 (d + 0x88)).truncate 57),
          s.performBytes none (d + 0x92) 1 0)
      else (.violation, s)
  else if st = 2 ∧ s.lineSeq line = cseq.toNat then
    (.resume (s.lineCkpt line) (s.lineEntry line), s.setLock line 3 (s.lineCtx line) (s.lineHolder line) me)
  else (.abandon, s)

/-- The report of `capr` (R341). -/
def State.capReport (s : State) (line : Nat) : BitVec 64 :=
  BitVec.ofNat 64 (s.lineState line + s.lineStep line * 2 ^ 3 + s.lineLog line * 2 ^ 8 + s.lineSeq line * 2 ^ 10 +
    s.lineHolder line * 2 ^ 26 + s.lineAdopter line * 2 ^ 43)

end Sys2Proof.Machine
end

