-- ==== Sys2Proof/Machine/Net.lean ====
section
/-!
DEFINITION. Sys2Proof/Machine/Net.lean: the package network (01 R11, R12, 19 R365, R366): the route of a message from a stop of one die to
a stop of another, its channels, and whether its links carry flits (19 R362).
-/

namespace Sys2Proof.Machine

/-- A stop of a die: compute dies are 0 to 3, XD0 is 4 and XD1 is 5. The spec gives an I/O die no mesh: the stop there is 0. -/
structure Spot where
  die : Nat
  stop : Nat
  deriving DecidableEq, Repr

/-- The column of a die in the die grid (R11). -/
def gridX (die : Nat) : Nat := if die < 4 then die % 2 + 1 else 0
/-- The row of a die in the die grid (R11). -/
def gridY (die : Nat) : Nat := if die < 4 then die / 2 else die - 4
/-- The die at a place of the die grid (R11). -/
def dieAt (x y : Nat) : Nat := if x = 0 then 4 + y else 2 * y + (x - 1)

/-- The link one x hop from column x of row y, to x + 1 where `plus`, else to x - 1 (R361). -/
def xLink (x y : Nat) (plus : Bool) : Nat := 3 * y + (if plus then x else (x + 2) % 3)
/-- The y link of a column (R361). -/
def yLink (x : Nat) : Nat := 6 + x

/-- The direction of a route's x hops from column xs to column xd of row y: +x or -x, the other one where the one-hop link is DOWN
(R366), or DISABLED (R363). -/
def State.goesPlus (s : State) (xs xd y : Nat) : Bool :=
  let plus := (xd + 3 - xs) % 3 == 1
  if (s.link (xLink xs y plus)).state.lost then !plus else plus

/-- The x hops of a route in one direction, as the columns that they leave. -/
def xHops (xs xd : Nat) (plus : Bool) : List Nat :=
  if xs = xd then []
  else
    let one := if plus then (xs + 1) % 3 else (xs + 2) % 3
    if one = xd then [xs] else [xs, one]

/-- A hop over a link of the die grid, on the HIGH channel of its class or on LOW. -/
structure Hop where
  link : Nat
  high : Bool
  deriving DecidableEq, Repr

/-- Hops with their channels: HIGH on a wrap link, and on every link after it (R366). -/
def channels (high : Bool) : List Nat → List Hop
  | [] => []
  | l :: r =>
    let h := high || l == 2 || l == 5
    ⟨l, h⟩ :: channels h r

/-- The numbers from one to another, both included. -/
def between (a b : Nat) : List Nat := if a ≤ b then (List.range (b - a + 1)).map (a + ·) else (List.range (a - b + 1)).map (a - ·)

/-- The stops of a mesh from one to another, X then Y (R12, R366). -/
def meshPath (a b : Nat) : List Nat :=
  ((between (a % 8) (b % 8)).map fun c => a / 8 * 8 + c) ++ ((between (a / 8) (b / 8)).drop 1).map fun r => r * 8 + b % 8

/-- The gateway of a die's link (R12): where `y`, of its y link, else of its x + 1 link where `plus`, and of its x - 1 link. -/
def gateway (y plus : Bool) : Nat := if y then 56 else if plus then 55 else 48

/-- A route: its leg on the mesh of the source die, the die-grid hops, the transit crossings of the dies between them, and its leg on the
mesh of the destination die. -/
structure Route where
  leg1 : List Nat
  hops : List Hop
  transits : List (Nat × List Nat)
  leg3 : List Nat
  deriving DecidableEq, Repr

/-- The stops that a message crosses on the mesh of a die; the spec gives an I/O die no mesh. -/
def legOn (die a b : Nat) : List Nat := if die < 4 then meshPath a b else []

/-- The route from one stop to another (R366). -/
def State.route (s : State) (src dst : Spot) : Route :=
  if src.die = dst.die then ⟨legOn src.die src.stop dst.stop, [], [], []⟩
  else
    let xs := gridX src.die
    let ys := gridY src.die
    let xd := gridX dst.die
    let turns := ys != gridY dst.die
    let plus := s.goesPlus xs xd ys
    let cols := xHops xs xd plus
    let out := gateway (cols == []) plus
    let into := gateway false (!plus)
    let last := if turns then gateway true plus else into
    let links := (cols.map fun x => xLink x ys plus) ++ if turns then [yLink xd] else []
    let mid := ((cols.drop 1).map fun x => (dieAt x ys, legOn (dieAt x ys) into (gateway false plus))) ++
      if turns && cols != [] then [(dieAt xd ys, legOn (dieAt xd ys) into 56)] else []
    ⟨legOn src.die src.stop out, channels false links, mid, legOn dst.die last dst.stop⟩

/-- A route none of whose links holds new flits. Of a route that still crosses a link that is DOWN or DISABLED (the detour of R366 leads
over a link of a die out of service) the spec gives no rule: its messages go on (the model's choice, log 34). -/
def State.routeOpen (s : State) (r : Route) : Bool := r.hops.all fun h => !(s.link h.link).state.holds

/-- The stop of a core (R12). -/
def coreSpot (core : Nat) : Spot := ⟨dieOf core, core % Config.coresPerDie⟩

/-- Where a request for an address is performed: at its home slice (R20), or at the I/O die of its host port or UALink port. -/
def State.homeSpot (s : State) (pa : Nat) : Spot :=
  match s.region pa with
  | .host x => ⟨4 + x, 0⟩
  | .fabric => ⟨4 + ((s.fabricPort pa).getD 0) / 32, 0⟩
  | _ => ⟨s.homeDie pa, s.homeSlice pa % Config.slicesPerDie⟩

/-- A message from a core to the home of an address is not held back by a link that retrains. -/
def State.reqOpen (s : State) (core pa : Nat) : Bool := s.routeOpen (s.route (coreSpot core) (s.homeSpot pa))

/-- A request of a core to the home of an address may go and be performed: no link of its route holds it back, nor the host link of
memory behind a port in the MEMORY role (R362), and no host holds the line (R374). -/
def State.homeOpen (s : State) (core pa : Nat) : Bool :=
  s.reqOpen core pa && !(s.hdmHeld.contains (pa / 256)) &&
  (match s.region pa with
   | .host x => !((s.hostLink x).memory && (s.hostLink x).state.holds)
   | _ => true)

/-- A message from one stop to another is not held back. -/
def State.pathOpen (s : State) (src dst : Spot) : Bool := s.routeOpen (s.route src dst)

/-- A message about a line from its home slice to the stop of the line on another die is not held back either. -/
def State.lineOpen (s : State) (die line : Nat) : Bool :=
  s.routeOpen (s.route (s.homeSpot (line * 256)) ⟨die, fold line 6⟩)

end Sys2Proof.Machine
end

