-- ==== Sys2Proof/Machine/Window.lean ====
section
/-!
DEFINITION. Sys2Proof/Machine/Window.lean: the on-chip windows (01 R29 to R33, R411): the registers of the device control page
as a read finds them, and the core windows.
-/

namespace Sys2Proof.Machine

/-! ### Where an address of the on-chip range lies -/

/-- The first address of the on-chip range (R27). -/
def chipBase : Nat := 3 * 2 ^ 40

/-- A place in the on-chip range (R29). -/
inductive ChipLoc where
  | control (off : Nat)
  | core (c off : Nat)
  | hole
  deriving DecidableEq, Repr

/-- Whether an offset of a core window holds something (R29). -/
def coreOffsetOk (off : Nat) : Bool :=
  decide (off < 0x298000 ∨ (0x2A0000 ≤ off ∧ off < 0x2C0010))

/-- The place of an address of the on-chip range; the windows of dies out of service are holes (R15, R28, R29). -/
def State.chipLoc (s : State) (pa : Nat) : ChipLoc :=
  let o := pa - chipBase
  if 2 ^ 32 ≤ o ∧ o < 2 ^ 32 + 4096 then .control (o - 2 ^ 32)
  else if o < 2 ^ 32 then
    let die := o / 0x40000000
    let c := o % 0x40000000 / 0x1000000
    let off := o % 0x1000000
    if c < Config.coresPerDie ∧ coreOffsetOk off = true ∧ s.liveCd.getLsbD die = true
    then .core (die * Config.coresPerDie + c) off
    else .hole
  else .hole

/-- An access of n bytes that meets a hole of the on-chip range. -/
def State.chipHole (s : State) (pa n : Nat) : Bool :=
  s.chipLoc pa == .hole || s.chipLoc (pa + n - 1) == .hole

/-! ### The device control page -/

/-- STATE of a link as a code (R361). -/
def LState.code : LState → Nat
  | .disabled => 0 | .training => 1 | .active => 2 | .retraining => 3 | .down => 4

/-- A link number of R361. -/
def linkListed (l : Nat) : Bool := decide (l < 9 ∨ l = 16 ∨ l = 17 ∨ (32 ≤ l ∧ l < 96))

/-- LNKCTL of a link (R361). -/
def Link.ctl (x : Link) : Nat := x.en.toNat + x.fast.toNat * 4 + x.role.toNat * 8

/-- LNKSTS of link l (R361). -/
def State.linkSts (s : State) (l : Nat) : Nat :=
  let x := s.link l
  let frozen := decide (32 ≤ l) && s.frzPort.getLsbD (l - 32)
  x.state.code + x.half.toNat * 8 + frozen.toNat * 16 + x.refused.toNat * 32 + x.fastOn.toNat * 64 +
    min x.replays 0xFFFF * 2 ^ 16 + min x.retrains 0xFF * 2 ^ 32

/-- DEVSTAT (R402). -/
def State.devstat (s : State) : Nat :=
  s.ready.toNat + s.recovery.toNat * 2 + s.calfail.toNat * 4 + s.throttle.toNat * 8 + s.stage.toNat * 16

/-- The registers that State.regs holds, by offset. -/
def plainReg (off : Nat) : Bool :=
  off ∈ [0x0010, 0x0018, 0x0020, 0x0030, 0x0038, 0x0040, 0x0148, 0x0170, 0x0178, 0x0180, 0x0188, 0x0190, 0x0198,
    0x0280, 0x0288, 0x0290, 0x0298] ||
  (decide (0x0A00 ≤ off ∧ off < 0x0C00) && off % 16 == 0)

/-- The 8 bytes of the control page at an aligned offset, as a read finds them; what no register holds reads as zero
(R411). Offsets 0x0200 to 0x021F hold two energy weights in each 8 bytes, and from 0x0C00 two DBGCTL registers (R385). -/
def State.controlRead (s : State) (off : Nat) : Nat :=
  if off = 0x0000 then
    s.liveCd.toNat + s.liveXd.toNat * 16 + Config.coresPerDie * 2 ^ 8 + Config.archVersion * 2 ^ 16
  else if off = 0x0008 then s.devstat
  else if off = 0x0048 then s.watts.toNat + s.mhz10.toNat * 2 ^ 12
  else if off = 0x0108 then s.ctxSts.toNat
  else if off = 0x0128 then s.qSts.toNat
  else if off = 0x0150 then s.tlbSts.toNat
  else if off = 0x0168 then s.dbgSts.toNat
  else if off = 0x0248 then s.dmaOvr.toNat + s.dmaEngine.toNat * 2 ^ 8
  else if off = 0x0300 then s.frzDma.toNat
  else if off = 0x0308 then s.frzHost.toNat
  else if off = 0x0310 then s.frzPort.toNat
  else if off = 0x0318 then s.frzAddr.toNat
  else if 0x0200 ≤ off ∧ off < 0x0220 then
    (List.range 4).foldl (fun n i => n + (s.reg (off + 2 * i)).toNat % 2 ^ 16 * 2 ^ (16 * i)) 0
  else if 0x0400 ≤ off ∧ off < 0x0A00 then
    let l := (off - 0x0400) / 16
    if linkListed l then (if off % 16 = 0 then (s.link l).ctl else s.linkSts l) else 0
  else if 0x0C00 ≤ off then (s.reg off).toNat % 2 ^ 32 + (s.reg (off + 4)).toNat % 2 ^ 32 * 2 ^ 32
  else if plainReg off then (s.reg off).toNat
  else 0

/-- n bytes of the control page from an offset. -/
def State.controlBytes (s : State) (off : Nat) : Nat → Nat
  | 0 => 0
  | n + 1 => bytesOf (s.controlRead (off / 8 * 8)) (off % 8) 1 + 256 * s.controlBytes (off + 1) n

/-- The command registers of R411 that lie in the control page. -/
def commandReg (off : Nat) : Bool := off ∈ [0x0028, 0x0100, 0x0120, 0x0140, 0x0160, 0x0240]

/-- Registers with bits that a write of 1 clears: a byte that a narrow write leaves out is written as zero there. -/
def clearsOnes (off : Nat) : Bool :=
  off ∈ [0x0108, 0x0128, 0x0150, 0x0168, 0x0248, 0x0300, 0x0308, 0x0310] ||
  (decide (0x0400 ≤ off ∧ off < 0x0A00) && off % 16 == 8)

/-- What the last write of a register that has come in and is still to be performed gives it. -/
def State.pendingReg (s : State) (base : Nat) : Option Nat :=
  s.regWrites.foldl (fun m e => match e with
    | .registerWrite off v => if off = base then some v.toNat else m
    | _ => m) none

/-- The register writes that a write of n bytes to the control page makes, one for each aligned 8 bytes; a command
register takes only a naturally aligned 8-byte write (R411). The bytes that it leaves are as the writes before it leave them (19 R372). -/
def State.controlWrites (s : State) (off n data : Nat) : List Instr :=
  (numsFrom (off / 8) ((off + n - 1) / 8 - off / 8 + 1)).map fun w =>
    let base := w * 8
    if commandReg base && !(decide (n = 8 ∧ off = base)) then Instr.commandWriteDropped base
    else
      let old := if clearsOnes base then 0 else (s.pendingReg base).getD (s.controlRead base)
      let lo := max off base
      let hi := min (off + n) (base + 8)
      Instr.registerWrite base (BitVec.ofNat 64 (patchBytes old (lo - base) (hi - lo) (bytesOf data (lo - off) (hi - lo))))

/-! ### Core windows (R29 to R33) -/

/-- The register base of a group: its block's base, then the groups in order (R18, R143). -/
def regBaseOf (b : Block) (g : Group) : Nat := b.regBase + g.gid * g.kregs * 256

/-- A group whose registers a window access reaches: HALTED or TRAPPED, and not shut off by tier 2, from whose start on no access
reaches it until its slot is freed (R32). -/
def State.stoppedGroup (s : State) (b : Block) (g : Group) : Bool :=
  (g.state == .halted || g.state == .trapped) && !(s.ctx b.ctx).sealed

/-- The groups resident on a core, with their blocks. -/
def State.coreGroups (s : State) (c : Nat) : List (Nat × Group × Block) :=
  (s.groups.filter fun ag => coreOf ag.1 == c).filterMap fun ag => (s.blk ag.2.block).map fun b => (ag.1, ag.2, b)

/-- The group whose vector registers hold a pool offset. -/
def State.groupAtPool (s : State) (c off : Nat) : Option (Nat × Group × Block) :=
  (s.coreGroups c).find? fun x => decide (regBaseOf x.2.2 x.2.1 ≤ off ∧ off < regBaseOf x.2.2 x.2.1 + x.2.1.kregs * 256)

/-- Every group of a block is stopped (R32). -/
def State.blockStopped (s : State) (blk : Nat) : Bool :=
  (s.groups.filter fun ag => ag.2.block == blk).all fun ag =>
    match s.blk blk with
    | some b => s.stoppedGroup b ag.2
    | none => false

/-- What a byte of a core window is (R29). -/
inductive CoreByte where
  | scratch (off : Nat)
  | vreg (a n i : Nat)
  | kreg (a n i : Nat)
  | sreg (a i : Nat)
  | acc (elem i : Nat)
  | part (i : Nat)
  | stat (i : Nat)
  | none
  deriving DecidableEq, Repr

/-- The byte at an offset of a core window, `none` where R32 lets an access have no effect. -/
def State.coreByte (s : State) (c off : Nat) : CoreByte :=
  let core := s.core c
  if off < 0x200000 then
    if core.sb * 65536 ≤ off then .none
    else if core.rb * 65536 ≤ off then .scratch off
    else
      match s.groupAtPool c off with
      | some (a, g, b) => if s.stoppedGroup b g then .vreg a ((off - regBaseOf b g) / 256) (off % 256) else .none
      | none => .none
  else if off < 0x280000 then
    let k := (off - 0x200000) / 0x4000
    let e := vget core.slots k AccSlot.reset
    if e.used && s.blockStopped e.block then .acc ((off - 0x200000) / 4) (off % 4) else .none
  else if off < 0x298000 then
    let r := (off - 0x280000) / 16
    match s.groupAtPool c (r * 256) with
    | some (a, g, b) => if s.stoppedGroup b g then .kreg a ((r * 256 - regBaseOf b g) / 256) (off % 16) else .none
    | none => .none
  else if off < 0x2C0000 then
    let a := c * Config.slotsPerCore + (off - 0x2A0000) / 256
    match s.grp a with
    | some g =>
      match s.blk g.block with
      | some b => if s.stoppedGroup b g then .sreg a (off % 256) else .none
      | none => .none
    | none => .none
  else if off < 0x2C0008 then .part (off - 0x2C0000)
  else .stat (off - 0x2C0008)

/-- CORE.PART (R17). -/
def Core.partReg (c : Core) : Nat := c.rb + c.sb * 2 ^ 8 + c.lb * 2 ^ 16
/-- CORE.STAT (R33). -/
def Core.statReg (c : Core) : Nat := c.werr.toNat + (!c.recut.isEmpty).toNat * 2

/-- The value of a byte of a core window. Scratchpad bytes that no block holds (after a re-cut took them from the register region or
from L1) read as the model's scratchpad cells hold them: R32 names no value there, and this is the model's choice (log 29). -/
def State.coreByteGet (s : State) (c : Nat) (b : CoreByte) : Nat :=
  match b with
  | .scratch off => (byteAt (s.core c).scr off).toNat
  | .vreg a n i => match s.grp a with
    | some g => bytesOf (vget g.v n 0).toNat i 1
    | none => 0
  | .kreg a n i => match s.grp a with
    | some g => bytesOf (vget g.k n 0).toNat i 1
    | none => 0
  | .sreg a i => match s.grp a with
    | some g => bytesOf (g.sreg (i / 8)).toNat (i % 8) 1
    | none => 0
  | .acc e i => bytesOf ((amGet (s.core c).acc e).getD 0) i 1
  | .part i => bytesOf (s.core c).partReg i 1
  | .stat i => bytesOf (s.core c).statReg i 1
  | .none => 0

/-- A byte of a core window written; what R32 refuses sets WERR. -/
def State.coreByteSet (s : State) (c : Nat) (b : CoreByte) (v : Nat) : State :=
  match b with
  | .scratch off => s.updCore c fun k => { k with scr := setByte k.scr off (BitVec.ofNat 8 v) }
  | .vreg a n i => s.updGrp a fun g =>
      { g with v := vset g.v n (BitVec.ofNat 2048 (patchBytes (vget g.v n 0).toNat i 1 v)) }
  | .kreg a n i => s.updGrp a fun g =>
      { g with k := vset g.k n (BitVec.ofNat 128 (patchBytes (vget g.k n 0).toNat i 1 v)) }
  | .sreg a i => s.updGrp a fun g =>
      { g with s := vset g.s (i / 8) (BitVec.ofNat 64 (patchBytes (g.sreg (i / 8)).toNat (i % 8) 1 v)) }
  | .acc e i => s.updCore c fun k => { k with acc := accPut k.acc e (patchBytes ((amGet k.acc e).getD 0) i 1 v) }
  | .part _ => s
  | .stat i => if i = 0 ∧ v % 2 = 1 then s.updCore c fun k => { k with werr := false } else s
  | .none => s.updCore c fun k => { k with werr := true }

/-- A register of a group is poisoned. -/
def State.regBad (s : State) (a : Nat) (r : RegAt) : Bool :=
  match s.grp a with
  | some g => g.poison.contains r
  | none => false

/-- A byte of a core window is poisoned (22 R405, R406). -/
def State.coreByteBad (s : State) (c : Nat) (b : CoreByte) : Bool :=
  match b with
  | .scratch off => (s.core c).scrPoison.contains (off / 64)
  | .vreg a n i => s.regBad a ⟨.vector, n, i / 32⟩
  | .kreg a n i => s.regBad a ⟨.scale, n, i / 2⟩
  | .sreg a i => s.regBad a ⟨.scalar, i / 8, 0⟩
  | .acc e _ => (s.core c).accPoison.contains e
  | _ => false

/-- What one poison covers about a byte of a core window: its bytes, and the place of the byte among them. -/
def CoreByte.cover : CoreByte → Nat × Nat
  | .scratch off => (64, off % 64)
  | .vreg _ _ i => (32, i % 32)
  | .kreg _ _ i => (2, i % 2)
  | .sreg _ i => (8, i % 8)
  | .acc _ i => (4, i)
  | _ => (1, 0)

/-- The poison about a byte of a core window gone. -/
def State.coreByteClean (s : State) (c : Nat) (b : CoreByte) : State :=
  match b with
  | .scratch off => s.updCore c fun k => { k with scrPoison := k.scrPoison.filter fun q => q != off / 64 }
  | .vreg a n i => s.updGrp a fun g => { g with poison := g.cleaned .vector n (i / 32) }
  | .kreg a n i => s.updGrp a fun g => { g with poison := g.cleaned .scale n (i / 2) }
  | .sreg a i => s.updGrp a fun g => { g with poison := g.cleaned .scalar (i / 8) 0 }
  | .acc e _ => s.updCore c fun k => { k with accPoison := k.accPoison.filter fun q => q != e }
  | _ => s

/-- A write of n bytes of a core window has covered the whole of what some poison covers, which is gone (22 R406). -/
def State.coreWinClean (s : State) (c off n : Nat) : State :=
  (List.range n).foldl (fun s i =>
    let b := s.coreByte c (off + i)
    if s.coreByteBad c b ∧ b.cover.2 = 0 ∧ i + b.cover.1 ≤ n then s.coreByteClean c b else s) s

/-- A read of n bytes of a core window: accepted array instructions on the core complete first (R32). -/
def State.coreWinRead (s : State) (c off n : Nat) : Nat × State :=
  let s := s.accDrain c
  (numsFrom off n).foldr
    (fun o (r : Nat × State) =>
      let b := r.2.coreByte c o
      (r.1 * 256 + r.2.coreByteGet c b,
        if b == .none then r.2.updCore c fun k => { k with werr := true } else r.2)) (0, s)

/-- A write of n bytes of a core window. -/
def State.coreWinWrite (s : State) (c off n data : Nat) : State :=
  let s := s.accDrain c
  ((List.range n).foldl (fun s i => s.coreByteSet c (s.coreByte c (off + i)) (bytesOf data i 1)) s).coreWinClean c off n

/-- A read of the on-chip range by a privileged agent; a hole reads as zero here, its handling is the caller's. -/
def State.chipRead (s : State) (pa n : Nat) : Nat × State :=
  match s.chipLoc pa with
  | .control off => (s.controlBytes off n, s)
  | .core c off => s.coreWinRead c off n
  | .hole => (0, s)

/-- A read of n bytes of the on-chip range meets poison (22 R405, R406). -/
def State.chipBad (s : State) (pa n : Nat) : Bool :=
  match s.chipLoc pa with
  | .core c off => (List.range n).any fun i => s.coreByteBad c (s.coreByte c (off + i))
  | _ => false

/-- A write of the on-chip range by a privileged agent: register writes are events that follow in the order in which they came. -/
def State.chipWrite (s : State) (pa n data : Nat) : State :=
  match s.chipLoc pa with
  | .control off => { s with regWrites := s.regWrites ++ s.controlWrites off n data }
  | .core c off => s.coreWinWrite c off n data
  | .hole => s

end Sys2Proof.Machine
end

