-- ==== Sys2Proof/Machine/Mem.lean ====
section
/-!
DEFINITION. Sys2Proof/Machine/Mem.lean: accesses of groups to memory (11, 12): pieces (R240), L1 sectors (R222), guest lines
(R223), stores on their way to their home (R227), releases (R231, R234), atomics at their point (R242), scratchpad addresses
(R220), and the watchpoints that an access meets (21 R387).
-/

namespace Sys2Proof.Machine

/-! ### Read-modify-write (R255, R258) -/

/-- The new value of a location of n bytes, none where nothing is written: by operation, type, old value, operand,
expected value. -/
def AtomOp.apply (op : AtomOp) (et n old b cmp : Nat) : Option Nat :=
  let w := 8 * n
  match op with
  | .add => some ((old + b) % 2 ^ w)
  | .and => some (old &&& b)
  | .or => some (old ||| b)
  | .xor => some (old ^^^ b)
  | .min => some (if sgOf w b < sgOf w old then b else old)
  | .max => some (if sgOf w old < sgOf w b then b else old)
  | .minu => some (if b < old then b else old)
  | .maxu => some (if old < b then b else old)
  | .exch => some b
  | .cas => if old = cmp then some b else none
  | .fadd =>
    let F := etFmt et
    some (round F rmRNE false false 0 (addX rmRNE (F.decode old) (F.decode b)).1).1
  | .cell => some (cellAdd old ((etFmt et).decode b))

/-! ### Pieces (R240) -/

/-- The pieces of an access: offset and length of each. -/
def piecesOf (va n : Nat) : List (Nat × Nat) :=
  if va % n = 0 ∧ n = 32 then [(0, 16), (16, 16)]
  else if va % n = 0 ∧ n ≠ 24 then [(0, n)]
  else
    let first := 64 - va % 64
    if n ≤ first then [(0, n)] else [(0, first), (first, n - first)]

/-- An access that crosses a 256-byte line. -/
def crossesLine (va n : Nat) : Bool := va / 256 != (va + n - 1) / 256

/-! ### Writes on their way -/

/-- A write touches [pa, pa + n). -/
def PendWrite.overlaps (w : PendWrite) (pa n : Nat) : Bool := decide (w.pa < pa + n ∧ pa < w.pa + w.size)

/-- A value of n bytes at pa overlaid by a plain write. -/
def PendWrite.over (w : PendWrite) (pa n v : Nat) : Nat :=
  let lo := max w.pa pa
  let hi := min (w.pa + w.size) (pa + n)
  patchBytes v (lo - pa) (hi - lo) (bytesOf w.data (lo - w.pa) (hi - lo))

/-- Writes in order over a value. -/
def overlay (ws : List PendWrite) (pa n v : Nat) : Nat :=
  ws.foldl (fun v w => if w.overlaps pa n then w.over pa n v else v) v

/-- The link that serves an address of a host or fabric window. -/
def State.linkFor (s : State) (pa : Nat) : Option Nat :=
  match s.region pa with
  | .host x => some (16 + x)
  | .fabric => (s.fabricPort pa).map fun k => 32 + k
  | _ => none

/-- Requests to an address complete as refused: its host link is DOWN or DISABLED (R363), or no port serves it. -/
def State.refuses (s : State) (pa : Nat) : Bool :=
  match s.linkFor pa with
  | some l => (s.link l).state == .down || (s.link l).state == .disabled
  | none => true

/-- REFUSED set on a link (R364). -/
def State.setRefused (s : State) (l : Nat) : State := s.setLink l { s.link l with refused := true }

/-- A request that is refused because its link is lost sets REFUSED on that link (R364); one that the far side refuses has set it as the
answer came (`State.completion`). -/
def State.noteRefused (s : State) (pa : Nat) : State :=
  match s.linkFor pa with
  | some l => if s.refuses pa then s.setRefused l else s
  | none => s

/-- A request to a host or peer leaves the part (R224). -/
def State.extSend (s : State) (agent ctx : Nat) (write : Bool) (pa n data : Nat) : State :=
  let id := s.nextId
  let l := (s.linkFor pa).getD 0
  ({ s with nextId := id + 1, extReqs := s.extReqs ++ [(⟨id, l, agent, ctx, write, pa, n, none, none⟩ : ExtReq)] } : State).post l
    (.request id write pa n data)

/-- An atomic or reduction store leaves for a host or peer (R242). -/
def State.extAtomic (s : State) (agent ctx : Nat) (write : Bool) (pa n : Nat) (op : AtomOp) (et b cmp : Nat) : State :=
  let id := s.nextId
  let l := (s.linkFor pa).getD 0
  ({ s with nextId := id + 1, extReqs := s.extReqs ++ [(⟨id, l, agent, ctx, write, pa, n, none, none⟩ : ExtReq)] } : State).post l
    (.atomic id pa n op et b cmp)

/-- A write leaves for a host or peer; where the link refuses, it is dropped (R364). -/
def State.extWrite (s : State) (w : PendWrite) : State :=
  if s.refuses w.pa then s.noteRefused w.pa
  else
    match w.red with
    | none => s.extSend w.agent w.ctx true w.pa w.size w.data
    | some (op, et) => s.extAtomic w.agent w.ctx true w.pa w.size op et w.data 0

/-- A write performed at its point (R227): at the home slice of memory of this module, at a cached line of a host window
(R224), or at the host or peer. What is written through a host window counts for no monitor (20 R316). -/
def State.performWrite (s : State) (w : PendWrite) : State :=
  match s.region w.pa with
  | .hole => s
  | .chip => s.chipWrite w.pa w.size w.data
  | .fabric => s.extWrite w
  | .host x =>
    if (s.hostLink x).memory then
      let s := s.dropGuest (dieOf w.core) (w.pa / 256)
      s.performBytes none w.pa w.size
        (match w.red with
         | none => w.data
         | some (op, et) => (op.apply et w.size (s.read w.pa w.size) w.data 0).getD 0)
    else
      match amGet s.hostLines (w.pa / 256) with
      | some l =>
        let old := bytesOf l (w.pa % 256) w.size
        let new := match w.red with
          | none => w.data
          | some (op, et) => (op.apply et w.size old w.data 0).getD 0
        { s with hostLines := amSet s.hostLines (w.pa / 256) (patchBytes l (w.pa % 256) w.size new),
                 watches := fireWatches s w.pa w.size }
      | none => s.extWrite w
  | _ =>
    let s := s.dropGuest (dieOf w.core) (w.pa / 256)
    s.performBytes (some (w.ctx, w.va)) w.pa w.size
      (match w.red with
       | none => w.data
       | some (op, et) => (op.apply et w.size (s.read w.pa w.size) w.data 0).getD 0)

/-- A write may be performed before another one issued earlier: they come from different cores, are of one instruction and meet in no
byte (R225, R240), or go to different home slices and are not ordered by R229 on the die of the core. -/
def State.mayPass (s : State) (w e : PendWrite) : Bool :=
  w.core != e.core || (w.tie != 0 && w.tie == e.tie && !(w.overlaps e.pa e.size)) ||
  (s.homeSlice w.pa != s.homeSlice e.pa && !(w.overlaps e.pa e.size) &&
    !(w.agent == e.agent && s.homeDie w.pa == dieOf w.core && s.homeDie e.pa == dieOf w.core))

/-- Writes in order, parted in those that may be performed now and those that their homes do not take yet (R362, R374) with the ones that
may not pass them; `held` are those already held. -/
def State.partWrites (s : State) : List PendWrite → List PendWrite → List PendWrite × List PendWrite
  | [], held => ([], held)
  | w :: r, held =>
    if s.homeOpen w.core w.pa && held.all (s.mayPass w) then
      let x := s.partWrites r held
      (w :: x.1, x.2)
    else s.partWrites r (held ++ [w])

/-- Every write of a core performed, in order (R234), but those that links or a host hold back. -/
def State.drainCore (s : State) (core : Nat) : State :=
  let x := s.partWrites (s.writes.filter fun w => w.core == core) []
  x.1.foldl State.performWrite { s with writes := (s.writes.filter fun w => w.core != core) ++ x.2 }

/-- No write of a core is on its way. -/
def State.drained (s : State) (core : Nat) : Bool := !(s.writes.any fun w => w.core == core)

/-- The writes of a core that are on their way can all be performed now. -/
def State.drainable (s : State) (core : Nat) : Bool := (s.partWrites (s.writes.filter fun w => w.core == core) []).2 == []

/-- The address of a place: of scratchpad, that of its core's window (01 R29). -/
def Place.addr (p : Place) : Nat :=
  match p with
  | .mem pa => pa
  | .ext pa => pa
  | .chip pa => pa
  | .scr k _ => chipBase + dieOf k * 0x40000000 + k % Config.coresPerDie * 0x1000000

/-- A core's request can reach an address now: no link of the route holds it back (19 R362, R366), no host holds the line (R374), and no
earlier write of the core that is held back itself lies in the line (11 R228). -/
def State.inReach (s : State) (core pa : Nat) : Bool :=
  match windowOf pa with
  | .chip => match s.chipLoc pa with
    | .core c _ => s.pathOpen (coreSpot core) (coreSpot c)
    | _ => true
  | _ => s.homeOpen core pa && !((s.partWrites (s.writes.filter fun w => w.core == core) []).2.any fun w => w.pa / 256 == pa / 256)

/-- A write that a group's later loads may not miss: its own, or one of its core that it has read in L1 (R228). -/
def PendWrite.knownTo (w : PendWrite) (core agent : Nat) : Bool := w.core == core && (w.agent == agent || w.seen.contains agent)

/-- Before a load that bypasses L1, the core's writes are performed where the location has a reduction of the group's on its way
(R228). -/
def State.settleFor (s : State) (core agent : Nat) (pa n : Nat) : State :=
  if s.writes.any (fun w => w.knownTo core agent && w.overlaps pa n && w.red.isSome) then s.drainCore core else s

/-- The writes of other groups of the core that a load of a group has found in L1 (R228). -/
def State.seeL1 (s : State) (core agent pa n : Nat) : State :=
  if s.writes.any (fun w => w.core == core && w.overlaps pa n && !(w.knownTo core agent)) then
    { s with writes := s.writes.map fun w =>
        if w.core == core && w.overlaps pa n && !(w.knownTo core agent) then { w with seen := agent :: w.seen } else w }
  else s

/-- The group's own writes to a location are performed before an access at the location's home (R228). -/
def State.settleOwn (s : State) (core agent : Nat) (pa n : Nat) : State :=
  if s.writes.any (fun w => w.core == core && w.overlaps pa n && w.agent == agent) then s.drainCore core else s

/-! ### L1 (R222) -/

/-- The lines of the pool that L1 may fill: those of [SB, LB) that no re-cut is taking (R17, R145). -/
def Core.l1Lines (c : Core) : List Nat :=
  let lo := c.recut.foldl (fun n x => max n x.2.1) c.sb
  numsFrom (lo * 256) ((c.lb - lo) * 256)

/-- The line of the pool for a sector: that of its 256-byte line where L1 holds it, else the lowest one free, else that of the sector filled
first (the spec gives L1's replacement no rule: log 13). -/
def Core.l1Line (c : Core) (k : Nat) : Nat :=
  match c.l1.find? fun x => x.1 / 4 == k / 4 && c.l1Lines.contains x.2.line with
  | some x => x.2.line
  | none =>
    match c.l1Lines.find? fun p => c.l1.all fun x => x.2.line != p with
    | some p => p
    | none =>
      let inside := c.l1.filter fun x => c.l1Lines.contains x.2.line
      match inside.find? fun x => inside.all fun y => decide (x.2.fillClk ≤ y.2.fillClk) with
      | some x => x.2.line
      | none => c.lb * 256

/-- A sector put into L1; what another line had in its place goes. -/
def Core.l1Put (c : Core) (k v now : Nat) : Core :=
  let p := c.l1Line k
  { c with l1 := amSet (c.l1.filter fun x => x.2.line != p || x.1 / 4 == k / 4) k ⟨v, now, p⟩ }

/-- A sector of 64 bytes filled into L1: the home's value, overlaid by the core's writes on their way (R227). -/
def State.l1Fill (s : State) (core k : Nat) : State :=
  let s := if s.writes.any (fun w => w.core == core && w.overlaps (k * 64) 64 && w.red.isSome) then s.drainCore core else s
  let v := overlay (s.writes.filter fun w => w.core == core) (k * 64) 64 (s.read (k * 64) 64)
  let s := s.touchHome (dieOf core) (k * 64)
  s.updCore core fun c => c.l1Put k v s.clk.toNat

/-- A sector present in L1 for a group whose last acquire was at `acq` (R232), filled where it is not. -/
def State.l1Ensure (s : State) (core acq k : Nat) : State :=
  let hit := match amGet (s.core core).l1 k with
    | some x => decide (acq < x.fillClk)
    | none => false
  if hit then s.countUp core 7 1 else ((s.countUp core 8 1).countUp core 9 1).l1Fill core k

/-- A byte of L1. -/
def Core.l1Byte (c : Core) (pa : Nat) : Nat :=
  match amGet c.l1 (pa / 64) with
  | some x => bytesOf x.data (pa % 64) 1
  | none => 0

/-- n bytes of L1 sectors that are present. -/
def Core.l1Bytes (c : Core) (pa : Nat) : Nat → Nat
  | 0 => 0
  | n + 1 => c.l1Byte pa + 256 * c.l1Bytes (pa + 1) n

/-- A load served by L1 (R222). -/
def State.l1Read (s : State) (core agent acq pa n : Nat) : Nat × State :=
  let s1 := (sectorsOf pa n).foldl (fun s k => s.l1Ensure core acq k) s
  ((s1.core core).l1Bytes pa n, s1.seeL1 core agent pa n)

/-- What an atomic of block scope reads: the sector where L1 holds it, else the home's value under the core's writes; it fills no sector
(R222, R242). -/
def State.l1Peek (s : State) (core acq pa n : Nat) : Nat × State :=
  let hit := match amGet (s.core core).l1 (pa / 64) with
    | some x => decide (acq < x.fillClk)
    | none => false
  if hit then ((s.core core).l1Bytes pa n, s.countUp core 7 1)
  else
    let s := if s.writes.any (fun w => w.core == core && w.overlaps pa n && w.red.isSome) then s.drainCore core else s
    (overlay (s.writes.filter fun w => w.core == core) pa n (s.read pa n), (s.touchHome (dieOf core) pa).countUp core 9 1)

/-- A sector overlaid by n bytes at pa. -/
def L1Sector.patch (x : L1Sector) (k pa n data : Nat) : L1Sector :=
  let lo := max pa (k * 64)
  let hi := min (pa + n) (k * 64 + 64)
  { x with data := patchBytes x.data (lo - k * 64) (hi - lo) (bytesOf data (lo - pa) (hi - lo)) }

/-- A store updates the sectors present in L1 (R222). -/
def State.l1Store (s : State) (core pa n data : Nat) : State :=
  s.updCore core fun c =>
    { c with l1 := (sectorsOf pa n).foldl (fun l k => amUpd l k fun x => x.patch k pa n data) c.l1 }

/-- The sectors of [pa, pa + n) dropped from a core's L1. -/
def State.l1Drop (s : State) (core pa n : Nat) : State :=
  s.updCore core fun c => { c with l1 := (sectorsOf pa n).foldl amDel c.l1 }

/-! ### Loads and stores of memory of this module -/

/-- n bytes at pa as the guest sectors of a die give them, where every sector is valid and filled since an acquire at `acq` (R223,
R232). -/
def State.guestBytes (s : State) (die acq pa n : Nat) : Option Nat :=
  let m := (amGet s.guests die).getD []
  let valid := (sectorsOf pa n).all fun k => (amGet m k).any fun g => decide (acq < g.fillClk)
  if valid then
    some (bytesOf ((sectorsOf pa n).foldr (fun k v => ((amGet m k).map (·.data)).getD 0 + v * 2 ^ 512) 0) (pa % 64) n)
  else none

/-- The fills that a load makes at the home of a line homed off its die: one for each sector that it touches (R19, R223). -/
def State.sectorFills (s : State) (die pa n : Nat) : List Fill :=
  (sectorsOf pa n).map fun k => ⟨die, k / 4, k % 4, s.read (k * 64) 64, s.clk.toNat, false⟩

/-- A load of a group of memory of this module (R222, R223, R227): `home` for the loads that go to the home slice whatever
their scope. -/
def State.memLoad (s : State) (core agent : Nat) (acq scope : Nat) (home : Bool) (pa n : Nat) : Nat × State :=
  if scope ≤ 1 ∧ home = false then s.l1Read core agent acq pa n
  else
    let s := (s.settleFor core agent pa n).countUp core 9 1
    let own := s.writes.filter fun w => w.knownTo core agent
    let die := dieOf core
    let plain := !home && decide (scope < 5 ∧ s.homeDie pa ≠ die)
    match (if plain then s.guestBytes die acq pa n else none) with
    | some v => (overlay own pa n v, s)
    | none =>
      let v := overlay own pa n (s.read pa n)
      let s := s.touchHome die pa
      (v, if plain then { s with fills := s.fills ++ s.sectorFills die pa n } else s)

/-- A store or reduction store of a group: L1 first, then on its way to its home (R222, R227); the on-chip windows are
written at once (R32). -/
def State.memStore (s : State) (core agent : Nat) (ctx va pa n data : Nat) (red : Option (AtomOp × Nat))
    (tie : Nat) : State :=
  match s.region pa with
  | .chip => s.chipWrite pa n data
  | _ =>
    let s := match red with
      | none => s.l1Store core pa n data
      | some _ => s.l1Drop core pa n
    ({ s with writes := s.writes ++ [(⟨agent, core, ctx, va, pa, n, data, red, tie, []⟩ : PendWrite)] } : State).snoopBack (pa / 256)

/-- A store cut into its pieces, which no order binds (R240). -/
def State.storePieces (s : State) (core agent : Nat) (ctx va pa n data : Nat) : State :=
  let f := s.fresh
  (piecesOf va n).foldl
    (fun s p => s.memStore core agent ctx (va + p.1) (pa + p.1) p.2 (bytesOf data p.1 p.2) none f.1) f.2

/-- The die of the cluster unit of a group: the one that holds rank 0 of its cluster (R242). -/
def State.clusterDie (s : State) (agent : Nat) : Nat :=
  match (((s.grp agent).bind fun g => s.blk g.block).bind fun b => amGet s.clusters b.cluster).bind fun c =>
      (c.blocks.head?).bind s.blk with
  | some b => dieOf b.core
  | none => dieOf (coreOf agent)

/-- The cluster unit of a group takes a line from its home exclusively (R242): no guest copy of it stays good. What the unit then holds is
what the home's memory holds in the model, since every access at the home recalls the line first (log 10). -/
def State.takeLine (s : State) (agent pa : Nat) : State :=
  let line := pa / 256
  { s with clLines := amSet s.clLines line (s.clusterDie agent) }

/-- The scope at which an atomic or reduction store acts (R242, 19 R378): system scope in a host window, whatever the role of its port. -/
def atomScope (pa scope : Nat) : Nat :=
  match windowOf pa with
  | .host _ => 5
  | _ => scope

/-- For whom the monitors count a write: not through a host window (20 R316). -/
def counted (ctx va pa : Nat) : Option (Nat × Nat) :=
  match windowOf pa with
  | .host _ => none
  | _ => some (ctx, va)

/-- An atomic at its point (R242): block scope in L1 with write-through, wider scopes at the home after the core's earlier
writes, cluster scope at the cluster unit, which holds the line from then on. The old value. -/
def State.memAtomic (s : State) (core agent : Nat) (ctx acq scope : Nat) (op : AtomOp) (et va pa n b cmp : Nat) :
    Nat × State :=
  let scope := atomScope pa scope
  if scope ≤ 1 then
    let r := s.l1Peek core acq pa n
    match op.apply et n r.1 b cmp with
    | none => r
    | some v => (r.1, r.2.memStore core agent ctx va pa n v none 0)
  else
    let s := ((s.drainCore core).countUp core 9 1).touchHome (dieOf core) pa
    let old := s.read pa n
    let t := match op.apply et n old b cmp with
      | none => s
      | some v => (s.performBytes (counted ctx va pa) pa n v).l1Drop core pa n
    (old, if scope = 2 then t.takeLine agent pa else t)

/-! ### Releases (R231, R234, R235) -/

/-- A release of a scope by a group: whether it is satisfied, or waits for writes that links or a host hold back, and at system scope for
acknowledgements of hosts and peers. Accepted
accumulator writes complete (R285); from cluster scope on, every write issued on the core is performed at its home (R234),
and every stop marking of its groups (R335). No engine or port of the model reads ahead of what it performs, so that the I/O
synchronisation of device scope (R236) finds nothing to drop (log 14). -/
def State.release (s : State) (core _agent scope : Nat) : State × Bool :=
  let s := s.accDrain core
  if scope ≤ 1 then (s, true)
  else
    let s := (s.drainCore core).drainMarksOf core
    (s, s.drained core && (decide (scope < 5) || !(s.extReqs.any fun r => r.write && r.reply.isNone && coreOf r.agent == core)))

/-- An acquire of a scope by group a completes (R232): from cluster scope on, copies filled until now are not used by its
later loads. -/
def State.acquire (s : State) (a scope : Nat) : State :=
  if 2 ≤ scope then s.updGrp a fun g => { g with acqClk := s.clk.toNat } else s

/-! ### Scratchpad (R220) -/

/-- Ranks of the first half of a cluster (R141). -/
def Cluster.firstHalf (c : Cluster) : Nat := if c.split then (c.cldim + 1) / 2 else c.cldim
/-- The half of a rank. -/
def Cluster.halfOf (c : Cluster) (rank : Nat) : Nat := if rank < c.firstHalf then 0 else 1

/-- The block that a scratchpad address of a block reaches, none where R220 refuses the address. -/
def State.scrBlock (s : State) (b : Block) (half idx : Nat) : Option Block :=
  match amGet s.clusters b.cluster with
  | none => if half = 0 ∧ idx = 0 then some b else none
  | some c =>
    let own := c.halfOf b.rank
    let h := if half = 0 then own else 1 - own
    if half = 1 ∧ c.split = false then none
    else
      let first := if h = 0 then 0 else c.firstHalf
      let count := if h = 0 then c.firstHalf else c.cldim - c.firstHalf
      if count ≤ idx then none else (c.blocks[first + idx]?).bind s.blk

/-- Where n bytes at a scratchpad address lie: core and pool offset, none where the access is refused (R220). -/
def State.scrTarget (s : State) (b : Block) (va n : Nat) : Option (Nat × Nat) :=
  if 2 ^ 24 ≤ va then none
  else
    match s.scrBlock b (va / 2 ^ 23) (va / 2 ^ 20 % 8) with
    | none => none
    | some t => if va % 2 ^ 20 + n ≤ t.desc.scr * 65536 then some (t.core, t.scrBase + va % 2 ^ 20) else none

/-- Bytes of a core's scratchpad. -/
def State.scrRead (s : State) (core off n : Nat) : Nat := readLE (s.core core).scr off n
/-- Bytes of a core's scratchpad written: a 64-byte sector written whole is clean (22 R406). -/
def State.scrWrite (s : State) (core off n v : Nat) : State :=
  s.updCore core fun c => { c with scr := writeLE c.scr off n v, scrPoison := clearPoison c.scrPoison off n }
/-- A read of n bytes of a core's scratchpad meets poison (22 R406). -/
def State.scrPoisoned (s : State) (core off n : Nat) : Bool := (sectorsOf off n).any fun k => (s.core core).scrPoison.contains k

/-! ### Watchpoints (R386, R387) -/

/-- KINDS bits that an access kind may match (R387): an atomic counts as both. -/
def Access.kinds : Access → BitVec 3
  | .read => 1 | .write => 2 | .rw => 3 | .fetch => 4

/-- An element meets a watchpoint's condition (R386). -/
def Wp.meets (w : Wp) (code : Nat) : Bool :=
  if isInt w.fmt then
    let t := Fmt.decode .fp64 w.t.toNat
    let x := XVal.ofInt (sgOf (etBits w.fmt) code)
    w.cond == 1 && t.lt (if x.neg? then x.negate else x)
  else
    let x := (etFmt w.fmt).decode code
    let mag := if x.neg? then x.negate else x
    match w.cond with
    | 1 => (Fmt.decode .fp64 w.t.toNat).lt mag
    | 2 => x.isNan
    | 3 => x.isInf
    | _ => x.isNan || x.isInf

/-- An access of n bytes hits a watchpoint (R387): `data` is the value tested, none where it is not known yet, when only
COND = 0 can hit. -/
def Wp.hits (w : Wp) (k : Access) (va n : Nat) (data : Option Nat) : Bool :=
  k.kinds &&& w.kinds != 0 && decide (va < w.hi ∧ w.lo < va + n) &&
  (match data with
   | none => w.cond == 0
   | some v =>
     let z := etBits w.fmt / 8
     w.cond == 0 ||
     (numsFrom ((va + z - 1) / z) (n / z + 1)).any fun e =>
       decide (va ≤ e * z ∧ e * z + z ≤ va + n ∧ w.lo ≤ e * z ∧ e * z + z ≤ w.hi) &&
         w.meets (bytesOf v (e * z - va) z))

/-- The lowest armed watchpoint of a context that an access hits, from index `i` on: with `onlyCond`, of those whose
condition tests the value. -/
def Ctx.wpHit (c : Ctx) (k : Access) (va n : Nat) (data : Option Nat) (onlyCond : Bool) : Option Nat :=
  (List.range 16).find? fun i =>
    match vget c.wps i none with
    | none => false
    | some w => w.hits k va n data && !(onlyCond && w.cond == 0)

/-- XAUX of WATCHPOINT (R388). -/
def wpAux (i : Nat) (k : Access) (lane el : Nat) : BitVec 64 := BitVec.ofNat 64 (i + k.code * 16 + lane * 64 + el * 512)

end Sys2Proof.Machine
end

