-- ==== Sys2Proof/Machine/Trace.lean ====
section
/-!
DEFINITION. Sys2Proof/Machine/Trace.lean: what only observes (21): the branch-and-mask trace (R397, R398), counters (R399) and
energy (R401).
-/

namespace Sys2Proof.Machine

/-! ### Energy (R401) -/

/-- The weight of an energy class (R385). -/
def State.weight (s : State) (cls : Nat) : Nat := (s.reg (0x0200 + 2 * cls)).toNat % 2 ^ 16

/-- The energy class of an opcode's word; memory, accumulator and `mma` words say how many units of it they charge. The words of Lacers and
rings, `fence` and `yield`, which no class of R401 names, are of class 0, and `waitv` and `vprefetch` of class 5 (log 37). -/
def energyClass (op : Nat) : Nat :=
  if op < 0x080 then 0
  else if op = 0x090 then 0
  else if op < 0x100 then 5
  else if op < 0x180 then 1
  else if 0x18B ≤ op ∧ op ≤ 0x190 then 3
  else if op < 0x1A0 then 2
  else if op < 0x200 then 4
  else if op < 0x240 then 5
  else if op < 0x280 then 0
  else if op < 0x2B0 then 11
  else if op < 0x380 then 0
  else if op < 0x3C0 then 9
  else 0

/-! ### Trace (R397, R398) -/

/-- Trace is on for a context (R397). -/
def State.traced (s : State) (ctx : Nat) : Bool :=
  (s.reg 0x0198).getLsbD 5 && (s.reg (0x0C00 + 4 * ctx)).getLsbD 2

/-- A core's trace segment: its base and size (R397). -/
def State.traceSegment (s : State) (core : Nat) : Nat × Nat :=
  let size := 2 ^ bitsOf (s.reg 0x0198) 4 0
  (bitsOf (s.reg 0x0190) 51 12 * 2 ^ 12 + core * size, size)

/-- A word of a packet written: packets fill the segment in a circle from offset 64, and WPTR is updated after every 256
bytes (R397). -/
def State.traceWord (s : State) (core : Nat) (v : BitVec 64) : State :=
  let seg := s.traceSegment core
  let w := (s.core core).trace.wptr
  let s := s.write64 (seg.1 + 64 + w % (seg.2 - 64)) v
  let s := s.updCore core fun c => { c with trace := { c.trace with wptr := w + 8 } }
  if (w + 8) % 256 = 0 then s.write64 seg.1 (BitVec.ofNat 64 (w + 8)) else s

/-- Word 0 of a packet (R398). -/
def packetWord (type dt slot : Nat) (pcSlot : Bool) (payload : Nat) : BitVec 64 :=
  BitVec.ofNat 64 (type + dt * 2 ^ 4 + slot * 2 ^ 16 + pcSlot.toNat * 2 ^ 25 + payload % 2 ^ 38 * 2 ^ 26)

/-- Where the next word of a core's segment lies. -/
def State.traceAt (s : State) (core : Nat) : Nat :=
  let seg := s.traceSegment core
  seg.1 + 64 + (s.core core).trace.wptr % (seg.2 - 64)

/-- A packet of one word written, or of two, which starts at a 16-byte offset (R397). -/
def State.traceWrite (s : State) (core : Nat) (p : BitVec 64 × Option (BitVec 64)) : State :=
  match p.2 with
  | none => s.traceWord core p.1
  | some v =>
    let s := if (s.core core).trace.wptr % 16 = 0 then s else s.traceWord core 0
    (s.traceWord core p.1).traceWord core v

/-- Packets written in order, up to the first whose way to its home is held back; that one and the rest stay buffered. -/
def State.traceOut (s : State) (core : Nat) : List (BitVec 64 × Option (BitVec 64)) → State
  | [] => s.updCore core fun c => { c with trace := { c.trace with buf := [] } }
  | p :: r =>
    if s.reqOpen core (s.traceAt core) then (s.traceWrite core p).traceOut core r
    else s.updCore core fun c => { c with trace := { c.trace with buf := p :: r } }

/-- The packets that a core holds written, where their way is open (R397). -/
def State.traceFlush (s : State) (core : Nat) : State := s.traceOut core (s.core core).trace.buf

/-- A packet buffered; one that finds the buffer full is lost, and counted (R397). -/
def Trace.put (t : Trace) (w0 : BitVec 64) (w1 : Option (BitVec 64)) (now : Nat) (sync : Bool) : Trace :=
  if Config.traceBuffer ≤ t.buf.length then { t with lost := t.lost + 1 }
  else { t with buf := t.buf ++ [(w0, w1)], lastClk := now, since := if sync then 0 else t.since + 1, synced := t.synced || sync }

/-- The clocks since a core's previous packet, as a packet can hold them. -/
def Trace.dt (t : Trace) (now : Nat) : Nat := min 4095 (now - t.lastClk)

/-- A LOSS packet once the buffer takes packets again; a SYNC is due after it (R397). -/
def Trace.putLoss (t : Trace) (slot : Nat) (pcSlot : Bool) (now : Nat) : Trace :=
  if t.lost = 0 ∨ Config.traceBuffer ≤ t.buf.length then t
  else { (t.put (packetWord 10 (t.dt now) slot pcSlot t.lost) none now false) with lost := 0, synced := false }

/-- A SYNC packet where one is due (R397, R398). -/
def Trace.putSync (t : Trace) (core ctx slot : Nat) (pcSlot : Bool) (clk : BitVec 64) : Trace :=
  if !t.synced || decide (256 ≤ t.since ∨ 4095 < clk.toNat - t.lastClk) then
    t.put (packetWord 1 (t.dt clk.toNat) slot pcSlot (ctx + core % Config.coresPerDie * 2 ^ 8 + dieOf core * 2 ^ 16)) (some clk)
      clk.toNat true
  else t

/-- A packet of a group, with what comes before it (R397). -/
def State.tracePacket (s : State) (core ctx slot : Nat) (pcSlot : Bool) (type payload : Nat) (w1 : Option (BitVec 64)) :
    State :=
  if s.traced ctx then
    let now := s.clk.toNat
    let t := ((s.core core).trace.putLoss slot pcSlot now).putSync core ctx slot pcSlot s.clk
    (s.updCore core fun c =>
      { c with trace := t.put (packetWord type (t.dt now) slot pcSlot payload) w1 now false }).traceFlush core
  else s

/-! ### Counters (R399) -/

/-- A counter of a core as a read finds it: 0 is CLK, 4 the idle issue-slot clocks, of which State holds the complement. -/
def State.counter (s : State) (core i : Nat) : BitVec 64 :=
  let c := s.core core
  match i with
  | 0 => s.clk
  | 4 => 4 * (s.clk - c.since) - vget c.ctr 4 0
  | 15 => vget c.ctr 15 0
  | 63 => vget c.ctr 63 0
  | _ => if i < 16 then vget c.ctr i 0 else 0

end Sys2Proof.Machine
end

