-- ==== Sys2Proof/Machine/Ops.lean ====
section
/-!
DEFINITION. Sys2Proof/Machine/Ops.lean: what every instruction word shares: stops and their records (21 R390 to R394), the
context entering FAULTED (04 R92), taking a trap and the double trap (08 R162, R165), the order of checks (03 R78), the checks
inside a capsule step (17 R331), and the end of a word: retirement, run boundaries (R63) and splits (R64).
-/

namespace Sys2Proof.Machine

/-- The outcome of a step. -/
abbrev Out := Host.Outcome State Fault Refusal

/-! ### Contexts -/

/-- STATE of a context as a code (R90). -/
def CState.code : CState → Nat
  | .destroyed => 0 | .created => 1 | .loaded => 2 | .running => 3 | .draining => 4 | .parking => 5 | .parked => 6
  | .faulted => 7 | .resetting => 8

/-- The descriptor of a context (R88). -/
def State.ctxDesc (s : State) (c : Nat) : Nat := bitsOf (s.reg 0x0010) 51 16 * 2 ^ 16 + c * 256

/-- A context enters a state, and the part writes STATE (R92): the word keeps software's NBV and PIN_VARIANT, and its reserved bits are
written as zero (R7, R90). -/
def State.setCtxState (s : State) (c : Nat) (st : CState) : State :=
  let s := s.updCtx c fun x => { x with state := st }
  let d := s.ctxDesc c
  s.write64 d ((s.read64 d &&& 0x700#64) ||| BitVec.ofNat 64 st.code)

/-- A context enters FAULTED from RUNNING, DRAINING or PARKING, with FCAUSE and FDETAIL (R92); its groups halt at their
next run boundary. The groups of a PARKING context, which tier 2 had shut off from the core windows, can be reached through them again: R32
shuts them off until their slots are free, R92 keeps them for a debugger to inspect through the windows; the model follows R92 (log 40). -/
def State.faultCtx (s : State) (c cause detail : Nat) : State :=
  match (s.ctx c).state with
  | .running | .draining | .parking =>
    let s := s.updCtx c fun x => { x with fcause := BitVec.ofNat 8 cause, fdetail := BitVec.ofNat 56 detail, sealed := false }
    let s := s.write64 (s.ctxDesc c + 0x60) (BitVec.ofNat 64 (cause + detail * 2 ^ 8))
    s.setCtxState c .faulted
  | _ => s

/-- DBGCTL.COB of a context (R385). -/
def State.cobRouted (s : State) (c : Nat) : Bool := (s.reg (0x0C00 + 4 * c)).getLsbD 0
/-- DBGCTL.HALTALL of a context (R385). -/
def State.haltAll (s : State) (c : Nat) : Bool := (s.reg (0x0C00 + 4 * c)).getLsbD 1

/-- A halt broadcast of a context starts, or joins the one in progress (R394). -/
def State.broadcast (s : State) (c : Nat) : State := s.updCtx c fun x => { x with bcast := true, noFire := true }

/-! ### Groups -/

/-- The context of a group. -/
def State.groupCtx (s : State) (g : Group) : Nat :=
  match s.blk g.block with
  | some b => b.ctx
  | none => 0

/-- A read or atomic that a group has sent to a host or peer, answered or not, for the word that it is at (11 R224). -/
def State.askedOf (s : State) (a : Nat) : Bool := s.extReqs.any fun r => r.agent == a && !r.write

/-- State codes (R151). -/
def GState.code : GState → Nat
  | .launching => 1 | .ready => 2 | .issuing => 3 | .waitScore => 4 | .waitMem => 5 | .waitBarrier => 6
  | .waitMonitor => 7 | .waitCapsule => 8 | .trapped => 9 | .halted => 10 | .parked => 11 | .exited => 12

/-- The group gives up its quadrant's issue slot. -/
def State.leaveSlot (s : State) (a : Nat) : State := { s with issue := s.issue.filter fun x => x != a }

/-- A group is inside a capsule step in the mode it runs in (R331). -/
def Group.inStep (g : Group) : Bool := g.cap.role != 0 && g.cap.cmode == g.trapMode

/-- A group has issued words of a capsule step that has not closed: it is at no boundary (17 R330). -/
def Group.midStep (g : Group) : Bool := g.inStep && g.cap.words != 0

/-- The word that a group issues next may issue in its context: the context runs and restores nothing, or a step is to reach its
end, or the Cobbler runs in a context that is FAULTED (08 R154, 04 R92, R96, 21 R394). -/
def State.runsOn (s : State) (g : Group) : Bool :=
  let c := s.ctx (s.groupCtx g)
  let cobbler := g.state == .halted
  match c.state with
  | .running | .draining => !c.restoring && (g.midStep || (cobbler && c.dumping.isNone) || (!cobbler && !c.bcast))
  | .parking => g.midStep
  | .faulted => g.midStep || (cobbler && c.dumping.isNone)
  | .resetting => g.midStep
  | _ => false

/-- PC slot 1 is the one that the group issues from next: in trap mode slot 0; inside a step the slot that opened the
capsule; else the other slot than that of the last run, where both hold a path (R157, R331). -/
def Group.nextOnB (g : Group) : Bool :=
  if g.trapMode then false
  else if g.inStep then g.cap.onB
  else if g.path0.isSome && g.path1.isSome then !g.onB
  else g.path1.isSome

/-- The PC slots exchanged so that slot 0 holds the path of a given slot (R162). -/
def Group.exchange (g : Group) (fromB : Bool) : Group :=
  if fromB then
    { g with path0 := g.path1, path1 := g.path0, onB := false, cap := { g.cap with onB := !g.cap.onB } }
  else { g with onB := false }

/-- The word at 0x110 of a group header without its state code and COB bit (R151, R161). -/
def Group.maskWord (g : Group) : Nat :=
  g.path0.isSome.toNat * 2 ^ 4 + g.path1.isSome.toNat * 2 ^ 5 +
    (match g.path0 with | some p => p.mask.toNat | none => 0) * 2 ^ 8 +
    (match g.path1 with | some p => p.mask.toNat | none => 0) * 2 ^ 16

/-- The block, context, LSEQ of a group's firing. -/
def State.lseqOf (s : State) (b : Block) : BitVec 64 :=
  match amGet s.grids b.grid with
  | some g => g.lseq
  | none => 0

/-- The mailbox entry of an agent (R392). -/
def State.mailbox (s : State) (a : Nat) : Nat := bitsOf (s.reg 0x0178) 51 16 * 2 ^ 16 + a * 64

/-- The stop record of a group (R392); `before` is the state code that it held just before the stop. -/
def State.stopRec (s : State) (a cause before : Nat) (pc : BitVec 57) : StopRec :=
  match s.grp a with
  | none => ⟨a, cause, pc, 0⟩
  | some g =>
    ⟨a, cause + (if before = 3 then 2 else before) * 2 ^ 8 + g.trapMode.toNat * 2 ^ 12 + g.cob.toNat * 2 ^ 13 +
      g.path0.isSome.toNat * 2 ^ 14 + g.path1.isSome.toNat * 2 ^ 15, pc,
      match s.blk g.block with
      | some b => s.lseqOf b
      | none => 0⟩

/-- Every stop of a context with HALTALL starts a broadcast (R385). -/
def State.stopBroadcast (s : State) (a : Nat) : State :=
  match (s.grp a).bind fun g => s.blk g.block with
  | some b => if s.haltAll b.ctx then s.broadcast b.ctx else s
  | none => s

/-- A stop record written, and then the stop reported (R392, R385). -/
def State.putStop (s : State) (r : StopRec) : State :=
  let m := s.mailbox r.agent
  (((s.write64 (m + 0x28) (BitVec.ofNat 64 r.word)).write64 (m + 0x30) (r.pc.zeroExtend 64)).write64 (m + 0x38) r.lseq).stopBroadcast r.agent

/-- The record of a stop written with system-scope release; while the release waits for held-back writes or acknowledgements, so does the
record (R392, 11 R231). -/
def State.stopRecord (s : State) (r : StopRec) : State :=
  let x := s.release (coreOf r.agent) r.agent 5
  if x.2 then x.1.putStop r else { x.1 with stopRecs := x.1.stopRecs ++ [r] }

/-- The stop records that wait, tried again. -/
def State.retryStops (s : State) : State := s.stopRecs.foldl State.stopRecord { s with stopRecs := [] }

/-- A group with an open capsule that stops sends a stop marking (R335). -/
def State.mark (s : State) (a : Nat) : State :=
  match s.grp a with
  | none => s
  | some g => if g.cap.role = 0 then s else { s with markings := s.markings ++ [(a, g.cap.line)] }

/-- The PC of PC slot 0. -/
def Group.pc0 (g : Group) : BitVec 57 :=
  match g.path0 with
  | some p => p.pc
  | none => 0

/-- A group as it enters HALTED: a word that has not begun, because entry k of the watchpoints is still to be armed, waits again when the
group resumes (R187). -/
def Group.halt (g : Group) (cause : Nat) : Group :=
  { g with state := .halted, stopCause := cause, cobRun := false, dep := none, fate := none, exts := [], runWords := 0,
           sent := g.sent && !(match g.dep with | some (.arm _ _) => true | _ => false) }

/-- A group enters HALTED with a stop cause and its record (R390); the registers that its accepted accumulator instructions write are
written (14 R289). -/
def State.enterHalted (s : State) (a cause : Nat) : State :=
  match s.grp a with
  | none => s
  | some g =>
    let s := (((s.accDrain (coreOf a)).mark a).updGrp a fun g => g.halt cause).leaveSlot a
    let s := s.disarm (.group a)
    s.stopRecord (s.stopRec a cause g.state.code g.pc0)

/-- Waits of a group forgotten: watches, misses, and replies that it had. -/
def State.dropWaits (s : State) (a : Nat) : State :=
  let s := s.disarm (.group a)
  let s : State :=
    { s with misses := s.misses.map fun m => { m with joined := m.joined.filter fun j => j.1 != a },
             extReqs := s.extReqs.filter fun r => r.write || r.agent != a }
  s.updGrp a fun g => { g with going := [] }

/-! ### Traps (R160 to R165) -/

/-- A step of a capsule discarded (R333): `s16` to `s31` from the checkpoint, the buffered stores dropped, CFPC. -/
def State.discardStep (s : State) (a : Nat) (pc : BitVec 57) : State :=
  s.updGrp a fun g =>
    let ck := s.lineCkpt g.cap.line
    { g with
      s := (List.range 16).foldl (fun v i => vset v (16 + i) (vget ck i 0)) g.s
      cap := { g.cap with stores := [], words := 0, cfpc := pc } }

/-- The address at which a trap inside a step resumes (R333). -/
def State.stepResume (s : State) (g : Group) (xpc : BitVec 57) : BitVec 57 :=
  if g.inStep then s.lineEntry g.cap.line else xpc

/-- A trap raised in trap mode (R165), by the word at `here`; XPC takes `xpc`. -/
def State.doubleTrap (s : State) (a cause : Nat) (addr : BitVec 64) (xpc here : BitVec 57) : State :=
  match s.grp a with
  | none => s
  | some g =>
    let s := if g.inStep then s.discardStep a here else s
    let s := s.updGrp a fun g =>
      { g with xpc := xpc, xcause := 0x1A, xaddr := addr, xaux := BitVec.ofNat 64 cause, entry := none }
    let s := ((s.dropWaits a).enterHalted a 0x1A)
    match s.blk g.block with
    | none => s
    | some b => s.faultCtx b.ctx 0x1A a

/-- The bytes of a trap frame (R161). -/
def Group.frame (g : Group) : Nat :=
  ofElems 64 ((List.range 8).map fun i => (g.sreg i).toNat) +
    (ofElems 64 [g.xpc.toNat, g.xmode.toNat, g.xcause.toNat, g.xaddr.toNat, g.xaux.toNat]) * 2 ^ 512 +
    g.maskWord * 2 ^ 832

/-- The address of a group's trap frame (R161). -/
def State.frameVa (s : State) (ctx a : Nat) : Nat := (s.ctx ctx).tvec.toNat / 4096 * 4096 + 0x1000 + a * 128

/-- The address of the handler of a trap (R161, R391). -/
def State.handlerVa (s : State) (ctx : Nat) (e : PendEntry) : Nat :=
  let c := s.ctx ctx
  if e.cobbler then c.cvec.toNat / 4 * 4 else c.tvec.toNat / 4096 * 4096 + e.cause * 64

/-- A frame's address reaches nothing (01 R28): a hole of the map, of the on-chip range, or of the fabric windows. -/
def State.frameHole (s : State) (pa : Nat) : Bool :=
  match s.region pa with
  | .hole => true
  | .chip => s.chipHole pa 128
  | .fabric => (s.fabricPort pa).isNone
  | _ => false

/-- The end of trap entry, once the frame is written and the handler can be fetched (R162, R391). -/
def State.enterHandler (s : State) (a ctx : Nat) (e : PendEntry) (f : Nat) : State :=
  let pc := s.handlerVa ctx e
  let before := match s.grp a with
    | some g => g.stopCause
    | none => 0
  let s := s.updGrp a fun g =>
    let g := { g with mode := 0, entry := none, dep := none, readyClk := s.clk.toNat, promo := 0, stopCause := 0 }
    let g := (g.setS 0 (BitVec.ofNat 64 f)).moveTo (BitVec.ofNat 57 pc)
    if e.cobbler then { g with state := .halted, cob := true, cobRun := true, stopCause := e.cause } else g
  if e.cobbler then
    match s.grp a with
    | some g => s.stopRecord (s.stopRec a e.cause before g.xpc)
    | none => s
  else s

/-- The handler of an entry whose frame is written is entered, unless its fetch finds a MIGRATING leaf, which the entry waits for (R162). -/
def State.startHandler (s : State) (a ctx : Nat) (e : PendEntry) (f : Nat) : State :=
  match s.translate (coreOf a) ctx (s.handlerVa ctx e) .fetch true with
  | .migrating at' => (s.arm (.group a) at' 8).updGrp a fun g => { g with dep := some .watch, entry := some { e with framed := true } }
  | _ => s.enterHandler a ctx e f

/-- The frame at an address has taken the value of a poisoned register, `s0` to `s7`: its first sector is poisoned (22 R406). -/
def State.frameTaint (s : State) (g : Group) (pa : Nat) : State :=
  if (g.poison.any fun r => r.file == .scalar && decide (r.reg < 8)) && s.isMemory pa then { s with poison := pa / 64 :: s.poison } else s

/-- The frame of a pending entry is written as an access of the group in trap mode: to memory, the on-chip windows (01 R31), a host or a
peer, which may refuse it (19 R363); the entry completes. A MIGRATING leaf holds it, and a fault is a trap in trap mode (R162). -/
def State.finishEntry (s : State) (a : Nat) : State :=
  match s.grp a with
  | none => s
  | some g =>
    match g.entry, s.blk g.block with
    | some e, some b =>
      let f := s.frameVa b.ctx a
      if e.framed then s.startHandler a b.ctx e f else
      let r := s.direct b.ctx f .write true
      match r.1 with
      | .ok pa =>
        if r.2.frameHole pa = true then r.2.doubleTrap a cProtection (BitVec.ofNat 64 f) g.xpc g.xpc
        else if r.2.inReach (coreOf a) pa = false then
          (r.2.snoopBack (pa / 256)).updGrp a fun g => { g with dep := some (.home pa) }
        else
          let s := (r.2.drainCore (coreOf a)).l1Store (coreOf a) pa 128 g.frame
          ((s.performWrite ⟨a, coreOf a, b.ctx, f, pa, 128, g.frame, none, 0, []⟩).frameTaint g pa).startHandler a b.ctx e f
      | .fault cause _ => r.2.doubleTrap a cause (BitVec.ofNat 64 f) g.xpc g.xpc
      | .revoke _ _ => r.2.doubleTrap a cLeaseRevoked (BitVec.ofNat 64 f) g.xpc g.xpc
      | .migrating at' => (r.2.arm (.group a) at' 8).updGrp a fun g => { g with dep := some .watch }
      | .miss _ => r.2
    | _, _ => s

/-- The registers of a trap taken from user code, `g` the group at that instant (R162): what its accepted accumulator instructions write
is written, the resume path in PC slot 0, trap
mode, the exception registers, the frame still to be written. -/
def State.beginTrap (s : State) (a ctx : Nat) (g : Group) (cause : Nat) (addr aux : BitVec 64) (resume : BitVec 57) (fromB : Bool) :
    State :=
  let s := (((s.accDrain (coreOf a)).dropWaits a).leaveSlot a).mark a
  let cobbler := decide (cause = cWatchpoint ∨ cause = cBreakpoint) && s.cobRouted ctx
  let before := if g.state = .issuing then 2 else g.state.code
  let s := s.updGrp a fun g =>
    let g := g.exchange fromB
    { g with
      state := .trapped, trapMode := true, xpc := resume, xmode := g.mode, xcause := BitVec.ofNat 8 cause,
      xaddr := addr, xaux := aux, exts := [], runWords := 0, dep := none, fate := none, woke := false, sent := false,
      stopCause := before, entry := some ⟨cause, cobbler, false⟩ }
  s.tracePacket (coreOf a) ctx (slotOf a) false 6 cause (some (resume.zeroExtend 64))

/-- `take_trap` (R162), with the address that XPC takes. From the trap on the group is in trap mode; in it, the trap is a
double trap (R165). The resume path is the one the group issues from, `fromB` where that is PC slot 1. A trap at a boundary between
capsule steps (`takeBetween`) discards nothing (17 R333). -/
def State.takeTrap (s : State) (a cause : Nat) (addr aux : BitVec 64) (xpc : BitVec 57) (fromB : Bool) : State :=
  match s.grp a with
  | none => s
  | some g =>
    if g.trapMode then s.doubleTrap a cause addr (s.stepResume g xpc) xpc
    else
      match s.blk g.block with
      | none => s
      | some b =>
        let s' := if g.inStep then s.discardStep a xpc else s
        (s'.beginTrap a b.ctx g cause addr aux (s.stepResume g xpc) fromB).finishEntry a

/-- A trap that no word raises, taken in user code at a run boundary (R167). -/
def State.takeBetween (s : State) (a cause : Nat) (addr aux : BitVec 64) (xpc : BitVec 57) (fromB : Bool) : State :=
  match s.grp a with
  | none => s
  | some g =>
    match s.blk g.block with
    | none => s
    | some b => (s.beginTrap a b.ctx g cause addr aux xpc fromB).finishEntry a

/-! ### Issuing a word -/

/-- An instruction word as its meaning reads it: opcode, form, E, register fields, the immediate field, the greatest value
of an unsigned immediate (none for a signed one). -/
structure Insn where
  op : Nat
  sig : Sig
  e : Bool
  d : Nat
  a : Nat
  b : Nat
  raw : Nat
  immMax : Option Nat
  deriving DecidableEq, Repr

/-- A word at issue: the issuing group, its block, the immediate, and the PC of the word. -/
structure Iss where
  agent : Nat
  g : Group
  blk : Block
  x : Insn
  imm : BitVec 64
  pc : BitVec 57
  deriving DecidableEq, Repr

/-- The core that issues a word. -/
def Iss.core (i : Iss) : Nat := coreOf i.agent
/-- Its context. -/
def Iss.ctx (i : Iss) : Nat := i.blk.ctx
/-- Scalar operand a. -/
def Iss.sa (i : Iss) : BitVec 64 := i.g.sreg i.x.a
/-- Scalar operand b. -/
def Iss.sb (i : Iss) : BitVec 64 := i.g.sreg i.x.b
/-- The scalar register in field d. -/
def Iss.sd (i : Iss) : BitVec 64 := i.g.sreg i.x.d
/-- The address of the next word. -/
def Iss.next (i : Iss) : BitVec 57 := i.pc + 4
/-- The address of the first prefix, or of the word where it has none (R68). -/
def Iss.first (i : Iss) : BitVec 57 := i.pc - BitVec.ofNat 57 (4 * i.g.exts.length)

/-- Where a trap resumes that is taken after a word: at the next word (R160); of a double trap XPC is the word that trapped (R165). -/
def Iss.after (i : Iss) : BitVec 57 := if i.g.trapMode then i.first else i.next

/-- Where the PC of the issuing path goes after a word; `stay` where the meaning has set the paths itself. -/
inductive PcMove where
  | next
  | to (pc : BitVec 57)
  | stay
  deriving DecidableEq, Repr

/-- `tret` (R164): the frame's `s0` to `s7`, MODE and the PC come back, and the path that trapped, in PC slot 0, is the one whose turn it
is, as it was without the trap (R168); a capsule left open is entered again (17 R340). -/
def State.trapReturn (s : State) (a : Nat) (vals : Nat) : State :=
  s.updGrp a fun g =>
    let back := g.cap.role != 0 && !g.cap.cmode
    { g with
      s := (List.range 8).foldl (fun v k => vset v k (BitVec.ofNat 64 (vals / 2 ^ (64 * k)))) g.s
      poison := g.poison.filter fun r => !(r.file == .scalar && decide (r.reg < 8))
      mode := g.xmode
      path0 := g.path0.map fun p => { p with pc := g.xpc &&& ~~~3#57 }
      trapMode := false
      onB := true
      cob := false
      cobRun := false
      stopCause := 0
      readyClk := s.clk.toNat
      promo := 0
      cap := { g.cap with reenter := back }
      state := if back then .waitCapsule else .ready
      dep := if back then some .watch else none }

/-- What a word does: it completes with the energy units of a class; it traps, with XPC at the word or at the next one; it
waits at a split point; it is put off until the other words of its clock have issued (17 R336). -/
inductive Res where
  | done (s : State) (mv : PcMove) (cls n : Nat)
  | trap (s : State) (cause : Nat) (addr aux : BitVec 64)
  | trapNext (s : State) (cause : Nat) (addr aux : BitVec 64)
  | wait (s : State) (code : GState) (dep : Dep)
  | later (s : State)

/-- What a word does, with a counter of its core raised where it completes (21 R399). -/
def Res.counting (r : Res) (core i n : Nat) : Res :=
  match r with
  | .done s mv cls m => .done (if n = 0 then s else s.countUp core i n) mv cls m
  | r => r

/-- A word completes with one unit of its class. -/
def Iss.fin (i : Iss) (s : State) : Res := .done s .next (energyClass i.x.op) 1
/-- A word completes with its group changed. -/
def Iss.finG (i : Iss) (s : State) (g : Group) : Res := i.fin (s.setGrp i.agent g)
/-- A word completes with a scalar written. -/
def Iss.finS (i : Iss) (s : State) (v : BitVec 64) : Res := i.fin (s.updGrp i.agent fun g => g.setS i.x.d v)
/-- A word jumps. -/
def Iss.jump (i : Iss) (s : State) (pc : BitVec 57) : Res := .done s (.to pc) (energyClass i.x.op) 1
/-- ILLEGAL_OPERAND found by an instruction's own checks. -/
def Iss.illegal (_ : Iss) (s : State) : Res := .trap s cIllegalOperand 0 0

/-- The immediate of a word under its prefixes, none where R67 or its range refuses it. -/
def Insn.immediate (x : Insn) (exts : List (BitVec 21)) : Option (BitVec 64) :=
  let w := x.sig.fmt.immWidth
  if w = 0 then some 0
  else
    match x.immMax with
    | none => signedImm exts w x.raw
    | some m =>
      match unsignedImm exts w x.raw with
      | none => none
      | some v => if v.toNat ≤ m then some v else none

/-- Steps 3 to 5 of R78 that every word shares: E, prefixes and register fields. -/
def Insn.formOk (x : Insn) (g : Group) : Bool :=
  (!x.sig.endsRun || x.e) && (g.exts == [] || x.sig.fmt.immWidth != 0) &&
    x.sig.d.fits g.kregs x.d && x.sig.a.fits g.kregs x.a && x.sig.b.fits g.kregs x.b

/-- Opcodes that R331 permits inside a step. -/
def stepOpcode (op : Nat) : Bool :=
  decide ((0x001 ≤ op ∧ op ≤ 0x01C) ∨ (0x020 ≤ op ∧ op ≤ 0x027) ∨ (0x040 ≤ op ∧ op ≤ 0x042) ∨ op = 0x04B ∨ op = 0x3FF ∨
    (0x080 ≤ op ∧ op ≤ 0x086) ∨ (0x088 ≤ op ∧ op ≤ 0x08B) ∨ op = 0x291 ∨ op = 0x292)

/-- A register field names `s0` to `s15`. -/
def RegKind.low (k : RegKind) (f : Nat) : Bool := k == .scalar && decide (f < 16)

/-- The checks of R331 on a word inside a step: the cause of the trap, none where the word passes. -/
def stepCheck (x : Insn) (g : Group) (imm : BitVec 64) : Option Nat :=
  let op := x.op
  let branch := decide (0x040 ≤ op ∧ op ≤ 0x042)
  let close := decide (op = 0x291 ∨ op = 0x292)
  if !stepOpcode op || (branch && imm.toInt ≤ 0) || (x.e && !branch && !close) ||
      x.sig.d.low x.d || x.sig.a.low x.a || x.sig.b.low x.b then some cCapsuleViolation
  else if (g.cap.words + g.exts.length = 23 && !close) ||
      (decide (0x088 ≤ op ∧ op ≤ 0x08B) && decide (4 ≤ g.cap.stores.length)) then some cCapsuleLimit
  else none

/-- A run ends: the group gives up the slot, and is READY unless the word left it in another state (R152). -/
def State.endRun (s : State) (a : Nat) : State :=
  (s.leaveSlot a).updGrp a fun g =>
    { g with state := if g.state = .issuing then .ready else g.state, runWords := 0, readyClk := s.clk.toNat, promo := 0 }

/-- Energy charged to a group (R401). -/
def State.charge (s : State) (a cls n : Nat) : State :=
  s.updGrp a fun g => { g with energy := g.energy + BitVec.ofNat 64 (s.weight cls * n) }

/-- A group that has exited adds its ENERGY to its block's sum and its core's counts (R401). -/
def State.groupExit (s : State) (i : Iss) : State :=
  match s.grp i.agent with
  | none => s
  | some g =>
    if g.state = .exited then
      let s := s.tracePacket i.core i.blk.ctx (slotOf i.agent) false 9 0 (some g.energy)
      let s := s.updBlk g.block fun b => { b with energy := b.energy + g.energy }
      (s.updCore i.core fun c => { c with energy := c.energy + g.energy }).countUp i.core 15 g.energy.toNat
    else s

/-- Words issued, `n` of them, counted on their core, the first of them the first of a run where `first` (counters 1 and 2 of R399). -/
def State.countWords (s : State) (core n : Nat) (first : Bool) : State := s.updCore core fun c => (c.count 1 n).count 2 first.toNat

/-- The next word is the first of a run (R63); a step of a capsule is one run (17 R330). -/
def Group.startsRun (g : Group) : Bool := g.runWords == 0 && !(g.inStep && g.cap.words != 0)

/-- The group of a word that retires: its PC moves, and the word and its `k` prefixes count for its run, or for its step. -/
def Group.retireWord (g : Group) (next : BitVec 57) (mv : PcMove) (k : Nat) (inStep : Bool) : Group :=
  let g := match mv with
    | .next => g.moveTo next
    | .to pc => g.moveTo pc
    | .stay => g
  { g with exts := [], runWords := g.runWords + k + 1, woke := false, sent := false, going := [],
           cap := if inStep && g.inStep then { g.cap with words := g.cap.words + k + 1 } else g.cap }

/-- A word counted and charged, and its group moved on (R63, R330, R401). -/
def State.retireWord (s : State) (i : Iss) (mv : PcMove) (cls n : Nat) : State :=
  let k := i.g.exts.length
  let s := ((s.charge i.agent cls n).charge i.agent 0 k).countWords i.core (k + 1) i.g.startsRun
  let s := s.updGrp i.agent fun g => g.retireWord i.next mv k (i.g.inStep && i.x.op != 0x291)
  { s with extReqs := s.extReqs.filter fun r => r.write || r.agent != i.agent }

/-- A word retires (R63, R330, R401): the PC moves, the word counts for its run, and a boundary may follow; in a context that a park, a
fault or a broadcast stops, it follows the word that a host or peer has answered, which had split its run (04 R96, 11 R242). -/
def State.retire (s : State) (i : Iss) (mv : PcMove) (cls n : Nat) : State :=
  let last := (s.askedOf i.agent || i.g.going != []) && !(s.runsOn i.g)
  let s := s.retireWord i mv cls n
  let close := decide (i.x.op = 0x291 ∨ i.x.op = 0x292)
  if i.g.inStep && !close then
    { s with issue := (s.issue.filter fun x => x != i.agent) ++ (if s.issue.contains i.agent then [i.agent] else []) }
  else if i.x.e || last || decide (Config.runWords ≤ i.g.runWords + i.g.exts.length + 1) || i.x.op == 0x290 || i.x.op == 0x063 then
    (s.endRun i.agent).groupExit i
  else { s with issue := (s.issue.filter fun x => x != i.agent) ++ (if s.issue.contains i.agent then [i.agent] else []) }

/-- The wait of a word that is under way: something of it has taken place, and its path goes on with it. -/
def Dep.underWay : Dep → Bool
  | .yseq .. => true | .phase .. => true | .held .. => true | .watch => true | .reply => true | .arm .. => true
  | _ => false

/-- A run splits (R64) before the word, or the first prefix, at `first`; the group waits. A handler keeps its state code
(R154). Its next run is the other path's (R157), unless no word of this run has issued, or the word that waits is under way (log 41). -/
def State.suspendAt (s : State) (a : Nat) (first : BitVec 57) (code : GState) (dep : Dep) : State :=
  let s := ((s.leaveSlot a).countUp (coreOf a) 3 1)
  s.updGrp a fun g =>
    let g := g.moveTo first
    { g with state := if g.state = .issuing then code else g.state, dep := some dep, exts := [], runWords := 0,
             onB := if !g.trapMode && g.path0.isSome && g.path1.isSome && (g.runWords == 0 || dep.underWay) then !g.onB else g.onB }

/-- A word that waits: nothing of it has taken place but what `s` holds. -/
def State.suspend (s : State) (i : Iss) (code : GState) (dep : Dep) : State := s.suspendAt i.agent i.first code dep

/-- The counters of a core as they stood before a word that traps: `raise` leaves no counter changed (00 R9). -/
def State.uncount (t s : State) (c : Nat) : State :=
  if (t.core c).ctr = (s.core c).ctr then t else t.updCore c fun k => { k with ctr := (s.core c).ctr }

/-- A word put off within its clock: its quadrant's slot is not yet used. -/
def State.putOffWord (s : State) (a : Nat) : State :=
  { s with used := s.used.filter (fun x => x != a), putOff := a :: s.putOff }

/-- The registers of the spans that a word's fields d, a and b begin: one, but for conversions (10 R213), pairs (R199, R200), strips and
requantised rows (14 R292, R293), `mma` (R286), `vatom.cas` and cells (12 R256, R258). -/
def Iss.spans (i : Iss) : Nat × Nat × Nat :=
  let et := modeEt i.g.mode
  let et2 := modeEt2 i.g.mode
  let n := convCount et et2
  let op := i.x.op
  if op = 0x1A0 ∨ op = 0x1A1 ∨ op = 0x1A2 ∨ op = 0x1A4 then (regsFor et2 n, regsFor et n, 1)
  else if op = 0x1A3 then (1, etCount et2 / etCount et, 1)
  else if (0x138 ≤ op ∧ op ≤ 0x13A) ∨ op = 0x224 then (2, 1, 1)
  else if op = 0x383 then (1, 8, 1)
  else if op = 0x384 then (8, 1, 1)
  else if op = 0x381 ∨ op = 0x382 then (requantRegs et2 (bitsOf i.sb 53 52 + 1), 1, 1)
  else if op = 0x22C ∧ et = 9 then (1, 1, 2)
  else if 0x3C0 ≤ op then
    let ta := taType (modeTa i.g.mode)
    let tb := taType (modeTb i.g.mode)
    let x := shapeOf (op - 0x3C0)
    let K := x.2.2 * min (kpr ta) (kpr tb)
    (1, x.1 / 8 * ((K + kpr ta - 1) / kpr ta), x.2.1 / 8 * ((K + kpr tb - 1) / kpr tb))
  else (1, 1, 1)

/-- Words that read or write scalar registers which no field names: `call`, `ret`, `tret`, `capb`, `caps`, `cape`. -/
def implicitRegs (op : Nat) : Bool := op ∈ [0x045, 0x046, 0x061, 0x290, 0x291, 0x292]

/-- A word names a register that an accepted accumulator instruction of its group is still to write (14 R285): it waits at a split point. -/
def Iss.awaitsResults (i : Iss) (s : State) : Bool :=
  let due := (s.core (coreOf i.agent)).resultsDue i.agent
  let n := i.spans
  let meets := fun (k : RegKind) (f n : Nat) => due.any fun r => r.1 == k && decide (f < r.2.1 + r.2.2 ∧ r.2.1 < f + n)
  due != [] && (implicitRegs i.x.op || meets i.x.sig.d i.x.d n.1 || meets i.x.sig.a i.x.a n.2.1 || meets i.x.sig.b i.x.b n.2.2)

/-- Words whose field d is an operand: `sel`, branches and `jmp` on it, `vbr`, `swr`, stores, scalar and vector `cas` and the other vector
atomics, reduction stores, multiply-adds and selects. A write of a part of a register is none (`vins`, `gput`). -/
def readsD (op : Nat) : Bool :=
  op ∈ [0x017, 0x041, 0x042, 0x043, 0x044, 0x047, 0x048, 0x054, 0x088, 0x089, 0x08A, 0x08B, 0x08D, 0x08F, 0x0A9, 0x0B2, 0x0B3, 0x105, 0x119,
    0x183, 0x184, 0x185, 0x197, 0x204, 0x205, 0x206, 0x207, 0x20C, 0x20D, 0x20E, 0x20F, 0x211, 0x213, 0x215, 0x219, 0x21B, 0x220, 0x221,
    0x222, 0x223, 0x224, 0x225, 0x228, 0x229, 0x22A, 0x22B, 0x22C]

/-- Words whose vector field a names a scale register: `kget`, `kadd`, `kmax` (10 R217), and `gget` of one (09 R189). -/
def Iss.scaleOnly (i : Iss) : Bool := i.x.op ∈ [0x1A5, 0x1A7, 0x1A8] || (i.x.op == 0x067 && decide (32 ≤ i.imm.toNat))
/-- Words whose vector field a names a scale register too: moves (10 R198), `mxdq` (10 R215), and `mma` of an MX operand (14 R287). -/
def Iss.scaleA (i : Iss) : Bool :=
  i.scaleOnly || i.x.op ∈ [0x130, 0x134, 0x135, 0x1A4] || (decide (0x3C0 ≤ i.x.op) && isMx (taType (modeTa i.g.mode)))
/-- The same of field b: `kmax`, and `mma`. -/
def Iss.scaleB (i : Iss) : Bool := i.x.op == 0x1A8 || (decide (0x3C0 ≤ i.x.op) && isMx (taType (modeTb i.g.mode)))

/-- The lanes that a word reads of field a's registers: the active ones, the lanes moved from (10 R198), the lane of `gget`, and all of tile
words. -/
def Iss.lanesA (i : Iss) : List Nat :=
  let active := lanesOf i.g.active
  if i.x.op = 0x134 then active.map fun l => i.g.vlane i.x.b l % 8
  else if i.x.op = 0x135 then active.map fun _ => i.imm.toNat
  else if i.x.op = 0x067 then [i.imm.toNat % 8]
  else if 0x380 ≤ i.x.op then List.range 8
  else active

/-- A word is guarded (R75): it works on the active lanes of vector registers. -/
def Iss.isGuarded (i : Iss) : Bool :=
  (i.x.sig.d == .vector || i.x.sig.a == .vector || i.x.sig.b == .vector) && i.x.op != 0x067 && i.x.op != 0x068 && decide (i.x.op < 0x380)

/-- A capsule word reads `s16` to `s31`: `capb` outside a capsule, `caps` and `cape` in a step (17 R336 to R338). -/
def Iss.readsUpper (i : Iss) : Bool :=
  (i.x.op == 0x290 && i.g.cap.role == 0) || ((i.x.op == 0x291 || i.x.op == 0x292) && i.g.inStep)

/-- A word reads a register (22 R406). -/
def Iss.reads (i : Iss) (r : RegAt) : Bool :=
  let σ := i.x.sig
  let n := i.spans
  let names := fun (k : RegKind) (f m : Nat) => k == (match r.file with
    | .scalar => .scalar | .vector => .vector | .scale => .vector | .pred => .pred | .handle => .handle | .yreg => .yreg) &&
    decide (f ≤ r.reg ∧ r.reg < f + m)
  let a := names σ.a i.x.a n.2.1
  let b := names σ.b i.x.b n.2.2
  let d := names σ.d i.x.d n.1
  let active := (lanesOf i.g.active).contains r.lane
  let laneB := if 0x380 ≤ i.x.op then true else active
  match r.file with
  | .scalar => (a && !(i.x.op == 0x245 && decide (i.imm.toNat < 64))) || b || (d && readsD i.x.op) || (i.x.op == 0x046 && r.reg == 15) ||
      (i.readsUpper && decide (16 ≤ r.reg))
  | .vector => (a && !i.scaleOnly && i.lanesA.contains r.lane) || (b && i.x.op != 0x1A8 && laneB) || (d && readsD i.x.op && active)
  | .scale => (a && i.scaleA && i.lanesA.contains r.lane) || (b && i.scaleB && laneB) ||
      (d && (i.x.op == 0x215 || i.x.op == 0x21B) && active)
  | .pred => a || b || (d && readsD i.x.op) ||
      (i.isGuarded && (modeG i.g.mode).getLsbD 3 && r.reg == ((modeG i.g.mode).extractLsb' 0 3).toNat)
  | .handle => a || d || (decide (0x3C0 ≤ i.x.op) && r.reg == i.x.d)
  | .yreg => a

/-- A word issued by a group (R78): privilege, form, the instruction's own static checks, the checks of a capsule step, then
its operands, of which a poisoned one raises POISON (22 R406), and its meaning. -/
def State.runWord (s : State) (i : Iss) (ok : Iss → Bool) (body : State → Iss → Res) : State :=
  let fault := fun (cause : Nat) => s.takeTrap i.agent cause 0 0 i.first i.g.onB
  if i.x.sig.privileged && !i.g.trapMode then fault cPrivilege
  else
    match i.x.immediate i.g.exts with
    | none => fault cIllegalOperand
    | some imm =>
      let i := { i with imm := imm }
      if !(i.x.formOk i.g && ok i) then fault cIllegalOperand
      else
        match (if i.g.inStep then stepCheck i.x i.g imm else none) with
        | some cause => fault cause
        | none =>
          if i.awaitsResults s then s.suspend i .waitMem .results
          else if i.g.poison.any i.reads then fault cPoison
          else
          match body s i with
          | .done s mv cls n => s.retire i mv cls n
          | .trap t cause addr aux => (t.uncount s i.core).takeTrap i.agent cause addr aux i.first i.g.onB
          | .trapNext s cause addr aux =>
            (((s.charge i.agent (energyClass i.x.op) 1).charge i.agent 0 i.g.exts.length).countWords i.core (i.g.exts.length + 1)
              i.g.startsRun).takeTrap i.agent cause addr aux i.after i.g.onB
          | .wait s code dep => s.suspend i code dep
          | .later s => s.putOffWord i.agent

/-- A word executed: by the group that holds the first issue slot of the list. -/
def issueWord (x : Insn) (ok : Iss → Bool) (body : State → Iss → Res) (s : State) : Out :=
  match s.issue with
  | [] => .fault .noIssuingGroup
  | a :: _ =>
    match s.grp a with
    | none => .fault .noIssuingGroup
    | some g =>
      match s.blk g.block with
      | none => .fault .noIssuingGroup
      | some b => .next (s.runWord ⟨a, g, b, x, 0, g.pc⟩ ok body)

/-- A static check that nothing fails. -/
def always (_ : Iss) : Bool := true

/-! ### Forms of words -/

/-- A format A word. -/
def insnA (op : Nat) (g : Sig) (e : Bool) (d a b : BitVec 7) : Insn := ⟨op, g, e, d.toNat, a.toNat, b.toNat, 0, none⟩
/-- A format B word. -/
def insnB (op : Nat) (g : Sig) (e : Bool) (d a : BitVec 7) (imm : Nat) (max : Option Nat) : Insn :=
  ⟨op, g, e, d.toNat, a.toNat, 0, imm, max⟩
/-- A format C word, or a short format D word. -/
def insnC (op : Nat) (g : Sig) (e : Bool) (d : BitVec 7) (imm : BitVec 14) (max : Option Nat) : Insn :=
  ⟨op, g, e, d.toNat, 0, 0, imm.toNat, max⟩
/-- A word without operands. -/
def insnN (op : Nat) (g : Sig) (e : Bool) : Insn := ⟨op, g, e, 0, 0, 0, 0, none⟩

end Sys2Proof.Machine
end

