-- ==== Sys2Proof/Machine/Access.lean ====
section
/-!
DEFINITION. Sys2Proof/Machine/Access.lean: the memory accesses of one instruction of a group (12 R248): their checks in the
order that the spec gives, the waits of translation (18 R352, R357), and then the reads, stores and atomics at their points
(11 R227, R242), with the outcomes that only the data read shows (22 R406, 21 R388).
-/

namespace Sys2Proof.Machine

/-- One access of an instruction: address, bytes, kind, lane and element, whether it must be naturally aligned, whether
it is a scratchpad access, whether watchpoints do not observe it (R387), the data supplied, and the expected value of a
compare. -/
structure Acc where
  va : Nat
  n : Nat
  kind : Access
  lane : Nat
  el : Nat
  aligned : Bool
  scr : Bool
  quiet : Bool
  data : Option Nat
  cmp : Nat
  deriving DecidableEq, Repr

/-- The scratchpad address of an access: of an atomic, the address without bit 63 (R257). -/
def Acc.pool (c : Acc) : Nat := if c.kind = .rw then c.va % 2 ^ 63 else c.va

/-- The verdict on one access (R248). -/
inductive AccChk where
  | ok (p : Place)
  | trap (cause : Nat) (aux : BitVec 64)
  | revoke (aux : BitVec 64) (at' : Nat)
  | miss
  | migrating (at' : Nat)
  deriving DecidableEq, Repr

/-- The watchpoints that can be decided before the reads (R248); trap mode and a group's scratchpad accesses are not observed (R387). -/
def State.checkWp (s : State) (g : Group) (b : Block) (c : Acc) (p : Place) : AccChk :=
  if g.trapMode || c.quiet || c.scr then .ok p
  else
    match (s.ctx b.ctx).wpHit c.kind c.va c.n c.data false with
    | some k => .trap cWatchpoint (wpAux k c.kind c.lane c.el)
    | none => .ok p

/-- An access after translation: holes (R28), the on-chip windows (R32). -/
def State.checkPhys (s : State) (g : Group) (b : Block) (c : Acc) (pa : Nat) : AccChk :=
  match s.region pa with
  | .hole => .trap cProtection 0
  | .chip =>
    if s.chipHole pa c.n then .trap cProtection 0
    else if pa % c.n ≠ 0 then .trap cMisalign 0
    else s.checkWp g b c (.chip pa)
  | .fabric => if s.fabricPort pa = none then .trap cProtection 0 else s.checkWp g b c (.ext pa)
  | .host _ => if s.isMemory pa then s.checkWp g b c (.mem pa) else s.checkWp g b c (.ext pa)
  | _ => s.checkWp g b c (.mem pa)

/-- The checks of R248 on one access of a group, in their order. -/
def State.checkAcc (s : State) (a : Nat) (g : Group) (b : Block) (c : Acc) : AccChk :=
  if c.aligned && c.va % c.n != 0 then .trap cMisalign 0
  else if c.scr then
    match s.scrTarget b c.pool c.n with
    | none => .trap cProtection 0
    | some (core, off) =>
      if crossesLine c.pool c.n then .trap cMisalign 0 else s.checkWp g b c (.scr core off)
  else if 2 ^ 57 ≤ c.va then .trap cProtection 0
  else if crossesLine c.va c.n then .trap cMisalign 0
  else
    match s.translate (coreOf a) b.ctx c.va c.kind g.trapMode with
    | .ok pa => s.checkPhys g b c pa
    | .fault cause aux => .trap cause aux
    | .revoke aux at' => .revoke aux at'
    | .migrating at' => .migrating at'
    | .miss _ => .miss

/-- A verdict that holds the instruction up: its access waits for a walk or for a MIGRATING leaf. -/
def AccChk.waits : AccChk → Bool
  | .miss => true
  | .migrating _ => true
  | _ => false

/-- A verdict that traps. -/
def AccChk.faults : AccChk → Bool
  | .trap .. => true
  | .revoke .. => true
  | _ => false

/-- The places of the accesses that passed. -/
def placesOf (r : List (Acc × AccChk)) : List (Acc × Place) :=
  r.filterMap fun x => match x.2 with
    | .ok p => some (x.1, p)
    | _ => none

/-- A word that accesses memory completes: it is charged for each 64-byte sector that its accesses touch (21 R401). -/
def Iss.memDone (_ : Iss) (s : State) (cs : List Acc) : Res :=
  .done s .next 5 (((cs.map fun c => sectorsOf c.va c.n).flatten).eraseDups).length

/-- MODE.SCOPE holds no reserved code (03 R74). -/
def scopeOk (i : Iss) : Bool := decide (modeScope i.g.mode ≤ 5)

/-- The accesses of an instruction under a check of each, which comes before any is performed, in order: the first that fails traps, unless one before it waits for a
walk or a MIGRATING leaf, which decides first whether it fails; where one waits, the instruction waits, and then is checked again; else
it goes on with the places (R248, R352, R357), and counts the core's TLB misses that the die's TLB has served (21 R399). -/
def Iss.guardedBy (i : Iss) (s : State) (chk : Acc → AccChk) (cs : List Acc) (k : State → List (Acc × Place) → Res) : Res :=
  let r := cs.map fun c => (c, chk c)
  match r.find? fun x => x.2.faults || x.2.waits with
  | some (c, .revoke aux at') => .trap (s.setRevoked at') cLeaseRevoked (BitVec.ofNat 64 c.va) aux
  | some (c, .trap cause aux) => .trap s cause (BitVec.ofNat 64 c.va) aux
  | some (_, .migrating at') => .wait (s.arm (.group i.agent) at' 8) .waitMem .watch
  | some (_, .miss) =>
    let misses := r.filter fun x => x.2 == .miss
    let die := dieOf i.core
    if s.missRoom die i.ctx (misses.map fun x => x.1.va) then
      .wait (misses.foldl (fun s x => s.addMiss die i.ctx x.1.va i.agent i.core x.1.kind) s) .waitMem .walk
    else .wait s .waitMem .again
  | _ => (k s (placesOf r)).counting i.core 10 (s.dieHits i.core i.ctx ((cs.filter fun c => !c.scr).map fun c => c.va))

/-- As `guardedBy`, with the checks of R248 and no other. -/
def Iss.guarded (i : Iss) (s : State) (cs : List Acc) (k : State → List (Acc × Place) → Res) : Res :=
  i.guardedBy s (s.checkAcc i.agent i.g i.blk) cs k

/-! ### Hosts and peers (R224) -/

/-- What is asked of a host or peer for an access: the whole line where the part caches it under CXL.cache. -/
def State.extKey (s : State) (pa n : Nat) : Nat × Nat :=
  match s.region pa with
  | .host x => if (s.hostLink x).cxlCache then (pa / 256 * 256, 256) else (pa, n)
  | _ => (pa, n)

/-- The data of a host or fabric window that an agent's read has, with whether it is refused; none while the reply is
outstanding or not asked for. -/
def State.extValue (s : State) (agent pa n : Nat) : Option (Bool × Nat) :=
  if s.refuses pa then some (true, 0)
  else
    match (match s.region pa with
      | .host _ => amGet s.hostLines (pa / 256)
      | _ => none) with
    | some l => some (false, bytesOf l (pa % 256) n)
    | none =>
      let key := s.extKey pa n
      match s.extReqs.find? fun r => r.agent == agent && !r.write && r.pa == key.1 && r.size == key.2 && r.reply.isSome with
      | some r =>
        match r.reply with
        | some (refused, data) => some (refused, bytesOf data (pa - key.1) n)
        | none => none
      | none => none

/-- A read asked of a host or peer, once. -/
def State.extAsk (s : State) (agent ctx pa n : Nat) : State :=
  let key := s.extKey pa n
  if s.extReqs.any fun r => r.agent == agent && !r.write && r.pa == key.1 && r.size == key.2 then s
  else (s.drainCore (coreOf agent)).extSend agent ctx false key.1 key.2 0

/-! ### Reads -/

/-- What a read gives: its value, and whether it is poisoned. -/
structure ReadOut where
  val : Nat
  poison : Bool
  deriving DecidableEq, Repr

/-- A read of a poisoned sector finds the writes of its core performed: one that covers the sector has cleared the poison (R228,
22 R406). -/
def State.settlePoison (s : State) (core pa n : Nat) : State :=
  if s.poisoned pa n && s.writes.any (fun w => w.core == core && w.overlaps (pa / 64 * 64) (n + 64)) then s.drainCore core else s

/-- One read performed at its point. -/
def State.readPlace (s : State) (core agent acq scope : Nat) (home : Bool) (c : Acc) (p : Place) : ReadOut × State :=
  match p with
  | .mem pa =>
    let s := s.settlePoison core pa c.n
    let bad := s.poisoned pa c.n
    let r := s.memLoad core agent acq scope home pa c.n
    (⟨r.1, bad⟩, r.2)
  | .chip pa =>
    let r := s.chipRead pa c.n
    (⟨r.1, r.2.chipBad pa c.n⟩, r.2)
  | .scr k off => (⟨s.scrRead k off c.n, s.scrPoisoned k off c.n⟩, s)
  | .ext pa =>
    let s := s.settleFor core agent pa c.n
    let v := (s.extValue agent pa c.n).getD (false, 0)
    (⟨overlay (s.writes.filter fun w => w.knownTo core agent) pa c.n v.2, v.1⟩, if v.1 then s.noteRefused pa else s)

/-- The sectors of memory that accesses touch, in ascending order (R225). -/
def memSectors (ps : List (Acc × Place)) : List Nat :=
  (ps.map fun x => match x.2 with
    | .mem pa => sectorsOf pa x.1.n
    | _ => []).flatten.foldl (fun ks k => insertNat k ks) []

/-- Sectors read at their points, each once (R225, R241): their values, and whether they are poisoned. -/
def State.readSectors (s : State) (core agent acq scope : Nat) (home : Bool) : List Nat → AMap ReadOut × State
  | [] => ([], s)
  | k :: ks =>
    let s := s.settlePoison core (k * 64) 64
    let bad := s.poisoned (k * 64) 64
    let r := s.memLoad core agent acq scope home (k * 64) 64
    let y := r.2.readSectors core agent acq scope home ks
    (amSet y.1 k ⟨r.1, bad⟩, y.2)

/-- n bytes at pa from the sectors read. -/
def sectorsRead (m : AMap ReadOut) (pa n : Nat) : ReadOut :=
  let at' := fun (k : Nat) => (amGet m k).getD ⟨0, false⟩
  ⟨bytesOf ((sectorsOf pa n).foldr (fun k v => (at' k).val % 2 ^ 512 + v * 2 ^ 512) 0) (pa % 64) n, (sectorsOf pa n).any fun k => (at' k).poison⟩

/-- The reads of an instruction with several accesses: memory by sector, so that its lanes read one value of each (R241), the others in
order. -/
def State.readLanes (s : State) (core agent acq scope : Nat) (home : Bool) (m : AMap ReadOut) :
    List (Acc × Place) → List (Acc × ReadOut) × State
  | [] => ([], s)
  | (c, p) :: r =>
    let x := match p with
      | .mem pa => (sectorsRead m pa c.n, s)
      | p => s.readPlace core agent acq scope home c p
    let y := x.2.readLanes core agent acq scope home m r
    ((c, x.1) :: y.1, y.2)

/-- The reads of an instruction. -/
def State.readPlaces (s : State) (core agent acq scope : Nat) (home : Bool) :
    List (Acc × Place) → List (Acc × ReadOut) × State
  | [] => ([], s)
  | [(c, p)] =>
    let x := s.readPlace core agent acq scope home c p
    ([(c, x.1)], x.2)
  | ps =>
    let x := s.readSectors core agent acq scope home (memSectors ps)
    x.2.readLanes core agent acq scope home x.1 ps

/-- The sectors that a load misses, none of which has a miss-status entry yet (R226): those that L1 does not hold, for the loads that it
serves; the others bypass it. -/
def State.loadMisses (s : State) (core acq scope : Nat) (home : Bool) (ps : List (Acc × Place)) : List Nat :=
  let c := s.core core
  let sectors := (ps.map fun x => match x.2 with
    | .mem pa => sectorsOf pa x.1.n
    | _ => []).flatten.eraseDups
  sectors.filter fun k =>
    !(c.missing.contains k) && !(decide (scope ≤ 1) && !home && (amGet c.l1 k).any fun x => decide (acq < x.fillClk))

/-- The miss-status entries of a core that loads from hosts and peers hold until their data has come (R226). -/
def State.extEntries (s : State) (core : Nat) : List Nat :=
  ((s.extReqs.filter fun r => !r.write && r.reply.isNone && decide (r.agent < Config.agents) && coreOf r.agent == core &&
      (s.grp r.agent).any fun g => g.going == []).map fun r => sectorsOf r.pa r.size).flatten.eraseDups

/-- The core has free miss-status entries for sectors (R226). -/
def State.entriesFree (s : State) (core : Nat) (ks : List Nat) : Bool :=
  ks == [] || decide ((s.core core).missing.length + (s.extEntries core).length + ks.length ≤ Config.missStatus)

/-- The sectors of hosts and peers that a load is still to ask for, none of which has an entry (R226). -/
def State.extSectors (s : State) (core : Nat) (ms : List (Nat × Nat)) : List Nat :=
  (ms.map fun m => sectorsOf m.1 m.2).flatten.eraseDups.filter fun k => !((s.extEntries core).contains k)

/-! ### Homes that do not take a request yet -/

/-- A load of memory goes to the home of a sector: L1 and the guest lines of its die do not serve it (R222, R223). -/
def State.goesHome (s : State) (core acq scope : Nat) (home : Bool) (pa n : Nat) : Bool :=
  if scope ≤ 1 ∧ home = false then
    (sectorsOf pa n).any fun k => !((amGet (s.core core).l1 k).any fun x => decide (acq < x.fillClk))
  else
    !(!home && decide (scope < 5 ∧ s.homeDie pa ≠ dieOf core) && (s.guestBytes (dieOf core) acq pa n).isSome)

/-- The address of the first place that cannot be reached yet, with its line asked back where the host holds it. -/
def State.shut (s : State) (core : Nat) (ps : List (Acc × Place)) : Option (Nat × State) :=
  (ps.find? fun x => !(s.inReach core x.2.addr)).map fun x => (x.2.addr, s.snoopBack (x.2.addr / 256))

/-- Sectors take entries, which they hold until messages next move (log 14). -/
def State.takeEntries (s : State) (core : Nat) (ks : List Nat) : State :=
  if ks = [] then s else s.updCore core fun c => { c with missing := c.missing ++ ks }

/-- The first outcome that only the data shows (R248): poison before a watchpoint within one access. -/
def State.dataTrap (s : State) (i : Iss) (rs : List (Acc × ReadOut)) : Option (Nat × Nat × BitVec 64) :=
  rs.findSome? fun x =>
    if x.2.poison then some (cPoison, x.1.va, 0)
    else if i.g.trapMode || x.1.quiet || x.1.scr then none
    else
      match (s.ctx i.ctx).wpHit x.1.kind x.1.va x.1.n (some x.2.val) true with
      | some k => some (cWatchpoint, x.1.va, wpAux k x.1.kind x.1.lane x.1.el)
      | none => none

/-- Places at a host or peer whose data is not there yet. -/
def State.extMissing (s : State) (agent : Nat) (ps : List (Acc × Place)) : List (Nat × Nat) :=
  ps.filterMap fun x => match x.2 with
    | .ext pa => if (s.extValue agent pa x.1.n).isNone then some (pa, x.1.n) else none
    | _ => none

/-- The places of a load that its core must reach: those in memory that copies do not serve, and those of others. -/
def State.loadReaches (s : State) (core agent acq scope : Nat) (home : Bool) (ps : List (Acc × Place)) : List (Acc × Place) :=
  ps.filter fun x => match x.2 with
    | .mem pa => s.goesHome core acq scope home pa x.1.n
    | .ext pa => (s.extValue agent pa x.1.n).isNone
    | _ => true

/-- What a load has still to ask of hosts and peers, asked once its sectors have entries (R226): the word waits for the answers. -/
def Iss.askExt (i : Iss) (s : State) (ms : List (Nat × Nat)) : Res :=
  let ks := s.extSectors i.core ms
  if s.entriesFree i.core ks then .wait (ms.foldl (fun s m => s.extAsk i.agent i.ctx m.1 m.2) s) .waitMem .reply
  else .wait s .waitMem (.entries ks.length)

/-- The accesses of a load: checked, performed, and the values handed on (R248). -/
def Iss.load (i : Iss) (s : State) (scope : Nat) (home : Bool) (cs : List Acc) (k : State → List Nat → Res) : Res :=
  i.guarded s cs fun s ps =>
    match s.shut i.core (s.loadReaches i.core i.agent i.g.acqClk scope home ps) with
    | some (pa, s) => .wait s .waitMem (.home pa)
    | none =>
    match s.extMissing i.agent ps with
    | [] =>
      let ks := s.loadMisses i.core i.g.acqClk scope home ps
      if s.entriesFree i.core ks then
        let r := (s.takeEntries i.core ks).readPlaces i.core i.agent i.g.acqClk scope home ps
        match r.2.dataTrap i r.1 with
        | some (cause, va, aux) => .trap r.2 cause (BitVec.ofNat 64 va) aux
        | none => k r.2 (r.1.map fun x => x.2.val)
      else .wait s .waitMem (.entries ks.length)
    | ms => i.askExt s ms

/-! ### Stores -/

/-- One store performed, in its pieces (R222, R240). -/
def State.storePlace (s : State) (i : Iss) (c : Acc) (p : Place) : State :=
  match p with
  | .mem pa => s.storePieces i.core i.agent i.ctx c.va pa c.n (c.data.getD 0)
  | .ext pa => s.storePieces i.core i.agent i.ctx c.va pa c.n (c.data.getD 0)
  | .chip pa => s.chipWrite pa c.n (c.data.getD 0)
  | .scr k off => s.scrWrite k off c.n (c.data.getD 0)

/-- The pieces of a store's accesses to memory, as address, virtual address, length and data, cut at sectors (R240). -/
def piecesIn (ps : List (Acc × Place)) : List (Nat × Nat × Nat × Nat) :=
  (ps.map fun x =>
    let cut := fun (pa : Nat) => (piecesOf x.1.va x.1.n).map fun p => (pa + p.1, x.1.va + p.1, p.2, bytesOf (x.1.data.getD 0) p.1 p.2)
    match x.2 with
    | .mem pa => cut pa
    | .ext pa => cut pa
    | _ => []).flatten

/-- A sector's bytes after a piece: a mask of the bytes written and their values. -/
def pieceOver (k : Nat) (m : Nat × Nat) (p : Nat × Nat × Nat × Nat) : Nat × Nat :=
  let at' := p.1 - k * 64
  (patchBytes m.1 at' p.2.2.1 (2 ^ (8 * p.2.2.1) - 1), patchBytes m.2 at' p.2.2.1 p.2.2.2)

/-- The runs of bytes from byte i of a sector that a mask names: offset and length. -/
def maskRuns (mask : Nat) : Nat → Nat → List (Nat × Nat)
  | 0, _ => []
  | n + 1, i =>
    if bytesOf mask i 1 = 0 then maskRuns mask n (i + 1)
    else
      match maskRuns mask n (i + 1) with
      | (j, k) :: rest => if j = i + 1 then (i, k + 1) :: rest else (i, 1) :: (j, k) :: rest
      | [] => [(i, 1)]

/-- The accesses of one store instruction to one sector made one (R225): the runs of bytes that they write, the later access over the
earlier, tied together. -/
def State.storeSector (s : State) (i : Iss) (tie : Nat) (ps : List (Nat × Nat × Nat × Nat)) (k : Nat) : State :=
  let mine := ps.filter fun p => p.1 / 64 == k
  let m := mine.foldl (pieceOver k) (0, 0)
  let delta := (mine.map fun p => (p.2.1 : Int) - p.1).headD 0
  (maskRuns m.1 64 0).foldl (fun s r =>
    let pa := k * 64 + r.1
    s.memStore i.core i.agent i.ctx ((pa : Int) + delta).toNat pa r.2 (bytesOf m.2 r.1 r.2) none tie) s

/-- A sector of a core's scratchpad lies whole in accesses of an instruction. -/
def covered (ps : List (Acc × Place)) (core q : Nat) : Bool :=
  (List.range 64).all fun b => ps.any fun x =>
    match x.2 with
    | .scr k off => k == core && decide (off ≤ q * 64 + b ∧ q * 64 + b < off + x.1.n)
    | _ => false

/-- The accesses of one store to a sector of scratchpad are one (R225): a sector that they cover is clean (22 R406). -/
def State.cleanCovered (s : State) (ps : List (Acc × Place)) : State :=
  ps.foldl (fun s x =>
    match x.2 with
    | .scr k _ =>
      if (s.core k).scrPoison = [] then s
      else s.updCore k fun c => { c with scrPoison := c.scrPoison.filter fun q => !(covered ps k q) }
    | _ => s) s

/-- A vector store's accesses to memory, sector by sector in ascending order (R225), and its others one by one. -/
def State.storeSectors (s : State) (i : Iss) (ps : List (Acc × Place)) : State :=
  let s := ps.foldl (fun s x => match x.2 with
    | .chip _ => s.storePlace i x.1 x.2
    | .scr _ _ => s.storePlace i x.1 x.2
    | _ => s) s
  let s := s.cleanCovered ps
  let pieces := piecesIn ps
  let f := s.fresh
  ((pieces.map fun p => p.1 / 64).foldl (fun ks k => insertNat k ks) []).foldl (fun s k => s.storeSector i f.1 pieces k) f.2

/-- The accesses of a store: checked, then performed in order, so that the last writer of a byte is the highest lane's
highest element (R241). -/
def Iss.store (i : Iss) (s : State) (cs : List Acc) (k : State → Res) : Res :=
  i.guarded s cs fun s ps => k (ps.foldl (fun s x => s.storePlace i x.1 x.2) s)

/-- As `store`, with the accesses to one sector made one (R225). -/
def Iss.storeJoined (i : Iss) (s : State) (cs : List Acc) (k : State → Res) : Res :=
  i.guarded s cs fun s ps => k (s.storeSectors i ps)

/-- As `store`, of MX lines: each scale byte is an access of its own (R253), and the payloads in one sector are made one (R225). -/
def Iss.storeMx (i : Iss) (s : State) (cs : List Acc) (k : State → Res) : Res :=
  i.guarded s cs fun s ps =>
    k (((ps.filter fun x => x.1.n == 1).foldl (fun s x => s.storePlace i x.1 x.2) s).storeSectors i (ps.filter fun x => x.1.n != 1))

/-! ### Atomics and reduction stores (R242 to R244) -/

/-- The atomics that the PCI Express link to a host carries (R370, R378): FetchAdd, Swap and CAS on INT32 and INT64. -/
def hostAtomic (op : AtomOp) (et : Nat) : Bool := (op == .add || op == .exch || op == .cas) && (et == 2 || et == 3)

/-- An atomic that a place cannot perform: to a host window in the DEVICE role without CXL.cache, one that its link does not carry (R378). A
window of a port that last trained in the MEMORY role takes them all, and refuses them while its link is lost (18 R348). -/
def State.badAtomic (s : State) (op : AtomOp) (et : Nat) (x : Acc × Place) : Bool :=
  match x.2 with
  | .ext pa =>
    match s.region pa with
    | .host h => (s.hostLink h).trained != some true && !(s.hostLink h).cxlCache && !hostAtomic op et
    | _ => false
  | _ => false

/-- The checks of R248 on an access of an atomic or a reduction store: one that its place cannot perform fails with its translation, before
the watchpoints (19 R378). -/
def State.checkAtomic (s : State) (i : Iss) (op : AtomOp) (et : Nat) (c : Acc) : AccChk :=
  match s.checkAcc i.agent i.g i.blk { c with quiet := true } with
  | .ok p => if s.badAtomic op et (c, p) then .trap cProtection 0 else s.checkAcc i.agent i.g i.blk c
  | v => v

/-- A poisoned location of an atomic (R406), or one whose host or peer refuses it (19 R364). -/
def State.poisonedPlace (s : State) (agent : Nat) (x : Acc × Place) : Bool :=
  match x.2 with
  | .mem pa => s.poisoned pa x.1.n
  | .ext pa => s.refuses pa || s.extReqs.any fun r =>
      r.agent == agent && !r.write && decide (r.pa ≤ pa ∧ pa < r.pa + r.size) && r.reply.any fun y => y.1
  | .chip pa => s.chipBad pa x.1.n
  | .scr k off => s.scrPoisoned k off x.1.n

/-- A refusal noted on the link of a place at a host or peer (19 R364). -/
def State.notePlace (s : State) (p : Place) : State :=
  match p with
  | .ext pa => s.noteRefused pa
  | _ => s

/-- An atomic on a host line that the part holds (R242). -/
def State.lineAtomic (s : State) (pa n : Nat) (op : AtomOp) (et b cmp : Nat) : Nat × State :=
  let l := (amGet s.hostLines (pa / 256)).getD 0
  let old := bytesOf l (pa % 256) n
  match op.apply et n old b cmp with
  | none => (old, s)
  | some v =>
    (old, { s with hostLines := amSet s.hostLines (pa / 256) (patchBytes l (pa % 256) n v), watches := fireWatches s pa n })

/-- One atomic performed at its point, with the old value; those of hosts and peers have been answered. -/
def State.atomicPlace (s : State) (i : Iss) (scope : Nat) (op : AtomOp) (et : Nat) (c : Acc) (p : Place) : Nat × State :=
  let b := c.data.getD 0
  match p with
  | .mem pa => s.memAtomic i.core i.agent i.ctx i.g.acqClk scope op et c.va pa c.n b c.cmp
  | .scr k off =>
    let old := s.scrRead k off c.n
    (old, match op.apply et c.n old b c.cmp with
      | none => s
      | some v => s.scrWrite k off c.n v)
  | .chip pa =>
    let r := s.chipRead pa c.n
    (r.1, match op.apply et c.n r.1 b c.cmp with
      | none => r.2
      | some v => r.2.chipWrite pa c.n v)
  | .ext pa =>
    if (s.extKey pa c.n).2 == 256 then (s.drainCore i.core).lineAtomic pa c.n op et b c.cmp
    else
      match s.extReqs.find? fun r => r.agent == i.agent && !r.write && r.reply.isSome && r.pa == pa && r.size == c.n with
      | some r =>
        (match r.reply with
         | some x => x.2
         | none => 0, { s with extReqs := s.extReqs.filter fun q => q.id != r.id })
      | none => (0, s)

/-- Atomics in order, the old values. -/
def State.atomicPlaces (s : State) (i : Iss) (scope : Nat) (op : AtomOp) (et : Nat) :
    List (Acc × Place) → List Nat × State
  | [] => ([], s)
  | (c, p) :: r =>
    let x := s.atomicPlace i scope op et c p
    let y := x.2.atomicPlaces i scope op et r
    (x.1 :: y.1, y.2)

/-- A place at a host whose line the part caches but does not hold (R224). -/
def State.lineAbsent (s : State) (x : Acc × Place) : Bool :=
  match x.2 with
  | .ext pa => (s.extKey pa x.1.n).2 == 256 && (amGet s.hostLines (pa / 256)).isNone
  | _ => false

/-- A place at a host or peer that performs the atomic itself (R242). -/
def State.atHost (s : State) (x : Acc × Place) : Bool :=
  match x.2 with
  | .ext pa => (s.extKey pa x.1.n).2 != 256
  | _ => false

/-- The lines of places asked for, those that a host has taken away again once more. -/
def State.askLines (s : State) (i : Iss) (ps : List (Acc × Place)) : State :=
  ps.foldl (fun s x => match x.2 with
    | .ext pa => s.extAsk i.agent i.ctx pa x.1.n
    | _ => s) { s with extReqs := s.extReqs.filter fun r => r.agent != i.agent || r.write || r.reply.isNone || r.size != 256 }

/-- The atomics of an instruction sent to hosts and peers (R242). -/
def State.sendAtomics (s : State) (i : Iss) (op : AtomOp) (et : Nat) (ps : List (Acc × Place)) : State :=
  ps.foldl (fun s x => match x.2 with
    | .ext pa => s.extAtomic i.agent i.ctx false pa x.1.n op et (x.1.data.getD 0) x.1.cmp
    | _ => s) (s.drainCore i.core)

/-- `settlePoison` at every place in memory. -/
def State.settlePlaces (s : State) (core : Nat) (ps : List (Acc × Place)) : State :=
  ps.foldl (fun s x => match x.2 with
    | .mem pa => s.settlePoison core pa x.1.n
    | _ => s) s

/-- The atomics of an instruction performed, once their lines are there (R224) and hosts and peers have answered. -/
def Iss.perform (i : Iss) (s : State) (scope : Nat) (op : AtomOp) (et : Nat) (ps : List (Acc × Place))
    (k : State → List Nat → Res) : Res :=
  match ps.find? (s.poisonedPlace i.agent) with
  | some x => .trap (s.notePlace x.2) cPoison (BitVec.ofNat 64 x.1.va) 0
  | none =>
    if ps.any s.lineAbsent then .wait (s.askLines i (ps.filter s.lineAbsent)) .waitMem .reply
    else
      let r := s.atomicPlaces i scope op et ps
      k r.2 r.1

/-- The atomics of an instruction: checked, performed in passes by lane and then element (R243), and the old values handed on. Those of
hosts and peers are sent once, and the word, when it is issued again, takes their answers without a check: their translation is done
(18 R355). -/
def Iss.atomics (i : Iss) (s : State) (scope : Nat) (op : AtomOp) (et : Nat) (cs : List Acc)
    (k : State → List Nat → Res) : Res :=
  if i.g.going ≠ [] then i.perform s scope op et (cs.zip i.g.going) k
  else
    i.guardedBy s (s.checkAtomic i op et) cs fun s ps =>
      let s := s.settlePlaces i.core ps
      match ps.find? (s.poisonedPlace i.agent), s.shut i.core ps with
      | none, some (pa, s) => .wait s .waitMem (.home pa)
      | none, none =>
        if ps.any s.atHost then
          .wait ((s.sendAtomics i op et (ps.filter s.atHost)).updGrp i.agent fun g => { g with going := ps.map (·.2) }) .waitMem .reply
        else i.perform s scope op et ps k
      | some _, _ => i.perform s scope op et ps k

/-- The line of a reduction store's place has been refused (19 R364). -/
def State.lineRefused (s : State) (agent : Nat) (x : Acc × Place) : Bool :=
  match x.2 with
  | .ext pa => s.refuses pa || s.extReqs.any fun r => r.agent == agent && !r.write && r.pa == (s.extKey pa x.1.n).1 && r.reply.any fun y => y.1
  | _ => false

/-- One reduction store performed: at the home slice from die scope on, for exact cells at any scope, and with the line held where the part
caches it of a host (19 R378); else as an atomic (R244, R258). One that is refused is dropped. -/
def State.reducePlace (s : State) (i : Iss) (scope : Nat) (op : AtomOp) (et : Nat) (c : Acc) (p : Place) : State :=
  match p with
  | .mem pa =>
    if 3 ≤ atomScope pa scope ∨ op = .cell then s.memStore i.core i.agent i.ctx c.va pa c.n (c.data.getD 0) (some (op, et)) 0
    else (s.memAtomic i.core i.agent i.ctx i.g.acqClk scope op et c.va pa c.n (c.data.getD 0) 0).2
  | .ext pa =>
    if (s.extKey pa c.n).2 = 256 then
      if s.lineRefused i.agent (c, p) then s.noteRefused pa else (s.atomicPlace i scope op et c p).2
    else s.memStore i.core i.agent i.ctx c.va pa c.n (c.data.getD 0) (some (op, et)) 0
  | _ => (s.atomicPlace i scope op et c p).2

/-- The reduction stores of an instruction. -/
def Iss.reduces (i : Iss) (s : State) (scope : Nat) (op : AtomOp) (et : Nat) (cs : List Acc) (k : State → Res) : Res :=
  i.guardedBy s (s.checkAtomic i op et) cs fun s ps =>
    let absent := ps.filter fun x => s.lineAbsent x && !(s.lineRefused i.agent x)
    if absent ≠ [] then .wait (s.askLines i absent) .waitMem .reply
    else
      match (if 3 ≤ scope ∨ op = .cell then none else s.shut i.core ps) with
      | some (pa, s) => .wait s .waitMem (.home pa)
      | none => k (ps.foldl (fun s x => s.reducePlace i scope op et x.1 x.2) s)

end Sys2Proof.Machine
end

