-- ==== Sys2Proof/Machine/Bars.lean ====
section
/-!
DEFINITION. Sys2Proof/Machine/Bars.lean: barriers as the part keeps them (16 R302 to R309): block and cluster barriers, memory
barrier objects, the count of an arrival, the completion of a phase, the test of a wait, and balance monitor checks (R319,
R320) with the part's writes to MONTAB (R315).
-/

namespace Sys2Proof.Machine

/-! ### Block and cluster barriers (R303, R306) -/

/-- `complete()` of R306. -/
def Bar.complete (b : Bar) : Bar :=
  let base := if b.next ≠ 0 then b.next else b.exp
  ⟨b.phase + 1, base - b.drops, base - b.drops, 0, 0, 0⟩

/-- An arrival counted (R306); an inactive barrier ignores it. -/
def Bar.count (b : Bar) (drop : Bool) : Bar :=
  if b.exp = 0 then b else { b with pend := b.pend - 1, drops := b.drops + drop.toNat }

/-- A barrier whose count has reached zero and whose phase is not complete (R303). -/
def Bar.full (b : Bar) : Bool := b.exp != 0 && b.pend == 0

/-- The state of a block or cluster barrier, none for an object. -/
def State.bar (s : State) (x : BarId) : Option Bar :=
  match x with
  | .block blk idx => (s.blk blk).map fun b => vget b.bars idx (Bar.launch 0)
  | .cluster cl half idx => (amGet s.clusters cl).map fun c => vget c.bars (8 * half + idx) (Bar.launch 0)
  | .object _ => none

/-- A block or cluster barrier changed. -/
def State.setBar (s : State) (x : BarId) (b : Bar) : State :=
  match x with
  | .block blk idx => s.updBlk blk fun k => { k with bars := vset k.bars idx b }
  | .cluster cl half idx => s.updCl cl fun c => { c with bars := vset c.bars (8 * half + idx) b }
  | .object _ => s

/-- Every half of a cluster barrier has PEND = 0 and one of them is full: the phase completes (R303). -/
def Cluster.barDone (c : Cluster) (idx : Nat) : Bool :=
  let x := vget c.bars idx (Bar.launch 0)
  let y := vget c.bars (8 + idx) (Bar.launch 0)
  (x.full || (c.split && y.full)) && x.pend == 0 && (!c.split || y.pend == 0)

/-- Both halves of a cluster barrier advance together (R303). -/
def Cluster.barAdvance (c : Cluster) (idx : Nat) : Cluster :=
  let half := fun (k : Nat) => (vget c.bars k (Bar.launch 0)).complete
  { c with bars := vset (vset c.bars idx (half idx)) (8 + idx) (half (8 + idx)) }

/-! ### Objects (R304) -/

/-- A half of a word of an object: h is 1 for bits [63:32]. -/
def State.objHalf (s : State) (pa off h : Nat) : Nat := (s.read64 (pa + off)).toNat / 2 ^ (32 * h) % 2 ^ 32
/-- A word of an object written from its halves. -/
def State.setObj (s : State) (pa off lo hi : Nat) : State :=
  s.write64 (pa + off) (BitVec.ofNat 64 (lo % 2 ^ 32 + hi % 2 ^ 32 * 2 ^ 32))
/-- PEND. -/
def State.objPend (s : State) (pa : Nat) : Nat := s.objHalf pa 0 0
/-- EXP. -/
def State.objExp (s : State) (pa : Nat) : Nat := s.objHalf pa 0 1
/-- DROPS. -/
def State.objDrops (s : State) (pa : Nat) : Nat := s.objHalf pa 8 0
/-- NEXT. -/
def State.objNext (s : State) (pa : Nat) : Nat := s.objHalf pa 8 1
/-- PHASE. -/
def State.objPhase (s : State) (pa : Nat) : Nat := s.objHalf pa 0x10 0
/-- WDOG. -/
def State.objWdog (s : State) (pa : Nat) : Nat := s.objHalf pa 0x10 1
/-- The word at 0x18: bindings, CTX, CHECKING, FAILED, FAILMASK. -/
def State.objFlags (s : State) (pa : Nat) : BitVec 64 := s.read64 (pa + 0x18)
/-- CTX. -/
def State.objCtx (s : State) (pa : Nat) : Nat := bitsOf (s.objFlags pa) 39 32
/-- CHECKING. -/
def State.objChecking (s : State) (pa : Nat) : Bool := (s.objFlags pa).getLsbD 40
/-- FAILED. -/
def State.objFailed (s : State) (pa : Nat) : Bool := (s.objFlags pa).getLsbD 41
/-- FAILMASK. -/
def State.objFailmask (s : State) (pa : Nat) : Nat := bitsOf (s.objFlags pa) 45 42
/-- FAILPH. -/
def State.objFailph (s : State) (pa : Nat) : Nat := s.objHalf pa 0x20 0

/-- The monitor of a valid binding. -/
def State.objBinding (s : State) (pa i : Nat) : Option Nat :=
  let b := bitsOf (s.objFlags pa) (8 * i + 7) (8 * i)
  if 128 ≤ b then some (b % 16) else none

/-- The valid bindings of an object: index and monitor. -/
def State.objBound (s : State) (pa : Nat) : List (Nat × Nat) :=
  (List.range 4).filterMap fun i => (s.objBinding pa i).map fun m => (i, m)

/-- CHECKING, FAILED and FAILMASK written; the reserved bits of the word are written as zero (00 R7). -/
def State.setObjFlags (s : State) (pa : Nat) (checking failed : Bool) (mask : Nat) : State :=
  s.write64 (pa + 0x18)
    ((s.objFlags pa &&& 0xFF8F8F8F8F#64) |||
      BitVec.ofNat 64 (checking.toNat * 2 ^ 40 + failed.toNat * 2 ^ 41 + mask % 16 * 2 ^ 42))

/-- A phase of an object ends (R306): PHASE, T_DONE. -/
def State.objAdvance (s : State) (pa : Nat) : State :=
  let s := s.setObj pa 0x10 (s.objPhase pa + 1) (s.objWdog pa)
  let s := s.write64 (pa + 0x28) s.clk
  { s with objDogs := amDel s.objDogs pa }

/-- A group waits at an object, for a phase or for its arrival's token. -/
def State.waitsAt (s : State) (pa a : Nat) (g : Group) : Bool :=
  match g.dep with
  | some (.phase (.object p) _ _) => p == pa
  | some (.held ..) => s.arrivals.any fun h => h.agent == a && h.bar == .object pa
  | _ => false

/-- Groups that wait at an object while its check runs are in WAIT_MONITOR (R307). -/
def State.monitorWaits (s : State) (pa : Nat) : State :=
  { s with groups := amMap (fun a g =>
      if s.waitsAt pa a g ∧ g.state = .waitBarrier then { g with state := .waitMonitor } else g) s.groups }

/-- The slices of the live dies. -/
def State.liveSlices (s : State) : List Nat :=
  (List.range (Config.computeDies * Config.slicesPerDie)).filter fun k => s.liveCd.getLsbD (k / Config.slicesPerDie)

/-- `complete()` of an object: without an enabled monitor bound the phase ends, otherwise the check begins (R306, R319). -/
def State.objComplete (s : State) (pa : Nat) : State :=
  let base := if s.objNext pa ≠ 0 then s.objNext pa else s.objExp pa
  let e := base - s.objDrops pa
  let s := (s.setObj pa 0 e e).setObj pa 8 0 0
  let c := s.objCtx pa
  let mons := (s.objBound pa).filter fun x => (vget (s.ctx c).mons x.2 Mon.reset).en
  if mons = [] then (s.setObjFlags pa false false 0).objAdvance pa
  else
    let s := s.setObjFlags pa true (s.objFailed pa) (s.objFailmask pa)
    { (s.monitorWaits pa) with checks := s.checks ++ [⟨pa, c, mons, s.liveSlices, []⟩] }

/-! ### Arrivals -/

/-- An arrival at a barrier counted (R306): its token, none where it is held (R303, R307). -/
def State.arriveAt (s : State) (x : BarId) (drop : Bool) : Option (BitVec 32) × State :=
  match x with
  | .object pa =>
    if s.objChecking pa then (none, s)
    else
      let token := BitVec.ofNat 32 (s.objPhase pa)
      if s.objExp pa = 0 then (some token, s)
      else
        let p := (s.objPend pa + (2 ^ 32 - 1)) % 2 ^ 32
        let s := (s.setObj pa 0 p (s.objExp pa)).setObj pa 8 (s.objDrops pa + drop.toNat) (s.objNext pa)
        let s := if (amGet s.objDogs pa).isSome then s else { s with objDogs := amSet s.objDogs pa 0 }
        (some token, if p = 0 then s.objComplete pa else s)
  | .block .. =>
    match s.bar x with
    | none => (some 0, s)
    | some b =>
      let b' := b.count drop
      (some (b.phase.zeroExtend 32), s.setBar x (if b'.full then b'.complete else b'))
  | .cluster cl _ idx =>
    match s.bar x with
    | none => (some 0, s)
    | some b =>
      if b.full then (none, s)
      else
        let s := s.setBar x (b.count drop)
        (some (b.phase.zeroExtend 32),
          match amGet s.clusters cl with
          | some c => if !c.split && c.barDone idx then s.updCl cl fun c => c.barAdvance idx else s
          | none => s)

/-- The order in which what reaches a barrier in one clock is applied (R306, R308). -/
def BarAct.rank : BarAct → Nat
  | .drop => 0 | .arrive => 1 | .expect .. => 2 | .bind .. => 3 | .unbind _ => 3

/-- Something reaches a barrier in this clock (R306, R308). -/
def State.reach (s : State) (x : BarId) (agent : Nat) (act : BarAct) (dest : Option Nat) : State :=
  { s with arrivals := s.arrivals ++ [⟨x, agent, act, s.clk.toNat, dest⟩] }

/-- `barx` on a barrier's state (R312). -/
def Bar.expect (b : Bar) (n : Nat) : Bar :=
  if b.exp = 0 then { b with exp := n, pend := n, drops := 0, next := 0 } else { b with next := n }

/-- A count set at a barrier (R312, R313); at an object without a count it takes the object for the context. -/
def State.setExpect (s : State) (x : BarId) (n ctx : Nat) : State :=
  match x with
  | .object pa =>
    if s.objExp pa = 0 then ((s.setObj pa 0 n n).setObj pa 8 0 0).performBytes none (pa + 0x1C) 1 ctx
    else s.setObj pa 8 (s.objDrops pa) n
  | _ =>
    match s.bar x with
    | some b => s.setBar x (b.expect n)
    | none => s

/-- A binding byte of an object written. -/
def State.setBinding (s : State) (pa k v : Nat) : State := s.performBytes none (pa + 0x18 + k) 1 v

/-- The number of a barrier among the three kinds, in XAUX [37:36] and the arrival record (R309, R310). -/
def BarId.kind : BarId → Nat
  | .block .. => 0 | .cluster .. => 1 | .object _ => 2
/-- Its index there, 0 for an object. -/
def BarId.index : BarId → Nat
  | .block _ i => i | .cluster _ _ i => i | .object _ => 0

/-- What a group waits in at a barrier (R307). -/
def State.heldCode (s : State) (x : BarId) : GState :=
  match x with
  | .object pa => if s.objChecking pa then .waitMonitor else .waitBarrier
  | _ => .waitBarrier

/-- The token of an arrival: to the register of a group that has gone on, else to its arrival record (R307, R310, R312); a group that
arrived to wait then waits for the phase. -/
def Group.token (g : Group) (h : Arrival) (t : BitVec 32) (code : GState) : Group :=
  match h.dest with
  | some d => g.setS d (t.zeroExtend 64)
  | none =>
    match g.dep with
    | some (.held va w) =>
      let g := { g with arrivals := ⟨t, h.bar.index, h.bar.kind, va, g.trapMode⟩ :: g.arrivals }
      match w with
      | none => g
      | some w =>
        { g with dep := some (.phase h.bar t w),
                 state := if g.state = .waitBarrier ∨ g.state = .waitMonitor then code else g.state }
    | _ => { g with arrivals := ⟨t, h.bar.index, h.bar.kind, none, g.trapMode⟩ :: g.arrivals }

/-- What reached a barrier, applied; what the barrier does not take now stays. -/
def State.applyHeld (s : State) (h : Arrival) : State :=
  let done := fun (s : State) => { s with arrivals := s.arrivals.filter fun x => x != h }
  match h.act with
  | .expect n ctx => done (s.setExpect h.bar n ctx)
  | .bind k m =>
    match h.bar with
    | .object pa => if s.objChecking pa then s else done (s.setBinding pa k (128 + m))
    | _ => done s
  | .unbind k =>
    match h.bar with
    | .object pa => if s.objChecking pa then s else done (s.setBinding pa k 0)
    | _ => done s
  | act =>
    match s.arriveAt h.bar (act == .drop) with
    | (some t, s) => done (s.updGrp h.agent fun g => g.token h t (s.heldCode h.bar))
    | (none, s) => s

/-- A wait on a token has ended (R307): not while the check of its phase runs (R319). -/
def State.phaseOver (s : State) (x : BarId) (t : BitVec 32) : Bool :=
  match x with
  | .object pa => s.objPhase pa != t.toNat || (s.objExp pa == 0 && !s.objChecking pa)
  | _ =>
    match s.bar x with
    | none => true
    | some b => b.phase.zeroExtend 32 != t || b.exp == 0

/-- Arrivals may be applied at a barrier that holds some. -/
def State.barOpen (s : State) (x : BarId) : Bool :=
  match x with
  | .object pa => !s.objChecking pa
  | _ =>
    match s.bar x with
    | none => true
    | some b => !b.full

/-! ### Monitors (R315, R319) -/

/-- FP64 values of REF, BABS, BREL. -/
def f64 (x : BitVec 64) : XVal := Fmt.decode .fp64 x.toNat

/-- |x|. -/
def XVal.abs (x : XVal) : XVal := if x.neg? then x.negate else x

/-- The address of a monitor's entry in MONTAB. -/
def State.montabVa (s : State) (c m : Nat) : Nat := ((s.ctx c).montab.toNat + m * 64) % 2 ^ 64

/-- A part write to a context's memory that nothing waits for (R315): one that meets a fault is dropped, and one that finds a
MIGRATING leaf is kept until the leaf has been rewritten. In a host or fabric window it is performed there (11 R224). -/
def State.partWrite (s : State) (c va n data : Nat) : State :=
  let r := s.direct c va .write true
  match r.1 with
  | .ok pa =>
    match r.2.region pa with
    | .hole => r.2
    | .chip => r.2
    | .fabric => if (r.2.fabricPort pa).isSome then r.2.performWrite ⟨partAgent, 0, c, va, pa, n, data, none, 0, []⟩ else r.2
    | .host _ => r.2.performWrite ⟨partAgent, 0, c, va, pa, n, data, none, 0, []⟩
    | _ => r.2.performBytes none pa n data
  | .migrating _ => { s with later := s.later ++ [(c, va, n, data)] }
  | _ => r.2

/-- A part write to MONTAB (R315). -/
def State.montabWrite (s : State) (c m off n data : Nat) : State := s.partWrite c (s.montabVa c m + off) n data

/-- The writes kept for MIGRATING leaves tried again. -/
def State.retryLater (s : State) : State :=
  s.later.foldl (fun s w => s.partWrite w.1 w.2.1 w.2.2.1 w.2.2.2) { s with later := [] }

/-- STATUS of a monitor after a check. -/
def statusAfter (old : BitVec 64) (flags : BitVec 4) (viol : Bool) : BitVec 64 :=
  BitVec.ofNat 64 ((old ||| flags.zeroExtend 64).toNat % 32 ||| viol.toNat * 16) |||
    (BitVec.ofNat 64 ((bitsOf old 63 32 + 1) % 2 ^ 32) <<< 32)

/-- The total of a check (R319): the partials' exact sum rounded once to FP64; INVALID is NaN. -/
def checkTotal (sum : Option Int) : Nat :=
  match sum with
  | none => Fmt.canonicalNan .fp64
  | some v => (round .fp64 rmRNE false false 0 (XVal.fin (decide (v < 0)) v.natAbs (-96) false)).1

/-- A monitor fails its check (R319). -/
def Mon.fails (m : Mon) (total : Nat) (flags : BitVec 4) : Bool :=
  let t := Fmt.decode .fp64 total
  let diff := ((addX rmRNE t (f64 m.ref).negate).1).abs
  let rel := (mulX (f64 m.brel) (f64 m.ref).abs).1
  t.isNan || flags &&& (monOvf ||| monNonfin ||| monMalf) != 0 || (f64 m.babs).lt diff && rel.lt diff

/-- A partial collected into a check's sums (R319). -/
def collectInto (sums : AMap (Option Int × BitVec 4)) (m : Nat) (p : Partial) : AMap (Option Int × BitVec 4) :=
  let old := (amGet sums m).getD (some 0, 0)
  let v := if p.cell = cellInvalid then none else old.1.map fun x => x + sgOf 256 p.cell
  amSet sums m (v, old.2 ||| p.flags)

/-- One monitor evaluated: its copy and MONTAB updated; whether it failed. -/
def State.evalMonitor (s : State) (k : Check) (m : Nat) : Bool × State :=
  let x := (amGet k.sums m).getD (some 0, 0)
  let mon := vget (s.ctx k.ctx).mons m Mon.reset
  let total := checkTotal x.1
  let bad := mon.fails total x.2
  let mon := { mon with status := statusAfter mon.status x.2 bad, last := BitVec.ofNat 64 total }
  let s := s.updCtx k.ctx fun c => { c with mons := vset c.mons m mon }
  (bad, s.montabWrite k.ctx m 0x30 16 (mon.status.toNat + total * 2 ^ 64))

/-- The monitors of a check evaluated: the bindings that failed. -/
def State.evalAll (s : State) (k : Check) : List (Nat × Nat) → List (Nat × Nat) × State
  | [] => ([], s)
  | x :: xs =>
    let r := s.evalMonitor k x.2
    let q := r.2.evalAll k xs
    (if r.1 then x :: q.1 else q.1, q.2)

/-- The strongest ACTION among monitors (R320). -/
def State.strongest (s : State) (c : Nat) (ms : List (Nat × Nat)) : Nat :=
  ms.foldl (fun a x => max a (vget (s.ctx c).mons x.2 Mon.reset).action) 0

/-- FAILMASK of bindings that failed. -/
def failMask (bad : List (Nat × Nat)) : Nat := bad.foldl (fun m x => m + 2 ^ x.1) 0

/-- XAUX of BALANCE for bindings that failed in a phase (R320). -/
def balanceAux (bad : List (Nat × Nat)) (phase : Nat) : BitVec 64 :=
  BitVec.ofNat 64 (failMask bad + (bad.foldl (fun a x => min a x.2) 15) * 2 ^ 4 + phase % 2 ^ 32 * 2 ^ 32)

/-- XAUX of BALANCE for a wait on a token at an object, none where the object does not record that the phase failed, or its check took
another action than TRAP (R313, R320): as the check found it, else from FAILMASK and the bindings of the object. -/
def State.balance (s : State) (pa : Nat) (t : BitVec 32) : Option (BitVec 64) :=
  if s.objFailed pa && s.objFailph pa == t.toNat then
    match amGet s.objFails pa with
    | some aux => some aux
    | none =>
      let bad := (s.objBound pa).filter fun x => s.objFailmask pa / 2 ^ x.1 % 2 == 1
      if s.strongest (s.objCtx pa) bad = 1 then some (balanceAux bad t.toNat) else none
  else none

/-- A monitor's partials zeroed in every slice (R323). -/
def State.zeroPartials (s : State) (c m : Nat) : State :=
  { s with partials := s.partials.filter fun x => x.1 / 256 != c * 16 + m }

/-- A check of a monitor of a context is in progress. -/
def State.checkOf (s : State) (c m : Nat) : Bool := s.checks.any fun k => k.ctx == c && k.mons.any fun x => x.2 == m

/-- The running total of a monitor (R325). -/
def State.runningTotal (s : State) (c m : Nat) : BitVec 64 :=
  let mine := s.partials.filter fun x => x.1 / 256 == c * 16 + m
  let sums := mine.foldl (fun a x => collectInto a 0 x.2) []
  BitVec.ofNat 64 (checkTotal ((amGet sums 0).getD (some 0, 0)).1)

end Sys2Proof.Machine
end

