-- ==== Sys2Proof/Machine/Control.lean ====
section
/-!
DEFINITION. Sys2Proof/Machine/Control.lean: control transfer (09 R174 to R177), splits, joins and the end of paths (R178 to
R181) with the divergence stack (08 R157 to R159), `phase`, and `yield` (R156).
-/

namespace Sys2Proof.Machine

/-! ### Branches (R175, R176) -/

/-- The target of a PC-relative branch (R175). -/
def Iss.target (i : Iss) : BitVec 57 := i.pc + 4 * i.imm.truncate 57

/-- A packet of the issuing path (21 R398). -/
def Iss.packet (i : Iss) (s : State) (type payload : Nat) (w1 : Option (BitVec 64)) : State :=
  s.tracePacket i.core i.ctx (slotOf i.agent) (!i.g.trapMode && i.g.onB) type payload w1

/-- `br` (R176). -/
def brBody (s : State) (i : Iss) : Res := i.jump s i.target

/-- A branch taken on a condition (R176), with its packet (21 R398). -/
def branchIf (c : Iss → Bool) (s : State) (i : Iss) : Res :=
  i.jump (i.packet s 2 (c i).toNat none) (if c i then i.target else i.next)

/-- The predicate in field d within the issuing path's mask. -/
def Iss.masked (i : Iss) : BitVec 8 := i.g.preg i.x.d &&& i.g.mask

/-- A jump to a computed target: MISALIGN where it is no multiple of 4 (R175). -/
def jumpTo (s : State) (i : Iss) (t : BitVec 57) : Res :=
  if t.toNat % 4 ≠ 0 then .trap s cMisalign (t.zeroExtend 64) 0
  else i.jump (i.packet s 5 0 (some (t.zeroExtend 64))) t

/-- The path in the other PC slot. -/
def Group.otherPath (g : Group) : Option Path := if g.onB then g.path0 else g.path1

/-- `call` (R176). -/
def callBody (s : State) (i : Iss) : Res :=
  if !i.g.trapMode && (i.g.otherPath.isSome || i.g.depth != 0) then .trap s cDivergedCall 0 0
  else i.jump (s.updGrp i.agent fun g => g.setS 15 (i.next.zeroExtend 64)) i.target

/-- `ret` (R176). -/
def retBody (s : State) (i : Iss) : Res := jumpTo s i ((i.g.sreg 15).truncate 57)

/-- `jmp` (R176). -/
def jmpBody (s : State) (i : Iss) : Res := jumpTo s i (i.sd.truncate 57 + 4 * i.imm.truncate 57)

/-- Unconditional PC-relative branch (R176). -/
def execBr (i : BitVec 21) (s : State) : Out :=
  issueWord (⟨0x040, sigL.ends, true, 0, 0, 0, i.toNat, none⟩) always brBody s

/-- Branch if scalar is zero (R176). -/
def execBrz (a : BitVec 7) (o : BitVec 14) (s : State) : Out :=
  issueWord (insnC 0x041 ((sigS .scalar).ends) true a o none) always (branchIf fun i => i.sd == 0) s

/-- Branch if scalar is nonzero (R176). -/
def execBrnz (a : BitVec 7) (o : BitVec 14) (s : State) : Out :=
  issueWord (insnC 0x042 ((sigS .scalar).ends) true a o none) always (branchIf fun i => i.sd != 0) s

/-- Branch if any lane of the path's predicate is set (R176). -/
def execBrany (a : BitVec 7) (o : BitVec 14) (s : State) : Out :=
  issueWord (insnC 0x043 ((sigS .pred).ends) true a o none) always (branchIf fun i => i.masked != 0) s

/-- Branch if all lanes of the path's predicate are set (R176). -/
def execBrall (a : BitVec 7) (o : BitVec 14) (s : State) : Out :=
  issueWord (insnC 0x044 ((sigS .pred).ends) true a o none) always (branchIf fun i => i.masked == i.g.mask) s

/-- Call, with the return address in s15 (R176). -/
def execCall (i : BitVec 21) (s : State) : Out :=
  issueWord (⟨0x045, sigL.ends, true, 0, 0, 0, i.toNat, none⟩) always callBody s

/-- Return to s15 (R176). -/
def execRet (s : State) : Out :=
  issueWord (insnN 0x046 (sigN.ends) true) always retBody s

/-- Jump to register plus offset (R176). -/
def execJmp (a : BitVec 7) (o : BitVec 14) (s : State) : Out :=
  issueWord (insnC 0x047 ((sigS .scalar).ends) true a o none) always jmpBody s

/-- `nop` (R177). -/
def nopBody (s : State) (i : Iss) : Res := i.fin s

/-- No operation (R177). -/
def execNop (e : Bool) (s : State) : Out :=
  issueWord (insnN 0x04B sigN e) always nopBody s

/-- `phase` (R177). -/
def phaseBody (s : State) (i : Iss) : Res :=
  i.fin (s.updGrp i.agent fun g => { g with phase := i.imm.truncate 16, phTimer := 0, pendPhase := false, phOver := false })

/-- Set the phase index and restart the phase timer (R177). -/
def execPhase (e : Bool) (i : BitVec 14) (s : State) : Out :=
  issueWord (insnC 0x04C (sigC .zero) e 0 i (some 0xFFFF)) always phaseBody s

/-- `yield` (R156): the arbiter leaves the group out of its next choice where another is READY. -/
def yieldBody (s : State) (i : Iss) : Res := i.fin (s.updGrp i.agent fun g => { g with promo := 0, yielded := true })

/-- End the run and give the issue slot away (R156). -/
def execYield (s : State) : Out :=
  issueWord (insnN 0x2B0 (sigN.ends) true) always yieldBody s

/-! ### The divergence stack (08 R158) -/

/-- An entry of the stack. -/
structure StackEntry where
  pc : BitVec 57
  mask : BitVec 8
  join : Bool
  tag : BitVec 16
  ptag : BitVec 16
  deriving DecidableEq, Repr

/-- The 16 bytes of an entry. -/
def StackEntry.code (e : StackEntry) : Nat :=
  e.pc.toNat + e.mask.toNat * 2 ^ 64 + e.join.toNat * 2 ^ 72 + e.tag.toNat * 2 ^ 80 + e.ptag.toNat * 2 ^ 96

/-- The entry that 16 bytes hold. -/
def StackEntry.ofCode (x : Nat) : StackEntry :=
  ⟨BitVec.ofNat 57 x, BitVec.ofNat 8 (x / 2 ^ 64), x / 2 ^ 72 % 2 == 1, BitVec.ofNat 16 (x / 2 ^ 80),
    BitVec.ofNat 16 (x / 2 ^ 96)⟩

/-- The stack as one instruction sees it: its depth and the entries that it has written, newest first. -/
structure Stk where
  depth : Nat
  ov : List (Nat × StackEntry)
  deriving DecidableEq, Repr

/-- A push. -/
def Stk.push (t : Stk) (e : StackEntry) : Stk := ⟨t.depth + 1, (t.depth, e) :: t.ov⟩

/-- Entry n removed: those above it, in rising order, move down one place (R180). -/
def Stk.remove (t : Stk) (n : Nat) (above : List StackEntry) : Stk :=
  ⟨t.depth - 1, ((numsFrom n above.length).zip above).reverse ++ t.ov⟩

/-- The access to an entry: of group scope, not observed by watchpoints (R158). -/
def Iss.entryAcc (i : Iss) (s : State) (k : Nat) (kind : Access) (data : Option Nat) : Acc :=
  ⟨((s.ctx i.ctx).spill.toNat + i.agent * 4096 + k * 16) % 2 ^ 64, 16, kind, 0, 0, true, false, true, data, 0⟩

/-- Entry k read. -/
def Iss.entryAt (i : Iss) (t : Stk) (k : Nat) (s : State) (f : State → StackEntry → Res) : Res :=
  match t.ov.find? fun o => o.1 == k with
  | some o => f s o.2
  | none => i.load s 0 false [i.entryAcc s k .read none] fun s vs => f s (StackEntry.ofCode (vs.headD 0))

/-- The topmost entry below index n that satisfies a test, with its index and the entries above it, in rising order. -/
def Iss.scan (i : Iss) (t : Stk) (p : StackEntry → Bool) (k : State → Option (Nat × StackEntry × List StackEntry) → Res) :
    Nat → List StackEntry → State → Res
  | 0, _, s => k s none
  | n + 1, above, s =>
    i.entryAt t n s fun s e => if p e then k s (some (n, e, above)) else i.scan t p k n (e :: above) s

/-- The entries written, once every one of them may be. -/
def Iss.writeStack (i : Iss) (t : Stk) (s : State) (k : State → Res) : Res :=
  i.store s (t.ov.reverse.map fun o => i.entryAcc s o.1 .write (some o.2.code)) k

/-- A path that an entry holds. -/
def StackEntry.path (e : StackEntry) : Path := ⟨e.pc, e.mask, e.tag, e.ptag⟩

/-- A push, refused when the stack is full (R159). -/
def pushEntry (s : State) (t : Stk) (e : StackEntry) (k : Stk → Res) : Res :=
  if Config.stackEntries ≤ t.depth then .trap s cDivstackOverflow 0 0 else k (t.push e)

/-- An emptied slot refilled by the topmost ready entry (R157, R180). -/
def Iss.refill (i : Iss) (t : Stk) (s : State) (k : State → Option Path → Stk → Res) : Res :=
  i.scan t (fun e => !e.join)
    (fun s r => match r with
      | none => k s none t
      | some (n, e, above) => k s (some e.path) (t.remove n above))
    t.depth [] s

/-- The issuing path, the stack's depth and the split counter after a split, join or exit. -/
def Iss.setPaths (i : Iss) (s : State) (p : Option Path) (t : Stk) : State :=
  s.updGrp i.agent fun g => { g.setPath p with depth := t.depth }

/-- The tags of a merge, for a path with tag a and parent tags of it and of its sibling: of the odd sibling's PTAG and the even sibling's PTAG (R178). -/
def mergeTags (a : BitVec 16) (pa pb : BitVec 16) : BitVec 16 × BitVec 16 := if a.getLsbD 0 then (pa, pb) else (pb, pa)

/-! ### `vbr` (R179) -/

/-- The split counter advanced (R178). -/
def nextSplit (c : BitVec 16) : BitVec 16 := if c + 2 = 0 then 2 else c + 2

/-- A split written: the issuing path goes on as the even sibling. -/
def Iss.split (i : Iss) (s : State) (p : Path) (other : Option Path) (t : Stk) : State :=
  let n := i.g.splitC
  s.updGrp i.agent fun g =>
    let g := { g.setPath (some { p with pc := i.next, mask := p.mask &&& ~~~(i.g.preg i.x.d), tag := n }) with
                splitC := nextSplit n, depth := t.depth }
    match other with
    | none => g
    | some q => if g.onB then { g with path0 := some q } else { g with path1 := some q }

/-- `vbr`: the packet of a split follows the push, so that a push that traps or waits leaves none (R159, R160). -/
def vbrBody (s : State) (i : Iss) : Res :=
  let m := i.g.mask
  let t := i.masked
  if t = m then i.jump (i.packet s 2 1 none) i.target
  else if t = 0 then i.fin (i.packet s 2 0 none)
  else if i.g.trapMode then i.illegal s
  else
    match i.g.path with
    | none => i.fin s
    | some p =>
      let n := i.g.splitC
      let stk : Stk := ⟨i.g.depth, []⟩
      let done := fun (s : State) (other : Option Path) (stk : Stk) =>
        Res.done (i.split (i.packet s 3 t.toNat none) p other stk) .stay (energyClass i.x.op) 1
      if i.g.otherPath.isNone then done s (some ⟨i.target, t, n + 1, p.tag⟩) stk
      else pushEntry s stk ⟨i.target, t, false, n + 1, p.tag⟩ fun stk => i.writeStack stk s fun s => done s none stk

/-- Divergent branch that splits the path on a mixed predicate (R179). -/
def execVbr (a : BitVec 7) (o : BitVec 14) (s : State) : Out :=
  issueWord (insnC 0x048 ((sigS .pred).ends) true a o none) always vbrBody s

/-! ### `vjoin` (R180) -/

/-- The issuing path waits at its join: it is pushed as a join entry, and its slot is refilled. -/
def Iss.park (i : Iss) (s : State) (t : Stk) (e : StackEntry) : Res :=
  pushEntry s t e fun t =>
    i.refill t s fun s p t => i.writeStack t s fun s => .done (i.setPaths s p t) .stay (energyClass i.x.op) 1

/-- The sibling of a path with a tag (R178): in the other slot, or in the stack from the top down. -/
def Iss.otherIs (i : Iss) (tag : BitVec 16) : Bool := i.g.otherPath.any fun q => q.tag == (tag ^^^ 1)

/-- `vjoin`. -/
def vjoinBody (s : State) (i : Iss) : Res :=
  match (if i.g.trapMode then none else i.g.path) with
  | none => i.illegal s
  | some p =>
    let t : Stk := ⟨i.g.depth, []⟩
    let wait := StackEntry.mk i.next p.mask true p.tag p.ptag
    if p.tag.toNat < 2 then i.fin s
    else if i.otherIs p.tag then i.park s t wait
    else
      i.scan t (fun e => e.tag == (p.tag ^^^ 1))
        (fun s r => match r with
          | none => i.fin (i.setPaths s (some { p with tag := 0, ptag := 0 }) t)
          | some (n, e, above) =>
            if e.join then
              let t := t.remove n above
              let tags := mergeTags p.tag p.ptag e.ptag
              i.writeStack t s fun s =>
                let s := i.packet s 4 (p.mask ||| e.mask).toNat none
                i.fin (i.setPaths s (some ⟨p.pc, p.mask ||| e.mask, tags.1, tags.2⟩) t)
            else i.park s t wait)
        t.depth [] s

/-- Merge a path with its sibling (R180). -/
def execVjoin (s : State) : Out :=
  issueWord (insnN 0x049 (sigN.ends) true) always vjoinBody s

/-! ### `exit` (R181) -/

/-- The end of `exit`: the slot refilled where it is empty, and the group EXITED when no path is left. -/
def Iss.exitEnd (i : Iss) (s : State) (p : Option Path) (t : Stk) : Res :=
  i.writeStack t s fun s =>
    let s := i.packet (i.setPaths s p t) 7 i.g.mask.toNat none
    let last := p.isNone && i.g.otherPath.isNone && t.depth == 0
    .done (if last then s.updGrp i.agent fun g => { g with state := .exited } else s) .stay (energyClass i.x.op) 1

/-- `retire` of R181. -/
def Iss.retirePath (i : Iss) : Nat → Path → Stk → State → Res
  | 0, _, t, s => i.refill t s fun s p t => i.exitEnd s p t
  | fuel + 1, p, t, s =>
    let gone := StackEntry.mk 0 0 true p.tag p.ptag
    let leave := fun (t : Stk) (s : State) => i.refill t s fun s q t => i.exitEnd s q t
    if p.tag.toNat < 2 then leave t s
    else if i.otherIs p.tag then pushEntry s t gone fun t => leave t s
    else
      i.scan t (fun e => e.tag == (p.tag ^^^ 1))
        (fun s r => match r with
          | none => leave t s
          | some (n, e, above) =>
            if e.join then
              let t := t.remove n above
              let tags := mergeTags p.tag p.ptag e.ptag
              let q := Path.mk e.pc e.mask tags.1 tags.2
              if e.mask = 0 then i.retirePath fuel q t s else i.exitEnd s (some q) t
            else pushEntry s t gone fun t => leave t s)
        t.depth [] s

/-- `exit`. -/
def exitBody (s : State) (i : Iss) : Res :=
  match (if i.g.trapMode then none else i.g.path) with
  | none => i.illegal s
  | some p => i.retirePath (Config.stackEntries + 1) p ⟨i.g.depth, []⟩ s

/-- End the issuing path (R181). -/
def execExit (s : State) : Out :=
  issueWord (insnN 0x04A (sigN.ends) true) always exitBody s

end Sys2Proof.Machine
end

