-- ==== Sys2Proof/Machine/System.lean ====
section
/-!
DEFINITION. Sys2Proof/Machine/System.lean: MODE (09 R182), the special registers (03 R76, R77, 09 R183, 10 R206), and the
system instructions (09 R184 to R191, 21 R386, R393).
-/

namespace Sys2Proof.Machine

/-! ### MODE -/

/-- `setmode` (R182). -/
def setmodeBody (s : State) (i : Iss) : Res :=
  let m := i.sa.truncate 32
  if i.sa.toNat / 2 ^ 27 ≠ 0 ∨ modeLegal m = false then i.illegal s
  else i.fin (s.updGrp i.agent fun g => { g with mode := m })

/-- The field code and the value that `modei` accepts (R73, R74). -/
def modeiOk (i : Iss) : Bool :=
  match modeField i.x.d with
  | some (_, w, most) => decide (i.imm.toNat < 2 ^ w ∧ i.imm.toNat ≤ most)
  | none => false

/-- `modei` (R182). -/
def modeiBody (s : State) (i : Iss) : Res :=
  match modeField i.x.d with
  | some (lo, w, _) => i.fin (s.updGrp i.agent fun g => { g with mode := setField g.mode lo w i.imm.toNat })
  | none => i.illegal s

/-- `getmode` (R182). -/
def getmodeBody (s : State) (i : Iss) : Res := i.finS s (i.g.mode.zeroExtend 64)

/-- Write all of MODE from a scalar (R182). -/
def execSetmode (e : Bool) (a : BitVec 7) (s : State) : Out :=
  issueWord (insnA 0x050 (sigA .zero .scalar .zero) e 0 a 0) always setmodeBody s

/-- Write one MODE field from an immediate (R182). -/
def execModei (e : Bool) (d : BitVec 7) (i : BitVec 14) (s : State) : Out :=
  issueWord (insnC 0x051 (sigC .code) e d i (some (2 ^ 56))) modeiOk modeiBody s

/-- Read MODE (R182). -/
def execGetmode (e : Bool) (d : BitVec 7) (s : State) : Out :=
  issueWord (insnA 0x052 (sigA .scalar .zero .zero) e d 0 0) always getmodeBody s

/-! ### Special registers (R76) -/

/-- A special register that a scalar can hold, as the issuing group reads it, none where the code names none (R76). -/
def State.special (s : State) (i : Iss) (code : Nat) : Option (BitVec 64) :=
  let n := fun (k : Nat) => some (BitVec.ofNat 64 k)
  match code with
  | 0x000 => n i.g.gid
  | 0x001 => n i.blk.bid
  | 0x002 => n i.blk.desc.bdim
  | 0x003 => n i.blk.desc.gdim
  | 0x004 => n (i.blk.bid / max 1 i.blk.desc.cldim)
  | 0x005 => n i.blk.rank
  | 0x006 => n i.core
  | 0x007 => n (dieOf i.core)
  | 0x008 => n (slotOf i.agent)
  | 0x009 => n i.ctx
  | 0x00A => n ((amGet s.grids i.blk.grid).map (·.node) |>.getD 0)
  | 0x00B => some (s.lseqOf i.blk)
  | 0x00C => n (i.blk.desc.param.toNat % 2 ^ 57)
  | 0x010 => some s.clk
  | 0x011 => some i.g.seed
  | 0x012 => some i.g.energy
  | 0x013 => n i.g.phase.toNat
  | 0x014 => n i.g.fpstat.toNat
  | 0x020 => n i.g.xpc.toNat
  | 0x021 => n i.g.xmode.toNat
  | 0x022 => n i.g.xcause.toNat
  | 0x023 => some i.g.xaddr
  | 0x024 => some i.g.xaux
  | _ => none

/-- The codes of the exception registers (R77). -/
def exceptionCode (code : Nat) : Bool := decide (0x020 ≤ code ∧ code ≤ 0x024)

/-- A code that names a register which `srd` reads (R76, R77). -/
def scalarCode (code : Nat) : Bool :=
  decide (code ≤ 0x00C ∨ (0x010 ≤ code ∧ code ≤ 0x014)) || exceptionCode code

/-- The codes of `srd`, a static check of the word (R77, R78). -/
def srdOk (i : Iss) : Bool := scalarCode i.imm.toNat
/-- The codes of `vsrd`: those of `srd`, LANE and TID. -/
def vsrdOk (i : Iss) : Bool := srdOk i || i.imm == 0x030 || i.imm == 0x031

/-- `srd` (R183). -/
def srdBody (s : State) (i : Iss) : Res :=
  let code := i.imm.toNat
  if exceptionCode code && !i.g.trapMode then .trap s cPrivilege 0 0
  else
    match s.special i code with
    | some v => i.finS s v
    | none => i.illegal s

/-- The width of a register that `swr` writes (R76). -/
def writableWidth (code : Nat) : Option Nat :=
  match code with
  | 0x011 => some 64 | 0x014 => some 32 | 0x020 => some 57 | 0x021 => some 32 | 0x022 => some 8 | 0x023 => some 64
  | 0x024 => some 64 | _ => none

/-- The codes of `swr`, a static check of the word (R77, R78). -/
def swrOk (i : Iss) : Bool := (writableWidth i.imm.toNat).isSome

/-- A special register written (R76, R50); reserved bits of FPSTAT and of MODE are not (R7, R48, R72). -/
def Group.putSpecial (g : Group) (code : Nat) (v : BitVec 64) : Group :=
  match code with
  | 0x011 => { g with seed := v, gen := Vector.ofFn fun l => seedLane v l.val }
  | 0x014 => { g with fpstat := v.truncate 32 &&& 0x1F1F }
  | 0x020 => { g with xpc := v.truncate 57 }
  | 0x021 => { g with xmode := v.truncate 32 &&& 0x07FFFFFF }
  | 0x022 => { g with xcause := v.truncate 8 }
  | 0x023 => { g with xaddr := v }
  | 0x024 => { g with xaux := v }
  | _ => g

/-- `swr` (R183). -/
def swrBody (s : State) (i : Iss) : Res :=
  let code := i.imm.toNat
  if exceptionCode code && !i.g.trapMode then .trap s cPrivilege 0 0
  else
    match writableWidth code with
    | none => i.illegal s
    | some w =>
      if 2 ^ w ≤ i.sd.toNat then i.illegal s
      else i.fin (s.updGrp i.agent fun g => g.putSpecial code i.sd)

/-- `vsrd` (R206): the low 64 bits of each active lane; the other bits are zeroed. -/
def vsrdBody (s : State) (i : Iss) : Res :=
  let code := i.imm.toNat
  if exceptionCode code && !i.g.trapMode then .trap s cPrivilege 0 0
  else
    let lane := fun (l : Nat) => match code with
      | 0x030 => some l
      | 0x031 => some (i.g.gid * 8 + l)
      | _ => (s.special i code).map BitVec.toNat
    if (lane 0).isNone then i.illegal s
    else i.fin (s.updGrp i.agent fun g => (lanesOf g.active).foldl (fun g l => g.setV i.x.d l ((lane l).getD 0)) g)

/-- Read a special register into a scalar (R183). -/
def execSrd (e : Bool) (d : BitVec 7) (i : BitVec 14) (s : State) : Out :=
  issueWord (insnC 0x053 (sigC .scalar) e d i (some (2 ^ 56))) srdOk srdBody s

/-- Write a special register from a scalar (R183). -/
def execSwr (e : Bool) (d : BitVec 7) (i : BitVec 14) (s : State) : Out :=
  issueWord (insnC 0x054 (sigC .scalar) e d i (some (2 ^ 56))) swrOk swrBody s

/-- Read a special register into every active lane (R206). -/
def execVsrd (e : Bool) (d : BitVec 7) (i : BitVec 14) (s : State) : Out :=
  issueWord (insnC 0x160 (sigC .vector) e d i (some (2 ^ 56))) vsrdOk vsrdBody s

/-! ### Traps by program, return and halt (R185, R186) -/

/-- `trap` (R185): XPC is the next word. -/
def trapBody (s : State) (i : Iss) : Res := .trapNext s cTrapInsn 0 i.imm

/-- `bkpt` (R185). -/
def bkptBody (s : State) (i : Iss) : Res := .trap s cBreakpoint 0 i.imm

/-- The 64 bytes of a frame that `tret` reads, with whether they are poisoned or refused: of memory at the home, of an on-chip window as an
access of a group in trap mode (01 R31), of a host or peer once it has answered. -/
def State.frameRead (s : State) (a pa : Nat) : Option (Bool × Nat) × State :=
  match s.region pa with
  | .chip =>
    let r := s.chipRead pa 64
    (some (r.2.chipBad pa 64, r.1), r.2)
  | _ =>
    if s.isMemory pa then (some (s.poisoned pa 64, s.read pa 64), s)
    else (s.extValue a pa 64, s.noteRefused pa)

/-- `tret` (R164): the frame is read through the context's tables; a fault in it is a trap in trap mode. -/
def tretBody (s : State) (i : Iss) : Res :=
  let f := s.frameVa i.ctx i.agent
  let r := (s.drainCore i.core).direct i.ctx f .read true
  match r.1 with
  | .ok pa =>
    if r.2.frameHole pa = true then .trap r.2 cProtection (BitVec.ofNat 64 f) 0
    else if r.2.inReach i.core pa = false then .wait (r.2.snoopBack (pa / 256)) .waitMem (.home pa)
    else
      match r.2.frameRead i.agent pa with
      | (none, _) => .wait (r.2.extAsk i.agent i.ctx pa 64) .waitMem .reply
      | (some (true, _), t) => .trap t cPoison (BitVec.ofNat 64 f) 0
      | (some (false, vals), t) =>
        let t := i.packet t 5 0 (some ((i.g.xpc &&& ~~~3#57).zeroExtend 64))
        .done (t.trapReturn i.agent vals) .stay (energyClass i.x.op) 1
  | .fault cause aux => .trap r.2 cause (BitVec.ofNat 64 f) aux
  | .revoke aux _ => .trap r.2 cLeaseRevoked (BitVec.ofNat 64 f) aux
  | .migrating at' => .wait (r.2.arm (.group i.agent) at' 8) .waitMem .watch
  | .miss _ => .wait r.2 .waitMem .again

/-- `halt` (R186). -/
def haltBody (s : State) (i : Iss) : Res :=
  .done ((s.updGrp i.agent fun g => g.moveTo i.next).enterHalted i.agent 0x20) .stay (energyClass i.x.op) 1

/-- Program trap TRAP_INSN, resuming after it (R185). -/
def execTrap (e : Bool) (i : BitVec 14) (s : State) : Out :=
  issueWord (insnC 0x060 (sigC .zero) e 0 i (some (2 ^ 56))) always trapBody s

/-- Return from trap mode (R164). -/
def execTret (s : State) : Out :=
  issueWord (insnN 0x061 (sigN.priv.ends) true) always tretBody s

/-- Breakpoint trap (R185). -/
def execBkpt (e : Bool) (i : BitVec 14) (s : State) : Out :=
  issueWord (insnC 0x062 (sigC .zero) e 0 i (some (2 ^ 56))) always bkptBody s

/-- Stop the issuing group in HALTED (R186). -/
def execHaltInsn (e : Bool) (s : State) : Out :=
  issueWord (insnN 0x063 (sigN.priv) e) always haltBody s

/-! ### Watchpoints (R187, 21 R386) -/

/-- The watchpoint of a 32-byte descriptor, none where R386 refuses it. -/
def wpOf (x : Nat) : Option Wp :=
  let w : Wp := ⟨BitVec.ofNat 3 x, x / 2 ^ 3 % 8, x / 2 ^ 6 % 16, x / 2 ^ 64 % 2 ^ 64, x / 2 ^ 128 % 2 ^ 64,
    BitVec.ofNat 64 (x / 2 ^ 192)⟩
  let t := Fmt.decode .fp64 w.t.toNat
  let fmtBad := decide ((6 ≤ w.fmt ∧ w.fmt ≤ 8) ∨ 13 ≤ w.fmt)
  let tBad := t.isNan || t.isInf || (t.neg? && !t.isZero)
  let condBad := decide (w.cond ≠ 0) &&
    (fmtBad || decide (w.lo % (etBits w.fmt / 8) ≠ 0) || (decide (2 ≤ w.cond) && isInt w.fmt) ||
      decide (w.cond = 3 ∧ w.fmt = 4) || (decide (w.cond = 1) && tBad))
  if x % 2 ^ 64 / 2 ^ 10 ≠ 0 ∨ w.kinds = 0 ∨ 5 ≤ w.cond ∨ w.hi ≤ w.lo ∨ 2 ^ 57 < w.hi ∨ condBad = true then none
  else some w

/-- The access that writes entry k of the context's watchpoint table (R187). -/
def Iss.wptabAcc (i : Iss) (s : State) (k x : Nat) : Acc :=
  ⟨((s.ctx i.ctx).wptab.toNat + k * 32) % 2 ^ 64, 32, .write, 0, 0, false, false, true, some x, 0⟩

/-- The wait of `wpset` and `wpclr` (R187): its end arms the entry everywhere, before the words of that clock. -/
def Iss.armWait (i : Iss) (s : State) (k : Nat) (w : Option Wp) : Res :=
  .wait (s.updGrp i.agent fun g => { g with sent := true, waitClk := s.clk.toNat }) .waitMem (.arm k w)

/-- `wpset` (R187): the table is written, then every core, slice and engine of the context arms the entry. -/
def wpsetBody (s : State) (i : Iss) : Res :=
  let k := i.sa.toNat
  if i.g.sent then i.fin s
  else if 15 < k then i.illegal s
  else if i.sb.toNat % 32 ≠ 0 then .trap s cMisalign i.sb 0
  else
    i.load s 0 true [⟨i.sb.toNat, 32, .read, 0, 0, true, false, true, none, 0⟩] fun s vs =>
      match wpOf (vs.headD 0) with
      | none => i.illegal s
      | some w =>
        i.store s [i.wptabAcc s k (vs.headD 0)] fun s => i.armWait s k (some w)

/-- `wpclr` (R187). -/
def wpclrBody (s : State) (i : Iss) : Res :=
  if i.g.sent then i.fin s else i.armWait s i.imm.toNat none

/-- Arm a watchpoint from a descriptor, in every agent of the context (R187). -/
def execWpset (e : Bool) (a : BitVec 7) (b : BitVec 7) (s : State) : Out :=
  issueWord (insnA 0x064 ((sigA .zero .scalar .scalar).priv) e 0 a b) always wpsetBody s

/-- Disarm a watchpoint (R187). -/
def execWpclr (e : Bool) (i : BitVec 7) (s : State) : Out :=
  issueWord (insnB 0x065 ((sigB .zero .zero).priv) e 0 0 i.toNat (some 15)) always wpclrBody s

/-! ### Markers, lanes, mailbox, counts -/

/-- `trc` (R188): the tag has 7 bits, and one that a prefix makes wider is refused (03 R78). -/
def trcBody (s : State) (i : Iss) : Res := i.fin (i.packet s 8 i.imm.toNat (some i.sa))

/-- The selectors that `gget` and `gput` accept (R189). -/
def selOk (i : Iss) : Bool := decide (i.imm.toNat < 64 ∧ (i.imm.toNat < 32 ∨ i.imm.toNat / 8 % 4 = 0))

/-- `gget` (R189). -/
def ggetBody (s : State) (i : Iss) : Res :=
  let sel := i.imm.toNat
  let l := sel % 8
  i.finS s (if sel < 32 then BitVec.ofNat 64 (elem (i.g.vlane i.x.a l) 64 (sel / 8)) else BitVec.ofNat 64 (i.g.klane i.x.a l))

/-- `gput` (R189). -/
def gputBody (s : State) (i : Iss) : Res :=
  let sel := i.imm.toNat
  let l := sel % 8
  if sel < 32 then
    let q := sel / 8
    let old := i.g.vlane i.x.d l
    i.fin (s.updGrp i.agent fun g => (g.setV i.x.d l (patchBytes old (8 * q) 8 i.sa.toNat)).inPart g)
  else if i.sa.toNat / 2 ^ 16 ≠ 0 then i.illegal s
  else i.fin (s.updGrp i.agent fun g => g.setK i.x.d l i.sa.toNat)

/-- A wait of the group has outlasted VWAIT (R90); 0 is no limit. -/
def State.vwaitOver (s : State) (ctx : Nat) (since : Nat) : Bool :=
  let w := (s.ctx ctx).vwait
  decide (w ≠ 0 ∧ since + w ≤ s.clk.toNat)

/-- The wait of `mbox` for its reply (R393). -/
def mboxWait (s : State) (i : Iss) : Res :=
  let m := s.mailbox i.agent
  let since := match s.grp i.agent with
    | some g => g.waitClk
    | none => 0
  if s.read64 (m + 0x18) = s.read64 m then i.finS (s.acquire i.agent 5) (s.read64 (m + 0x20))
  else if s.vwaitOver i.ctx since then i.finS (s.acquire i.agent 5) (BitVec.allOnes 64)
  else .wait (s.arm (.group i.agent) (m + 0x18) 8) .waitMem .watch

/-- `mbox` (R190, R393): the release, the message, the wait. -/
def mboxBody (s : State) (i : Iss) : Res :=
  if i.sb.toNat / 2 ^ 8 ≠ 0 then i.illegal s
  else if i.g.sent then mboxWait s i
  else
    let r := s.release i.core i.agent 5
    if r.2 then
      let m := s.mailbox i.agent
      let t := ((r.1.write64 (m + 0x08) i.sb).write64 (m + 0x10) i.sa).write64 m (r.1.read64 m + 1)
      mboxWait (t.updGrp i.agent fun g => { g with sent := true, waitClk := s.clk.toNat }) i
    else .wait r.1 .waitMem .acks

/-- `perfrd` (R191). -/
def perfrdBody (s : State) (i : Iss) : Res := i.finS s (s.counter i.core i.imm.toNat)

/-- The ENERGY of the groups of a block that are live (R191). -/
def State.liveEnergy (s : State) (blk : Nat) : BitVec 64 :=
  s.groups.foldl (fun n ag => if ag.2.block = blk ∧ ag.2.state ≠ .exited then n + ag.2.energy else n) 0

/-- `enrd` (R191). -/
def enrdBody (s : State) (i : Iss) : Res :=
  match i.sa.toNat with
  | 0 => i.finS s i.g.energy
  | 1 => i.finS s (i.blk.energy + s.liveEnergy i.g.block)
  | 2 => i.finS s (s.core i.core).energy
  | _ => i.illegal s

/-- Emit a trace marker (R188). -/
def execTrc (e : Bool) (a : BitVec 7) (i : BitVec 7) (s : State) : Out :=
  issueWord (insnB 0x066 (sigB .zero .scalar) e 0 a i.toNat (some 127)) always trcBody s

/-- Read 64 bits of one lane of a vector or scale register (R189). -/
def execGget (e : Bool) (d : BitVec 7) (a : BitVec 7) (i : BitVec 7) (s : State) : Out :=
  issueWord (insnB 0x067 ((sigB .scalar .vector).priv) e d a i.toNat (some (2 ^ 56))) selOk ggetBody s

/-- Write 64 bits of one lane of a vector or scale register (R189). -/
def execGput (e : Bool) (d : BitVec 7) (a : BitVec 7) (i : BitVec 7) (s : State) : Out :=
  issueWord (insnB 0x068 ((sigB .vector .scalar).priv) e d a i.toNat (some (2 ^ 56))) selOk gputBody s

/-- Exchange one message with the debugger through the Gulop mailbox (R393). -/
def execMbox (e : Bool) (d : BitVec 7) (a : BitVec 7) (b : BitVec 7) (s : State) : Out :=
  issueWord (insnA 0x069 ((sigA .scalar .scalar .scalar).priv) e d a b) always mboxBody s

/-- Read a core counter (R191). -/
def execPerfrd (e : Bool) (d : BitVec 7) (i : BitVec 7) (s : State) : Out :=
  issueWord (insnB 0x06A (sigB .scalar .zero) e d 0 i.toNat (some 63)) always perfrdBody s

/-- Read an energy count (R191). -/
def execEnrd (e : Bool) (d : BitVec 7) (a : BitVec 7) (s : State) : Out :=
  issueWord (insnA 0x06B (sigA .scalar .scalar .zero) e d a 0) always enrdBody s

/-! ### Prefixes and words without a meaning -/

/-- `ext` (R67, R68): the prefix is kept for the word that follows. -/
def State.prefixWord (s : State) (a : Nat) (g : Group) (p : BitVec 21) : State :=
  let first := g.pc - BitVec.ofNat 57 (4 * g.exts.length)
  let words := if g.inStep then g.cap.words else g.runWords
  if 2 ≤ g.exts.length ∨ Config.runWords ≤ words + g.exts.length + 1 then s.takeTrap a cIllegalOperand 0 0 first g.onB
  else
    let t := s.updGrp a fun g => { (g.moveTo (g.pc + 4)) with exts := g.exts ++ [p] }
    { t with issue := (t.issue.filter fun x => x != a) ++ [a] }

/-- A word that traps whatever its operands. -/
def State.badWord (s : State) (a : Nat) (g : Group) (cause : Nat) : State :=
  s.takeTrap a cause 0 0 (g.pc - BitVec.ofNat 57 (4 * g.exts.length)) g.onB

/-- The group that holds the first issue slot executes something (R154). -/
def withIssuing (f : State → Nat → Group → State) (s : State) : Out :=
  match s.issue with
  | [] => .fault .noIssuingGroup
  | a :: _ =>
    match s.grp a with
    | none => .fault .noIssuingGroup
    | some g => .next (f s a g)

/-- Prefix that widens the immediate of the next word (R67). -/
def execExt (p : BitVec 21) (s : State) : Out := withIssuing (fun s a g => s.prefixWord a g p) s

/-- A word with an unassigned opcode (R79). -/
def execUnassignedOpcode (_word : BitVec 32) (s : State) : Out :=
  withIssuing (fun s a g => s.badWord a g cIllegalOpcode) s

/-- A privileged opcode (R79, R80). -/
def privilegedWord (word : BitVec 32) : Bool :=
  match sigOf (word.toNat / 2 ^ 21 % 2 ^ 10) with
  | some g => g.privileged
  | none => false

/-- A word of an assigned opcode that breaks a rule of its form: privilege is checked before it (R78). -/
def execReservedFieldWord (word : BitVec 32) (s : State) : Out :=
  withIssuing (fun s a g =>
    s.badWord a g (if privilegedWord word && !g.trapMode then cPrivilege else cIllegalOperand)) s

end Sys2Proof.Machine
end

