-- ==== Sys2Proof/Machine/ScalarMem.lean ====
section
/-!
DEFINITION. Sys2Proof/Machine/ScalarMem.lean: scalar loads, stores and atomics, global and scratchpad (12 R249, R250, R255,
R257), inside a capsule step too (17 R331, R332), `fence` (R259) and `waitv` (R260).
-/

namespace Sys2Proof.Machine

/-! ### Loads and stores (R249, R250) -/

/-- The address of a scalar access: base and scaled offset, modulo 2^64 (R248). -/
def Iss.memAddr (i : Iss) (n : Nat) : Nat := (i.sa + i.imm * BitVec.ofNat 64 n).toNat

/-- A scalar access. -/
def Iss.scalarAcc (i : Iss) (n : Nat) (kind : Access) (scr : Bool) (data : Option Nat) : Acc :=
  ⟨i.memAddr n, n, kind, 0, 0, true, scr, false, data, 0⟩

/-- The value that a load of n bytes gives a scalar (R249). -/
def loadValue (n : Nat) (signed : Bool) (v : Nat) : BitVec 64 :=
  if signed then BitVec.ofInt 64 (sgOf (8 * n) v) else BitVec.ofNat 64 v

/-- A target that a capsule step may access (17 R331): in the HBM and second-tier windows, and for a store outside the
capsule line. -/
def State.stepTargetOk (s : State) (g : Group) (store : Bool) (x : Acc × Place) : Bool :=
  match x.2 with
  | .mem pa => s.isHbmOrSecond pa && !(store && pa / 256 == g.cap.line / 256)
  | _ => false

/-- A value from memory overlaid by the stores that the step has buffered (17 R332). -/
def overlayStep (stores : List CapStore) (pa n v : Nat) : Nat :=
  stores.foldl (fun v c =>
    let w : PendWrite := ⟨0, 0, 0, 0, c.pa, 2 ^ c.log2, c.data.toNat, none, 0, []⟩
    if w.overlaps pa n then w.over pa n v else v) v

/-- The physical address of a place in memory. -/
def Place.pa : Place → Nat
  | .mem pa => pa
  | .ext pa => pa
  | .chip pa => pa
  | .scr _ off => off

/-- The read of a load in a capsule step: performed at the home, its value overlaid by the step's stores; poison and the watchpoints that
test the value returned come before the check of the target (17 R331, R332). -/
def Iss.stepRead (i : Iss) (s : State) (scope : Nat) (c : Acc) (p : Place) (k : State → Nat → Res) : Res :=
  let ks := s.loadMisses i.core i.g.acqClk scope true [(c, p)]
  if s.entriesFree i.core ks then
    let r := (s.takeEntries i.core ks).readPlace i.core i.agent i.g.acqClk scope true c p
    let v := overlayStep i.g.cap.stores p.addr c.n r.1.val
    match r.2.dataTrap i [(c, { r.1 with val := v })] with
    | some (cause, va, aux) => .trap r.2 cause (BitVec.ofNat 64 va) aux
    | none => if r.2.stepTargetOk i.g false (c, p) then k r.2 v else .trap r.2 cCapsuleViolation (BitVec.ofNat 64 c.va) 0
  else .wait s .waitMem (.entries ks.length)

/-- A load in a capsule step, its access checked: of memory or of a host or peer it is read before its target is checked; any other target
is refused at once (17 R331). -/
def Iss.stepLoad (i : Iss) (s : State) (scope : Nat) (ps : List (Acc × Place)) (k : State → Nat → Res) : Res :=
  match ps with
  | [(c, .mem pa)] =>
    match s.shut i.core [(c, .mem pa)] with
    | some (pa, s) => .wait s .waitMem (.home pa)
    | none => i.stepRead s scope c (.mem pa) k
  | [(c, .ext pa)] =>
    match s.extMissing i.agent [(c, .ext pa)] with
    | [] => i.stepRead s scope c (.ext pa) k
    | ms =>
      match s.shut i.core [(c, .ext pa)] with
      | some (pa, s) => .wait s .waitMem (.home pa)
      | none => i.askExt s ms
  | _ => .trap s cCapsuleViolation (BitVec.ofNat 64 ((ps.map fun x => x.1.va).headD 0)) 0

/-- A scalar load: `acq` for the acquire forms (R249). -/
def loadBody (n : Nat) (signed acq scr : Bool) (s : State) (i : Iss) : Res :=
  let c := i.scalarAcc n .read scr none
  let scope := modeScope i.g.mode
  let put := fun (s : State) (v : Nat) =>
    let t := s.updGrp i.agent fun g => g.setS i.x.d (loadValue n signed v)
    i.memDone (if acq then t.acquire i.agent scope else t) [c]
  if i.g.inStep then
    i.guarded s [c] fun s ps => i.stepLoad s scope ps put
  else i.load s scope acq [c] fun s vs => put s (vs.headD 0)

/-- The log2 of an access size. -/
def sizeLog (n : Nat) : Nat := Nat.log2 n

/-- A scalar store: `rel` for the release forms; in a capsule step it is buffered (R249, 17 R332). -/
def storeBody (n : Nat) (rel scr : Bool) (s : State) (i : Iss) : Res :=
  let c := i.scalarAcc n .write scr (some (i.sd.toNat % 2 ^ (8 * n)))
  if i.g.inStep then
    i.guarded s [c] fun s ps =>
      match ps.find? fun x => !s.stepTargetOk i.g true x with
      | some x => .trap s cCapsuleViolation (BitVec.ofNat 64 x.1.va) 0
      | none =>
        let e := CapStore.mk ((ps.map fun x => x.2.pa).headD 0) c.va (sizeLog n) (BitVec.ofNat 64 (i.sd.toNat % 2 ^ (8 * n)))
        i.memDone (s.updGrp i.agent fun g => { g with cap := { g.cap with stores := g.cap.stores ++ [e] } }) [c]
  else if rel then
    i.guarded s [c] fun s _ =>
      let r := s.release i.core i.agent (modeScope i.g.mode)
      if r.2 then i.store r.1 [c] fun s => i.memDone s [c] else .wait r.1 .waitMem .acks
  else i.store s [c] fun s => i.memDone s [c]

/-- Scalar load byte, sign-extended (R249). -/
def execSldB (e : Bool) (d : BitVec 7) (a : BitVec 7) (i : BitVec 7) (s : State) : Out :=
  issueWord (insnB 0x080 (sigB .scalar .scalar) e d a i.toNat none) scopeOk (loadBody 1 true false false) s

/-- Scalar load halfword, sign-extended (R249). -/
def execSldH (e : Bool) (d : BitVec 7) (a : BitVec 7) (i : BitVec 7) (s : State) : Out :=
  issueWord (insnB 0x081 (sigB .scalar .scalar) e d a i.toNat none) scopeOk (loadBody 2 true false false) s

/-- Scalar load word, sign-extended (R249). -/
def execSldW (e : Bool) (d : BitVec 7) (a : BitVec 7) (i : BitVec 7) (s : State) : Out :=
  issueWord (insnB 0x082 (sigB .scalar .scalar) e d a i.toNat none) scopeOk (loadBody 4 true false false) s

/-- Scalar load doubleword (R249). -/
def execSldD (e : Bool) (d : BitVec 7) (a : BitVec 7) (i : BitVec 7) (s : State) : Out :=
  issueWord (insnB 0x083 (sigB .scalar .scalar) e d a i.toNat none) scopeOk (loadBody 8 false false false) s

/-- Scalar load byte, zero-extended (R249). -/
def execSlduB (e : Bool) (d : BitVec 7) (a : BitVec 7) (i : BitVec 7) (s : State) : Out :=
  issueWord (insnB 0x084 (sigB .scalar .scalar) e d a i.toNat none) scopeOk (loadBody 1 false false false) s

/-- Scalar load halfword, zero-extended (R249). -/
def execSlduH (e : Bool) (d : BitVec 7) (a : BitVec 7) (i : BitVec 7) (s : State) : Out :=
  issueWord (insnB 0x085 (sigB .scalar .scalar) e d a i.toNat none) scopeOk (loadBody 2 false false false) s

/-- Scalar load word, zero-extended (R249). -/
def execSlduW (e : Bool) (d : BitVec 7) (a : BitVec 7) (i : BitVec 7) (s : State) : Out :=
  issueWord (insnB 0x086 (sigB .scalar .scalar) e d a i.toNat none) scopeOk (loadBody 4 false false false) s

/-- Scalar store byte (R249). -/
def execSstB (e : Bool) (d : BitVec 7) (a : BitVec 7) (i : BitVec 7) (s : State) : Out :=
  issueWord (insnB 0x088 (sigB .scalar .scalar) e d a i.toNat none) scopeOk (storeBody 1 false false) s

/-- Scalar store halfword (R249). -/
def execSstH (e : Bool) (d : BitVec 7) (a : BitVec 7) (i : BitVec 7) (s : State) : Out :=
  issueWord (insnB 0x089 (sigB .scalar .scalar) e d a i.toNat none) scopeOk (storeBody 2 false false) s

/-- Scalar store word (R249). -/
def execSstW (e : Bool) (d : BitVec 7) (a : BitVec 7) (i : BitVec 7) (s : State) : Out :=
  issueWord (insnB 0x08A (sigB .scalar .scalar) e d a i.toNat none) scopeOk (storeBody 4 false false) s

/-- Scalar store doubleword (R249). -/
def execSstD (e : Bool) (d : BitVec 7) (a : BitVec 7) (i : BitVec 7) (s : State) : Out :=
  issueWord (insnB 0x08B (sigB .scalar .scalar) e d a i.toNat none) scopeOk (storeBody 8 false false) s

/-- Doubleword load with acquire (R249). -/
def execSldDAcq (e : Bool) (d : BitVec 7) (a : BitVec 7) (i : BitVec 7) (s : State) : Out :=
  issueWord (insnB 0x08C (sigB .scalar .scalar) e d a i.toNat none) scopeOk (loadBody 8 false true false) s

/-- Release, then doubleword store (R249). -/
def execSstDRel (e : Bool) (d : BitVec 7) (a : BitVec 7) (i : BitVec 7) (s : State) : Out :=
  issueWord (insnB 0x08D (sigB .scalar .scalar) e d a i.toNat none) scopeOk (storeBody 8 true false) s

/-- Word load with acquire (R249). -/
def execSldWAcq (e : Bool) (d : BitVec 7) (a : BitVec 7) (i : BitVec 7) (s : State) : Out :=
  issueWord (insnB 0x08E (sigB .scalar .scalar) e d a i.toNat none) scopeOk (loadBody 4 true true false) s

/-- Release, then word store (R249). -/
def execSstWRel (e : Bool) (d : BitVec 7) (a : BitVec 7) (i : BitVec 7) (s : State) : Out :=
  issueWord (insnB 0x08F (sigB .scalar .scalar) e d a i.toNat none) scopeOk (storeBody 4 true false) s

/-- Scratchpad scalar load word (R250). -/
def execPldW (e : Bool) (d : BitVec 7) (a : BitVec 7) (i : BitVec 7) (s : State) : Out :=
  issueWord (insnB 0x0B0 (sigB .scalar .scalar) e d a i.toNat none) scopeOk (loadBody 4 true false true) s

/-- Scratchpad scalar load doubleword (R250). -/
def execPldD (e : Bool) (d : BitVec 7) (a : BitVec 7) (i : BitVec 7) (s : State) : Out :=
  issueWord (insnB 0x0B1 (sigB .scalar .scalar) e d a i.toNat none) scopeOk (loadBody 8 false false true) s

/-- Scratchpad scalar store word (R250). -/
def execPstW (e : Bool) (d : BitVec 7) (a : BitVec 7) (i : BitVec 7) (s : State) : Out :=
  issueWord (insnB 0x0B2 (sigB .scalar .scalar) e d a i.toNat none) scopeOk (storeBody 4 false true) s

/-- Scratchpad scalar store doubleword (R250). -/
def execPstD (e : Bool) (d : BitVec 7) (a : BitVec 7) (i : BitVec 7) (s : State) : Out :=
  issueWord (insnB 0x0B3 (sigB .scalar .scalar) e d a i.toNat none) scopeOk (storeBody 8 false true) s

/-! ### `fence` (R259) and `waitv` (R260) -/

/-- The kinds and scopes that `fence` accepts. -/
def fenceOk (i : Iss) : Bool := decide (i.imm.toNat < 32 ∧ i.imm.toNat % 4 ≠ 0 ∧ i.imm.toNat / 4 ≤ 5)

/-- `fence`. -/
def fenceBody (s : State) (i : Iss) : Res :=
  let kind := i.imm.toNat % 4
  let scope := i.imm.toNat / 4
  if kind = 1 then i.fin (s.acquire i.agent scope)
  else
    let r := s.release i.core i.agent scope
    if r.2 then i.fin (if kind = 3 then r.1.acquire i.agent scope else r.1) else .wait r.1 .waitMem .acks

/-- Acquire, release or full fence of a given scope (R259). -/
def execFence (e : Bool) (i : BitVec 14) (s : State) : Out :=
  issueWord (insnC 0x090 (sigC .zero) e 0 i (some (2 ^ 56))) fenceOk fenceBody s

/-- `waitv`: the compare, the wait for a write or the end of VWAIT, and the acquire, of die scope at least. -/
def waitvBody (s : State) (i : Iss) : Res :=
  let c : Acc := ⟨i.sa.toNat, 8, .read, 0, 0, true, false, false, none, 0⟩
  i.guarded s [c] fun s ps =>
    i.load (s.settleOwn i.core i.agent ((ps.map fun x => x.2.pa).headD 0) 8) 5 true [c] fun s vs =>
      let v := BitVec.ofNat 64 (vs.headD 0)
      if v ≠ i.sb ∨ (i.g.sent = true ∧ i.g.woke = true) then
        let t := s.updGrp i.agent fun g => g.setS i.x.d v
        i.memDone (t.acquire i.agent (max 3 (modeScope i.g.mode))) [c]
      else
        let since := if i.g.sent then i.g.waitClk else s.clk.toNat
        let t := s.updGrp i.agent fun g => { g with sent := true, woke := false, waitClk := since }
        let u := { t with extReqs := t.extReqs.filter fun r => r.write || r.agent != i.agent }
        .wait (u.arm (.group i.agent) ((ps.map fun x => x.2.pa).headD 0) 8) .waitMem .watch

/-- Wait until an 8-byte word differs from a value or is written (R260). -/
def execWaitv (e : Bool) (d : BitVec 7) (a : BitVec 7) (b : BitVec 7) (s : State) : Out :=
  issueWord (insnA 0x091 (sigA .scalar .scalar .scalar) e d a b) scopeOk waitvBody s

/-! ### Atomics (R255, R257) -/

/-- MODE fields that an atomic accepts: its element types and a scope. -/
def atomOk (floats ints : Bool) (i : Iss) : Bool :=
  let et := modeEt i.g.mode
  scopeOk i && ((ints && (et == 2 || et == 3)) || (floats && (et == 11 || et == 12)))

/-- `atom.op`. -/
def atomBody (op : AtomOp) (s : State) (i : Iss) : Res :=
  let et := modeEt i.g.mode
  let n := etBits et / 8
  let va := i.sa.toNat
  let c : Acc := ⟨va, n, .rw, 0, 0, true, decide (2 ^ 63 ≤ va), false, some (i.sb.toNat % 2 ^ (8 * n)), i.sd.toNat % 2 ^ (8 * n)⟩
  i.atomics s (modeScope i.g.mode) op et [c] fun s vs =>
    let old := vs.headD 0
    i.memDone (s.updGrp i.agent fun g => g.setS i.x.d (loadValue n (decide (n = 4) && op != .fadd) old)) [c]

/-- Atomic add (R255). -/
def execAtomAdd (e : Bool) (d : BitVec 7) (a : BitVec 7) (b : BitVec 7) (s : State) : Out :=
  issueWord (insnA 0x0A0 (sigA .scalar .scalar .scalar) e d a b) (atomOk false true) (atomBody .add) s

/-- Atomic AND (R255). -/
def execAtomAnd (e : Bool) (d : BitVec 7) (a : BitVec 7) (b : BitVec 7) (s : State) : Out :=
  issueWord (insnA 0x0A1 (sigA .scalar .scalar .scalar) e d a b) (atomOk false true) (atomBody .and) s

/-- Atomic OR (R255). -/
def execAtomOr (e : Bool) (d : BitVec 7) (a : BitVec 7) (b : BitVec 7) (s : State) : Out :=
  issueWord (insnA 0x0A2 (sigA .scalar .scalar .scalar) e d a b) (atomOk false true) (atomBody .or) s

/-- Atomic XOR (R255). -/
def execAtomXor (e : Bool) (d : BitVec 7) (a : BitVec 7) (b : BitVec 7) (s : State) : Out :=
  issueWord (insnA 0x0A3 (sigA .scalar .scalar .scalar) e d a b) (atomOk false true) (atomBody .xor) s

/-- Atomic signed minimum (R255). -/
def execAtomMin (e : Bool) (d : BitVec 7) (a : BitVec 7) (b : BitVec 7) (s : State) : Out :=
  issueWord (insnA 0x0A4 (sigA .scalar .scalar .scalar) e d a b) (atomOk false true) (atomBody .min) s

/-- Atomic signed maximum (R255). -/
def execAtomMax (e : Bool) (d : BitVec 7) (a : BitVec 7) (b : BitVec 7) (s : State) : Out :=
  issueWord (insnA 0x0A5 (sigA .scalar .scalar .scalar) e d a b) (atomOk false true) (atomBody .max) s

/-- Atomic unsigned minimum (R255). -/
def execAtomMinu (e : Bool) (d : BitVec 7) (a : BitVec 7) (b : BitVec 7) (s : State) : Out :=
  issueWord (insnA 0x0A6 (sigA .scalar .scalar .scalar) e d a b) (atomOk false true) (atomBody .minu) s

/-- Atomic unsigned maximum (R255). -/
def execAtomMaxu (e : Bool) (d : BitVec 7) (a : BitVec 7) (b : BitVec 7) (s : State) : Out :=
  issueWord (insnA 0x0A7 (sigA .scalar .scalar .scalar) e d a b) (atomOk false true) (atomBody .maxu) s

/-- Atomic exchange (R255). -/
def execAtomExch (e : Bool) (d : BitVec 7) (a : BitVec 7) (b : BitVec 7) (s : State) : Out :=
  issueWord (insnA 0x0A8 (sigA .scalar .scalar .scalar) e d a b) (atomOk true true) (atomBody .exch) s

/-- Atomic compare and swap (R255). -/
def execAtomCas (e : Bool) (d : BitVec 7) (a : BitVec 7) (b : BitVec 7) (s : State) : Out :=
  issueWord (insnA 0x0A9 (sigA .scalar .scalar .scalar) e d a b) (atomOk true true) (atomBody .cas) s

/-- Atomic floating-point add (R255). -/
def execAtomFadd (e : Bool) (d : BitVec 7) (a : BitVec 7) (b : BitVec 7) (s : State) : Out :=
  issueWord (insnA 0x0AA (sigA .scalar .scalar .scalar) e d a b) (atomOk true false) (atomBody .fadd) s

end Sys2Proof.Machine
end

