-- ==== Sys2Proof/Machine/Scalar.lean ====
section
/-!
DEFINITION. Sys2Proof/Machine/Scalar.lean: the scalar integer instructions (09 R169 to R173).
-/

namespace Sys2Proof.Machine

/-- A three-register instruction: `sD := f a b` (R170). -/
def scalarAB (f : BitVec 64 → BitVec 64 → BitVec 64) (s : State) (i : Iss) : Res := i.finS s (f i.sa i.sb)

/-- An instruction of a register and an immediate: `sD := f a imm` (R173). -/
def scalarAI (f : BitVec 64 → BitVec 64 → BitVec 64) (s : State) (i : Iss) : Res := i.finS s (f i.sa i.imm)

/-- A one-register instruction (R172). -/
def scalarA (f : BitVec 64 → BitVec 64) (s : State) (i : Iss) : Res := i.finS s (f i.sa)

/-- 1 for a condition that holds, else 0 (R170). -/
def boolWord (c : Bool) : BitVec 64 := if c then 1 else 0

/-- Bits [127:64] of the product of two's complement values (R170). -/
def mulHigh (a b : BitVec 64) : BitVec 64 := BitVec.ofInt 64 (a.toInt * b.toInt / 2 ^ 64)

/-- Bits [127:64] of the product of unsigned values (R170). -/
def mulHighU (a b : BitVec 64) : BitVec 64 := BitVec.ofNat 64 (a.toNat * b.toNat / 2 ^ 64)

/-- `sdiv` (R171). -/
def divS (a b : BitVec 64) : BitVec 64 := if b = 0 then BitVec.allOnes 64 else BitVec.ofInt 64 (a.toInt.tdiv b.toInt)

/-- `sdivu` (R171). -/
def divU (a b : BitVec 64) : BitVec 64 := if b = 0 then BitVec.allOnes 64 else BitVec.ofNat 64 (a.toNat / b.toNat)

/-- `srem` (R171). -/
def remS (a b : BitVec 64) : BitVec 64 := if b = 0 then a else BitVec.ofInt 64 (a.toInt.tmod b.toInt)

/-- `sremu` (R171). -/
def remU (a b : BitVec 64) : BitVec 64 := if b = 0 then a else BitVec.ofNat 64 (a.toNat % b.toNat)

/-- The shift count of a register operand: its bits [5:0] (R170). -/
def count6 (b : BitVec 64) : Nat := b.toNat % 64

/-- Leading zero bits of n bits (R172, R194). -/
def leadingZeros (n x : Nat) : Nat := if x = 0 then n else n - 1 - Nat.log2 x

/-- One bits among the low n (R172, R194). -/
def onesOf : Nat → Nat → Nat
  | 0, _ => 0
  | n + 1, x => x % 2 + onesOf n (x / 2)

/-- `sext` (R172): the width and the kind of extension from the immediate. -/
def extendBy (a imm : BitVec 64) : BitVec 64 :=
  let n := imm.toNat % 64 + 1
  let low := a.toNat % 2 ^ n
  if imm.getLsbD 6 then BitVec.ofNat 64 low else BitVec.ofInt 64 (sgOf n low)

/-- Scalar add (R170). -/
def execSadd (e : Bool) (d : BitVec 7) (a : BitVec 7) (b : BitVec 7) (s : State) : Out :=
  issueWord (insnA 0x001 (sigA .scalar .scalar .scalar) e d a b) always (scalarAB fun a b => a + b) s

/-- Scalar subtract (R170). -/
def execSsub (e : Bool) (d : BitVec 7) (a : BitVec 7) (b : BitVec 7) (s : State) : Out :=
  issueWord (insnA 0x002 (sigA .scalar .scalar .scalar) e d a b) always (scalarAB fun a b => a - b) s

/-- Scalar multiply, low 64 bits (R170). -/
def execSmul (e : Bool) (d : BitVec 7) (a : BitVec 7) (b : BitVec 7) (s : State) : Out :=
  issueWord (insnA 0x003 (sigA .scalar .scalar .scalar) e d a b) always (scalarAB fun a b => a * b) s

/-- Signed multiply, high 64 bits (R170). -/
def execSmulh (e : Bool) (d : BitVec 7) (a : BitVec 7) (b : BitVec 7) (s : State) : Out :=
  issueWord (insnA 0x004 (sigA .scalar .scalar .scalar) e d a b) always (scalarAB mulHigh) s

/-- Unsigned multiply, high 64 bits (R170). -/
def execSmulhu (e : Bool) (d : BitVec 7) (a : BitVec 7) (b : BitVec 7) (s : State) : Out :=
  issueWord (insnA 0x005 (sigA .scalar .scalar .scalar) e d a b) always (scalarAB mulHighU) s

/-- Signed division, truncating (R171). -/
def execSdiv (e : Bool) (d : BitVec 7) (a : BitVec 7) (b : BitVec 7) (s : State) : Out :=
  issueWord (insnA 0x006 (sigA .scalar .scalar .scalar) e d a b) always (scalarAB divS) s

/-- Unsigned division (R171). -/
def execSdivu (e : Bool) (d : BitVec 7) (a : BitVec 7) (b : BitVec 7) (s : State) : Out :=
  issueWord (insnA 0x007 (sigA .scalar .scalar .scalar) e d a b) always (scalarAB divU) s

/-- Signed remainder (R171). -/
def execSrem (e : Bool) (d : BitVec 7) (a : BitVec 7) (b : BitVec 7) (s : State) : Out :=
  issueWord (insnA 0x008 (sigA .scalar .scalar .scalar) e d a b) always (scalarAB remS) s

/-- Unsigned remainder (R171). -/
def execSremu (e : Bool) (d : BitVec 7) (a : BitVec 7) (b : BitVec 7) (s : State) : Out :=
  issueWord (insnA 0x009 (sigA .scalar .scalar .scalar) e d a b) always (scalarAB remU) s

/-- Scalar AND (R170). -/
def execSand (e : Bool) (d : BitVec 7) (a : BitVec 7) (b : BitVec 7) (s : State) : Out :=
  issueWord (insnA 0x00A (sigA .scalar .scalar .scalar) e d a b) always (scalarAB fun a b => a &&& b) s

/-- Scalar OR (R170). -/
def execSor (e : Bool) (d : BitVec 7) (a : BitVec 7) (b : BitVec 7) (s : State) : Out :=
  issueWord (insnA 0x00B (sigA .scalar .scalar .scalar) e d a b) always (scalarAB fun a b => a ||| b) s

/-- Scalar XOR (R170). -/
def execSxor (e : Bool) (d : BitVec 7) (a : BitVec 7) (b : BitVec 7) (s : State) : Out :=
  issueWord (insnA 0x00C (sigA .scalar .scalar .scalar) e d a b) always (scalarAB fun a b => a ^^^ b) s

/-- Scalar shift left (R170). -/
def execSshl (e : Bool) (d : BitVec 7) (a : BitVec 7) (b : BitVec 7) (s : State) : Out :=
  issueWord (insnA 0x00D (sigA .scalar .scalar .scalar) e d a b) always (scalarAB fun a b => a <<< count6 b) s

/-- Scalar logical shift right (R170). -/
def execSshr (e : Bool) (d : BitVec 7) (a : BitVec 7) (b : BitVec 7) (s : State) : Out :=
  issueWord (insnA 0x00E (sigA .scalar .scalar .scalar) e d a b) always (scalarAB fun a b => a >>> count6 b) s

/-- Scalar arithmetic shift right (R170). -/
def execSsra (e : Bool) (d : BitVec 7) (a : BitVec 7) (b : BitVec 7) (s : State) : Out :=
  issueWord (insnA 0x00F (sigA .scalar .scalar .scalar) e d a b) always (scalarAB fun a b => a.sshiftRight (count6 b)) s

/-- Signed minimum (R170). -/
def execSmin (e : Bool) (d : BitVec 7) (a : BitVec 7) (b : BitVec 7) (s : State) : Out :=
  issueWord (insnA 0x010 (sigA .scalar .scalar .scalar) e d a b) always (scalarAB fun a b => if a.toInt ≤ b.toInt then a else b) s

/-- Signed maximum (R170). -/
def execSmax (e : Bool) (d : BitVec 7) (a : BitVec 7) (b : BitVec 7) (s : State) : Out :=
  issueWord (insnA 0x011 (sigA .scalar .scalar .scalar) e d a b) always (scalarAB fun a b => if b.toInt ≤ a.toInt then a else b) s

/-- Unsigned minimum (R170). -/
def execSminu (e : Bool) (d : BitVec 7) (a : BitVec 7) (b : BitVec 7) (s : State) : Out :=
  issueWord (insnA 0x012 (sigA .scalar .scalar .scalar) e d a b) always (scalarAB fun a b => if a.toNat ≤ b.toNat then a else b) s

/-- Unsigned maximum (R170). -/
def execSmaxu (e : Bool) (d : BitVec 7) (a : BitVec 7) (b : BitVec 7) (s : State) : Out :=
  issueWord (insnA 0x013 (sigA .scalar .scalar .scalar) e d a b) always (scalarAB fun a b => if b.toNat ≤ a.toNat then a else b) s

/-- Set if equal (R170). -/
def execSseq (e : Bool) (d : BitVec 7) (a : BitVec 7) (b : BitVec 7) (s : State) : Out :=
  issueWord (insnA 0x014 (sigA .scalar .scalar .scalar) e d a b) always (scalarAB fun a b => boolWord (a == b)) s

/-- Set if signed less than (R170). -/
def execSslt (e : Bool) (d : BitVec 7) (a : BitVec 7) (b : BitVec 7) (s : State) : Out :=
  issueWord (insnA 0x015 (sigA .scalar .scalar .scalar) e d a b) always (scalarAB fun a b => boolWord (decide (a.toInt < b.toInt))) s

/-- Set if unsigned less than (R170). -/
def execSsltu (e : Bool) (d : BitVec 7) (a : BitVec 7) (b : BitVec 7) (s : State) : Out :=
  issueWord (insnA 0x016 (sigA .scalar .scalar .scalar) e d a b) always (scalarAB fun a b => boolWord (decide (a.toNat < b.toNat))) s

/-- `ssel` (R170): the old value of `sD` chooses. -/
def selectBody (s : State) (i : Iss) : Res := i.finS s (if i.sd = 0 then i.sb else i.sa)

/-- Select by the old destination value (R170). -/
def execSsel (e : Bool) (d : BitVec 7) (a : BitVec 7) (b : BitVec 7) (s : State) : Out :=
  issueWord (insnA 0x017 (sigA .scalar .scalar .scalar) e d a b) always selectBody s

/-- Count leading zeros (R172). -/
def execSclz (e : Bool) (d : BitVec 7) (a : BitVec 7) (s : State) : Out :=
  issueWord (insnA 0x018 (sigA .scalar .scalar .zero) e d a 0) always (scalarA fun a => BitVec.ofNat 64 (leadingZeros 64 a.toNat)) s

/-- Population count (R172). -/
def execSpopc (e : Bool) (d : BitVec 7) (a : BitVec 7) (s : State) : Out :=
  issueWord (insnA 0x019 (sigA .scalar .scalar .zero) e d a 0) always (scalarA fun a => BitVec.ofNat 64 (onesOf 64 a.toNat)) s

/-- Bit reverse (R172). -/
def execSbrev (e : Bool) (d : BitVec 7) (a : BitVec 7) (s : State) : Out :=
  issueWord (insnA 0x01A (sigA .scalar .scalar .zero) e d a 0) always (scalarA fun a => a.reverse) s

/-- Sign or zero extension of a field of width n (R172). -/
def execSext (e : Bool) (d : BitVec 7) (a : BitVec 7) (i : BitVec 7) (s : State) : Out :=
  issueWord (insnB 0x01B (sigB .scalar .scalar) e d a i.toNat (some 127)) always (scalarAI extendBy) s

/-- Doubleword address a + b × 8 (R170). -/
def execSlea (e : Bool) (d : BitVec 7) (a : BitVec 7) (b : BitVec 7) (s : State) : Out :=
  issueWord (insnA 0x01C (sigA .scalar .scalar .scalar) e d a b) always (scalarAB fun a b => a + b * 8) s

/-- Add immediate (R173). -/
def execSaddi (e : Bool) (d : BitVec 7) (a : BitVec 7) (i : BitVec 7) (s : State) : Out :=
  issueWord (insnB 0x020 (sigB .scalar .scalar) e d a i.toNat none) always (scalarAI fun a b => a + b) s

/-- AND immediate (R173). -/
def execSandi (e : Bool) (d : BitVec 7) (a : BitVec 7) (i : BitVec 7) (s : State) : Out :=
  issueWord (insnB 0x021 (sigB .scalar .scalar) e d a i.toNat none) always (scalarAI fun a b => a &&& b) s

/-- OR immediate (R173). -/
def execSori (e : Bool) (d : BitVec 7) (a : BitVec 7) (i : BitVec 7) (s : State) : Out :=
  issueWord (insnB 0x022 (sigB .scalar .scalar) e d a i.toNat none) always (scalarAI fun a b => a ||| b) s

/-- XOR immediate (R173). -/
def execSxori (e : Bool) (d : BitVec 7) (a : BitVec 7) (i : BitVec 7) (s : State) : Out :=
  issueWord (insnB 0x023 (sigB .scalar .scalar) e d a i.toNat none) always (scalarAI fun a b => a ^^^ b) s

/-- Shift left by immediate (R173). -/
def execSshli (e : Bool) (d : BitVec 7) (a : BitVec 7) (i : BitVec 7) (s : State) : Out :=
  issueWord (insnB 0x024 (sigB .scalar .scalar) e d a i.toNat (some 63)) always (scalarAI fun a b => a <<< b.toNat) s

/-- Logical shift right by immediate (R173). -/
def execSshri (e : Bool) (d : BitVec 7) (a : BitVec 7) (i : BitVec 7) (s : State) : Out :=
  issueWord (insnB 0x025 (sigB .scalar .scalar) e d a i.toNat (some 63)) always (scalarAI fun a b => a >>> b.toNat) s

/-- Arithmetic shift right by immediate (R173). -/
def execSsrai (e : Bool) (d : BitVec 7) (a : BitVec 7) (i : BitVec 7) (s : State) : Out :=
  issueWord (insnB 0x026 (sigB .scalar .scalar) e d a i.toNat (some 63)) always (scalarAI fun a b => a.sshiftRight b.toNat) s

/-- `sli` (R173). -/
def loadImmBody (s : State) (i : Iss) : Res := i.finS s i.imm

/-- Load immediate (R173). -/
def execSli (e : Bool) (d : BitVec 7) (i : BitVec 14) (s : State) : Out :=
  issueWord (insnC 0x027 (sigC .scalar) e d i none) always loadImmBody s

end Sys2Proof.Machine
end

