-- ==== Sys2Proof/Machine/VecInt.lean ====
section
/-!
DEFINITION. Sys2Proof/Machine/VecInt.lean: vector integer arithmetic, logic, compares and selection (10 R192 to R197).
-/

namespace Sys2Proof.Machine

/-! ### Lanes and elements (R192) -/

/-- A word completes with vector register `vD` written in each active lane. -/
def Iss.vecOut (i : Iss) (s : State) (f : Nat → Nat) : Res :=
  i.fin (s.updGrp i.agent fun g => (lanesOf i.g.active).foldl (fun g l => g.setV i.x.d l (f l)) g)

/-- The element type of the word. -/
def Iss.et (i : Iss) : Nat := modeEt i.g.mode
/-- The second element type. -/
def Iss.et2 (i : Iss) : Nat := modeEt2 i.g.mode
/-- Lane l of `vA`. -/
def Iss.va (i : Iss) (l : Nat) : Nat := i.g.vlane i.x.a l
/-- Lane l of `vB`. -/
def Iss.vb (i : Iss) (l : Nat) : Nat := i.g.vlane i.x.b l
/-- Lane l of the old `vD`. -/
def Iss.vd (i : Iss) (l : Nat) : Nat := i.g.vlane i.x.d l

/-- A function of the elements of three lane registers, element by element. -/
def mapElems (et : Nat) (f : Nat → Nat → Nat → Nat) (a b d : Nat) : Nat :=
  let w := etBits et
  ofElems w ((List.range (etCount et)).map fun k => f (elem a w k) (elem b w k) (elem d w k))

/-- An elementwise word. -/
def elementwise (f : Iss → Nat → Nat → Nat → Nat) (s : State) (i : Iss) : Res :=
  i.vecOut s fun l => mapElems i.et (f i) (i.va l) (i.vb l) (i.vd l)

/-- MODE.ET is an integer type (R193). -/
def intEt (i : Iss) : Bool := isInt i.et
/-- MODE.ET is any type (R193). -/
def anyEt (i : Iss) : Bool := decide (i.et ≤ 12)

/-- fix(x) of R194 at width w. -/
def fixTo (w : Nat) (sat : Bool) (x : Int) : Nat := wrapTo w (if sat then clampTo w x else x)

/-- An integer result to which SAT applies (R194): of the signed elements. -/
def satOp (f : Int → Int → Int → Int) (i : Iss) (a b d : Nat) : Nat :=
  let w := etBits i.et
  fixTo w (modeSat i.g.mode) (f (sgOf w a) (sgOf w b) (sgOf w d))

/-- An integer result to which SAT does not apply: of the width and the elements. -/
def rawOp (f : Nat → Nat → Nat → Nat) (i : Iss) (a b _d : Nat) : Nat := f (etBits i.et) a b

/-- A word over the 256 bits of a lane. -/
def wholeLane (f : Nat → Nat → Nat) (s : State) (i : Iss) : Res := i.vecOut s fun l => f (i.va l) (i.vb l)

/-- The lesser element, signed (R194). -/
def minSigned (w a b : Nat) : Nat := if sgOf w a ≤ sgOf w b then a else b
/-- The greater element, signed (R194). -/
def maxSigned (w a b : Nat) : Nat := if sgOf w b ≤ sgOf w a then a else b
/-- An arithmetic shift right of a w-bit element. -/
def shiftSigned (w a n : Nat) : Nat := wrapTo w (sgOf w a / (2 ^ n : Nat))

/-- Vector integer add (R194). -/
def execVadd (e : Bool) (d : BitVec 7) (a : BitVec 7) (b : BitVec 7) (s : State) : Out :=
  issueWord (insnA 0x100 (sigA .vector .vector .vector) e d a b) intEt (elementwise (satOp fun a b _ => a + b)) s

/-- Vector integer subtract (R194). -/
def execVsub (e : Bool) (d : BitVec 7) (a : BitVec 7) (b : BitVec 7) (s : State) : Out :=
  issueWord (insnA 0x101 (sigA .vector .vector .vector) e d a b) intEt (elementwise (satOp fun a b _ => a - b)) s

/-- Vector integer multiply (R194). -/
def execVmul (e : Bool) (d : BitVec 7) (a : BitVec 7) (b : BitVec 7) (s : State) : Out :=
  issueWord (insnA 0x102 (sigA .vector .vector .vector) e d a b) intEt (elementwise (satOp fun a b _ => a * b)) s

/-- Vector signed multiply high (R194). -/
def execVmulh (e : Bool) (d : BitVec 7) (a : BitVec 7) (b : BitVec 7) (s : State) : Out :=
  issueWord (insnA 0x103 (sigA .vector .vector .vector) e d a b) intEt (elementwise (rawOp fun w a b => wrapTo w (sgOf w a * sgOf w b / (2 ^ w : Nat)))) s

/-- Vector unsigned multiply high (R194). -/
def execVmulhu (e : Bool) (d : BitVec 7) (a : BitVec 7) (b : BitVec 7) (s : State) : Out :=
  issueWord (insnA 0x104 (sigA .vector .vector .vector) e d a b) intEt (elementwise (rawOp fun w a b => a * b / 2 ^ w)) s

/-- Vector multiply-add into the destination (R194). -/
def execVmad (e : Bool) (d : BitVec 7) (a : BitVec 7) (b : BitVec 7) (s : State) : Out :=
  issueWord (insnA 0x105 (sigA .vector .vector .vector) e d a b) intEt (elementwise (satOp fun a b d => a * b + d)) s

/-- Vector signed minimum (R194). -/
def execVmin (e : Bool) (d : BitVec 7) (a : BitVec 7) (b : BitVec 7) (s : State) : Out :=
  issueWord (insnA 0x106 (sigA .vector .vector .vector) e d a b) intEt (elementwise (rawOp minSigned)) s

/-- Vector signed maximum (R194). -/
def execVmax (e : Bool) (d : BitVec 7) (a : BitVec 7) (b : BitVec 7) (s : State) : Out :=
  issueWord (insnA 0x107 (sigA .vector .vector .vector) e d a b) intEt (elementwise (rawOp maxSigned)) s

/-- Vector unsigned minimum (R194). -/
def execVminu (e : Bool) (d : BitVec 7) (a : BitVec 7) (b : BitVec 7) (s : State) : Out :=
  issueWord (insnA 0x108 (sigA .vector .vector .vector) e d a b) intEt (elementwise (rawOp fun _ a b => min a b)) s

/-- Vector unsigned maximum (R194). -/
def execVmaxu (e : Bool) (d : BitVec 7) (a : BitVec 7) (b : BitVec 7) (s : State) : Out :=
  issueWord (insnA 0x109 (sigA .vector .vector .vector) e d a b) intEt (elementwise (rawOp fun _ a b => max a b)) s

/-- Vector absolute value (R194). -/
def execVabs (e : Bool) (d : BitVec 7) (a : BitVec 7) (s : State) : Out :=
  issueWord (insnA 0x10A (sigA .vector .vector .zero) e d a 0) intEt (elementwise (satOp fun a _ _ => if a < 0 then -a else a)) s

/-- Vector negate (R194). -/
def execVneg (e : Bool) (d : BitVec 7) (a : BitVec 7) (s : State) : Out :=
  issueWord (insnA 0x10B (sigA .vector .vector .zero) e d a 0) intEt (elementwise (satOp fun a _ _ => -a)) s

/-- Vector AND over 256 bits (R194). -/
def execVand (e : Bool) (d : BitVec 7) (a : BitVec 7) (b : BitVec 7) (s : State) : Out :=
  issueWord (insnA 0x10C (sigA .vector .vector .vector) e d a b) always (wholeLane fun a b => a &&& b) s

/-- Vector OR over 256 bits (R194). -/
def execVor (e : Bool) (d : BitVec 7) (a : BitVec 7) (b : BitVec 7) (s : State) : Out :=
  issueWord (insnA 0x10D (sigA .vector .vector .vector) e d a b) always (wholeLane fun a b => a ||| b) s

/-- Vector XOR over 256 bits (R194). -/
def execVxor (e : Bool) (d : BitVec 7) (a : BitVec 7) (b : BitVec 7) (s : State) : Out :=
  issueWord (insnA 0x10E (sigA .vector .vector .vector) e d a b) always (wholeLane fun a b => a ^^^ b) s

/-- Vector NOT over 256 bits (R194). -/
def execVnot (e : Bool) (d : BitVec 7) (a : BitVec 7) (s : State) : Out :=
  issueWord (insnA 0x10F (sigA .vector .vector .zero) e d a 0) always (wholeLane fun a _ => 2 ^ 256 - 1 - a) s

/-- Vector shift left (R194). -/
def execVshl (e : Bool) (d : BitVec 7) (a : BitVec 7) (b : BitVec 7) (s : State) : Out :=
  issueWord (insnA 0x110 (sigA .vector .vector .vector) e d a b) intEt (elementwise (rawOp fun w a b => a * 2 ^ (b % w) % 2 ^ w)) s

/-- Vector logical shift right (R194). -/
def execVshr (e : Bool) (d : BitVec 7) (a : BitVec 7) (b : BitVec 7) (s : State) : Out :=
  issueWord (insnA 0x111 (sigA .vector .vector .vector) e d a b) intEt (elementwise (rawOp fun w a b => a / 2 ^ (b % w))) s

/-- Vector arithmetic shift right (R194). -/
def execVsra (e : Bool) (d : BitVec 7) (a : BitVec 7) (b : BitVec 7) (s : State) : Out :=
  issueWord (insnA 0x112 (sigA .vector .vector .vector) e d a b) intEt (elementwise (rawOp fun w a b => shiftSigned w a (b % w))) s

/-- Vector count of leading zeros (R194). -/
def execVclz (e : Bool) (d : BitVec 7) (a : BitVec 7) (s : State) : Out :=
  issueWord (insnA 0x113 (sigA .vector .vector .zero) e d a 0) intEt (elementwise (rawOp fun w a _ => leadingZeros w a)) s

/-- Vector population count (R194). -/
def execVpopc (e : Bool) (d : BitVec 7) (a : BitVec 7) (s : State) : Out :=
  issueWord (insnA 0x114 (sigA .vector .vector .zero) e d a 0) intEt (elementwise (rawOp fun w a _ => onesOf w a)) s

/-! ### Compares (R196) -/

/-- A predicate written: bit l for each active lane. -/
def Iss.predOut (i : Iss) (s : State) (f : Nat → Bool) : Res :=
  let old := (i.g.preg i.x.d).toNat
  let v := (List.range 8).foldl
    (fun n l => n + (if i.g.active.getLsbD l then (f l).toNat else old / 2 ^ l % 2) * 2 ^ l) 0
  i.fin (s.updGrp i.agent fun g =>
    let h := g.setP i.x.d (BitVec.ofNat 8 v)
    if i.g.active = 0xFF then h else h.inPart g)

/-- A compare: it holds for every element of the lane. -/
def compareAll (p : Iss → Nat → Nat → Bool) (s : State) (i : Iss) : Res :=
  i.predOut s fun l => (List.zip (elems i.et (i.va l)) (elems i.et (i.vb l))).all fun x => p i x.1 x.2

/-- A compare of signed elements. -/
def signedCmp (p : Int → Int → Bool) (i : Iss) (a b : Nat) : Bool := p (sgOf (etBits i.et) a) (sgOf (etBits i.et) b)

/-- Lane predicate: all elements equal (R196). -/
def execVcmpeq (e : Bool) (d : BitVec 7) (a : BitVec 7) (b : BitVec 7) (s : State) : Out :=
  issueWord (insnA 0x115 (sigA .pred .vector .vector) e d a b) intEt (compareAll fun _ a b => a == b) s

/-- Lane predicate: all elements signed less than (R196). -/
def execVcmplt (e : Bool) (d : BitVec 7) (a : BitVec 7) (b : BitVec 7) (s : State) : Out :=
  issueWord (insnA 0x116 (sigA .pred .vector .vector) e d a b) intEt (compareAll (signedCmp fun a b => decide (a < b))) s

/-- Lane predicate: all elements unsigned less than (R196). -/
def execVcmpltu (e : Bool) (d : BitVec 7) (a : BitVec 7) (b : BitVec 7) (s : State) : Out :=
  issueWord (insnA 0x117 (sigA .pred .vector .vector) e d a b) intEt (compareAll fun _ a b => decide (a < b)) s

/-- Lane predicate: all elements signed less or equal (R196). -/
def execVcmple (e : Bool) (d : BitVec 7) (a : BitVec 7) (b : BitVec 7) (s : State) : Out :=
  issueWord (insnA 0x118 (sigA .pred .vector .vector) e d a b) intEt (compareAll (signedCmp fun a b => decide (a ≤ b))) s

/-- Per-element select by the old destination (R197). -/
def execVsel (e : Bool) (d : BitVec 7) (a : BitVec 7) (b : BitVec 7) (s : State) : Out :=
  issueWord (insnA 0x119 (sigA .vector .vector .vector) e d a b) anyEt (elementwise fun _ a b d => if d ≠ 0 then a else b) s

/-! ### Immediate forms (R195) -/

/-- A shift by an immediate: w or more is refused at step 7. -/
def shiftImm (f : Nat → Nat → Nat → Nat) (s : State) (i : Iss) : Res :=
  if etBits i.et ≤ i.imm.toNat then i.illegal s
  else elementwise (fun i a _ _ => f (etBits i.et) a i.imm.toNat) s i

/-- Vector add immediate (R195). -/
def execVaddi (e : Bool) (d : BitVec 7) (a : BitVec 7) (i : BitVec 7) (s : State) : Out :=
  issueWord (insnB 0x120 (sigB .vector .vector) e d a i.toNat none) intEt (elementwise fun i => satOp (fun a _ _ => a + i.imm.toInt) i) s

/-- Vector shift left by immediate (R195). -/
def execVshli (e : Bool) (d : BitVec 7) (a : BitVec 7) (i : BitVec 7) (s : State) : Out :=
  issueWord (insnB 0x121 (sigB .vector .vector) e d a i.toNat (some (2 ^ 56))) intEt (shiftImm fun w a n => a * 2 ^ n % 2 ^ w) s

/-- Vector logical shift right by immediate (R195). -/
def execVshri (e : Bool) (d : BitVec 7) (a : BitVec 7) (i : BitVec 7) (s : State) : Out :=
  issueWord (insnB 0x122 (sigB .vector .vector) e d a i.toNat (some (2 ^ 56))) intEt (shiftImm fun _ a n => a / 2 ^ n) s

/-- Vector arithmetic shift right by immediate (R195). -/
def execVsrai (e : Bool) (d : BitVec 7) (a : BitVec 7) (i : BitVec 7) (s : State) : Out :=
  issueWord (insnB 0x123 (sigB .vector .vector) e d a i.toNat (some (2 ^ 56))) intEt (shiftImm shiftSigned) s

/-- Vector AND immediate (R195). -/
def execVandi (e : Bool) (d : BitVec 7) (a : BitVec 7) (i : BitVec 7) (s : State) : Out :=
  issueWord (insnB 0x124 (sigB .vector .vector) e d a i.toNat none) intEt (elementwise fun i a _ _ => a &&& i.imm.toNat % 2 ^ etBits i.et) s

end Sys2Proof.Machine
end

