-- ==== Sys2Proof/Machine/VecMem.lean ====
section
/-!
DEFINITION. Sys2Proof/Machine/VecMem.lean: vector loads and stores, MX lines, prefetch, vector atomics and reduction stores
(12 R251 to R254, R256, R258).
-/

namespace Sys2Proof.Machine

/-! ### Addresses (R248) -/

/-- The offset of element k of lane l for an offset width of o bits, in the span from `vB`. -/
def Iss.spanOffset (i : Iss) (o l k : Nat) : Int :=
  sgOf o (elem (i.g.vlane (i.x.b + o * k / 256) l) o (o * k % 256 / o))

/-- The offset of an access of z bytes: of `.q` and `.o` forms the low 64 bits of the element's own field. -/
def Iss.vecOffset (i : Iss) (z l k : Nat) : Int :=
  if 16 ≤ z then sgOf 64 (elem (i.vb l) (8 * z) k % 2 ^ 64)
  else i.spanOffset (if z ≤ 4 then 32 else 64) l k

/-- An address with its offset, modulo 2^64. -/
def Iss.vecAddr (i : Iss) (off : Int) : Nat := (i.sa + BitVec.ofInt 64 off).toNat

/-- The accesses of a vector word: n of z bytes in each active lane, in lane and element order. -/
def Iss.vecAccs (i : Iss) (z : Nat) (kind : Access) (scr : Bool) (data : Nat → Nat → Option Nat) : List Acc :=
  ((lanesOf i.g.active).map fun l => (List.range (32 / z)).map fun k =>
    Acc.mk (i.vecAddr (i.vecOffset z l k)) z kind l k true scr false (data l k) 0).flatten

/-- The registers of active lanes written from the values of n accesses of z bytes per lane. -/
def Iss.putLanes (i : Iss) (s : State) (z n : Nat) (vs : List Nat) : State :=
  s.updGrp i.agent fun g =>
    ((lanesOf i.g.active).zip (List.range 8)).foldl
      (fun g lk => g.setV i.x.d lk.1 (ofElems (8 * z) ((vs.drop (lk.2 * n)).take n))) g

/-! ### Loads and stores (R251, R252) -/

/-- A vector load of accesses of z bytes. -/
def vecLoad (z : Nat) (acq scr : Bool) (s : State) (i : Iss) : Res :=
  let cs := i.vecAccs z .read scr fun _ _ => none
  let scope := modeScope i.g.mode
  i.load s scope acq cs fun s vs =>
    let t := i.putLanes s z (32 / z) vs
    i.memDone (if acq then t.acquire i.agent scope else t) cs

/-- A store of accesses, those to one sector made one (R225), after a release for the release forms. -/
def Iss.storeAll (i : Iss) (s : State) (rel : Bool) (cs : List Acc) : Res :=
  if rel then
    i.guarded s cs fun s _ =>
      let r := s.release i.core i.agent (modeScope i.g.mode)
      if r.2 then i.storeJoined r.1 cs fun s => i.memDone s cs else .wait r.1 .waitMem .acks
  else i.storeJoined s cs fun s => i.memDone s cs

/-- A vector store. -/
def vecStore (z : Nat) (rel scr : Bool) (s : State) (i : Iss) : Res :=
  i.storeAll s rel (i.vecAccs z .write scr fun l k => some (elem (i.vd l) (8 * z) k))

/-- The accesses of a row: 32 bytes a lane (R252). -/
def Iss.rowAccs (i : Iss) (kind : Access) (data : Nat → Option Nat) : List Acc :=
  (lanesOf i.g.active).map fun (l : Nat) => Acc.mk (i.vecAddr ((32 * l : Nat) : Int)) 32 kind l 0 true true false (data l) 0

/-- `pld.o`. -/
def rowLoad (s : State) (i : Iss) : Res :=
  let cs := i.rowAccs .read fun _ => none
  i.load s (modeScope i.g.mode) false cs fun s vs => i.memDone (i.putLanes s 32 1 vs) cs

/-- `pst.o`. -/
def rowStore (s : State) (i : Iss) : Res := i.storeAll s false (i.rowAccs .write fun l => some (i.vd l))

/-- Vector global load, 4-byte elements (R251). -/
def execVldW (e : Bool) (d : BitVec 7) (a : BitVec 7) (b : BitVec 7) (s : State) : Out :=
  issueWord (insnA 0x200 (sigA .vector .scalar .vector) e d a b) scopeOk (vecLoad 4 false false) s

/-- Vector global load, 8-byte elements (R251). -/
def execVldD (e : Bool) (d : BitVec 7) (a : BitVec 7) (b : BitVec 7) (s : State) : Out :=
  issueWord (insnA 0x201 (sigA .vector .scalar .vector) e d a b) scopeOk (vecLoad 8 false false) s

/-- Vector global load, 16-byte elements (R251). -/
def execVldQ (e : Bool) (d : BitVec 7) (a : BitVec 7) (b : BitVec 7) (s : State) : Out :=
  issueWord (insnA 0x202 (sigA .vector .scalar .vector) e d a b) scopeOk (vecLoad 16 false false) s

/-- Vector global load, 32 bytes per lane (R251). -/
def execVldO (e : Bool) (d : BitVec 7) (a : BitVec 7) (b : BitVec 7) (s : State) : Out :=
  issueWord (insnA 0x203 (sigA .vector .scalar .vector) e d a b) scopeOk (vecLoad 32 false false) s

/-- Vector global store, 4-byte elements (R251). -/
def execVstW (e : Bool) (d : BitVec 7) (a : BitVec 7) (b : BitVec 7) (s : State) : Out :=
  issueWord (insnA 0x204 (sigA .vector .scalar .vector) e d a b) scopeOk (vecStore 4 false false) s

/-- Vector global store, 8-byte elements (R251). -/
def execVstD (e : Bool) (d : BitVec 7) (a : BitVec 7) (b : BitVec 7) (s : State) : Out :=
  issueWord (insnA 0x205 (sigA .vector .scalar .vector) e d a b) scopeOk (vecStore 8 false false) s

/-- Vector global store, 16-byte elements (R251). -/
def execVstQ (e : Bool) (d : BitVec 7) (a : BitVec 7) (b : BitVec 7) (s : State) : Out :=
  issueWord (insnA 0x206 (sigA .vector .scalar .vector) e d a b) scopeOk (vecStore 16 false false) s

/-- Vector global store, 32 bytes per lane (R251). -/
def execVstO (e : Bool) (d : BitVec 7) (a : BitVec 7) (b : BitVec 7) (s : State) : Out :=
  issueWord (insnA 0x207 (sigA .vector .scalar .vector) e d a b) scopeOk (vecStore 32 false false) s

/-- Vector scratchpad load, 4-byte elements (R251). -/
def execVldsW (e : Bool) (d : BitVec 7) (a : BitVec 7) (b : BitVec 7) (s : State) : Out :=
  issueWord (insnA 0x208 (sigA .vector .scalar .vector) e d a b) scopeOk (vecLoad 4 false true) s

/-- Vector scratchpad load, 8-byte elements (R251). -/
def execVldsD (e : Bool) (d : BitVec 7) (a : BitVec 7) (b : BitVec 7) (s : State) : Out :=
  issueWord (insnA 0x209 (sigA .vector .scalar .vector) e d a b) scopeOk (vecLoad 8 false true) s

/-- Vector scratchpad load, 16-byte elements (R251). -/
def execVldsQ (e : Bool) (d : BitVec 7) (a : BitVec 7) (b : BitVec 7) (s : State) : Out :=
  issueWord (insnA 0x20A (sigA .vector .scalar .vector) e d a b) scopeOk (vecLoad 16 false true) s

/-- Vector scratchpad load, 32 bytes per lane (R251). -/
def execVldsO (e : Bool) (d : BitVec 7) (a : BitVec 7) (b : BitVec 7) (s : State) : Out :=
  issueWord (insnA 0x20B (sigA .vector .scalar .vector) e d a b) scopeOk (vecLoad 32 false true) s

/-- Vector scratchpad store, 4-byte elements (R251). -/
def execVstsW (e : Bool) (d : BitVec 7) (a : BitVec 7) (b : BitVec 7) (s : State) : Out :=
  issueWord (insnA 0x20C (sigA .vector .scalar .vector) e d a b) scopeOk (vecStore 4 false true) s

/-- Vector scratchpad store, 8-byte elements (R251). -/
def execVstsD (e : Bool) (d : BitVec 7) (a : BitVec 7) (b : BitVec 7) (s : State) : Out :=
  issueWord (insnA 0x20D (sigA .vector .scalar .vector) e d a b) scopeOk (vecStore 8 false true) s

/-- Vector scratchpad store, 16-byte elements (R251). -/
def execVstsQ (e : Bool) (d : BitVec 7) (a : BitVec 7) (b : BitVec 7) (s : State) : Out :=
  issueWord (insnA 0x20E (sigA .vector .scalar .vector) e d a b) scopeOk (vecStore 16 false true) s

/-- Vector scratchpad store, 32 bytes per lane (R251). -/
def execVstsO (e : Bool) (d : BitVec 7) (a : BitVec 7) (b : BitVec 7) (s : State) : Out :=
  issueWord (insnA 0x20F (sigA .vector .scalar .vector) e d a b) scopeOk (vecStore 32 false true) s

/-- 32-byte vector load with acquire (R251). -/
def execVldOAcq (e : Bool) (d : BitVec 7) (a : BitVec 7) (b : BitVec 7) (s : State) : Out :=
  issueWord (insnA 0x210 (sigA .vector .scalar .vector) e d a b) scopeOk (vecLoad 32 true false) s

/-- Release, then 32-byte vector store (R251). -/
def execVstORel (e : Bool) (d : BitVec 7) (a : BitVec 7) (b : BitVec 7) (s : State) : Out :=
  issueWord (insnA 0x211 (sigA .vector .scalar .vector) e d a b) scopeOk (vecStore 32 true false) s

/-- 16-byte vector load with acquire (R251). -/
def execVldQAcq (e : Bool) (d : BitVec 7) (a : BitVec 7) (b : BitVec 7) (s : State) : Out :=
  issueWord (insnA 0x212 (sigA .vector .scalar .vector) e d a b) scopeOk (vecLoad 16 true false) s

/-- Release, then 16-byte vector store (R251). -/
def execVstQRel (e : Bool) (d : BitVec 7) (a : BitVec 7) (b : BitVec 7) (s : State) : Out :=
  issueWord (insnA 0x213 (sigA .vector .scalar .vector) e d a b) scopeOk (vecStore 16 true false) s

/-- Load one 256-byte scratchpad row (R252). -/
def execPldO (e : Bool) (d : BitVec 7) (a : BitVec 7) (s : State) : Out :=
  issueWord (insnA 0x218 (sigA .vector .scalar .zero) e d a 0) scopeOk rowLoad s

/-- Store one 256-byte scratchpad row (R252). -/
def execPstO (e : Bool) (d : BitVec 7) (a : BitVec 7) (s : State) : Out :=
  issueWord (insnA 0x219 (sigA .vector .scalar .zero) e d a 0) scopeOk rowStore s

/-! ### MX lines (R253) -/

/-- Blocks of a line by type (02 R42). -/
def lineBlocks (et : Nat) : Nat := if et = 8 then 15 else if et = 6 ∨ et = 7 then 10 else 7
/-- Bytes of a block. -/
def blockBytes (et : Nat) : Nat := if et = 8 then 16 else if et = 6 ∨ et = 7 then 24 else 32
/-- Blocks of a lane register. -/
def laneBlocks (et : Nat) : Nat := if et = 8 then 2 else 1

/-- MODE.ET is an MX type, and MODE.SCOPE is legal. -/
def mxOk (i : Iss) : Bool := scopeOk i && isMx i.et

/-- The line address and the first block of a lane. -/
def Iss.mxLine (i : Iss) (l : Nat) : Nat × Nat := (i.vecAddr (sgOf 64 (i.vb l % 2 ^ 64)), i.vb l / 2 ^ 64 % 256)

/-- A lane that R253 refuses: the cause. -/
def Iss.mxBad (i : Iss) (l : Nat) : Option Nat :=
  let x := i.mxLine l
  if x.1 % 256 ≠ 0 then some cMisalign
  else if lineBlocks i.et < x.2 + laneBlocks i.et then some cIllegalOperand
  else none

/-- The accesses of a lane: for each block its scale byte and its payload. -/
def Iss.mxAccs (i : Iss) (kind : Access) (scr : Bool) (l : Nat) : List Acc :=
  let x := i.mxLine l
  let z := blockBytes i.et
  ((List.range (laneBlocks i.et)).map fun t =>
    let j := x.2 + t
    let byte := if kind = .write then some (elem (i.g.klane i.x.d l) 8 t) else none
    let body := if kind = .write then some (i.vd l / 2 ^ (8 * z * t) % 2 ^ (8 * z)) else none
    [Acc.mk (x.1 + j) 1 kind l (2 * t) false scr false byte 0,
     Acc.mk (x.1 + 16 + j * z) z kind l (2 * t + 1) false scr false body 0]).flatten

/-- The lanes of an MX word checked: those before the first refused one fault first (R248). -/
def Iss.mxChecked (i : Iss) (s : State) (kind : Access) (scr : Bool) (k : State → List Acc → Res) : Res :=
  let lanes := lanesOf i.g.active
  match lanes.find? fun l => (i.mxBad l).isSome with
  | none => k s (lanes.map (i.mxAccs kind scr)).flatten
  | some l =>
    i.guarded s ((lanes.filter fun m => m < l).map (i.mxAccs kind scr)).flatten fun s _ =>
      let cause := (i.mxBad l).getD cMisalign
      .trap s cause (if cause = cMisalign then BitVec.ofNat 64 (i.mxLine l).1 else 0) 0

/-- A lane from the values of its accesses: payloads and scale bytes. -/
def mxLane (et : Nat) (vs : List Nat) : Nat × Nat :=
  let z := blockBytes et
  if laneBlocks et = 2 then
    (vs.getD 1 0 + vs.getD 3 0 * 2 ^ (8 * z), vs.getD 0 0 + vs.getD 2 0 * 256)
  else (vs.getD 1 0, vs.getD 0 0)

/-- `vldmx`, `pldmx`. -/
def mxLoad (scr : Bool) (s : State) (i : Iss) : Res :=
  i.mxChecked s .read scr fun s cs =>
    i.load s (modeScope i.g.mode) false cs fun s vs =>
      let n := 2 * laneBlocks i.et
      let t := s.updGrp i.agent fun g =>
        ((lanesOf i.g.active).zip (List.range 8)).foldl
          (fun g lk =>
            let x := mxLane i.et ((vs.drop (lk.2 * n)).take n)
            (g.setV i.x.d lk.1 x.1).setK i.x.d lk.1 x.2) g
      i.memDone t cs

/-- `vstmx`, `pstmx`. -/
def mxStore (scr : Bool) (s : State) (i : Iss) : Res :=
  i.mxChecked s .write scr fun s cs => i.storeMx s cs fun s => i.memDone s cs

/-- Load MX blocks and scales from global MX lines (R253). -/
def execVldmx (e : Bool) (d : BitVec 7) (a : BitVec 7) (b : BitVec 7) (s : State) : Out :=
  issueWord (insnA 0x214 (sigA .vector .scalar .vector) e d a b) mxOk (mxLoad false) s

/-- Store MX blocks and scales to global MX lines (R253). -/
def execVstmx (e : Bool) (d : BitVec 7) (a : BitVec 7) (b : BitVec 7) (s : State) : Out :=
  issueWord (insnA 0x215 (sigA .vector .scalar .vector) e d a b) mxOk (mxStore false) s

/-- Load MX blocks from scratchpad MX lines (R253). -/
def execPldmx (e : Bool) (d : BitVec 7) (a : BitVec 7) (b : BitVec 7) (s : State) : Out :=
  issueWord (insnA 0x21A (sigA .vector .scalar .vector) e d a b) mxOk (mxLoad true) s

/-- Store MX blocks to scratchpad MX lines (R253). -/
def execPstmx (e : Bool) (d : BitVec 7) (a : BitVec 7) (b : BitVec 7) (s : State) : Out :=
  issueWord (insnA 0x21B (sigA .vector .scalar .vector) e d a b) mxOk (mxStore true) s

/-! ### Prefetch (R254) -/

/-- A sector requested into L1, as a load would: where no cached leaf serves it, a walk is asked for, if the miss table has room; what
would fault is dropped. The walk is joined for no group, so that nothing waits for it. -/
def State.prefetch (s : State) (i : Iss) (va : Nat) : State :=
  let fill := fun (s : State) (pa : Nat) => if s.isMemory pa then s.l1Ensure i.core i.g.acqClk (pa / 64) else s
  match s.translate i.core i.ctx va .read i.g.trapMode with
  | .ok pa => fill s pa
  | .miss pa =>
    if s.missRoom (dieOf i.core) i.ctx [va] then
      fill (s.addMiss (dieOf i.core) i.ctx va Config.agents i.core .read) pa
    else s
  | _ => s

/-- `vprefetch`. -/
def prefetchBody (s : State) (i : Iss) : Res :=
  i.memDone ((lanesOf i.g.active).foldl (fun s l => s.prefetch i (i.mxLine l).1) s) []

/-- Prefetch sectors into L1 (R254). -/
def execVprefetch (e : Bool) (a : BitVec 7) (b : BitVec 7) (s : State) : Out :=
  issueWord (insnA 0x230 (sigA .zero .scalar .vector) e 0 a b) always prefetchBody s

/-! ### Atomics and reduction stores (R256, R258) -/

/-- The accesses of a vector atomic or reduction store: one of z bytes for each element of MODE.ET. -/
def Iss.elemAccs (i : Iss) (z : Nat) (pool : Bool) (data cmp : Nat → Nat → Nat) : List Acc :=
  let w := etBits i.et
  ((lanesOf i.g.active).map fun l => (List.range (etCount i.et)).map fun k =>
    let va := i.vecAddr (i.spanOffset (if w ≤ 32 then 32 else 64) l k)
    Acc.mk va z (if pool then .rw else .write) l k true (pool && decide (2 ^ 63 ≤ va)) false
      (some (data l k)) (cmp l k)).flatten

/-- A vector atomic; `cas` takes the expected values from `vD` and the new ones from `vD+1`. -/
def vatomBody (op : AtomOp) (s : State) (i : Iss) : Res :=
  let w := etBits i.et
  let own := fun l k => elem (i.vd l) w k
  let new := fun l k => elem (i.g.vlane (i.x.d + 1) l) w k
  let cs := if op = .cas then i.elemAccs (w / 8) true new own else i.elemAccs (w / 8) true own fun _ _ => 0
  i.atomics s (modeScope i.g.mode) op i.et cs fun s vs => i.memDone (i.putLanes s (w / 8) (etCount i.et) vs) cs

/-- As `atomOk`, with the destination span of `vatom.cas`. -/
def vcasOk (i : Iss) : Bool := atomOk true true i && spanFits i.g.kregs i.x.d 2

/-- A reduction store. -/
def redstBody (op : AtomOp) (s : State) (i : Iss) : Res :=
  let w := etBits i.et
  let cs := i.elemAccs (w / 8) false (fun l k => elem (i.vd l) w k) fun _ _ => 0
  i.reduces s (modeScope i.g.mode) op i.et cs fun s => i.memDone s cs

/-- `redst.x`: FP32, BF16 or FP64, with the offset span below the count. -/
def cellOk (i : Iss) : Bool :=
  scopeOk i && (i.et == 9 || i.et == 11 || i.et == 12) && spanFits i.g.kregs i.x.b (if i.et = 9 then 2 else 1)

/-- `redst.x`: each cell is one access of 32 bytes. -/
def redstCell (s : State) (i : Iss) : Res :=
  let w := etBits i.et
  let cs := i.elemAccs 32 false (fun l k => elem (i.vd l) w k) fun _ _ => 0
  i.reduces s (modeScope i.g.mode) .cell i.et cs fun s => i.memDone s cs

/-- Vector atomic add (R256). -/
def execVatomAdd (e : Bool) (d : BitVec 7) (a : BitVec 7) (b : BitVec 7) (s : State) : Out :=
  issueWord (insnA 0x220 (sigA .vector .scalar .vector) e d a b) (atomOk false true) (vatomBody .add) s

/-- Vector atomic minimum (R256). -/
def execVatomMin (e : Bool) (d : BitVec 7) (a : BitVec 7) (b : BitVec 7) (s : State) : Out :=
  issueWord (insnA 0x221 (sigA .vector .scalar .vector) e d a b) (atomOk false true) (vatomBody .min) s

/-- Vector atomic maximum (R256). -/
def execVatomMax (e : Bool) (d : BitVec 7) (a : BitVec 7) (b : BitVec 7) (s : State) : Out :=
  issueWord (insnA 0x222 (sigA .vector .scalar .vector) e d a b) (atomOk false true) (vatomBody .max) s

/-- Vector atomic exchange (R256). -/
def execVatomExch (e : Bool) (d : BitVec 7) (a : BitVec 7) (b : BitVec 7) (s : State) : Out :=
  issueWord (insnA 0x223 (sigA .vector .scalar .vector) e d a b) (atomOk true true) (vatomBody .exch) s

/-- Vector atomic compare and swap (R256). -/
def execVatomCas (e : Bool) (d : BitVec 7) (a : BitVec 7) (b : BitVec 7) (s : State) : Out :=
  issueWord (insnA 0x224 (sigA .vector .scalar .vector) e d a b) vcasOk (vatomBody .cas) s

/-- Vector atomic floating-point add (R256). -/
def execVatomFadd (e : Bool) (d : BitVec 7) (a : BitVec 7) (b : BitVec 7) (s : State) : Out :=
  issueWord (insnA 0x225 (sigA .vector .scalar .vector) e d a b) (atomOk true false) (vatomBody .fadd) s

/-- Reduction store, add (R258). -/
def execRedstAdd (e : Bool) (d : BitVec 7) (a : BitVec 7) (b : BitVec 7) (s : State) : Out :=
  issueWord (insnA 0x228 (sigA .vector .scalar .vector) e d a b) (atomOk false true) (redstBody .add) s

/-- Reduction store, minimum (R258). -/
def execRedstMin (e : Bool) (d : BitVec 7) (a : BitVec 7) (b : BitVec 7) (s : State) : Out :=
  issueWord (insnA 0x229 (sigA .vector .scalar .vector) e d a b) (atomOk false true) (redstBody .min) s

/-- Reduction store, maximum (R258). -/
def execRedstMax (e : Bool) (d : BitVec 7) (a : BitVec 7) (b : BitVec 7) (s : State) : Out :=
  issueWord (insnA 0x22A (sigA .vector .scalar .vector) e d a b) (atomOk false true) (redstBody .max) s

/-- Reduction store, floating-point add (R258). -/
def execRedstFadd (e : Bool) (d : BitVec 7) (a : BitVec 7) (b : BitVec 7) (s : State) : Out :=
  issueWord (insnA 0x22B (sigA .vector .scalar .vector) e d a b) (atomOk true false) (redstBody .fadd) s

/-- Exact-cell add at the home slice (R258). -/
def execRedstX (e : Bool) (d : BitVec 7) (a : BitVec 7) (b : BitVec 7) (s : State) : Out :=
  issueWord (insnA 0x22C (sigA .vector .scalar .vector) e d a b) cellOk redstCell s

end Sys2Proof.Machine
end

