-- ==== Sys2Proof/Machine/Engine.lean ====
section
/-!
DEFINITION. Sys2Proof/Machine/Engine.lean: lace table entries (12 R262, R263), the walk of an entry by units (R264 to R266), and
one unit performed by a Lacer or a DMA engine (R261, R267, R269), with the watchpoints that it meets (21 R389).
-/

namespace Sys2Proof.Machine

/-! ### Entries (R262) -/

/-- The entry that 64 bytes hold. -/
def LEntry.ofCode (x : Nat) : LEntry :=
  let w := fun (k : Nat) => x / 2 ^ (64 * k) % 2 ^ 64
  let f := fun (lo n : Nat) => w 0 / 2 ^ lo % 2 ^ n
  let half := fun (k h : Nat) => sgOf 32 (w k / 2 ^ (32 * h) % 2 ^ 32)
  { kind := f 0 2, srcsp := f 2 1 == 1, dstsp := f 3 1 == 1, et := f 4 4, conv := f 8 2, scope := f 10 3,
    zord := f 13 1 == 1, tr := f 14 1 == 1, zlog := f 15 4, ringen := f 19 1 == 1, ring := f 20 4, mcast := f 24 8,
    rsv := f 32 32 != 0, src := BitVec.ofNat 64 (w 1), dst := BitVec.ofNat 64 (w 2),
    size := Vector.ofFn fun k => w 3 / 2 ^ (16 * k.val) % 2 ^ 16,
    sstr := Vector.ofFn fun k => if k.val = 0 then 0 else half (3 + k.val) 0,
    dstr := Vector.ofFn fun k => if k.val = 0 then 0 else half (3 + k.val) 1,
    aux := BitVec.ofNat 64 (w 7) }

/-- SIZE of a dimension. -/
def LEntry.sz (e : LEntry) (k : Nat) : Nat := vget e.size k 0
/-- The source stride of a dimension. -/
def LEntry.ss (e : LEntry) (k : Nat) : Int := vget e.sstr k 0
/-- The destination stride of a dimension. -/
def LEntry.ds (e : LEntry) (k : Nat) : Int := vget e.dstr k 0
/-- Bits of an element. -/
def LEntry.w (e : LEntry) : Nat := etBits e.et
/-- Bytes of a unit's row. -/
def LEntry.rowBytes (e : LEntry) : Nat := e.sz 0 * e.w / 8
/-- The alignment of every element address (R263). -/
def LEntry.align (e : LEntry) : Nat := max 1 (e.w / 8)
/-- The number of units of the walk (R264). -/
def LEntry.units (e : LEntry) : Nat := e.sz 1 * e.sz 2 * e.sz 3
/-- Blocks of an image under CONV (R265). -/
def LEntry.imageBlocks (e : LEntry) : Nat := if e.et = 8 then 16 else 8
/-- Images of the walk under CONV. -/
def LEntry.images (e : LEntry) : Nat := e.sz 0 * e.units / e.imageBlocks

/-! ### Refusals (R263) -/

/-- BAD_ENTRY: reserved fields and codes, and the combinations of R264 to R266. -/
def LEntry.bad (e : LEntry) (cldim : Nat) : Bool :=
  e.rsv || decide (e.conv = 3 ∨ 6 ≤ e.scope ∨ 13 ≤ e.et) ||
  (decide (e.conv ≠ 0) && (decide (e.kind ≠ 0) || e.zord || e.ringen || !isMx e.et ||
    e.srcsp != (e.conv == 2) || e.dstsp != (e.conv == 1))) ||
  (e.zord && (decide (e.kind ≠ 0) || decide (e.zlog < 2 ∨ 8 < e.zlog) || decide (e.w < 8))) ||
  (e.tr && !e.zord) || (decide (e.kind = 1) && decide (e.w < 8)) ||
  (e.ringen && (!e.dstsp || e.zord || decide (e.kind = 1) || decide (e.mcast ≠ 0))) ||
  (decide (e.mcast ≠ 0) && (!e.dstsp || decide (2 ^ cldim ≤ e.mcast))) ||
  (decide (e.aux ≠ 0) && decide (e.kind ≠ 3) && decide (e.conv = 0))

/-- BAD_SIZE. -/
def LEntry.badSize (e : LEntry) : Bool :=
  (List.range 4).any (fun k => e.sz k == 0) ||
  (if e.conv = 0 then decide (65536 * 8 < e.sz 0 * e.w) || e.sz 0 * e.w % 8 != 0
   else decide (lineBlocks e.et < e.sz 0) || e.sz 0 * e.units % e.imageBlocks != 0) ||
  (e.zord && (e.sz 0 != 2 ^ e.zlog || e.sz 1 != 2 ^ e.zlog))

/-- The lowest and the highest displacement of a walk over dimensions of a size and a stride. -/
def strideSpan : List (Nat × Int) → Int × Int
  | [] => (0, 0)
  | (n, d) :: r =>
    let x := strideSpan r
    let far := ((n : Int) - 1) * d
    (x.1 + min 0 far, x.2 + max 0 far)

/-- An address or a stride of a walk breaks the alignment of its elements (R263). -/
def LEntry.unaligned (e : LEntry) (base : Nat) (dims : List (Nat × Int)) : Bool :=
  base % e.align != 0 || dims.any fun d => decide (1 < d.1) && decide (d.2 % e.align ≠ 0)

/-- A range of a walk in scratchpad breaks R263: it leaves one block's range, or an address breaks the alignment. Of a multicast's
address, HALF and IDX are ignored (R266). -/
def State.scrBad (s : State) (b : Block) (e : LEntry) (mcast : Bool) (base : Nat) (dims : List (Nat × Int)) (n : Nat) :
    Bool :=
  let x := strideSpan dims
  let at' := if mcast then base % 2 ^ 20 + base / 2 ^ 24 * 2 ^ 24 else base
  let lo : Int := at' + x.1
  let len := (x.2 - x.1).toNat + n
  let out := if mcast then decide ((b.desc.scr * 65536 : Int) < lo + len)
    else (s.scrTarget b lo.toNat len).isNone
  decide (lo < 0) || out || e.unaligned at' dims

/-- BAD_RANGE: what the walk reaches in scratchpad, source and destination; of a GATHER's source, whose rows the index list gives, the
alignment alone. -/
def State.badRange (s : State) (b : Block) (e : LEntry) : Bool :=
  let srcDims := [(e.sz 1, e.ss 1), (e.sz 2, e.ss 2), (e.sz 3, e.ss 3)]
  let dstDims :=
    if e.zord then [(e.sz 2, e.ds 2), (e.sz 3, e.ds 3)]
    else if e.kind = 1 then [(e.sz 0, e.ds 1), (e.sz 2, e.ds 2), (e.sz 3, e.ds 3), (e.sz 1, ((e.w / 8 : Nat) : Int))]
    else [(e.sz 1, e.ds 1), (e.sz 2, e.ds 2), (e.sz 3, e.ds 3)]
  let dstLen := if e.zord then e.sz 0 * e.sz 1 * e.w / 8 else if e.kind = 1 then e.w / 8 else e.rowBytes
  if e.conv ≠ 0 then
    s.scrBad b e (e.mcast != 0) (if e.conv = 1 then e.dst.toNat else e.src.toNat) [] (256 * e.images) ||
    s.scrBad b e (e.mcast != 0) e.aux.toNat [] (16 * e.images)
  else
    (e.srcsp && (e.kind == 0 || e.kind == 1) && s.scrBad b e false e.src.toNat srcDims e.rowBytes) ||
    (e.srcsp && e.kind == 3 && (e.unaligned e.src.toNat ((2, e.ss 1) :: srcDims.drop 1) || decide (2 ^ 24 ≤ e.src.toNat))) ||
    (e.dstsp && !e.ringen && s.scrBad b e (e.mcast != 0) e.dst.toNat dstDims dstLen)

/-- BAD_RING. -/
def LEntry.badRing (b : Block) (e : LEntry) : Bool :=
  e.ringen &&
    (match amGet b.rings e.ring with
     | none => true
     | some r => !r.lfed || e.units * e.rowBytes % r.slot != 0)

/-- The XAUX code that `lace` refuses an entry with, 0 where it accepts it (R263). -/
def State.laceCheck (s : State) (b : Block) (e : LEntry) : Nat :=
  if e.bad b.desc.cldim then 1
  else if e.badSize then 2
  else if s.badRange b e then 3
  else if e.badRing b then 4
  else 0

/-- The code that a DMA engine refuses an entry with: scratchpad, ring, multicast and CONV are refused there (R261,
R269). -/
def LEntry.engineCheck (e : LEntry) : Nat :=
  if e.srcsp || e.dstsp || e.ringen || e.conv != 0 || e.mcast != 0 || e.bad 1 then 1
  else if e.badSize then 2
  else 0

/-! ### The walk (R264, R265) -/

/-- A run of bytes that a unit reads or writes: its alignment, whether it lies in scratchpad, the rank that a multicast
names, and the data written. -/
structure Run where
  addr : Nat
  n : Nat
  al : Nat
  scr : Bool
  rank : Option Nat
  data : Nat
  deriving DecidableEq, Repr

/-- An address with displacements, modulo 2^64. -/
def walkAddr (base : BitVec 64) (d : Int) : Nat := (base + BitVec.ofInt 64 d).toNat

/-- Indices i1, i2, i3 of a unit (R264). -/
def LEntry.index (e : LEntry) (u : Nat) : Nat × Nat × Nat := (u % e.sz 1, u / e.sz 1 % e.sz 2, u / (e.sz 1 * e.sz 2))

/-- The Z-order number of a row and a column (R264). -/
def zOrder (r c : Nat) : Nat → Nat
  | 0 => 0
  | k + 1 => zOrder r c k + c / 2 ^ k % 2 * 2 ^ (2 * k) + r / 2 ^ k % 2 * 2 ^ (2 * k + 1)

/-- The displacement of the outer dimensions of a unit. -/
def LEntry.srcAt (e : LEntry) (i1 : Nat) (u : Nat × Nat × Nat) : Nat :=
  walkAddr e.src (i1 * e.ss 1 + u.2.1 * e.ss 2 + u.2.2 * e.ss 3)

/-- Where block b of a walk lies in the images (R265): the lane's bytes, their number, the bytes zeroed after them, and the
scale byte. -/
def LEntry.imageAt (e : LEntry) (base : BitVec 64) (b : Nat) : Nat × Nat × Nat × Nat :=
  let m := b / e.imageBlocks
  let lane := if e.et = 8 then b / 2 % 8 else b % 8
  let half := if e.et = 8 then b % 2 else 0
  let z := blockBytes e.et
  (walkAddr base (256 * m + 32 * lane + 16 * half : Nat), z, if e.et = 8 then 0 else 32 - z,
    walkAddr e.aux (16 * m + 2 * lane + half : Nat))

/-- The index that a GATHER reads for a unit (R264). -/
def LEntry.indexRun (e : LEntry) (u : Nat) : List Run :=
  if e.kind = 3 then [⟨walkAddr e.aux (4 * (e.index u).1 : Nat), 4, 4, false, none, 0⟩] else []

/-- What a unit reads; `i1` is the index of dimension 1, of a GATHER the one read. -/
def LEntry.reads (e : LEntry) (u i1 : Nat) : List Run :=
  let ix := e.index u
  if e.kind = 2 then []
  else if e.conv = 1 then
    let line := e.srcAt i1 ix
    [⟨line, e.sz 0, 256, false, none, 0⟩, ⟨line + 16, e.sz 0 * blockBytes e.et, 16, false, none, 0⟩]
  else if e.conv = 2 then
    ((List.range (e.sz 0)).map fun j =>
      let x := e.imageAt e.src (u * e.sz 0 + j)
      [⟨x.2.2.2, 1, 1, true, none, 0⟩, ⟨x.1, x.2.1, 1, true, none, 0⟩]).flatten
  else [⟨e.srcAt i1 ix, e.rowBytes, e.align, e.srcsp, none, 0⟩]

/-- The data of runs read, as one number. -/
def joinRuns : List (Run × Nat) → Nat
  | [] => 0
  | (r, v) :: rs => v % 256 ^ r.n + 256 ^ r.n * joinRuns rs

/-- A unit's row: the elements read, or of a FILL the pattern. -/
def LEntry.row (e : LEntry) (got : List (Run × Nat)) : Nat :=
  if e.kind = 2 then ofElems e.w (List.replicate (e.sz 0) e.src.toNat) else joinRuns got

/-- What a unit writes, but for a ring. -/
def LEntry.writes (e : LEntry) (u : Nat) (row : Nat) : List Run :=
  let ix := e.index u
  let out := fun (addr n data : Nat) => (⟨addr, n, e.align, e.dstsp, none, data⟩ : Run)
  if e.conv = 1 then
    let z := blockBytes e.et
    ((List.range (e.sz 0)).map fun j =>
      let x := e.imageAt e.dst (u * e.sz 0 + j)
      [⟨x.1, x.2.1 + x.2.2.1, 1, true, none, bytesOf row (e.sz 0 + z * j) z⟩,
       ⟨x.2.2.2, if e.et = 8 then 1 else 2, 1, true, none, bytesOf row j 1⟩]).flatten
  else if e.conv = 2 then
    let z := blockBytes e.et
    let line := (List.range (e.sz 0)).foldl
      (fun x j => x + bytesOf row ((z + 1) * j) 1 * 256 ^ j + bytesOf row ((z + 1) * j + 1) z * 256 ^ (16 + z * j)) 0
    [⟨walkAddr e.dst (ix.1 * e.ds 1 + ix.2.1 * e.ds 2 + ix.2.2 * e.ds 3), 256, 256, false, none, line⟩]
  else if e.ringen then []
  else if e.zord then
    (List.range (e.sz 0)).map fun i0 =>
      let z := if e.tr then zOrder i0 ix.1 e.zlog else zOrder ix.1 i0 e.zlog
      out (walkAddr e.dst (ix.2.1 * e.ds 2 + ix.2.2 * e.ds 3 + (z * e.w / 8 : Nat))) (e.w / 8) (elem row e.w i0)
  else if e.kind = 1 then
    (List.range (e.sz 0)).map fun (i0 : Nat) =>
      out (walkAddr e.dst (i0 * e.ds 1 + ix.2.1 * e.ds 2 + ix.2.2 * e.ds 3 + (ix.1 * e.w / 8 : Nat))) (e.w / 8)
        (elem row e.w i0)
  else [out (walkAddr e.dst (ix.1 * e.ds 1 + ix.2.1 * e.ds 2 + ix.2.2 * e.ds 3)) e.rowBytes row]

/-- The writes of a multicast: one for each rank named (R266). -/
def LEntry.spread (e : LEntry) (rs : List Run) : List Run :=
  if e.mcast = 0 then rs
  else (((List.range 8).filter fun r => e.mcast / 2 ^ r % 2 == 1).map fun r => rs.map fun x => { x with rank := some r }).flatten

/-- A run cut at 64-byte sectors. -/
def cutRun : Nat → Run → List Run
  | 0, _ => []
  | f + 1, r =>
    if r.n = 0 then []
    else
      let k := min r.n (64 - r.addr % 64)
      { r with n := k, data := bytesOf r.data 0 k } ::
        cutRun f { r with addr := r.addr + k, n := r.n - k, data := r.data / 256 ^ k }

/-- Runs cut at sectors. -/
def cutRuns (rs : List Run) : List Run := (rs.map fun r => cutRun (r.n / 64 + 2) r).flatten

/-! ### One unit performed -/

/-- Who walks: the context it acts for, none for a privileged descriptor; whether its translation is unprivileged; whether
watchpoints observe it; the core of a Lacer; its number in requests; the watchpoint passed unchecked once (21 R389). -/
structure Walker where
  ctx : Option Nat
  user : Bool
  watched : Bool
  core : Option Nat
  agent : Nat
  pass : Option Nat
  deriving DecidableEq, Repr

/-- What comes of a unit: performed, with its row and the bytes moved; a fault at an address; a watchpoint met; requests
sent to hosts and peers; or nothing yet, for a MIGRATING leaf or a reply outstanding. -/
inductive UnitRes where
  | done (s : State) (row moved : Nat)
  | fault (s : State) (cause addr : Nat) (hole : Bool)
  | watch (s : State) (k : Nat) (kind : Access) (addr : Nat)
  | ask (s : State)
  | stuck

/-- Where a run of a walk lies in scratchpad (R220, R266). -/
def State.runTarget (s : State) (b : Option Block) (r : Run) : Option (Nat × Nat) :=
  match b with
  | none => none
  | some b =>
    match r.rank with
    | none => s.scrTarget b r.addr r.n
    | some k =>
      match ((amGet s.clusters b.cluster).bind fun c => c.blocks[k]?).bind s.blk with
      | some t => if r.addr % 2 ^ 20 + r.n ≤ t.desc.scr * 65536 then some (t.core, t.scrBase + r.addr % 2 ^ 20) else none
      | none => if k = 0 then s.scrTarget b (r.addr % 2 ^ 20) r.n else none

/-- The verdict on one run: its place, a fault, or a MIGRATING leaf. -/
inductive RunChk where
  | ok (p : Place)
  | fault (cause : Nat) (hole : Bool)
  | migrating
  deriving DecidableEq, Repr

/-- A borrower's lease over a fabric address has ended (18 R360). -/
def State.leaseEnded (s : State) (pa : Nat) : Bool :=
  (List.range 4096).any fun l =>
    let at' := bitsOf (s.reg 0x0020) 51 17 * 2 ^ 17 + l * 32
    s.leaseState l == 3 && !((s.read64 at').getLsbD 2) &&
      decide (s.read (at' + 8) 8 ≤ pa ∧ pa < s.read (at' + 8) 8 + s.read (at' + 16) 8)

/-- A run's physical place; a write of a privileged descriptor or of a Lacer that its link refuses fails (R269, 19 R364). -/
def State.runPlace (s : State) (w : Walker) (k : Access) (pa n : Nat) : RunChk :=
  let ext := if (w.ctx.isNone || w.core.isSome) && k.writes && s.refuses pa then RunChk.fault cPoison false else .ok (.ext pa)
  match s.region pa with
  | .hole => .fault cProtection true
  | .chip => if s.chipHole pa n then .fault cProtection true else .ok (.chip pa)
  | .fabric =>
    if s.fabricPort pa = none then .fault cProtection true
    else if w.ctx.isNone && !k.writes && s.leaseEnded pa then .fault cProtection true
    else ext
  | .host _ => if s.isMemory pa then .ok (.mem pa) else ext
  | _ => .ok (.mem pa)

/-- A run's place with the refusal noted on its link (19 R364). -/
def State.runNoted (s : State) (w : Walker) (k : Access) (pa n : Nat) : RunChk × State :=
  let p := s.runPlace w k pa n
  (p, if p = .fault cPoison false then s.noteRefused pa else s)

/-- The stop that a walker's requests come from: its core's, or its I/O die's. -/
def Walker.spot (w : Walker) : Spot :=
  match w.core with
  | some c => coreSpot c
  | none => ⟨4 + (w.agent - engineAgent 0) / 16, 0⟩

/-- A walker's request can reach a place now (19 R362, R366, R374), as `State.inReach` has it for a group's. -/
def State.walkOpen (s : State) (w : Walker) (p : Place) : Bool :=
  match w.core with
  | some c => s.inReach c p.addr
  | none =>
    s.pathOpen w.spot (s.homeSpot p.addr) && !(s.hdmHeld.contains (p.addr / 256)) &&
    (match s.region p.addr with
     | .host x => !((s.hostLink x).memory && (s.hostLink x).state.holds)
     | _ => true)

/-- The first place that a walker cannot reach yet holds its unit up; a line that the host holds is asked back. -/
def State.walkShut (s : State) (w : Walker) (ps : List (Run × Place)) : Option UnitRes :=
  (ps.find? fun x => !(s.walkOpen w x.2)).map fun x =>
    let t := s.snoopBack (x.2.addr / 256)
    if t.extReqs.length = s.extReqs.length then .stuck else .ask t

/-- A run checked: alignment, translation, holes. -/
def State.runCheck (s : State) (w : Walker) (b : Option Block) (k : Access) (r : Run) : RunChk × State :=
  if r.scr then
    match s.runTarget b r with
    | some (c, off) => (.ok (.scr c off), s)
    | none => (.fault cProtection false, s)
  else
    match w.ctx with
    | none => s.runNoted w k r.addr r.n
    | some c =>
      let x := s.direct c r.addr k (!w.user)
      match x.1 with
      | .ok pa => x.2.runNoted w k pa r.n
      | .fault cause _ => (.fault cause false, x.2)
      | .revoke _ _ => (.fault cLeaseRevoked false, x.2)
      | .migrating _ => (.migrating, s)
      | .miss _ => (.migrating, s)

/-- The runs of a unit checked in order. -/
def runPlaces (w : Walker) (b : Option Block) (k : Access) : List Run → State → Except UnitRes (List (Run × Place) × State)
  | [], s => .ok ([], s)
  | r :: rs, s =>
    match s.runCheck w b k r with
    | (.ok p, s) =>
      match runPlaces w b k rs s with
      | .ok (ps, s) => .ok ((r, p) :: ps, s)
      | .error e => .error e
    | (.fault c h, s) => .error (.fault s c r.addr h)
    | (.migrating, _) => .error .stuck

/-- The first run whose address breaks its alignment. -/
def misaligned (rs : List Run) : Option Run := rs.find? fun r => r.addr % r.al != 0

/-- The watchpoint that a run meets, with the value that it reads or writes (21 R387, R389). -/
def State.runWatch (s : State) (w : Walker) (k : Access) (r : Run) (v : Nat) : Option Nat :=
  match w.ctx with
  | none => none
  | some c =>
    if w.watched then
      let x := s.ctx c
      ({ x with wps := match w.pass with
        | some p => vset x.wps p none
        | none => x.wps }).wpHit k r.addr r.n (some v) false
    else none

/-- One run read at its point: its value, and whether it is poisoned or refused. -/
def State.runRead (s : State) (w : Walker) (r : Run) (p : Place) : Nat × Bool × State :=
  match p with
  | .mem pa =>
    let die := match w.core with
      | some c => dieOf c
      | none => Config.computeDies
    (s.read pa r.n, s.poisoned pa r.n, s.touchHome die pa)
  | .chip pa =>
    let x := s.chipRead pa r.n
    (x.1, x.2.chipBad pa r.n, x.2)
  | .scr c off => (s.scrRead c off r.n, s.scrPoisoned c off r.n, s)
  | .ext pa =>
    let v := (s.extValue w.agent pa r.n).getD (false, 0)
    (v.2, v.1, if v.1 then s.noteRefused pa else s)

/-- The runs read in order; poison before a watchpoint within one run. -/
def runReads (w : Walker) : List (Run × Place) → State → Except UnitRes (List (Run × Nat) × State)
  | [], s => .ok ([], s)
  | (r, p) :: rs, s =>
    let (v, bad, s) := s.runRead w r p
    if bad then .error (.fault s cPoison r.addr false)
    else
      match s.runWatch w .read r v with
      | some k => .error (.watch s k .read r.addr)
      | none =>
        match runReads w rs s with
        | .ok (vs, s) => .ok ((r, v) :: vs, s)
        | .error e => .error e

/-- Runs read: alignment, checks, replies of hosts and peers, then the reads. -/
def State.fetchRuns (s : State) (w : Walker) (b : Option Block) (rs : List Run) : Except UnitRes (List (Run × Nat) × State) :=
  match misaligned rs with
  | some r => .error (.fault s cMisalign r.addr false)
  | none =>
    match runPlaces w b .read (cutRuns rs) s with
    | .error e => .error e
    | .ok (ps, s1) =>
      match s1.walkShut w ps with
      | some u => .error u
      | none =>
      let missing := ps.filterMap fun x => match x.2 with
        | .ext pa => if (s1.extValue w.agent pa x.1.n).isNone then some (pa, x.1.n) else none
        | _ => none
      if missing = [] then runReads w ps s1
      else
        let s2 := missing.foldl (fun s m => s.extAsk w.agent (w.ctx.getD Config.contexts) m.1 m.2) s1
        .error (if s2.extReqs.length = s1.extReqs.length then .stuck else .ask s2)

/-- One run written at its point; an engine's writes count for the monitors of the context it acts for, but for those through a host
window (20 R316). -/
def State.runWrite (s : State) (w : Walker) (r : Run) (p : Place) : State :=
  match p with
  | .mem pa =>
    let s := s.performBytes (if 2 ^ 48 ≤ pa then none else w.ctx.map fun c => (c, r.addr)) pa r.n r.data
    match w.core with
    | some c => s.l1Drop c pa r.n
    | none => s
  | .chip pa => s.chipWrite pa r.n r.data
  | .scr c off => s.scrWrite c off r.n r.data
  | .ext pa => s.performWrite ⟨w.agent, 0, w.ctx.getD Config.contexts, r.addr, pa, r.n, r.data, none, 0, []⟩

/-- The writes of a unit: every one checked before the first is performed. -/
def State.storeRuns (s : State) (w : Walker) (b : Option Block) (rs : List Run) : Except UnitRes State :=
  match misaligned rs with
  | some r => .error (.fault s cMisalign r.addr false)
  | none =>
    match runPlaces w b .write (cutRuns rs) s with
    | .error e => .error e
    | .ok (ps, s) =>
      match s.walkShut w ps with
      | some u => .error u
      | none =>
      match ps.findSome? fun x => (s.runWatch w .write x.1 x.1.data).map fun k => (k, x.1.addr) with
      | some (k, a) => .error (.watch s k .write a)
      | none => .ok (ps.foldl (fun s x => s.runWrite w x.1 x.2) s)

/-- The replies that a walker has used are forgotten. -/
def State.usedReplies (s : State) (w : Walker) : State :=
  { s with extReqs := s.extReqs.filter fun r => r.write || r.agent != w.agent }

/-- A unit's write phase. -/
def State.unitStores (s : State) (w : Walker) (b : Option Block) (e : LEntry) (u row : Nat) : UnitRes :=
  let ws := e.spread (e.writes u row)
  match s.storeRuns w b ws with
  | .error r => r
  | .ok s => .done (s.usedReplies w) row (if e.ringen then e.rowBytes else (ws.map Run.n).sum)

/-- One unit of a walk: its reads, then its writes (R267). -/
def State.unitRun (s : State) (w : Walker) (b : Option Block) (e : LEntry) (u : Nat) : UnitRes :=
  let s := match w.core with
    | some c => s.drainCore c
    | none => s
  match s.fetchRuns w b (e.indexRun u) with
  | .error r => r
  | .ok (ix, s) =>
    let i1 := if e.kind = 3 then joinRuns ix else (e.index u).1
    match s.fetchRuns w b (e.reads u i1) with
    | .error r => r
    | .ok (got, s) => s.unitStores w b e u (e.row got)

/-- A whole walk from a unit on, as a DMA engine makes it: none of its units waits in between (11 R261). -/
def State.walkUnits (s : State) (w : Walker) (e : LEntry) (u : Nat) : Nat → UnitRes
  | 0 => .done s 0 0
  | n + 1 =>
    match s.unitRun w none e u with
    | .done s _ _ => s.walkUnits w e (u + 1) n
    | r => r

/-! ### Lacer commands (R261, R271 to R273) -/

/-- The queue of a Lacer. -/
def Core.lacer (c : Core) (l : Nat) : List LCmd := vget c.lacers l []
/-- The queue of a Lacer changed. -/
def Core.setLacer (c : Core) (l : Nat) (q : List LCmd) : Core := { c with lacers := vset c.lacers l q }

/-- A command of a block has ended (R272): it is no longer in the queue. -/
def Core.laceEnded (c : Core) (l blk t : Nat) : Bool := !((c.lacer l).any fun k => k.block == blk && k.ticket == t)

/-- The highest ticket up to t that has ended (R272). -/
def Core.lastEnded (c : Core) (l blk : Nat) : Nat → Nat
  | 0 => 0
  | t + 1 => if c.laceEnded l blk (t + 1) then t + 1 else c.lastEnded l blk t

/-- The tiles of the issuing block's scratchpad that runs cover (R271). -/
def State.tilesOf (s : State) (b : Block) (rs : List Run) : List Nat :=
  rs.foldl (fun ts r =>
    match s.runTarget (some b) r with
    | some (c, off) =>
      if r.scr && c == b.core && decide (b.scrBase ≤ off ∧ off < b.scrBase + b.desc.scr * 65536) && r.n != 0 then
        (numsFrom ((off - b.scrBase) / 4096) ((off - b.scrBase + r.n - 1) / 4096 - (off - b.scrBase) / 4096 + 1)).foldl
          (fun ts t => insertNat t ts) ts
      else ts
    | none => ts) []

/-- The tiles that a command takes (R271): of a GATHER from scratchpad, whose rows are not known yet, every tile. -/
def State.tilesTaken (s : State) (b : Block) (e : LEntry) : List Nat :=
  if e.kind = 3 ∧ e.srcsp = true then List.range (b.desc.scr * 16)
  else
    s.tilesOf b ((List.range e.units).map fun u => e.reads u (e.index u).1 ++ e.spread (e.writes u 0)).flatten

/-- Holder counts raised or lowered (R271). -/
def Block.hold (b : Block) (ts : List Nat) (up : Bool) : Block :=
  { b with holders := ts.foldl (fun h t =>
      let n := (amGet h t).getD 0
      let n' := if up then n + 1 else n - 1
      if n' = 0 then amDel h t else amSet h t n') b.holders }

/-- A command leaves a Lacer's queue: its tiles return, and its SCOPE is kept for `lacew` (R272). -/
def State.endCmd (s : State) (core l : Nat) (k : LCmd) : State :=
  let s := s.updCore core fun c =>
    c.setLacer l ((c.lacer l).filter fun x => !(x.block == k.block && x.ticket == k.ticket))
  s.updBlk k.block fun b =>
    let b := b.hold k.tiles false
    if 2 ≤ k.entry.scope then { b with lscope := vset b.lscope l (amSet (vget b.lscope l []) k.ticket k.entry.scope) } else b

/-- Energy of bytes moved by a Lacer, charged to the group that issued the command; after its exit, to the block and the core
(21 R401). -/
def State.chargeLacer (s : State) (core : Nat) (k : LCmd) : State :=
  let n := s.weight 10 * k.moved / 256
  match s.grp k.agent with
  | some g =>
    if g.block = k.block ∧ g.state ≠ .exited then
      s.updGrp k.agent fun g => { g with energy := g.energy + BitVec.ofNat 64 n }
    else
      let s := s.updBlk k.block fun b => { b with energy := b.energy + BitVec.ofNat 64 n }
      (s.updCore core fun c => { c with energy := c.energy + BitVec.ofNat 64 n }).countUp core 15 n
  | none =>
    let s := s.updBlk k.block fun b => { b with energy := b.energy + BitVec.ofNat 64 n }
    (s.updCore core fun c => { c with energy := c.energy + BitVec.ofNat 64 n }).countUp core 15 n

/-! ### Rings (11 R246) -/

/-- A ring put in a block. -/
def Block.setRing (b : Block) (k : Nat) (r : Ring) : Block := { b with rings := amSet b.rings k r }
/-- A slot claimed. -/
def Ring.claim (r : Ring) : Ring := { r with free := r.free - 1, pidx := (r.pidx + 1) % r.n, outp := r.outp + 1 }
/-- The oldest claim published. -/
def Ring.publish (r : Ring) : Ring := { r with filled := r.filled + 1, outp := r.outp - 1 }
/-- A slot taken. -/
def Ring.take (r : Ring) : Ring := { r with filled := r.filled - 1, cidx := (r.cidx + 1) % r.n, outc := r.outc + 1 }
/-- The oldest take returned. -/
def Ring.giveBack (r : Ring) : Ring := { r with free := r.free + 1, outc := r.outc - 1 }

end Sys2Proof.Machine
end

