-- ==== Sys2Proof/Machine/Marionette.lean ====
section
/-!
DEFINITION. Sys2Proof/Machine/Marionette.lean: running graphs (06): reads and writes of a context's memory by the part itself
(18 R357), the records of graphs and nodes and the Marionette's writes to them (R114, R115, R120), tokens (R122), the node
transitions of R125 with the fault policies (R127 to R129), and cone walks (R130).
-/

namespace Sys2Proof.Machine

/-! ### The part's own accesses to a context's memory -/

/-- What comes of an access of the part: a value; a fault's cause; a wait for a MIGRATING leaf or a reply. -/
inductive CRes where
  | ok (v : Nat) (s : State)
  | fault (cause : Nat) (s : State)
  | wait (s : State)

/-- A read of n bytes of a context, inside one line. The part itself is none of the agents that reach the on-chip range (01 R31). -/
def State.ctxRead (s : State) (c va n : Nat) : CRes :=
  let r := s.direct c va .read true
  match r.1 with
  | .fault cause _ => .fault cause r.2
  | .revoke _ _ => .fault cLeaseRevoked r.2
  | .migrating _ => .wait s
  | .miss _ => .wait s
  | .ok pa =>
    match r.2.runPlace ⟨some c, false, false, none, partAgent, none⟩ .read pa n with
    | .ok (.mem pa) => if r.2.poisoned pa n then .fault cPoison r.2 else .ok (r.2.read pa n) (r.2.touchHome Config.computeDies pa)
    | .ok (.chip _) => .fault cProtection r.2
    | .ok (.ext pa) =>
      match r.2.extValue partAgent pa n with
      | some v => if v.1 then .fault cPoison (r.2.noteRefused pa) else .ok v.2 r.2
      | none => .wait (r.2.extAsk partAgent c pa n)
    | .ok (.scr _ _) => .fault cProtection r.2
    | .fault cause _ => .fault cause r.2
    | .migrating => .wait s

/-- Several reads in order: their values. -/
inductive CReads where
  | ok (vs : List Nat) (s : State)
  | fault (cause : Nat) (s : State)
  | wait (s : State)

/-- Reads of a context, one after another. -/
def State.ctxReads (s : State) (c : Nat) : List (Nat × Nat) → CReads
  | [] => .ok [] s
  | (va, n) :: rest =>
    match s.ctxRead c va n with
    | .fault cause s => .fault cause s
    | .wait s => .wait s
    | .ok v s =>
      match s.ctxReads c rest with
      | .ok vs s => .ok (v :: vs) s
      | .fault cause s => .fault cause s
      | .wait s => .wait s

/-- A write of n bytes of a context, inside one line; `count` for the writes that monitors count (16 R316). -/
def State.ctxWrite (s : State) (c va n data : Nat) (count : Bool) : CRes :=
  let r := s.direct c va .write true
  match r.1 with
  | .fault cause _ => .fault cause r.2
  | .revoke _ _ => .fault cLeaseRevoked r.2
  | .migrating _ => .wait s
  | .miss _ => .wait s
  | .ok pa =>
    match r.2.runPlace ⟨some c, false, false, none, partAgent, none⟩ .write pa n with
    | .ok (.mem pa) => .ok 0 (r.2.performBytes (if count then some (c, va) else none) pa n data)
    | .ok (.chip _) => .fault cProtection r.2
    | .ok (.ext pa) => .ok 0 (r.2.performWrite ⟨partAgent, 0, c, va, pa, n, data, none, 0, []⟩)
    | .ok (.scr _ _) => .fault cProtection r.2
    | .fault cause _ => .fault cause r.2
    | .migrating => .wait s

/-- The replies that the part has used are forgotten. -/
def State.partDone (s : State) : State :=
  { s with extReqs := s.extReqs.filter fun r => r.write || r.agent != partAgent }

/-- The leaf of an address is MIGRATING: an access of the part waits (18 R357). -/
def State.migratingAt (s : State) (c va : Nat) : Bool :=
  match s.walkCheck c va .read true with
  | .migrating _ => true
  | _ => false

/-- Levels by which a wait of some clocks raises a priority: one for each 4,096, once it is longer than 4,096 (R123). -/
def agedLevels (waited : Nat) : Nat := if 4096 < waited then waited / 4096 else 0

/-! ### Graphs and nodes by number -/

/-- A node of a running graph. -/
def State.node (s : State) (g n : Nat) : Option Node := (amGet s.graphs g).bind fun x => x.nodes[n]?
/-- A running graph changed. -/
def State.updGraph (s : State) (g : Nat) (f : Graph → Graph) : State := { s with graphs := amUpd s.graphs g f }
/-- A node of it changed, in the part alone. -/
def State.updNode (s : State) (g n : Nat) (f : Node → Node) : State :=
  s.updGraph g fun x => match x.nodes[n]? with
    | some y => { x with nodes := x.nodes.set n (f y) }
    | none => x

/-- Node states (R115). -/
def nWaiting : Nat := 0
def nReady : Nat := 1
def nRunning : Nat := 2
def nCancelling : Nat := 3
def nDone : Nat := 4
def nFailed : Nat := 5
def nCancelled : Nat := 6
def nTainted : Nat := 7

/-- The address of node n's record (R114). -/
def Graph.nodeVa (x : Graph) (n : Nat) : Nat := (x.nodesVa.toNat + n * 128) % 2 ^ 64

/-- Writes of records of a context wait: for a MIGRATING leaf, or for the rest of a word at a host or peer (R120, 18 R357). -/
def State.recWaits (s : State) (c : Nat) : Bool := s.recWrites.any fun w => w.1 == c

/-- The header or a record of a graph lies in a MIGRATING page. -/
def State.recordsMigrate (s : State) (x : Graph) : Bool :=
  s.migratingAt x.ctx x.va.toNat || (List.range x.nodes.length).any fun n => s.migratingAt x.ctx (x.nodeVa n)

/-- Graphs whose records an event of graph g may write: its own, its parent's, and those of the graphs below it (R118). -/
def State.family (s : State) (g : Nat) : List Graph :=
  (s.graphs.filter fun y => y.1 == g || y.2.regions.contains g ||
    (((amGet s.graphs g).bind fun x => x.parent).any fun p => p.1 == y.1)).map (·.2)

/-- What writes the records of a graph waits (R120): one of them lies in a MIGRATING page, or earlier writes of records of its context have
not been performed. -/
def State.graphStuck (s : State) (g : Nat) : Bool :=
  match amGet s.graphs g with
  | none => false
  | some x => s.recWaits x.ctx || (s.family g).any s.recordsMigrate

/-- The replies that the part has used for a word of a context are forgotten. -/
def State.partUsed (s : State) (c va : Nat) : State :=
  match s.walkCheck c va .read true with
  | .ok pa => { s with extReqs := s.extReqs.filter fun r =>
      r.write || r.agent != partAgent || r.reply.isNone || !(decide (r.pa ≤ pa ∧ pa < r.pa + r.size)) }
  | _ => s

/-- Bits of an 8-byte word of a record written: whether the write is done with, and the state; a fault leaves it unperformed and the
context FAULTED (R120). -/
def State.recordWrite (s : State) (c va : Nat) (mask val : BitVec 64) : Bool × State :=
  match s.ctxRead c va 8 with
  | .wait t => (false, t)
  | .fault cause t => (true, (t.partUsed c va).faultCtx c cause 0)
  | .ok old t =>
    match (t.partUsed c va).ctxWrite c va 8 ((BitVec.ofNat 64 old &&& ~~~mask) ||| (val &&& mask)).toNat false with
    | .ok _ t => (true, t)
    | .fault cause t => (true, t.faultCtx c cause 0)
    | .wait t => (false, t)

/-- Bits of an 8-byte word of a record written by the Marionette (R120), after every write of the context's records that waits. -/
def State.marWrite (s : State) (c va : Nat) (mask val : BitVec 64) : State :=
  let r := if s.recWaits c then (false, s) else s.recordWrite c va mask val
  if r.1 then r.2 else { r.2 with recWrites := r.2.recWrites ++ [(c, va, mask, val)] }

/-- The writes of records that have waited, tried again in order. -/
def State.retryRecords (s : State) : State :=
  s.recWrites.foldl (fun s w => s.marWrite w.1 w.2.1 w.2.2.1 w.2.2.2) { s with recWrites := [] }

/-- Writes to hosts and peers that act for a context and are not acknowledged (11 R231). -/
def State.ctxWrites (s : State) (c : Nat) : Bool := s.extReqs.any fun r => r.write && r.reply.isNone && r.ctx == c

/-- The dynamic fields of word 0x00 of a node record. -/
def Node.word0 (x : Node) : BitVec 64 :=
  BitVec.ofNat 64 (x.state * 2 ^ 4 + x.vsel * 2 ^ 14 + x.rused * 2 ^ 20 + x.status * 2 ^ 24 + x.toksent.toNat * 2 ^ 44 +
    x.walked.toNat * 2 ^ 45)

/-- A field of a record written where it changed. -/
def State.marChange (s : State) (c va : Nat) (mask old new : BitVec 64) : State :=
  if old &&& mask = new &&& mask then s else s.marWrite c va mask new

/-- The dynamic and the reserved bits of words 0x00, 0x08 and 0x78 of a node record (R115), the first without VSEL: a write of the part leaves
the others, and the reserved bits are written as zero (00 R7). -/
def nodeMask0 : BitVec 64 := 0xFFFFF000FFF000F0
def nodeMask8 : BitVec 64 := 0xFFF00000FFFF0000
def nodeMask78 : BitVec 64 := 0xFFFFFF000000FFFF
/-- The reserved bits of word 0x00 of a header (R114). -/
def headerRsv : BitVec 64 := 0xFFFF00000000F000

/-- A node's dynamic fields put, in the part and in its record (R120). VSEL is written by a firing (R126), with the other fields
of its word. -/
def State.putNode (s : State) (g n : Nat) (new : Node) : State :=
  match amGet s.graphs g, s.node g n with
  | some x, some old =>
    let va := x.nodeVa n
    let s := s.updGraph g fun x => { x with nodes := x.nodes.set n new }
    let s := s.marChange x.ctx va (if old.vsel = new.vsel then nodeMask0 else nodeMask0 ||| 0xC000)
      old.word0 new.word0
    let s := s.marChange x.ctx (va + 8) nodeMask8 (BitVec.ofNat 64 (old.haveTok * 2 ^ 16))
      (BitVec.ofNat 64 (new.haveTok * 2 ^ 16))
    s.marChange x.ctx (va + 0x78) nodeMask78 (BitVec.ofNat 64 old.wlink) (BitVec.ofNat 64 new.wlink)
  | _, _ => s

/-- A whole word of a node's record written. -/
def State.nodeWord (s : State) (g n off : Nat) (v : BitVec 64) : State :=
  match amGet s.graphs g with
  | none => s
  | some x => s.marWrite x.ctx (x.nodeVa n + off) (BitVec.allOnes 64) v

/-- STATE, GSTATUS and FAILED of a header (R114). -/
def Graph.word0 (x : Graph) (gstatus : Nat) : BitVec 64 := BitVec.ofNat 64 (x.state + gstatus * 2 ^ 4 + x.failed * 2 ^ 32)
/-- WHEAD, WTAIL and WACT of a header. -/
def Graph.walkWord (x : Graph) : BitVec 64 := BitVec.ofNat 64 (x.whead + x.wtail * 2 ^ 16 + x.wact.toNat * 2 ^ 32)

/-- A running graph's dynamic fields put, in the part and in its header. -/
def State.putGraph (s : State) (g : Nat) (new : Graph) : State :=
  match amGet s.graphs g with
  | none => s
  | some old =>
    let s := { s with graphs := amSet s.graphs g new }
    let s := s.marChange new.ctx new.va.toNat (headerRsv ||| 0xFFFF0000000F) (old.word0 0) (new.word0 0)
    s.marChange new.ctx (new.va.toNat + 0x20) (BitVec.allOnes 64) old.walkWord new.walkWord

/-! ### Tokens (R122) -/

/-- One token reaches a node. -/
def State.token (s : State) (g n : Nat) : State :=
  match s.node g n with
  | none => s
  | some x =>
    if x.state = nWaiting then
      if x.haveTok + 1 = x.need then
        s.putNode g n { x with haveTok := x.haveTok + 1, state := nReady, readyClk := s.clk.toNat, raised := 0 }
      else s.putNode g n { x with haveTok := x.haveTok + 1 }
    else s

/-- A node's tokens sent, once per launch. -/
def State.sendTokens (s : State) (g n : Nat) : State :=
  match s.node g n with
  | none => s
  | some x => if x.toksent then s else x.succs.foldl (fun s m => s.token g m) (s.putNode g n { x with toksent := true })

/-! ### Cone walks (R130) -/

/-- A node appended to the FIFO of the walk, unless it has been. -/
def State.walkAppend (s : State) (g n : Nat) : State :=
  match amGet s.graphs g, s.node g n with
  | some x, some nd =>
    if nd.walked then s
    else
      let s := s.putNode g n { nd with walked := true, wlink := 0xFFFF }
      let s := match s.node g x.wtail with
        | some t => if x.whead = 0xFFFF then s else s.putNode g x.wtail { t with wlink := n }
        | none => s
      s.putGraph g { ((amGet s.graphs g).getD x) with
        whead := if x.whead = 0xFFFF then n else x.whead
        wtail := n
        wact := true
        visitClk := if x.wact then x.visitClk else s.clk.toNat + 4 }
  | _, _ => s

/-- A walk started from a root: its successors are appended. -/
def State.startWalk (s : State) (g n : Nat) : State :=
  match s.node g n with
  | none => s
  | some x => x.succs.foldl (fun s m => s.walkAppend g m) s

/-! ### Transitions (R125) -/

/-- The blocks of a grid flagged for discard (R128). -/
def State.discardGrid (s : State) (grid : Nat) : State :=
  { s with blocks := amMap (fun _ b => if b.grid = grid then { b with discarding := true } else b) s.blocks }

/-- A grid changes state (R149). -/
def State.setGrid (s : State) (grid : Nat) (st : GridState) : State :=
  s.updGrid grid fun g => if g.state = .ended then g else { g with state := st }

/-- T_DONE written at a node's final state. -/
def State.nodeDoneClk (s : State) (g n : Nat) : State := s.nodeWord g n 0x70 s.clk

/-- FAILED takes a root's index where it holds none (R129). -/
def State.markRoot (s : State) (g n : Nat) : State :=
  match amGet s.graphs g with
  | none => s
  | some x => if x.failed = 0xFFFF then s.putGraph g { x with failed := n } else s

/-- A fault of the node is retried (R127). -/
def Node.retries (x : Node) : Bool := x.policy == 1 && x.idem && decide (x.rused < x.rbudget)

/-- The node has failed for good, though its record says RUNNING until its blocks have left their cores: as a FAILED node it is cancelled
no more. A node whose fault is to be retried can be cancelled until then. R125 leaves both open (the model's choice, log 33). -/
def Node.failing (x : Node) : Bool := x.state == nRunning && x.ending.isSome && !x.retries

/-- A child graph of a node is cancelled whole, and what it runs below it, to a depth (R118, R125). -/
def State.cancelChildren (st : Nat) : Nat → State → Nat → State
  | 0, s, _ => s
  | fuel + 1, s, g =>
    match amGet s.graphs g with
    | none => s
    | some x =>
      let s := s.putGraph g { x with cancelled := true }
      (List.range x.nodes.length).foldl (fun s n =>
        match s.node g n with
        | none => s
        | some nd =>
          if nd.state = nWaiting ∨ nd.state = nReady then
            (s.putNode g n { nd with state := nCancelled, status := st }).nodeDoneClk g n
          else if nd.state = nRunning ∧ nd.failing = false then
            let s := s.putNode g n { nd with state := nCancelling, ending := some st }
            let s := match nd.grid with
              | some k => s.setGrid k .cancelling
              | none => s
            match nd.child with
            | some c => s.cancelChildren st fuel c
            | none => s
          else s) s

/-- The cone-visit row of R125, with the STATUS that a cancelled node takes. T_DONE of a node that was DONE stays: whether TAINTED is a final
state of its own, at which R115 has it written again, the spec does not say (the model's choice, log 33). -/
def State.coneVisit (s : State) (g n st : Nat) : State :=
  match s.node g n with
  | none => s
  | some x =>
    if x.state = nWaiting ∨ x.state = nReady then
      (s.putNode g n { x with state := nCancelled, status := st }).nodeDoneClk g n
    else if x.state = nRunning ∧ x.failing = false then
      let s := s.putNode g n { x with state := nCancelling, ending := some st }
      let s := match x.grid with
        | some k => s.setGrid k .cancelling
        | none => s
      match x.child with
      | some c => s.cancelChildren 0x43 8 c
      | none => s
    else if x.state = nDone then s.putNode g n { x with state := nTainted }
    else s

/-- A node's effective fault domain (R117). -/
def Graph.nodeFdom (x : Graph) (n : Node) : Nat := if n.fdom ≠ 0 then n.fdom else x.fdom
/-- A node's effective priority (R117). -/
def Graph.nodePrio (x : Graph) (n : Node) : Nat := if n.povr then n.prio else x.prio

/-- HALT_GRAPH (R129). -/
def State.haltGraph (s : State) (g n : Nat) : State :=
  match amGet s.graphs g, s.node g n with
  | some x, some nd =>
    let inDom := (List.range x.nodes.length).filter fun m =>
      match x.nodes[m]? with
      | some y => m != n && x.nodeFdom y == x.nodeFdom nd && decide (y.state ≤ nRunning)
      | none => false
    let s := inDom.foldl (fun s m => s.coneVisit g m 0x48) s
    let s := s.putGraph g { ((amGet s.graphs g).getD x) with halted := true, state := 2, failed := n }
    (n :: inDom).foldl (fun s m => s.startWalk g m) s
  | _, _ => s

/-- The policy of a fault that is not retried (R129); a HALT_GRAPH action follows the cone visit of its clock (R124). -/
def State.faultPolicy (s : State) (g n : Nat) (policy : Nat) : State :=
  if policy = 3 then s.updGraph g fun x => { x with halts := x.halts ++ [n] } else (s.markRoot g n).startWalk g n

/-- A fault of a node takes effect, once its blocks have left their cores (R125, R127). -/
def State.faultNow (s : State) (g n cause : Nat) : State :=
  match s.node g n with
  | none => s
  | some x =>
    let x := { x with grid := none, child := none, engine := none, ending := none, starting := none, status := cause }
    if x.retries then
      s.putNode g n { x with state := nReady, rused := x.rused + 1, readyClk := s.clk.toNat, raised := 0 }
    else ((s.putNode g n { x with state := nFailed }).nodeDoneClk g n).faultPolicy g n x.policy

/-- A fault of a node (R127): RUNNING, its blocks are discarded first; CANCELLING, they are discarded and the state stays; a
second fault of one attempt has no effect. -/
def State.nodeFault (s : State) (g n cause : Nat) : State :=
  match s.node g n with
  | none => s
  | some x =>
    let discard := match x.grid with
      | some k => (s.setGrid k .ended).discardGrid k
      | none => s
    if x.state = nRunning then
      if x.ending.isSome then s
      else
        match x.grid with
        | some _ => discard.updNode g n fun y => { y with ending := some cause }
        | none => (s.disarm (.node g n)).faultNow g n cause
    else if x.state = nCancelling then discard
    else s

/-- TIME of the variant that ran, measured (R126). -/
def State.recordTime (s : State) (g n : Nat) (x : Node) : State :=
  match x.grid.bind (amGet s.grids) with
  | none => s
  | some k =>
    if (s.ctx k.ctx).pinVariant then s
    else
      let m := min k.clocks (2 ^ 32 - 1)
      let off := 0x50 + x.vsel / 2 * 8
      let shift := x.vsel % 2 * 32
      let s := s.updNode g n fun y => { y with times := vset x.times x.vsel m }
      match amGet s.graphs g with
      | some y => s.marWrite y.ctx (y.nodeVa n + off) (0xFFFFFFFF#64 <<< shift) (BitVec.ofNat 64 (m * 2 ^ shift))
      | none => s

/-- The placement record written under PIN_VARIANT (R126). -/
def State.recordPlacement (s : State) (x : Node) : State :=
  match x.grid.bind (amGet s.grids) with
  | none => s
  | some k =>
    if (s.ctx k.ctx).pinVariant && x.payload != 0 then
      (List.range (Config.cores * 16)).foldl (fun s i =>
        let w := (amGet k.busy i).getD (0, 0)
        let v := min w.1 (2 ^ 32 - 1) + min w.2 (2 ^ 32 - 1) * 2 ^ 32
        s.marWrite k.ctx (x.payload.toNat + i * 8) (BitVec.allOnes 64) (BitVec.ofNat 64 v)) s
    else s

/-- A node's work is done (R125): RUNNING it becomes DONE and sends its tokens, CANCELLING it becomes CANCELLED. -/
def State.nodeFinish (s : State) (g n : Nat) : State :=
  let s := s.disarm (.node g n)
  match s.node g n with
  | none => s
  | some x =>
    if x.state = nCancelling then
      (s.putNode g n { x with state := nCancelled, status := x.ending.getD 0x43, grid := none, child := none, engine := none,
                              ending := none, starting := none }).nodeDoneClk g n
    else if x.state = nRunning then
      let s := (s.recordTime g n x).recordPlacement x
      let x := (s.node g n).getD x
      let s := s.putNode g n { x with state := nDone, status := if x.rused = 0 then 0x40 else 0x41, grid := none,
                                      child := none, engine := none, ending := none }
      (s.nodeDoneClk g n).sendTokens g n
    else s

/-! ### Launch sequence numbers (R123) -/

/-- The next value of the device's counter. -/
def State.nextLseq (s : State) : BitVec 64 × State := (s.lseq, { s with lseq := s.lseq + 1 })

end Sys2Proof.Machine
end

