-- ==== Sys2Proof/Machine/Kernel.lean ====
section
/-!
DEFINITION. Sys2Proof/Machine/Kernel.lean: grids, clusters and blocks (07): kernel descriptors (R136, R138), the choice of cores
(R139 to R141), admission and re-cuts (R142 to R145), block launch (R146, R147), block exit and grid life (R148, R149).
-/

namespace Sys2Proof.Machine

/-! ### Kernel descriptors (R136, R138) -/

/-- The descriptor that 64 bytes hold. -/
def KDesc.ofCode (x : Nat) : KDesc :=
  let f := fun (at' n : Nat) => x / 2 ^ at' % 2 ^ n
  ⟨BitVec.ofNat 64 x, f 64 32, f 96 8, f 104 4, f 108 1 == 1, f 112 8, f 120 6, f 128 5, f 136 5, f 144 5, f 160 16,
    BitVec.ofNat 64 (f 192 64), BitVec.ofNat 64 (f 256 64), BitVec.ofNat 64 (f 320 64)⟩

/-- A reserved field of a descriptor is nonzero. -/
def kdescReserved (x : Nat) : Bool :=
  let f := fun (at' n : Nat) => x / 2 ^ at' % 2 ^ n
  f 109 3 != 0 || f 126 2 != 0 || f 133 3 != 0 || f 141 3 != 0 || f 149 11 != 0 || f 176 16 != 0 || f 384 128 != 0

/-- Units of 64 KiB of a block's register span, rounded up. -/
def KDesc.units (d : KDesc) : Nat := (d.bdim * d.regs + 255) / 256
/-- The least L1 of a block, in units. -/
def KDesc.l1 (d : KDesc) : Nat := max 2 d.l1min
/-- Bytes of a block's register span (R143). -/
def KDesc.span (d : KDesc) : Nat := d.bdim * d.regs * 256

/-- GRAPH_ERROR of R138, for a node whose region's budgets are given. -/
def KDesc.bad (d : KDesc) (x cores accs : Nat) : Bool :=
  d.entry.toNat % 4 != 0 || d.gdim == 0 || d.bdim == 0 || decide (128 < d.bdim) || d.cldim == 0 || decide (8 < d.cldim) ||
  d.gdim % d.cldim != 0 || d.regs % 8 != 0 || decide (d.regs < 8 ∨ 128 < d.regs) ||
  decide (32 < d.acc ∨ 16 < d.scr ∨ d.l1min = 1 ∨ 16 < d.l1min ∨ 16 < d.nph) ||
  d.param.toNat % 256 != 0 || (d.param == 0 && d.psize != 0) || d.phtab.toNat % 4 != 0 || (d.phtab == 0 && d.nph != 0) ||
  kdescReserved x || decide (24 < d.units ∨ 32 < d.units + d.scr + d.l1 ∨ accs < d.acc ∨ cores < d.cldim)

/-! ### Admission on a core (R142 to R144) -/

/-- The lowest free place of n bytes in [lo, hi) beside spans that are taken. -/
def lowestFit (taken : List (Nat × Nat)) (lo hi n : Nat) : Option Nat :=
  let free := fun (p : Nat) => decide (lo ≤ p ∧ p + n ≤ hi) && taken.all fun t => decide (p + n ≤ t.1 ∨ t.1 + t.2 ≤ p)
  (lo :: taken.map fun t => t.1 + t.2).foldl
    (fun best p =>
      if free p then
        match best with
        | none => some p
        | some q => some (min p q)
      else best) none

/-- The blocks resident on a core. -/
def State.coreBlocks (s : State) (core : Nat) : List Block := (s.blocks.map (·.2)).filter fun b => b.core == core

/-- Register spans taken. -/
def spansOf (bs : List Block) : List (Nat × Nat) := bs.map fun b => (b.regBase, b.desc.span)
/-- Scratchpad ranges taken; a block without scratchpad takes none. -/
def scrsOf (bs : List Block) : List (Nat × Nat) :=
  (bs.filter fun b => b.desc.scr != 0).map fun b => (b.scrBase, b.desc.scr * 65536)

/-- Where a block's spans go under a cut (R143). -/
def fitUnder (bs : List Block) (d : KDesc) (rb sb : Nat) : Option (Nat × Nat) :=
  match lowestFit (spansOf bs) 0 (rb * 65536) d.span, lowestFit (scrsOf bs) (rb * 65536) (sb * 65536) (d.scr * 65536) with
  | some r, some q => some (r, q)
  | _, _ => none

/-- The L1 that the resident blocks and a new one need, in units. -/
def l1Need (bs : List Block) (d : KDesc) : Nat := bs.foldl (fun n b => max n b.desc.l1) d.l1

/-- A cut of R144 for a new block. -/
def cutOk (bs : List Block) (d : KDesc) (rb sb : Nat) : Bool :=
  decide (4 ≤ rb ∧ rb ≤ 24 ∧ rb ≤ sb ∧ sb ≤ rb + 16 ∧ sb + l1Need bs d ≤ 32) &&
  (spansOf bs).all (fun t => decide (t.1 + t.2 ≤ rb * 65536)) &&
  (scrsOf bs).all fun t => decide (rb * 65536 ≤ t.1 ∧ t.1 + t.2 ≤ sb * 65536)

/-- The cuts in the order of choice: the least RB', then the least SB'. -/
def cutOrder : List (Nat × Nat) := ((List.range 21).map fun r => (List.range 17).map fun k => (r + 4, r + 4 + k)).flatten

/-- The cut of a core once the re-cuts in progress are done: RB, SB and LB. -/
def Core.cut (c : Core) : Nat × Nat × Nat :=
  match c.recut.getLast? with
  | some x => (x.1, x.2.1, 32)
  | none => (c.rb, c.sb, c.lb)

/-- Where the launcher of a core places a block: register base, scratchpad base, the new cut where one is made (R144). A re-cut in
progress is followed by another where the cut it writes does not hold the block. -/
def State.fit (s : State) (core : Nat) (d : KDesc) : Option (Nat × Nat × Option (Nat × Nat)) :=
  let cut := (s.core core).cut
  let bs := s.coreBlocks core
  match fitUnder bs d cut.1 cut.2.1, decide (cut.2.1 + l1Need bs d ≤ cut.2.2) with
  | some p, true => some (p.1, p.2, none)
  | _, _ =>
    cutOrder.findSome? fun x =>
      if cutOk bs d x.1 x.2 then (fitUnder bs d x.1 x.2).map fun p => (p.1, p.2, some x) else none

/-- The groups on a quadrant of a core (numbered over the device). -/
def State.quadCount (s : State) (quad : Nat) : Nat := (s.groups.filter fun ag => quadOf ag.1 == quad).length

/-- A core is kept from a grid's cluster: by a context that restores onto it (04 R100), or by an earlier reservation (R140). -/
def State.reserved (s : State) (core ctx grid : Nat) : Bool :=
  (s.ctxs.any fun x => x.1 != ctx && x.2.restoring && x.2.saved.any fun b => b.block.core == core) ||
  (s.grids.any fun x =>
    x.1 != grid && x.2.state == .dispatching && x.2.reserved.contains core &&
    match amGet s.grids grid with
    | some me => !(me.reserved.contains core && decide (me.resClk < x.2.resClk ∨ (me.resClk = x.2.resClk ∧ grid < x.1)))
    | none => true)

/-- The launcher of a core would admit a block of a grid (R142), region budgets aside. -/
def State.admits (s : State) (core ctx grid : Nat) (d : KDesc) : Bool :=
  let bs := s.coreBlocks core
  s.liveCd.getLsbD (dieOf core) && decide (core < Config.cores) && bs.all (fun b => b.ctx == ctx) && !(s.reserved core ctx grid) &&
  ((List.range 4).all fun q => decide (s.quadCount (core * 4 + q) + (d.bdim + 3 - q) / 4 ≤ Config.slotsPerQuadrant)) &&
  decide ((bs.map fun b => b.desc.acc).sum + d.acc ≤ Config.accSlots) && (s.fit core d).isSome

/-- The seed of a group (R147). -/
def groupSeed (seed0 kseed : BitVec 64) (bid gid : Nat) : BitVec 64 :=
  seed0 ^^^ kseed ^^^ BitVec.ofNat 64 ((bid * 128 + gid + 1) * 0x9E3779B97F4A7C15)

/-- The free slots of a quadrant of a core, lowest first, as agents. -/
def State.freeAgents (s : State) (core q : Nat) : List Nat :=
  (numsFrom (core * Config.slotsPerCore + q * Config.slotsPerQuadrant) Config.slotsPerQuadrant).filter fun a => (s.grp a).isNone

/-- A core passes to a context: counters restart where it held another one (21 R399). -/
def Core.pass (c : Core) (ctx : Nat) (clk : BitVec 64) : Core :=
  if c.lastCtx = some ctx then c
  else { c with lastCtx := some ctx, ctr := Vector.replicate 64 0, since := clk }

/-- Clocks of a re-cut (R145): 16, and 4 lines of L1 a clock for those taken. -/
def Core.cutClocks (c : Core) (sb : Nat) : Nat := 16 + (min sb c.cut.2.2 - c.cut.2.1) * 256 / 4

/-- The clock at which the re-cuts in progress are done, now where there are none. -/
def Core.cutDone (c : Core) (now : Nat) : Nat :=
  match c.recut.getLast? with
  | some x => max now x.2.2
  | none => now

/-- A re-cut begun (R145), after those in progress. -/
def Core.cutTo (c : Core) (now : Nat) (x : Nat × Nat) : Core :=
  { c with recut := c.recut ++ [(x.1, x.2, c.cutDone now + c.cutClocks x.2)] }

/-- Clocks that zeroing a block takes, at 256 bytes a clock (R146). -/
def KDesc.zeroClocks (d : KDesc) : Nat := (d.span + d.bdim * d.regs * 16 + d.scr * 65536 + 255) / 256

/-- A barrier state of a block at launch (16 R303). -/
def launchBars (d : KDesc) : Vector Bar 16 := Vector.replicate 16 (Bar.launch d.bdim)

/-- A block admitted by a core (R143, R146): its spans and slots are taken, and its launch begins; the firing of its node was an acquire for
its groups (06 R122). The number of the block. -/
def State.admitBlock (s : State) (core grid cl bid rank : Nat) (k : Grid) (p : Nat × Nat × Option (Nat × Nat)) : Nat × State :=
  let d := k.desc
  let (n, s) := s.fresh
  let now := s.clk.toNat
  let slots := (List.range 4).map fun q => s.freeAgents core q
  let mine := (List.range d.bdim).map fun gid => (slots.getD (gid % 4) []).getD (gid / 4) 0
  let c := (s.core core).pass k.ctx s.clk
  let c := match p.2.2 with
    | none => c
    | some x => c.cutTo now x
  let b : Block :=
    { core := core, ctx := k.ctx, grid := grid, bid := bid, cluster := cl, rank := rank, desc := d, phases := k.phases,
      slots := mine, regBase := p.1, scrBase := p.2.1, launching := true, readyAt := c.cutDone now + d.zeroClocks + 64,
      discarding := false, bars := launchBars d, tickets := Vector.replicate 4 0, lscope := Vector.replicate 4 [],
      lfault := Vector.replicate 4 none, lwatch := Vector.replicate 4 none, rings := [], holders := [], energy := 0 }
  let gs := (mine.zip (List.range d.bdim)).foldl
    (fun (m : AMap Group) ag =>
      let seed := groupSeed (s.ctx k.ctx).seed0 d.kseed bid ag.2
      amSet m ag.1 { Group.launch n ag.2 d.regs d.entry seed (Vector.ofFn fun l => seedLane seed l.val) with acqClk := k.fired }) s.groups
  (n, { s.setCore core c with groups := gs, blocks := amSet s.blocks n b })

/-! ### Region budgets (06 R117) -/

/-- The regions that a grid's blocks count in. -/
def State.regionsOf (s : State) (k : Grid) : List Nat :=
  match amGet s.graphs k.graph with
  | some g => g.regions
  | none => []

/-- The resident blocks of a region. -/
def State.regionBlocks (s : State) (r : Nat) : List Block :=
  (s.blocks.map (·.2)).filter fun b =>
    match amGet s.grids b.grid with
    | some k => (s.regionsOf k).contains r
    | none => false

/-- A placement of a grid's cluster on cores keeps the core budget of every region. -/
def State.coresOk (s : State) (k : Grid) (cores : List Nat) : Bool :=
  (s.regionsOf k).all fun r =>
    match amGet s.graphs r with
    | some g => decide ((((s.regionBlocks r).map (·.core)) ++ cores).eraseDups.length ≤ g.cores)
    | none => true

/-- A cluster of a grid keeps the slot budget of every region. -/
def State.accsOk (s : State) (k : Grid) : Bool :=
  (s.regionsOf k).all fun r =>
    match amGet s.graphs r with
    | some g => decide (((s.regionBlocks r).map fun b => b.desc.acc).sum + k.desc.cldim * k.desc.acc ≤ g.accs)
    | none => true

/-! ### The choice of cores (R141) -/

/-- Insertion into a list in an order; equals stay in their order. -/
def insertBy {α : Type} (before : α → α → Bool) (x : α) : List α → List α
  | [] => [x]
  | y :: r => if before x y then x :: y :: r else y :: insertBy before x r

/-- A list in an order, where `before x y` holds of x and y that may stand so. -/
def sortBy {α : Type} (before : α → α → Bool) (xs : List α) : List α := xs.foldr (insertBy before) []

/-- The candidate cores of a die, those with the fewest resident groups first, and lower numbers on ties. -/
def State.candidates (s : State) (die grid : Nat) (k : Grid) : List Nat :=
  let cs := (numsFrom (die * Config.coresPerDie) Config.coresPerDie).filter fun c => s.admits c k.ctx grid k.desc
  let count := fun (c : Nat) => (s.groups.filter fun ag => coreOf ag.1 == c).length
  (sortBy (fun x y => decide (x.1 < y.1 ∨ (x.1 = y.1 ∧ x.2 ≤ y.2))) (cs.map fun c => (count c, c))).map (·.2)

/-- The first n cores, passing over each that would take a region above its core budget with the cores already taken. How the part goes on
where the placement of the fewest groups exceeds a core budget R141 does not say: the model passes over single cores of the die, and does
not choose the first die of a pair anew (its choice, log 39). -/
def State.pick (s : State) (k : Grid) : Nat → List Nat → List Nat → Option (List Nat)
  | 0, _, _ => some []
  | _, _, [] => none
  | n + 1, taken, c :: cs =>
    if s.coresOk k (c :: taken) then (s.pick k n (c :: taken) cs).map fun r => c :: r else s.pick k (n + 1) taken cs

/-- n cores of a die in ascending number beside the cores already taken, none where it has too few candidates that the core
budgets admit. -/
def State.takeCores (s : State) (die n grid : Nat) (k : Grid) (taken : List Nat) : Option (List Nat) :=
  (s.pick k n taken (s.candidates die grid k)).map fun cs => sortBy (fun x y => decide (x ≤ y)) cs

/-- The die pairs of step 2. -/
def diePairs : List (Nat × Nat) := [(0, 1), (2, 3), (0, 2), (1, 3)]

/-- Consecutive ranks packed on cores (step 3): the cores of the ranks that found one. The blocks placed count under R142 and
against the core budgets. -/
def packRanks (grid : Nat) (k : Grid) : Nat → State → List Nat → Nat → List Nat × State
  | 0, s, _, _ => ([], s)
  | _, s, [], _ => ([], s)
  | _, s, _, 0 => ([], s)
  | fuel + 1, s, c :: cs, n + 1 =>
    match (if s.admits c k.ctx grid k.desc && s.coresOk k [c] then s.fit c k.desc else none) with
    | some p =>
      let r := packRanks grid k fuel (s.admitBlock c grid 0 0 0 k p).2 (c :: cs) n
      (c :: r.1, r.2)
    | none => packRanks grid k fuel s cs (n + 1)

/-- Step 3 on one die. -/
def State.packDie (s : State) (die n grid : Nat) (k : Grid) : Option (List Nat × State) :=
  let cs := s.candidates die grid k
  let r := packRanks grid k (cs.length + n) s cs n
  if r.1.length = n then some r else none

/-- The cores of a cluster by rank, none where it is not admitted (R141). -/
def State.placement (s : State) (grid : Nat) (k : Grid) : Option (List Nat) :=
  let n := k.desc.cldim
  let h := (n + 1) / 2
  let pairs := if k.desc.straddle then diePairs else []
  let two := fun (p : Nat × Nat) =>
    match s.takeCores p.1 h grid k [] with
    | some x => (s.takeCores p.2 (n - h) grid k x).map fun y => x ++ y
    | none => none
  let packTwo := fun (p : Nat × Nat) =>
    match s.packDie p.1 h grid k with
    | some x => (x.2.packDie p.2 (n - h) grid k).map fun y => x.1 ++ y.1
    | none => none
  if s.accsOk k then
    match (List.range Config.computeDies).findSome? fun d => s.takeCores d n grid k [] with
    | some x => some x
    | none =>
      match pairs.findSome? two with
      | some x => some x
      | none =>
        match (List.range Config.computeDies).findSome? fun d => (s.packDie d n grid k).map (·.1) with
        | some x => some x
        | none => pairs.findSome? packTwo
  else none

/-- A cluster of two dies straddles (R141). -/
def straddles (cores : List Nat) : Bool :=
  match cores with
  | [] => false
  | c :: cs => cs.any fun x => dieOf x != dieOf c

/-- Blocks of a cluster admitted on their cores: their numbers by rank. -/
def admitAll (grid cl : Nat) (k : Grid) : List (Nat × Nat) → State → List Nat × State
  | [], s => ([], s)
  | (rank, core) :: rest, s =>
    match s.fit core k.desc with
    | none => ([], s)
    | some p =>
      let r := s.admitBlock core grid cl (k.nextCluster * k.desc.cldim + rank) rank k p
      let q := admitAll grid cl k rest r.2
      (r.1 :: q.1, q.2)

/-- The barriers of a cluster's halves at launch (16 R303). -/
def clusterBars (d : KDesc) (split : Bool) : Vector Bar 16 :=
  let h := if split then (d.cldim + 1) / 2 else d.cldim
  Vector.ofFn fun i => Bar.launch (d.bdim * (if i.val < 8 then h else d.cldim - h))

/-- A cluster admitted on cores by rank: its blocks launch, and the grid goes on (R149). -/
def State.admitCluster (s : State) (grid : Nat) (k : Grid) (cores : List Nat) : State :=
  let (cl, s) := s.fresh
  let r := admitAll grid cl k ((List.range cores.length).zip cores) s
  let split := straddles cores
  let c : Cluster := ⟨k.ctx, grid, k.nextCluster, k.desc.cldim, split, r.1, clusterBars k.desc split⟩
  let s := { r.2 with clusters := amSet r.2.clusters cl c }
  s.updGrid grid fun g =>
    { g with nextCluster := g.nextCluster + 1, tried := false, waited := 0, reserved := [], started := true,
             state := if (g.nextCluster + 1) * g.desc.cldim = g.desc.gdim then .resident else .dispatching }

/-! ### Offers (R139, R140) -/

/-- A grid that its distributor may offer: not before the writes of its node's record are performed (06 R120). -/
def State.offered (s : State) (k : Grid) : Bool :=
  k.state == .dispatching && (s.ctx k.ctx).state == .running && !(s.ctx k.ctx).restoring && !(s.recWaits k.ctx)

/-- Effective priority with aging: a level for each 4,096 clocks, once it has waited more than 4,096 (06 R123). -/
def agedPrio (prio since now : Nat) : Nat := min 7 (prio + agedLevels (now - since))

/-- The grids of a distributor in its order. From when a grid's priority ages R139 does not say: from its firing, on the priority of its node
before any raising of R123 (the model's choice, log 39). -/
def State.offerOrder (s : State) (die : Nat) : List (Nat × Grid) :=
  let gs := s.grids.filter fun x => x.2.die == die && s.offered x.2
  let now := s.clk.toNat
  gs |> sortBy fun x y =>
    let p := agedPrio x.2.prio x.2.fired now
    let q := agedPrio y.2.prio y.2.fired now
    decide (q < p ∨ (p = q ∧ (x.2.fired < y.2.fired ∨ (x.2.fired = y.2.fired ∧ x.2.node ≤ y.2.node))))

/-- The distributor of a die has an offer to make. -/
def State.canOffer (s : State) (die : Nat) : Bool :=
  decide (die < Config.computeDies) && s.liveCd.getLsbD die && decide ((s.die die).offerClk ≤ s.clk.toNat) &&
  (s.grids.any fun x => x.2.die == die && s.offered x.2)

/-- The place in an order of grids at which the cursor stands (R139): after the grid offered last; where that one has left the order,
at the first that followed it and is still there; else at the start. -/
def cursorAt (order cursor : List Nat) : Nat :=
  match cursor with
  | [] => 0
  | last :: rest =>
    let at' := match order.idxOf? last with
      | some i => i + 1
      | none => (rest.findSome? order.idxOf?).getD 0
    if at' < order.length then at' else 0

/-- The offer of one slot. -/
def State.offer (s : State) (die : Nat) : State :=
  let d := s.die die
  let order := s.offerOrder die
  let at' := cursorAt (order.map (·.1)) d.cursor
  let next := (s.clk.toNat / 8 + 1) * 8
  match order[at']? with
  | none => s
  | some (g, k) =>
    match s.placement g k with
    | some cores => (s.admitCluster g k cores).setDie die { d with cursor := [], offerClk := next }
    | none =>
      (s.updGrid g fun k => { k with tried := true }).setDie die { d with cursor := (order.drop at').map (·.1), offerClk := next }

/-- A cluster offered for 4,096 clocks without being admitted. -/
def State.canReserve (s : State) (grid : Nat) : Bool :=
  match amGet s.grids grid with
  | some k => s.offered k && k.reserved == [] && decide (4096 ≤ k.waited)
  | none => false

/-- Cores reserved for a grid's next cluster: the placement with every resident block and every other reservation absent
(R140). Where there is no such placement its 4,096 clocks start anew, on which R140 is silent (the model's choice, log 39). -/
def State.reserve (s : State) (grid : Nat) : State :=
  match amGet s.grids grid with
  | some k =>
    let ctxs := amMap (fun _ (c : Ctx) => { c with restoring := false }) s.ctxs
    let grids := amMap (fun _ (g : Grid) => { g with reserved := [] }) s.grids
    let cores := amMap (fun _ (c : Core) => { c with recut := [] }) s.cores
    let bare := { s with blocks := [], groups := [], ctxs := ctxs, grids := grids, cores := cores }
    match bare.placement grid k with
    | some cores => s.updGrid grid fun g => { g with reserved := cores.eraseDups, resClk := s.clk.toNat }
    | none => s.updGrid grid fun g => { g with waited := 0 }
  | none => s

/-! ### Re-cut and launch -/

/-- A core's re-cut is due to complete. -/
def State.canRecut (s : State) (core : Nat) : Bool :=
  match (s.core core).recut with
  | x :: _ => decide (x.2.2 ≤ s.clk.toNat)
  | [] => false

/-- CORE.PART written (R145): the writes of the lines taken from L1 are completed, and their sectors invalidated. -/
def State.doRecut (s : State) (core : Nat) : State :=
  let s := s.drainCore core
  s.updCore core fun c =>
    match c.recut with
    | x :: rest =>
      { c with rb := x.1, sb := x.2.1, lb := 32, recut := rest, l1 := c.l1.filter fun y => decide (x.2.1 * 256 ≤ y.2.line) }
    | [] => c

/-- A block's launch is due to end. -/
def State.canLaunch (s : State) (block : Nat) : Bool :=
  match s.blk block with
  | some b => b.launching && s.liveCd.getLsbD (dieOf b.core) && decide (b.readyAt ≤ s.clk.toNat)
  | none => false

/-- The scratchpad of a core in the clock in which the zeroing of blocks ends, 64 clocks before they are READY (R146). -/
def State.zeroed (s : State) (core now : Nat) (scr : List Host.Cell) : List Host.Cell :=
  ((s.coreBlocks core).filter fun b => b.launching && b.readyAt == now + 64).foldl
    (fun m b => clearRange m b.scrBase (b.scrBase + b.desc.scr * 65536)) scr

/-- The poison of a core's scratchpad that the zeroing of blocks leaves (22 R406). -/
def State.zeroedPoison (s : State) (core now : Nat) (bad : List Nat) : List Nat :=
  ((s.coreBlocks core).filter fun b => b.launching && b.readyAt == now + 64).foldl
    (fun m b => clearPoison m b.scrBase (b.desc.scr * 65536)) bad

/-- The groups of a block enter READY (R146). -/
def State.launch (s : State) (block : Nat) : State :=
  match s.blk block with
  | none => s
  | some _ =>
    let s := s.updBlk block fun b => { b with launching := false }
    let ready := fun (_ : Nat) (g : Group) =>
      if g.block = block ∧ g.state = .launching then { g with state := .ready, readyClk := s.clk.toNat, phTimer := 0 } else g
    { s with groups := amMap ready s.groups }

/-! ### Exit (R148) -/

/-- The commands that a block's groups gave to a Lacer. -/
def State.blockCmds (s : State) (block : Nat) (b : Block) (l : Nat) : List LCmd :=
  ((s.core b.core).lacer l).filter fun k => k.block == block

/-- A block's groups have exited and its Lacer commands have ended. -/
def State.blockDone (s : State) (block : Nat) (b : Block) : Bool :=
  !b.launching && (s.groups.all fun ag => ag.2.block != block || ag.2.state == .exited) &&
  (List.range 4).all fun l => (s.blockCmds block b l).isEmpty

/-- A discarded block's groups have stopped at run boundaries, outside capsule steps (06 R128, 17 R330); its Lacer commands are at
command boundaries between any two units (12 R261). -/
def State.blockStoppable (s : State) (block : Nat) : Bool :=
  (s.issue.all fun a => match s.grp a with
    | some g => g.block != block
    | none => true) &&
  s.groups.all fun ag => ag.2.block != block || !ag.2.midStep

/-- A block leaves its core. -/
def State.canExit (s : State) (block : Nat) : Bool :=
  match s.blk block with
  | some b => if b.discarding then s.blockStoppable block else s.blockDone block b
  | none => false

/-- Everything that waits for a group forgotten as its slot becomes FREE. -/
def State.freeSlot (s : State) (a : Nat) : State :=
  let s := (s.dropWaits a).leaveSlot a
  { s with groups := amDel s.groups a, arrivals := s.arrivals.filter fun h => h.agent != a }

/-- A block's resources freed (R148, 14 R283): slots, accumulator slots, commands, spans and quota; what the core's Lacers have asked of
hosts and peers is asked anew where it is still wanted. -/
def State.freeBlock (s : State) (block : Nat) : State :=
  match s.blk block with
  | none => s
  | some b =>
    let agents := (s.groups.filter fun ag => ag.2.block == block).map (·.1)
    let s := agents.foldl State.freeSlot s
    let s := s.updCore b.core fun c =>
      ({ c with lacers := c.lacers.map fun (q : List LCmd) => q.filter fun k => k.block != block }).dropBlockSlots block
    let s := { s with blocks := amDel s.blocks block, extReqs := s.extReqs.filter fun r =>
      r.write || !(decide (lacerAgent b.core 0 ≤ r.agent ∧ r.agent < lacerAgent b.core 4)) }
    if s.blocks.any fun x => x.2.cluster == b.cluster then s else { s with clusters := amDel s.clusters b.cluster }

/-- The last block of a DRAINING context has left: tier 2 starts with nothing resident (04 R92). -/
def State.drainEnd (s : State) (c : Nat) : State :=
  if (s.ctx c).state = .draining ∧ (s.blocks.any fun x => x.2.ctx == c) = false then
    (s.setCtxState c .parking).updCtx c fun x => { x with dcnt := 0, sealed := true }
  else s

/-- A block exits, or is discarded: then its groups' capsule locks become as of halted groups (17 R335). -/
def State.blockExit (s : State) (block : Nat) : State :=
  match s.blk block with
  | none => s
  | some b =>
    let agents := (s.groups.filter fun ag => ag.2.block == block).map (·.1)
    let s := (s.accDrain b.core).drainCore b.core
    let s := ((agents.foldl (if b.discarding then State.mark else State.drainMarks) s).freeBlock block).updCtx b.ctx fun c =>
      { c with saved := c.saved.filter fun x => x.id != block }
    s.drainEnd b.ctx

/-- Each 8-clock slot, a distributor offers the next cluster of one grid for placement (R139). -/
def execClusterOffer (die : Nat) (s : State) : Out := .next (if s.canOffer die then s.offer die else s)

/-- A cluster offered for 4,096 clocks without admission reserves cores (R140). -/
def execClusterReserve (grid : Nat) (s : State) : Out := .next (if s.canReserve grid then s.reserve grid else s)

/-- A pool re-cut completes: L1 lines are invalidated and CORE.PART is written (R145). -/
def execRecut (core : Nat) (s : State) : Out := .next (if s.canRecut core then s.doRecut core else s)

/-- 64 clocks after zeroing, the block's groups enter READY (R146). -/
def execBlockLaunchDone (block : Nat) (s : State) : Out := .next (if s.canLaunch block then s.launch block else s)

/-- A block whose groups have exited and whose Lacer commands have ended releases and frees its resources (R148). -/
def execBlockExit (block : Nat) (s : State) : Out := .next (if s.canExit block then s.blockExit block else s)

end Sys2Proof.Machine
end

