-- ==== Sys2Proof/Machine/BarEv.lean ====
section
/-!
DEFINITION. Sys2Proof/Machine/BarEv.lean: what happens at barriers between words (16): held arrivals applied (R303, R306, R307), the two
halves of a cluster (R303), watchdogs (R309), and the checks of balance monitors (R319, R320).
-/

namespace Sys2Proof.Machine

/-- The barrier that a number names: block barriers at 3 (16 b + i), those of a half of a cluster at 3 (16 c + 8 h + i) + 1,
objects at 3 pa + 2. -/
def BarId.ofCode (n : Nat) : BarId :=
  match n % 3 with
  | 0 => .block (n / 3 / 16) (n / 3 % 16)
  | 1 => .cluster (n / 3 / 16) (n / 3 % 16 / 8) (n / 3 % 8)
  | _ => .object (n / 3)

/-- The number of a barrier. -/
def BarId.code : BarId → Nat
  | .block b i => 3 * (16 * b + i)
  | .cluster c h i => 3 * (16 * c + 8 * h + i) + 1
  | .object pa => 3 * pa + 2

/-! ### Held arrivals (R303, R306, R307) -/

/-- What has reached a barrier in a clock that is over, or is held, and is taken now: while a half waits or an object checks, only a new
count. -/
def State.taken (s : State) (x : BarId) (h : Arrival) : Bool :=
  h.bar == x && (s.turn.isNone || decide (h.clk < s.clk.toNat)) &&
    (s.barOpen x || match h.act with | .expect .. => true | _ => false)

/-- Something has reached a barrier that it takes now. -/
def State.canBatch (s : State) (x : BarId) : Bool := s.arrivals.any (s.taken x)

/-- The batch of the earliest clock: drops first, then by agent (R306). -/
def State.heldBatch (s : State) (x : BarId) : List Arrival :=
  let mine := s.arrivals.filter (s.taken x)
  match mine with
  | [] => []
  | h :: rest =>
    let first := rest.foldl (fun c k => min c k.clk) h.clk
    (mine.filter fun k => k.clk == first) |>
      sortBy fun p q => decide (p.act.rank < q.act.rank ∨ (p.act.rank = q.act.rank ∧ p.agent ≤ q.agent))

/-- The batch applied; what finds the barrier closed again stays held. -/
def State.applyBatch (s : State) (x : BarId) : State := (s.heldBatch x).foldl State.applyHeld s

/-- The arrivals of one clock at a barrier are applied as a batch (R306). -/
def execBarrierBatch (bar : Nat) (s : State) : Out := .next (if s.canBatch (BarId.ofCode bar) then s.applyBatch (BarId.ofCode bar) else s)

/-! ### Cluster halves (R303) -/

/-- Both halves of a cluster of two dies have counted their phase. -/
def State.canExchange (s : State) (x : BarId) : Bool :=
  match x with
  | .cluster cl _ idx =>
    match amGet s.clusters cl with
    | some c => c.split && c.barDone idx
    | none => false
  | _ => false

/-- They advance together. -/
def State.exchangeHalves (s : State) (x : BarId) : State :=
  match x with
  | .cluster cl _ idx => s.updCl cl fun c => c.barAdvance idx
  | _ => s

/-- The halves of a straddling cluster barrier exchange completion and advance PHASE (R303). -/
def execClusterBarrierExchange (bar : Nat) (s : State) : Out := .next (if s.canExchange (BarId.ofCode bar) then s.exchangeHalves (BarId.ofCode bar) else s)

/-! ### Objects that have been moved (18 R357) -/

/-- The object that a group waits at: where it lies, as the group found it, and its virtual address. -/
def State.standsAt (s : State) (a : Nat) (g : Group) : Option (Nat × Nat) :=
  match g.dep with
  | some (.phase (.object pa) _ w) => some (pa, w.va.toNat)
  | some (.held (some va) _) => s.arrivals.findSome? fun h =>
    match h.bar with
    | .object pa => if h.agent = a ∧ h.act.rank < 2 then some (pa, va) else none
    | _ => none
  | _ => none

/-- The objects that groups wait at and whose page now lies elsewhere: context, old place, new place. -/
def State.objMoves (s : State) : List (Nat × Nat × Nat) :=
  (s.groups.filterMap fun ag =>
    match s.standsAt ag.1 ag.2 with
    | some (old, va) =>
      let c := s.groupCtx ag.2
      match s.walkCheck c va .read true with
      | .ok pa => if pa = old then none else some (c, old, pa)
      | _ => none
    | none => none).eraseDups

/-- A barrier by its new place. -/
def BarId.moved (x : BarId) (old pa : Nat) : BarId := if x = .object old then .object pa else x

/-- What waits at an object of a context follows it: groups, arrivals that are held, its check, its watchdog, and its failures. -/
def State.moveObject (s : State) (c old pa : Nat) : State :=
  let mine := fun (a : Nat) => (s.grp a).any fun g => s.groupCtx g == c
  { s with
    groups := amMap (fun _ (g : Group) =>
      match g.dep with
      | some (.phase x t w) => if s.groupCtx g = c then { g with dep := some (.phase (x.moved old pa) t w) } else g
      | _ => g) s.groups
    arrivals := s.arrivals.map fun h => if mine h.agent then { h with bar := h.bar.moved old pa } else h
    checks := s.checks.map fun k => if k.ctx = c ∧ k.pa = old then { k with pa := pa } else k
    objDogs := match amGet s.objDogs old with
      | some n => amSet (amDel s.objDogs old) pa n
      | none => s.objDogs
    objFails := match amGet s.objFails old with
      | some aux => amSet (amDel s.objFails old) pa aux
      | none => s.objFails }

/-- Every object that has been moved is followed. -/
def State.followObjects (s : State) : State := s.objMoves.foldl (fun s m => s.moveObject m.1 m.2.1 m.2.2) s

/-! ### Watchdogs (R309) -/

/-- The context of a barrier. -/
def State.barCtx (s : State) (x : BarId) : Nat :=
  match x with
  | .block b _ => match s.blk b with
    | some k => k.ctx
    | none => 0
  | .cluster c _ _ => match amGet s.clusters c with
    | some k => k.ctx
    | none => 0
  | .object pa => s.objCtx pa

/-- The limit of a barrier's watchdog, 0 for none. -/
def State.dogLimit (s : State) (x : BarId) : Nat :=
  let d := (s.ctx (s.barCtx x)).bwdog
  match x with
  | .object pa => if s.objWdog pa = 0 then d else s.objWdog pa
  | _ => d

/-- The clocks that it has counted. -/
def State.dogCount (s : State) (x : BarId) : Nat :=
  match x with
  | .object pa => (amGet s.objDogs pa).getD 0
  | _ => match s.bar x with
    | some b => b.wdog
    | none => 0

/-- A group may take part in a barrier. -/
def State.participant (s : State) (x : BarId) (b : Nat) : Bool :=
  match x with
  | .block blk _ => b == blk
  | .cluster cl _ _ => match s.blk b with
    | some k => k.cluster == cl
    | none => false
  | .object pa => match s.blk b with
    | some k => k.ctx == s.objCtx pa
    | none => false

/-- The phase of a block's barrier or of one half of a cluster's has an arrival. -/
def State.arrived (s : State) (x : BarId) : Bool :=
  match s.bar x with
  | some b => decide (b.pend < b.exp)
  | none => false

/-- A watchdog counts this clock; that of a cluster barrier is kept in its first half, for both. -/
def State.dogCounts (s : State) (x : BarId) : Bool :=
  (s.ctx (s.barCtx x)).state == .running &&
  (match x with
   | .object pa => decide (s.objPend pa < s.objExp pa) && !(s.objChecking pa)
   | .cluster cl half idx => half == 0 && (s.arrived x || ((amGet s.clusters cl).any (·.split) && s.arrived (.cluster cl 1 idx)))
   | .block .. => s.arrived x) &&
  !(s.groups.any fun ag => ag.2.state == .halted && s.participant x ag.2.block)

/-- The watchdogs of a block's or cluster's barriers after a clock. -/
def State.tickBarVec (s : State) (name : Nat → BarId) (bars : Vector Bar 16) : Vector Bar 16 :=
  Vector.ofFn fun i =>
    let b := vget bars i.val (Bar.launch 0)
    if s.dogCounts (name i.val) then { b with wdog := b.wdog + 1 } else b

/-- Every watchdog after a clock. -/
def State.tickDogs (s : State) : State :=
  { s with
    blocks := amMap (fun k b => { b with bars := s.tickBarVec (fun i => .block k i) b.bars }) s.blocks
    clusters := amMap (fun k c => { c with bars := s.tickBarVec (fun i => .cluster k (i / 8) (i % 8)) c.bars }) s.clusters
    objDogs := amMap (fun pa n => if s.dogCounts (.object pa) then n + 1 else n) s.objDogs }

/-- A watchdog has reached its limit. -/
def State.canDog (s : State) (x : BarId) : Bool :=
  decide (s.dogLimit x ≠ 0 ∧ s.dogLimit x ≤ s.dogCount x)

/-- The count restarted. -/
def State.dogRestart (s : State) (x : BarId) : State :=
  match x with
  | .object pa => { s with objDogs := amUpd s.objDogs pa fun _ => 0 }
  | _ => match s.bar x with
    | some b => s.setBar x { b with wdog := 0 }
    | none => s

/-- The number of a barrier's current phase. -/
def State.barPhase (s : State) (x : BarId) : BitVec 32 :=
  match x with
  | .object pa => BitVec.ofNat 32 (s.objPhase pa)
  | _ => match s.bar x with
    | some b => b.phase.zeroExtend 32
    | none => 0

/-- The same barrier, whichever half of a cluster names it. -/
def BarId.same (x y : BarId) : Bool :=
  match x, y with
  | .cluster c _ i, .cluster d _ j => c == d && i == j
  | _, _ => x == y

/-- The group waits on a phase of a barrier. -/
def Group.waitsOn (g : Group) (x : BarId) (t : BitVec 32) : Bool :=
  match g.dep with
  | some (.phase y u _) => x.same y && t == u
  | _ => false

/-- A fate given to every group that waits on a phase of a barrier. -/
def State.giveFate (s : State) (x : BarId) (t : BitVec 32) (f : Fate) : State :=
  { s with groups := amMap (fun _ (g : Group) => if g.waitsOn x t then { g with fate := some f } else g) s.groups }

/-- BARRIER_STALL reaches every group that waits on the current phase. -/
def State.dogExpire (s : State) (x : BarId) : State := (s.giveFate x (s.barPhase x) .stall).dogRestart x

/-- A barrier watchdog expires and the waiting groups take BARRIER_STALL (R309). -/
def execBarrierWatchdog (bar : Nat) (s : State) : Out := .next (if s.canDog (BarId.ofCode bar) then s.dogExpire (BarId.ofCode bar) else s)

/-! ### Checks of balance monitors (R319, R320) -/

/-- A slice has still to answer a check. -/
def State.canCollect (s : State) (check slice : Nat) : Bool :=
  match s.checks[check]? with
  | some k => k.slices.contains slice
  | none => false

/-- A slice delivers the partials and flags of a check's monitors, and zeroes them. -/
def State.collect (s : State) (check slice : Nat) : State :=
  match s.checks[check]? with
  | none => s
  | some k =>
    let sums := k.mons.foldl (fun a x => collectInto a x.2 (s.monPartial k.ctx x.2 slice)) k.sums
    { s with
      partials := k.mons.foldl (fun ps x => amDel ps (partialKey k.ctx x.2 slice)) s.partials
      checks := s.checks.set check { k with slices := k.slices.filter fun x => x != slice, sums := sums } }

/-- A slice receives a collection request and delivers and zeroes its partials (R319). -/
def execMonitorCollect (check : Nat) (slice : Nat) (s : State) : Out := .next (if s.canCollect check slice then s.collect check slice else s)

/-- Every slice has answered a check. -/
def State.canJudge (s : State) (check : Nat) : Bool :=
  match s.checks[check]? with
  | some k => k.slices == []
  | none => false

/-- The object's record of a check's failures: FAILPH where there are some, then FAILED and FAILMASK, and the phase ends. -/
def State.recordFailures (s : State) (pa : Nat) (bad : List (Nat × Nat)) : State :=
  let t := if bad = [] then s else s.write64 (pa + 0x20) (BitVec.ofNat 64 (s.objPhase pa))
  (t.setObjFlags pa false (bad != []) (failMask bad)).objAdvance pa

/-- The action TRAP of a check (R320): BALANCE reaches the groups that wait on the failed phase, and later waits on it while the object
records it; without it the record names no BALANCE. -/
def State.trapAction (s : State) (pa : Nat) (bad : List (Nat × Nat)) (phase : Nat) (trap : Bool) : State :=
  let aux := balanceAux bad phase
  if trap then ({ s with objFails := amSet s.objFails pa aux }).giveFate (.object pa) (BitVec.ofNat 32 phase) (.balance aux)
  else { s with objFails := amDel s.objFails pa }

/-- The monitors evaluated, the object's record of the check written, the phase ended, and the strongest action taken. -/
def State.judge (s : State) (check : Nat) : State :=
  match s.checks[check]? with
  | none => s
  | some k =>
    let r := s.evalAll k k.mons
    let t : State := { r.2 with checks := r.2.checks.eraseIdx check }
    let act := t.strongest k.ctx r.1
    let u := (t.recordFailures k.pa r.1).trapAction k.pa r.1 (t.objPhase k.pa) (act == 1)
    if act = 2 then u.faultCtx k.ctx cBalance 0 else u

/-- The partials are summed, rounded and evaluated, MONTAB is written, and the waiters are released (R319). -/
def execMonitorCheckDone (check : Nat) (s : State) : Out := .next (if s.canJudge check then s.judge check else s)

end Sys2Proof.Machine
end

