-- ==== Sys2Proof/Machine/Barrier.lean ====
section
/-!
DEFINITION. Sys2Proof/Machine/Barrier.lean: the block and cluster barrier instructions (16 R311, R312) and the memory barrier
instructions (R305, R313).
-/

namespace Sys2Proof.Machine

/-! ### What both kinds share -/

/-- XAUX of BARRIER_STALL (R309). -/
def BarId.stallAux (x : BarId) (t : BitVec 32) : BitVec 64 := BitVec.ofNat 64 (t.toNat + x.index * 2 ^ 32 + x.kind * 2 ^ 36)

/-- An arrival record is one of an arrival at a barrier, made in the mode that the group runs in (R310). -/
def Arrived.isOf (r : Arrived) (x : BarId) (va : BitVec 64) (trap : Bool) : Bool :=
  r.index == x.index && r.kind == x.kind && r.trap == trap && r.va.all fun a => a == va.toNat

/-- The token of a wait written to its destination, and the arrival record dropped (R310, R312). -/
def Group.tokenTo (g : Group) (x : BarId) (va : BitVec 64) (dest : Option Nat) (t : BitVec 32) : Group :=
  match dest with
  | some d =>
    ({ g with arrivals := g.arrivals.filter (fun r => !(r.isOf x va g.trapMode)), fate := none }).setS d (t.zeroExtend 64)
  | none => { g with fate := none }

/-- A watchdog's count begins for an object whose phase has arrivals and has no count: one that has been moved (18 R357). -/
def State.objDog (s : State) (x : BarId) : State :=
  match x with
  | .object pa =>
    if (amGet s.objDogs pa).isNone ∧ s.objPend pa < s.objExp pa then { s with objDogs := amSet s.objDogs pa 0 } else s
  | _ => s

/-- A wait on a token (R307): it ends with an acquire of the barrier's scope, and with BALANCE where the object records that its phase
failed (R320). -/
def Iss.waitPhase (i : Iss) (s : State) (x : BarId) (scope : Nat) (va : BitVec 64) (dest : Bool) (t : BitVec 32) : Res :=
  let dest := if dest then some i.x.d else none
  if s.phaseOver x t then
    let s' := (s.updGrp i.agent fun g => g.tokenTo x va dest t).acquire i.agent scope
    match (match x with | .object pa => s.balance pa t | _ => none) with
    | some aux => .trapNext s' cBalance va aux
    | none => i.fin s'
  else .wait (s.objDog x) (s.heldCode x) (.phase x t ⟨dest, va, scope, i.next, energyClass i.x.op⟩)

/-- An arrival's release, count and token (R302, R312), performed once (R310): the barrier counts it with what else reaches it in the
clock (R306), and the instruction waits for its token; `w` is the wait that then follows. A record of another barrier, or of the other
mode, is not this instruction's (log 35). -/
def Iss.arriveOnce (i : Iss) (s : State) (x : BarId) (scope : Nat) (va : BitVec 64) (act : BarAct) (w : Option PhaseWait)
    (k : State → BitVec 32 → Res) : Res :=
  let held : Dep := .held (if x.kind = 2 then some va.toNat else none) w
  match i.g.arrivals.find? fun r => r.isOf x va i.g.trapMode with
  | some r => k s r.token
  | none =>
    if s.arrivals.any fun h => h.agent == i.agent && h.bar == x && decide (h.act.rank < 2) then .wait s (s.heldCode x) held
    else
      let r := s.release i.core i.agent scope
      if r.2 then .wait (r.1.reach x i.agent act none) (s.heldCode x) held else .wait r.1 .waitMem .acks

/-- `bara` and `bard`: arrive, and go on; at a block barrier the token comes within the clock. -/
def Iss.arriveOnly (i : Iss) (s : State) (x : BarId) (scope : Nat) (va : BitVec 64) (act : BarAct) : Res :=
  match x with
  | .block .. => i.fin ((s.release i.core i.agent scope).1.reach x i.agent act (some i.x.d))
  | _ => i.arriveOnce s x scope va act none fun s t => i.fin (s.updGrp i.agent fun g => g.tokenTo x va (some i.x.d) t)

/-- `baraw`: arrive and wait. -/
def Iss.arriveWait (i : Iss) (s : State) (x : BarId) (scope : Nat) (va : BitVec 64) : Res :=
  i.arriveOnce s x scope va .arrive (some ⟨some i.x.d, va, scope, i.next, energyClass i.x.op⟩) fun s t =>
    i.waitPhase s x scope va true t

/-! ### Block and cluster barriers (R311, R312) -/

/-- A cluster index is below 8. -/
def barOk (i : Iss) : Bool := decide (i.imm.toNat < 24)

/-- The barrier that a word names. -/
def State.barOf (s : State) (i : Iss) : BarId :=
  if i.imm.toNat < 16 then .block i.g.block i.imm.toNat
  else
    let half := match amGet s.clusters i.blk.cluster with
      | some c => c.halfOf i.blk.rank
      | none => 0
    .cluster i.blk.cluster half (i.imm.toNat - 16)

/-- The scope of its kind (R302). -/
def Iss.barScope (i : Iss) : Nat := if i.imm.toNat < 16 then 1 else 2

/-- `bara`. -/
def baraBody (s : State) (i : Iss) : Res := i.arriveOnly s (s.barOf i) i.barScope 0 .arrive
/-- `baraw`. -/
def barawBody (s : State) (i : Iss) : Res := i.arriveWait s (s.barOf i) i.barScope 0
/-- `bard`. -/
def bardBody (s : State) (i : Iss) : Res := i.arriveOnly s (s.barOf i) i.barScope 0 .drop

/-- `barw`. -/
def barwBody (s : State) (i : Iss) : Res :=
  if i.sa.toNat / 2 ^ 16 ≠ 0 then i.illegal s
  else i.waitPhase s (s.barOf i) i.barScope 0 false (i.sa.truncate 32)

/-- `barx`. -/
def barxBody (s : State) (i : Iss) : Res :=
  if i.sa.toNat = 0 ∨ 2047 < i.sa.toNat then i.illegal s
  else i.fin (s.reach (s.barOf i) i.agent (.expect i.sa.toNat i.ctx) none)

/-- The word that `barq` returns. -/
def Bar.report (b : Bar) : BitVec 64 :=
  BitVec.ofNat 64 (b.phase.toNat + b.pend * 2 ^ 16 + b.exp * 2 ^ 27 + b.drops * 2 ^ 38 + b.next * 2 ^ 49)

/-- `barq`. -/
def barqBody (s : State) (i : Iss) : Res :=
  match s.bar (s.barOf i) with
  | some b => i.finS s b.report
  | none => i.finS s 0

/-- Arrive at a block or cluster barrier (R312). -/
def execBara (e : Bool) (d : BitVec 7) (i : BitVec 5) (s : State) : Out :=
  issueWord (insnB 0x280 (sigB .scalar .zero) e d 0 i.toNat (some (2 ^ 56))) barOk baraBody s

/-- Arrive at a block or cluster barrier and wait (R312). -/
def execBaraw (e : Bool) (d : BitVec 7) (i : BitVec 5) (s : State) : Out :=
  issueWord (insnB 0x281 (sigB .scalar .zero) e d 0 i.toNat (some (2 ^ 56))) barOk barawBody s

/-- Wait on a barrier token (R312). -/
def execBarw (e : Bool) (a : BitVec 7) (i : BitVec 5) (s : State) : Out :=
  issueWord (insnB 0x282 (sigB .zero .scalar) e 0 a i.toNat (some (2 ^ 56))) barOk barwBody s

/-- Arrive at a barrier as a drop (R312). -/
def execBard (e : Bool) (d : BitVec 7) (i : BitVec 5) (s : State) : Out :=
  issueWord (insnB 0x283 (sigB .scalar .zero) e d 0 i.toNat (some (2 ^ 56))) barOk bardBody s

/-- Set a barrier's expected count (R312). -/
def execBarx (e : Bool) (a : BitVec 7) (i : BitVec 5) (s : State) : Out :=
  issueWord (insnB 0x284 (sigB .zero .scalar) e 0 a i.toNat (some (2 ^ 56))) barOk barxBody s

/-- Read a barrier's state (R312). -/
def execBarq (e : Bool) (d : BitVec 7) (i : BitVec 5) (s : State) : Out :=
  issueWord (insnB 0x285 (sigB .scalar .zero) e d 0 i.toNat (some (2 ^ 56))) barOk barqBody s

/-! ### Objects (R305, R313) -/

/-- The checks of R305 on an object at va; `take` for a `barmx` on an inactive object. The word is a global access of its group, which
watchpoints without a condition observe (21 R387, log 36); it waits for a home that it cannot reach. -/
def Iss.withObject (i : Iss) (s : State) (kind : Access) (take : Bool) (va : BitVec 64) (k : State → Nat → Res) : Res :=
  i.guarded s [⟨va.toNat, 64, kind, 0, 0, true, false, false, none, 0⟩] fun s ps =>
    match ps with
    | [(_, .mem pa)] =>
      let s := s.drainCore i.core
      if s.isHbmOrSecond pa then
        if s.inReach i.core pa = false then .wait (s.snoopBack (pa / 256)) .waitMem (.home pa)
        else if s.poisoned pa 64 then .trap s cPoison va 0
        else if s.objCtx pa = i.ctx ∨ (take = true ∧ s.objExp pa = 0) then k s pa else .trap s cProtection va 0
      else .trap s cProtection va 0
    | _ => .trap s cProtection va 0

/-- `barma`. -/
def barmaBody (s : State) (i : Iss) : Res :=
  i.withObject s .rw false i.sa fun s pa => i.arriveOnly s (.object pa) 4 i.sa .arrive
/-- `barmaw`. -/
def barmawBody (s : State) (i : Iss) : Res :=
  i.withObject s .rw false i.sa fun s pa => i.arriveWait s (.object pa) 4 i.sa
/-- `barmd`. -/
def barmdBody (s : State) (i : Iss) : Res :=
  i.withObject s .rw false i.sa fun s pa => i.arriveOnly s (.object pa) 4 i.sa .drop

/-- `barmw`. -/
def barmwBody (s : State) (i : Iss) : Res :=
  i.withObject s .read false i.sa fun s pa =>
    if i.sb.toNat / 2 ^ 32 ≠ 0 then i.illegal s else i.waitPhase s (.object pa) 4 i.sa false (i.sb.truncate 32)

/-- `barmx`. -/
def barmxBody (s : State) (i : Iss) : Res :=
  i.withObject s .rw true i.sa fun s pa =>
    let n := i.sb.toNat
    if n = 0 ∨ 2 ^ 32 ≤ n then i.illegal s
    else i.fin (s.reach (.object pa) i.agent (.expect n i.ctx) none)

/-- `barmq`. -/
def barmqBody (s : State) (i : Iss) : Res :=
  i.withObject s .read false i.sa fun s pa =>
    i.finS (s.acquire i.agent 4) (BitVec.ofNat 64 (s.objPhase pa + s.objPend pa * 2 ^ 32))

/-- Arrive at a memory barrier object (R313). -/
def execBarma (e : Bool) (d : BitVec 7) (a : BitVec 7) (s : State) : Out :=
  issueWord (insnA 0x288 (sigA .scalar .scalar .zero) e d a 0) always barmaBody s

/-- Arrive at a memory barrier object and wait (R313). -/
def execBarmaw (e : Bool) (d : BitVec 7) (a : BitVec 7) (s : State) : Out :=
  issueWord (insnA 0x289 (sigA .scalar .scalar .zero) e d a 0) always barmawBody s

/-- Wait on a memory barrier token (R313). -/
def execBarmw (e : Bool) (a : BitVec 7) (b : BitVec 7) (s : State) : Out :=
  issueWord (insnA 0x28A (sigA .zero .scalar .scalar) e 0 a b) always barmwBody s

/-- Drop at a memory barrier object (R313). -/
def execBarmd (e : Bool) (d : BitVec 7) (a : BitVec 7) (s : State) : Out :=
  issueWord (insnA 0x28B (sigA .scalar .scalar .zero) e d a 0) always barmdBody s

/-- Set a memory barrier object's count, taking the object if inactive (R313). -/
def execBarmx (e : Bool) (a : BitVec 7) (b : BitVec 7) (s : State) : Out :=
  issueWord (insnA 0x28C (sigA .zero .scalar .scalar) e 0 a b) always barmxBody s

/-- Read a memory barrier object's phase and pending count (R313). -/
def execBarmq (e : Bool) (d : BitVec 7) (a : BitVec 7) (s : State) : Out :=
  issueWord (insnA 0x28D (sigA .scalar .scalar .zero) e d a 0) always barmqBody s

end Sys2Proof.Machine
end

