-- ==== Sys2Proof/Machine/Capsule.lean ====
section
/-!
DEFINITION. Sys2Proof/Machine/Capsule.lean: the capsule instructions (17 R336 to R338, R341). What the line's home slice does is
in CapLine.lean, the checks inside a step in Ops.lean (R331, R333).
-/

namespace Sys2Proof.Machine

/-- The checks of R336 on a line's address. The word is a global access of its group, which watchpoints without a condition observe
(21 R387, log 36); it waits for a home that it cannot reach. -/
def Iss.withLine (i : Iss) (s : State) (kind : Access) (k : State → Nat → Res) : Res :=
  i.guarded s [⟨i.sa.toNat, 256, kind, 0, 0, true, false, false, none, 0⟩] fun s ps =>
    match ps with
    | [(_, .mem pa)] =>
      if s.isHbmOrSecond pa then
        let s := (s.drainCore i.core).drainMarks i.agent
        if s.inReach i.core pa = false then .wait (s.snoopBack (pa / 256)) .waitMem (.home pa)
        else if s.poisoned pa 256 then .trap s cPoison i.sa 0 else k s pa
      else .trap s cProtection i.sa 0
    | _ => .trap s cProtection i.sa 0

/-- A command of the clock that may let groups enter their capsules again (21 R395). -/
def resumes : Instr → Bool
  | .dbgResume _ => true
  | .registerWrite off _ => off == 0x0160
  | _ => false

/-- A request for a line comes after the commits, markings and re-entries of its clock, in ascending agent (R336). -/
def Iss.lastOfClock (i : Iss) (s : State) (k : Res) : Res :=
  if s.putOff.contains i.agent || ((s.issue.all fun a => a == i.agent || !(s.unused a)) && s.markings == [] &&
      !(s.groups.any fun ag => ag.2.cap.reenter) && !((s.regWrites ++ s.agenda).any resumes)) then k
  else .later s

/-- `s16` to `s31`. -/
def Group.upper (g : Group) : List (BitVec 64) := (List.range 16).map fun k => g.sreg (16 + k)
/-- `s16` to `s31` written. -/
def Group.setUpper (g : Group) (v : Vector (BitVec 64) 16) : Group :=
  { g with
    s := (List.range 16).foldl (fun s k => vset s (16 + k) (vget v k 0)) g.s
    poison := g.poison.filter fun r => !(r.file == .scalar && decide (16 ≤ r.reg)) }

/-- A capsule opened (R336): the group's state for it. -/
def Group.openCap (g : Group) (line seq role : Nat) : Group :=
  let c := g.cap
  { g with cap := { c with line := line, cseq := BitVec.ofNat 16 seq, role := role, cmode := g.trapMode, stores := [],
                           words := 0, onB := !g.trapMode && g.onB } }

/-- `capb` (R336). -/
def capbBody (s : State) (i : Iss) : Res :=
  i.lastOfClock s <| i.withLine s .rw fun s line =>
    if i.g.cap.role ≠ 0 then .trap s cCapsuleViolation 0 0
    else
      let r := s.capAcquire line i.ctx i.agent i.next i.g.upper
      match r.1 with
      | .acquired seq =>
        i.finS ((r.2.acquire i.agent 4).updGrp i.agent fun g => g.openCap line seq 1) (BitVec.ofNat 64 seq)
      | .adopt ckpt entry seq =>
        let t := (r.2.acquire i.agent 4).updGrp i.agent fun g =>
          let g := g.openCap line seq 2
          let shadow : Vector (BitVec 64) 16 := Vector.ofFn fun k => g.sreg (16 + k.val)
          ({ g with cap := { g.cap with shadow := shadow, ownpc := i.first } }).setUpper ckpt
        i.jump (t.countUp i.core 14 1) entry
      | .wait => .wait (r.2.arm (.group i.agent) line 8) .waitCapsule .watch
      | .prot => .trap r.2 cProtection i.sa 0
      | .violation => .trap r.2 cCapsuleViolation i.sa 0

/-- `capr` (R341). -/
def caprBody (s : State) (i : Iss) : Res :=
  i.lastOfClock s <| i.withLine s .read fun s line =>
    if s.lineMalformed line then .trap s cCapsuleViolation i.sa 0
    else
      let s := s.settleLine line
      if s.lineState line ≠ 0 ∧ s.lineCtx line ≠ i.ctx then .trap s cProtection i.sa 0
      else i.finS (s.acquire i.agent 4) (s.capReport line)

/-- The group waits for the apply of a log that it committed (R337); a handler keeps its state code (08 R154). -/
def Group.awaitApply (g : Group) (line : Nat) : Group :=
  { g with state := if g.state = .issuing then .waitCapsule else g.state, dep := some (.apply line) }

/-- A commit by `caps` or `cape`: refused, or `done` with the state after it. That of `cape`, which frees the line, is a release of device
scope (R338). -/
def Iss.commit (i : Iss) (s : State) (last : Bool) (done : State → Res) : Res :=
  let c := i.g.cap
  if i.g.inStep then
    let s := if last then (s.release i.core i.agent 4).1 else s
    if s.lineMalformed c.line then .trap s cCapsuleViolation (BitVec.ofNat 64 c.line) 0
    else
      let s := s.settleLine c.line
      if last = false ∧ s.lineStep c.line = 15 then .trap s cCapsuleLimit 0 0
      else
        let r := s.capCommit c.line i.agent c.cseq c.stores i.g.upper i.next last
        if r.1 then done r.2 else .trap r.2 cCapsuleViolation 0 0
  else .trap s cCapsuleViolation 0 0

/-- `caps` (R337): the next step begins when the log has been applied. -/
def capsBody (s : State) (i : Iss) : Res :=
  i.commit s false fun s =>
    i.fin (s.updGrp i.agent fun g => ({ g with cap := { g.cap with stores := [], words := 0 } }).awaitApply g.cap.line)

/-- `cape` (R338): the holder goes on; the adopter takes its own registers back and competes again. -/
def capeBody (s : State) (i : Iss) : Res :=
  let c := i.g.cap
  i.commit s true fun s =>
    let t := s.updGrp i.agent fun g =>
      ({ g with cap := { g.cap with stores := [], words := 0, role := 0 } }).awaitApply g.cap.line
    if c.role = 1 then i.fin t
    else i.jump (t.updGrp i.agent fun g => g.setUpper c.shadow) c.ownpc

/-- Acquire or adopt a capsule line (R336). -/
def execCapb (e : Bool) (d : BitVec 7) (a : BitVec 7) (s : State) : Out :=
  issueWord (insnA 0x290 (sigA .scalar .scalar .zero) e d a 0) always capbBody s

/-- Commit the current capsule step (R337). -/
def execCaps (s : State) : Out :=
  issueWord (insnN 0x291 (sigN.ends) true) always capsBody s

/-- Commit the last step and free the capsule line (R338). -/
def execCape (s : State) : Out :=
  issueWord (insnN 0x292 (sigN.ends) true) always capeBody s

/-- Report a capsule line's state (R341). -/
def execCapr (e : Bool) (d : BitVec 7) (a : BitVec 7) (s : State) : Out :=
  issueWord (insnA 0x293 (sigA .scalar .scalar .zero) e d a 0) always caprBody s

end Sys2Proof.Machine
end

