-- ==== Sys2Proof/Machine/Real.lean ====
section
/-!
DEFINITION. Sys2Proof/Machine/Real.lean: the exact values of the reciprocal, the roots and the transcendental
functions (10 R207), as values that `round` takes once. Every result that is not dyadic is a sticky value of about 120
bits, found by an enclosure whose precision doubles until its two ends agree.
-/

namespace Sys2Proof.Machine

/-- Bits of a sticky magnitude: more than the 53 of FP64 and the 32 of a draw. -/
def stickyBits : Nat := 120

/-- The floor of the square root of n, below 2^(bits), bit by bit. -/
def isqrt (n : Nat) : Nat → Nat → Nat
  | 0, r => r
  | k + 1, r =>
    let r' := r + 2 ^ k
    isqrt n k (if r' * r' ≤ n then r' else r)

/-- The floor of the square root. -/
def natSqrt (n : Nat) : Nat := isqrt n (Nat.log2 n / 2 + 1) 0

/-- A magnitude with an even exponent, for the roots. -/
def evenExp (m : Nat) (e : Int) : Nat × Int := if e % 2 = 0 then (m, e) else (2 * m, e - 1)

/-- 1 / a (R207). -/
def rcpX : XVal → XVal × FpFlags
  | .nan => (.nan, 0)
  | .inf n => (.zero n, 0)
  | .fin n m e _ =>
    if m = 0 then (.inf n, flagDZ)
    else
      let k := Nat.log2 m + stickyBits
      (.fin n (2 ^ k / m) (-(k : Int) - e) (2 ^ k % m != 0), 0)

/-- The square root of a (R207). -/
def sqrtX : XVal → XVal × FpFlags
  | .nan => (.nan, 0)
  | .inf n => if n then (.nan, flagNV) else (.inf false, 0)
  | .fin n m e _ =>
    if m = 0 then (.zero n, 0)
    else if n then (.nan, flagNV)
    else
      let (m', e') := evenExp m e
      let s := m' * 2 ^ (2 * stickyBits)
      let q := natSqrt s
      (.fin false q (e' / 2 - stickyBits) (q * q != s), 0)

/-- 1 / √a (R207). -/
def rsqX : XVal → XVal × FpFlags
  | .nan => (.nan, 0)
  | .inf n => if n then (.nan, flagNV) else (.zero false, 0)
  | .fin n m e _ =>
    if m = 0 then (.inf n, flagDZ)
    else if n then (.nan, flagNV)
    else
      let (m', e') := evenExp m e
      let k := Nat.log2 m' + stickyBits
      let q := natSqrt (2 ^ (2 * k) / m')
      (.fin false q (-(k : Int) - e' / 2) (q * q * m' != 2 ^ (2 * k)), 0)

/-! ### Series in fixed point: a value v of precision p stands for v / 2^p, below the true value by less than 2^16
units, the bound that the enclosures use. -/

/-- The sum of z^(2k+1) / (2k+1) from k on: `pw` is the current power of z. -/
def atanhTail (p z2 : Nat) : Nat → Nat → Nat → Nat
  | 0, _, _ => 0
  | fuel + 1, k, pw => pw / (2 * k + 1) + atanhTail p z2 fuel (k + 1) (pw * z2 / 2 ^ p)

/-- 2 atanh z for z at most 1/3: p/3 terms reach the precision. -/
def twoAtanh (p z : Nat) : Nat := 2 * atanhTail p (z * z / 2 ^ p) (p / 3 + 4) 0 z

/-- ln 2 = 2 atanh (1/3). -/
def ln2Fix (p : Nat) : Nat := twoAtanh p (2 ^ p / 3)

/-- The terms t^k / k! of the exponential from k on. -/
def expTail (p t : Nat) : Nat → Nat → Nat → Nat
  | 0, _, term => term
  | fuel + 1, k, term => term + expTail p t fuel (k + 1) (term * t / (2 ^ p * (k + 1)))

/-- e^t for t below 1. -/
def expFix (p t : Nat) : Nat := expTail p t (p / 4 + 16) 0 (2 ^ p)

/-- An enclosure of a positive real: between lo and hi, times 2^exp. -/
structure Enclosure where
  lo : Nat
  hi : Nat
  exp : Int
  deriving DecidableEq, Repr

/-- An enclosure with its error of 2^16 units on either side. -/
def Enclosure.around (v : Nat) (exp : Int) : Enclosure := ⟨v - 2 ^ 16, v + 2 ^ 16, exp⟩

/-- The sticky value that an irrational in the enclosure has, once both ends agree to 120 bits. -/
def Enclosure.sticky? (neg : Bool) (c : Enclosure) : Option XVal :=
  let d := Nat.log2 c.lo - stickyBits
  if c.lo / 2 ^ d = c.hi / 2 ^ d ∧ stickyBits ≤ Nat.log2 c.lo
  then some (.fin neg (c.lo / 2 ^ d) (c.exp + d) true) else none

/-- Enclosures of growing precision until one fixes the value; the fuel is never used up (the precision needed stays
below a few hundred bits for every operand of the formats). -/
def refine (neg : Bool) (f : Nat → Enclosure) : Nat → Nat → XVal
  | 0, p =>
    let c := f p
    .fin neg c.lo c.exp true
  | fuel + 1, p =>
    match (f p).sticky? neg with
    | some x => x
    | none => refine neg f fuel (2 * p)

/-- A magnitude as a fixed-point number of precision p, rounded down. -/
def toFix (p m : Nat) (e : Int) : Nat := m * 2 ^ (e + p).toNat / 2 ^ (-(e + p)).toNat

/-- The value just below, or just above, 2^0: 1 less, or more, a real smaller than 2^-120. -/
def nearOne (below : Bool) : XVal :=
  if below then .fin false (2 ^ stickyBits - 1) (-(stickyBits : Int)) true
  else .fin false (2 ^ stickyBits) (-(stickyBits : Int)) true

/-- 2^a (R207). -/
def exp2X : XVal → XVal × FpFlags
  | .nan => (.nan, 0)
  | .inf n => (if n then .zero false else .inf false, 0)
  | .fin n m e _ =>
    if m = 0 then (.fin false 1 0 false, 0)
    else
      let lg := (Nat.log2 m : Int) + e
      if lg < -130 then (nearOne n, 0)
      else if 12 ≤ lg then (if n then .fin false 1 (-5000) true else .fin false 1 5000 false, 0)
      else
        let sh := (-e).toNat
        let whole := m * 2 ^ e.toNat / 2 ^ sh
        let part := m * 2 ^ e.toNat % 2 ^ sh
        if part = 0 then (.fin false 1 (if n then -(whole : Int) else whole) false, 0)
        else
          let up := if n then 2 ^ sh - part else part
          let base : Int := if n then -(whole : Int) - 1 else whole
          (refine false (fun p =>
            let t := toFix p up (-(sh : Int)) * ln2Fix p / 2 ^ p
            Enclosure.around (expFix p t) (base - p)) 10 256, 0)

/-- log2 a (R207). -/
def log2X : XVal → XVal × FpFlags
  | .nan => (.nan, 0)
  | .inf n => if n then (.nan, flagNV) else (.inf false, 0)
  | .fin n m e _ =>
    if m = 0 then (.inf true, flagDZ)
    else if n then (.nan, flagNV)
    else
      let k := Nat.log2 m
      let whole := (k : Int) + e
      if m = 2 ^ k then (XVal.ofInt whole, 0)
      else
        let neg := decide (whole < 0)
        (refine neg (fun p =>
          let z := (m - 2 ^ k) * 2 ^ p / (m + 2 ^ k)
          let frac := twoAtanh p z * 2 ^ p / ln2Fix p
          let v := whole * (2 ^ p : Nat) + frac
          Enclosure.around v.natAbs (-(p : Int))) 10 256, 0)

/-- tanh a (R207). -/
def tanhX : XVal → XVal × FpFlags
  | .nan => (.nan, 0)
  | .inf n => (.fin n 1 0 false, 0)
  | .fin n m e _ =>
    if m = 0 then (.zero n, 0)
    else
      let lg := (Nat.log2 m : Int) + e
      let sign : XVal → XVal := fun x => if n then x.negate else x
      if lg < -70 then
        let up := 53 - Nat.log2 m
        (.fin n (m * 2 ^ (up + 70) - 1) (e - up - 70) true, 0)
      else if 6 ≤ lg then (sign (nearOne true), 0)
      else
        (refine n (fun p =>
          let y := toFix p (2 * m) e
          let l := ln2Fix p
          let big := expFix p (y % l) * 2 ^ (y / l)
          Enclosure.around ((big - 2 ^ p) * 2 ^ p / (big + 2 ^ p)) (-(p : Int))) 10 256, 0)

end Sys2Proof.Machine
end

