-- ==== Sys2Proof/Machine/VecMove.lean ====
section
/-!
DEFINITION. Sys2Proof/Machine/VecMove.lean: moves and permutes (10 R198 to R200), predicates (R201), reductions, scans and the
`y` registers (R202 to R205).
-/

namespace Sys2Proof.Machine

/-! ### Moves (R198) -/

/-- Whole lanes moved with their scale bytes: lane l takes lane `m l` of `vA` and `kA`. -/
def moveLanes (m : Iss → Nat → Nat) (s : State) (i : Iss) : Res :=
  i.fin (s.updGrp i.agent fun g =>
    (lanesOf i.g.active).foldl
      (fun g l => (g.setV i.x.d l (i.va (m i l))).setK i.x.d l (i.g.klane i.x.a (m i l))) g)

/-- Elements of the lane from their index. -/
def byIndex (f : Iss → Nat → Nat → Nat) (s : State) (i : Iss) : Res :=
  i.vecOut s fun l => ofElems (etBits i.et) ((List.range (etCount i.et)).map (f i l))

/-- `vins`: element b of each active lane; b beyond the elements is refused at step 7. -/
def vinsBody (s : State) (i : Iss) : Res :=
  if etCount i.et ≤ i.sb.toNat then i.illegal s
  else
    let lane := fun l => ofElems (etBits i.et) ((List.range (etCount i.et)).map fun k =>
      if k = i.sb.toNat then i.sa.toNat else elem (i.vd l) (etBits i.et) k)
    i.fin (s.updGrp i.agent fun g => ((lanesOf g.active).foldl (fun g l => g.setV i.x.d l (lane l)) g).inPart g)

/-- A rotation within w bits. -/
def rotateLeft (w a n : Nat) : Nat := (a * 2 ^ n + a / 2 ^ (w - n)) % 2 ^ w

/-- `vrotl`: w or more is refused. -/
def vrotlBody (s : State) (i : Iss) : Res :=
  if etBits i.et ≤ i.imm.toNat then i.illegal s
  else elementwise (fun i a _ _ => rotateLeft (etBits i.et) a i.imm.toNat) s i

/-- Vector move with its scale register (R198). -/
def execVmov (e : Bool) (d : BitVec 7) (a : BitVec 7) (s : State) : Out :=
  issueWord (insnA 0x130 (sigA .vector .vector .zero) e d a 0) always (moveLanes fun _ l => l) s

/-- Broadcast a scalar to every element (R198). -/
def execVsplat (e : Bool) (d : BitVec 7) (a : BitVec 7) (s : State) : Out :=
  issueWord (insnA 0x131 (sigA .vector .scalar .zero) e d a 0) anyEt (byIndex fun i _ _ => i.sa.toNat) s

/-- Insert a scalar into one element (R198). -/
def execVins (e : Bool) (d : BitVec 7) (a : BitVec 7) (b : BitVec 7) (s : State) : Out :=
  issueWord (insnA 0x132 (sigA .vector .scalar .scalar) e d a b) anyEt vinsBody s

/-- Permute elements within each lane (R198). -/
def execVperm (e : Bool) (d : BitVec 7) (a : BitVec 7) (b : BitVec 7) (s : State) : Out :=
  issueWord (insnA 0x133 (sigA .vector .vector .vector) e d a b) anyEt (byIndex fun i l k => elem (i.va l) (etBits i.et) (elem (i.vb l) (etBits i.et) k % etCount i.et)) s

/-- Shuffle whole lanes (R198). -/
def execVshfl (e : Bool) (d : BitVec 7) (a : BitVec 7) (b : BitVec 7) (s : State) : Out :=
  issueWord (insnA 0x134 (sigA .vector .vector .vector) e d a b) always (moveLanes fun i l => i.vb l % 8) s

/-- Broadcast one lane (R198). -/
def execVbcast (e : Bool) (d : BitVec 7) (a : BitVec 7) (i : BitVec 7) (s : State) : Out :=
  issueWord (insnB 0x135 (sigB .vector .vector) e d a i.toNat (some 7)) always (moveLanes fun i _ => i.imm.toNat) s

/-- Rotate each element left (R198). -/
def execVrotl (e : Bool) (d : BitVec 7) (a : BitVec 7) (i : BitVec 7) (s : State) : Out :=
  issueWord (insnB 0x136 (sigB .vector .vector) e d a i.toNat (some (2 ^ 56))) intEt vrotlBody s

/-- Write element indices (R198). -/
def execViota (e : Bool) (d : BitVec 7) (s : State) : Out :=
  issueWord (insnA 0x13B (sigA .vector .zero .zero) e d 0 0) intEt (byIndex fun i l k => l * etCount i.et + k) s

/-! ### Narrowing, widening, interleaving (R199, R200) -/

/-- `vpack` accepts an integer type and the one of half its width. -/
def packOk (i : Iss) : Bool := decide (1 ≤ i.et ∧ i.et ≤ 3 ∧ i.et2 + 1 = i.et)

/-- An integer narrowed (02 R52). -/
def narrow (w w2 : Nat) (sat : Bool) (x : Nat) : Nat := if sat then fixTo w2 true (sgOf w x) else x % 2 ^ w2

/-- `vpack`. -/
def vpackBody (s : State) (i : Iss) : Res :=
  i.vecOut s fun l =>
    ofElems (etBits i.et2) ((elems i.et (i.va l) ++ elems i.et (i.vb l)).map
      (narrow (etBits i.et) (etBits i.et2) (modeSat i.g.mode)))

/-- A span of two registers written in each active lane from a list of 2n elements. -/
def Iss.pairOut (i : Iss) (s : State) (et : Nat) (f : Nat → List Nat) : Res :=
  let n := etCount et
  i.fin (s.updGrp i.agent fun g =>
    (lanesOf i.g.active).foldl
      (fun g l => (g.setV i.x.d l (ofElems (etBits et) ((f l).take n))).setV (i.x.d + 1) l
        (ofElems (etBits et) ((f l).drop n))) g)

/-- The destination span of two registers lies below the count (R70). -/
def pairFits (i : Iss) : Bool := spanFits i.g.kregs i.x.d 2

/-- `vunpk` accepts an integer type and the one of twice its width. -/
def unpackOk (i : Iss) : Bool := decide (i.et ≤ 2 ∧ i.et2 = i.et + 1) && pairFits i

/-- `vunpk`. -/
def vunpkBody (s : State) (i : Iss) : Res :=
  i.pairOut s i.et2 fun l => (elems i.et (i.va l)).map fun x => wrapTo (etBits i.et2) (sgOf (etBits i.et) x)

/-- Two lists interleaved. -/
def interleave : List Nat → List Nat → List Nat
  | x :: xs, y :: ys => x :: y :: interleave xs ys
  | _, _ => []

/-- Every second element of a list, from its first. -/
def everySecond : List Nat → List Nat
  | [] => []
  | [x] => [x]
  | x :: _ :: r => x :: everySecond r

/-- `vzip`. -/
def vzipBody (s : State) (i : Iss) : Res := i.pairOut s i.et fun l => interleave (elems i.et (i.va l)) (elems i.et (i.vb l))

/-- `vunzip`. -/
def vunzipBody (s : State) (i : Iss) : Res :=
  i.pairOut s i.et fun l =>
    let c := elems i.et (i.va l) ++ elems i.et (i.vb l)
    everySecond c ++ everySecond (c.drop 1)

/-- Any type, with a destination span of two. -/
def zipOk (i : Iss) : Bool := anyEt i && pairFits i

/-- Narrow two registers into one (R199). -/
def execVpack (e : Bool) (d : BitVec 7) (a : BitVec 7) (b : BitVec 7) (s : State) : Out :=
  issueWord (insnA 0x137 (sigA .vector .vector .vector) e d a b) packOk vpackBody s

/-- Widen one register into two, sign-extending (R199). -/
def execVunpk (e : Bool) (d : BitVec 7) (a : BitVec 7) (s : State) : Out :=
  issueWord (insnA 0x138 (sigA .vector .vector .zero) e d a 0) unpackOk vunpkBody s

/-- Interleave two registers (R200). -/
def execVzip (e : Bool) (d : BitVec 7) (a : BitVec 7) (b : BitVec 7) (s : State) : Out :=
  issueWord (insnA 0x139 (sigA .vector .vector .vector) e d a b) zipOk vzipBody s

/-- De-interleave two registers (R200). -/
def execVunzip (e : Bool) (d : BitVec 7) (a : BitVec 7) (b : BitVec 7) (s : State) : Out :=
  issueWord (insnA 0x13A (sigA .vector .vector .vector) e d a b) zipOk vunzipBody s

/-! ### Predicates (R201) -/

/-- A predicate computed from two. -/
def predAB (f : BitVec 8 → BitVec 8 → BitVec 8) (s : State) (i : Iss) : Res :=
  i.fin (s.updGrp i.agent fun g => g.setP i.x.d (f (i.g.preg i.x.a) (i.g.preg i.x.b)))

/-- `pmov`. -/
def pmovBody (s : State) (i : Iss) : Res :=
  if i.sa.toNat / 2 ^ 8 ≠ 0 then i.illegal s
  else i.fin (s.updGrp i.agent fun g => g.setP i.x.d (i.sa.truncate 8))

/-- `pget`. -/
def pgetBody (s : State) (i : Iss) : Res := i.finS s ((i.g.preg i.x.a).zeroExtend 64)

/-- Predicate AND (R201). -/
def execPand (e : Bool) (d : BitVec 7) (a : BitVec 7) (b : BitVec 7) (s : State) : Out :=
  issueWord (insnA 0x140 (sigA .pred .pred .pred) e d a b) always (predAB fun a b => a &&& b) s

/-- Predicate OR (R201). -/
def execPor (e : Bool) (d : BitVec 7) (a : BitVec 7) (b : BitVec 7) (s : State) : Out :=
  issueWord (insnA 0x141 (sigA .pred .pred .pred) e d a b) always (predAB fun a b => a ||| b) s

/-- Predicate XOR (R201). -/
def execPxor (e : Bool) (d : BitVec 7) (a : BitVec 7) (b : BitVec 7) (s : State) : Out :=
  issueWord (insnA 0x142 (sigA .pred .pred .pred) e d a b) always (predAB fun a b => a ^^^ b) s

/-- Predicate NOT (R201). -/
def execPnot (e : Bool) (d : BitVec 7) (a : BitVec 7) (s : State) : Out :=
  issueWord (insnA 0x143 (sigA .pred .pred .zero) e d a 0) always (predAB fun a _ => ~~~a) s

/-- Predicate from a scalar (R201). -/
def execPmov (e : Bool) (d : BitVec 7) (a : BitVec 7) (s : State) : Out :=
  issueWord (insnA 0x144 (sigA .pred .scalar .zero) e d a 0) always pmovBody s

/-- Scalar from a predicate (R201). -/
def execPget (e : Bool) (d : BitVec 7) (a : BitVec 7) (s : State) : Out :=
  issueWord (insnA 0x145 (sigA .scalar .pred .zero) e d a 0) always pgetBody s

/-! ### Reductions (R202) -/

/-- MODE.RM holds no reserved code (02 R43). -/
def rmOk (i : Iss) : Bool := decide (modeRm i.g.mode ≤ 4)
/-- An integer or float type (R202, `vred.max` and `vred.min`). -/
def reduceEt (i : Iss) : Bool := isInt i.et || isFloat i.et
/-- An integer type, or a wide float with RM read, since floats are rounded (R202, `vred.add`). -/
def reduceRm (i : Iss) : Bool := isInt i.et || (isWide i.et && rmOk i)

/-- The elements of `vA` in the active lanes. -/
def Iss.activeElems (i : Iss) : List Nat := ((lanesOf i.g.active).map fun l => elems i.et (i.va l)).flatten

/-- The value of an element of the word's float type, under FZ (02 R47). -/
def Iss.val (i : Iss) (x : Nat) : XVal := (etFmt i.et).decodeFz (modeFz i.g.mode) x

/-- A reduction issued: 64 may be outstanding (08 R155). -/
def Iss.reduceOut (i : Iss) (s : State) (value : BitVec 64) (flags : FpFlags) (g : Group) : Res :=
  if Config.groupResults ≤ i.g.vreds.length + (s.core i.core).ownCount i.agent then .wait s .waitMem .again
  else
    i.finG s { g with vreds := g.vreds ++ [⟨BitVec.ofNat 2 i.x.d, value, flags, i.g.active⟩] }

/-- The sum of integers. -/
def sumInt (w : Nat) (xs : List Nat) : Int := xs.foldl (fun n x => n + sgOf w x) 0

/-- `vred.add`. -/
def vredAddBody (s : State) (i : Iss) : Res :=
  if isInt i.et then
    i.reduceOut s (BitVec.ofNat 64 (fixTo 64 (modeSat i.g.mode) (sumInt (etBits i.et) i.activeElems))) 0 i.g
  else
    match lanesOf i.g.active with
    | [] => i.reduceOut s 0 0 i.g
    | l :: _ =>
      let x := sumX (i.activeElems.map i.val)
      let r := roundDraw .fp64 (modeRm i.g.mode) (modeSat i.g.mode) (modeFz i.g.mode) (vget i.g.gen l 0) x.1
      i.reduceOut s (BitVec.ofNat 64 r.1) (x.2 ||| r.2.1) { i.g with gen := vset i.g.gen l r.2.2 }

/-- The greater of two values, or the lesser, as `fmax` and `fmin` choose (R208): one NaN gives the other operand. -/
def pickX (greater : Bool) (x y : XVal) : XVal :=
  if x.isNan then y
  else if y.isNan then x
  else if greater then (if x.ltMin y then y else x)
  else (if y.ltMin x then y else x)

/-- The greatest or least element (R202). -/
def vredPickBody (greater : Bool) (s : State) (i : Iss) : Res :=
  if isInt i.et then
    let w := etBits i.et
    let least : Int := -(2 ^ 63 : Nat)
    let start : Int := if greater then least else -least - 1
    let v := i.activeElems.foldl (fun m x => if greater then max m (sgOf w x) else min m (sgOf w x)) start
    i.reduceOut s (BitVec.ofInt 64 v) 0 i.g
  else
    let v := match i.activeElems.map i.val with
      | [] => XVal.inf greater
      | x :: xs => xs.foldl (pickX greater) x
    i.reduceOut s (BitVec.ofNat 64 (round .fp64 rmRNE false false 0 v).1) 0 i.g

/-- The AND or OR of the elements (R202). -/
def vredBitsBody (all : Bool) (s : State) (i : Iss) : Res :=
  let v := match i.activeElems with
    | [] => if all then 2 ^ 64 - 1 else 0
    | x :: xs => xs.foldl (fun a b => if all then a &&& b else a ||| b) x
  i.reduceOut s (BitVec.ofNat 64 v) 0 i.g

/-- Sum reduction into a y register (R202). -/
def execVredAdd (e : Bool) (d : BitVec 7) (a : BitVec 7) (s : State) : Out :=
  issueWord (insnA 0x150 (sigA .yreg .vector .zero) e d a 0) reduceRm vredAddBody s

/-- Maximum reduction into a y register (R202). -/
def execVredMax (e : Bool) (d : BitVec 7) (a : BitVec 7) (s : State) : Out :=
  issueWord (insnA 0x151 (sigA .yreg .vector .zero) e d a 0) reduceEt (vredPickBody true) s

/-- Minimum reduction into a y register (R202). -/
def execVredMin (e : Bool) (d : BitVec 7) (a : BitVec 7) (s : State) : Out :=
  issueWord (insnA 0x152 (sigA .yreg .vector .zero) e d a 0) reduceEt (vredPickBody false) s

/-- AND reduction into a y register (R202). -/
def execVredAnd (e : Bool) (d : BitVec 7) (a : BitVec 7) (s : State) : Out :=
  issueWord (insnA 0x153 (sigA .yreg .vector .zero) e d a 0) intEt (vredBitsBody true) s

/-- OR reduction into a y register (R202). -/
def execVredOr (e : Bool) (d : BitVec 7) (a : BitVec 7) (s : State) : Out :=
  issueWord (insnA 0x154 (sigA .yreg .vector .zero) e d a 0) intEt (vredBitsBody false) s

/-! ### Sums within lanes and across them (R204, R205) -/

/-- The lanes of a float word written, with their flags and generators, or FP_EXCEPTION (02 R49). -/
def Iss.floatOut (i : Iss) (s : State) (outs : List (Nat × LaneOut)) (write : Group → Nat → Nat → Group) : Res :=
  match fpTrap i.g.fpstat (outs.map fun o => (o.1, o.2.flags)) with
  | some aux => .trap s cFpException 0 aux
  | none =>
    i.fin (s.updGrp i.agent fun g =>
      let g := { g with fpstat := addFlags g.fpstat (orFlags (outs.map fun o => o.2.flags)) }
      outs.foldl (fun g o => { (write g o.1 o.2.val) with gen := vset g.gen o.1 o.2.gen }) g)

/-- Exact values rounded to a type in one lane, as a lane register. -/
def Iss.roundLane (i : Iss) (et l : Nat) (xs : List (XVal × FpFlags)) : LaneOut :=
  let m := i.g.mode
  let r := roundAll (etFmt et) (modeRm m) (modeSat m) (modeFz m) (vget i.g.gen l 0) xs
  ⟨ofElems (etBits et) r.1, r.2.1, r.2.2⟩

/-- `vredl.add` accepts integers widening to integers, or wide floats (R204). -/
def vredlOk (i : Iss) : Bool := (isInt i.et && isInt i.et2 && decide (i.et ≤ i.et2)) || (isWide i.et && isWide i.et2 && rmOk i)

/-- `vredl.add`. -/
def vredlBody (s : State) (i : Iss) : Res :=
  if isInt i.et then
    i.vecOut s fun l => fixTo (etBits i.et2) (modeSat i.g.mode) (sumInt (etBits i.et) (elems i.et (i.va l)))
  else
    let lane := fun l => (l, i.roundLane i.et2 l [sumX ((elems i.et (i.va l)).map i.val)])
    i.floatOut s ((lanesOf i.g.active).map lane) fun g l v => g.setV i.x.d l v

/-- Element k of the active lanes up to l. -/
def Iss.column (i : Iss) (l k : Nat) : List Nat :=
  ((lanesOf i.g.active).filter fun m => m ≤ l).map fun m => elem (i.va m) (etBits i.et) k

/-- `vscan.add` has any element type (R205), of a float type under a rounding mode that is assigned. -/
def scanRm (i : Iss) : Bool := isInt i.et || (isFloat i.et && rmOk i)

/-- `vscan.add`. -/
def vscanBody (s : State) (i : Iss) : Res :=
  let n := etCount i.et
  let w := etBits i.et
  if isInt i.et then
    i.vecOut s fun l => ofElems w ((List.range n).map fun k => fixTo w (modeSat i.g.mode) (sumInt w (i.column l k)))
  else
    let lane := fun l => (l, i.roundLane i.et l ((List.range n).map fun k => sumX ((i.column l k).map i.val)))
    i.floatOut s ((lanesOf i.g.active).map lane) fun g l v => g.setV i.x.d l v

/-- Sum within each lane (R204). -/
def execVredlAdd (e : Bool) (d : BitVec 7) (a : BitVec 7) (s : State) : Out :=
  issueWord (insnA 0x155 (sigA .vector .vector .zero) e d a 0) vredlOk vredlBody s

/-- Inclusive scan across lanes (R205). -/
def execVscanAdd (e : Bool) (d : BitVec 7) (a : BitVec 7) (s : State) : Out :=
  issueWord (insnA 0x156 (sigA .vector .vector .zero) e d a 0) scanRm vscanBody s

/-! ### Reading `y` (R203) -/

/-- The reductions into a `y` register issued and not landed. -/
def Group.pending (g : Group) (y : Nat) : Nat := (g.vreds.filter fun p => p.y.toNat == y).length

/-- `yget`. -/
def ygetBody (s : State) (i : Iss) : Res :=
  let y := i.g.yreg i.x.a
  let seq : BitVec 16 := i.imm.truncate 16
  if seq = y.seq then i.finS s y.value
  else if i.g.pending i.x.a < (seq - y.seq).toNat then .trap s cIllegalOperand 0 (y.seq.zeroExtend 64)
  else .wait s .waitMem (.yseq (BitVec.ofNat 2 i.x.a) seq)

/-- `yseq`. -/
def yseqBody (s : State) (i : Iss) : Res :=
  i.finS s (((i.g.yreg i.x.a).seq + BitVec.ofNat 16 (i.g.pending i.x.a)).zeroExtend 64)

/-- Wait for and read a numbered reduction result (R203). -/
def execYget (e : Bool) (d : BitVec 7) (a : BitVec 7) (i : BitVec 7) (s : State) : Out :=
  issueWord (insnB 0x157 (sigB .scalar .yreg) e d a i.toNat (some 0xFFFF)) always ygetBody s

/-- Read the sequence number of the latest reduction into a y register (R203). -/
def execYseq (e : Bool) (d : BitVec 7) (a : BitVec 7) (s : State) : Out :=
  issueWord (insnA 0x158 (sigA .scalar .yreg .zero) e d a 0) always yseqBody s

end Sys2Proof.Machine
end

