-- ==== Sys2Proof/Machine/Float.lean ====
section
/-!
DEFINITION. Sys2Proof/Machine/Float.lean: floating-point arithmetic, minima, sign instructions, compares, classes and integral
rounding (10 R207 to R212).
-/

namespace Sys2Proof.Machine

/-- A wide float type, with RM read (R193, 02 R43). -/
def floatRm (i : Iss) : Bool := isWide i.et && rmOk i
/-- A wide float type. -/
def wideEt (i : Iss) : Bool := isWide i.et
/-- Any float type. -/
def floatEt (i : Iss) : Bool := isFloat i.et

/-! ### Arithmetic (R207) -/

/-- The exact result of an arithmetic word on elements a, b and d, with the flags of its special cases; a NaN operand
gives NaN without a flag. -/
abbrev ExactOp := Nat → XVal → XVal → XVal → XVal × FpFlags

/-- Flags of two parts of a result, none where an operand is NaN. -/
def exactFma (rm : Nat) (a b d : XVal) (negProduct negD : Bool) : XVal × FpFlags :=
  if a.isNan || b.isNan || d.isNan then (.nan, 0)
  else
    let p := mulX a b
    let q := addX rm (if negProduct then p.1.negate else p.1) (if negD then d.negate else d)
    (q.1, p.2 ||| q.2)

/-- One lane of an arithmetic word. -/
def Iss.arithLane (i : Iss) (f : ExactOp) (l : Nat) : Nat × LaneOut :=
  let x := elems i.et (i.va l)
  let y := elems i.et (i.vb l)
  let z := elems i.et (i.vd l)
  (l, i.roundLane i.et l ((List.zip x (List.zip y z)).map fun e =>
    f (modeRm i.g.mode) (i.val e.1) (i.val e.2.1) (i.val e.2.2)))

/-- An arithmetic word. -/
def arith (f : ExactOp) (s : State) (i : Iss) : Res :=
  i.floatOut s ((lanesOf i.g.active).map (i.arithLane f)) fun g l v => g.setV i.x.d l v

/-- Floating-point add (R207). -/
def execFadd (e : Bool) (d : BitVec 7) (a : BitVec 7) (b : BitVec 7) (s : State) : Out :=
  issueWord (insnA 0x180 (sigA .vector .vector .vector) e d a b) floatRm (arith fun rm a b _ => addX rm a b) s

/-- Floating-point subtract (R207). -/
def execFsub (e : Bool) (d : BitVec 7) (a : BitVec 7) (b : BitVec 7) (s : State) : Out :=
  issueWord (insnA 0x181 (sigA .vector .vector .vector) e d a b) floatRm (arith fun rm a b _ => addX rm a b.negate) s

/-- Floating-point multiply (R207). -/
def execFmul (e : Bool) (d : BitVec 7) (a : BitVec 7) (b : BitVec 7) (s : State) : Out :=
  issueWord (insnA 0x182 (sigA .vector .vector .vector) e d a b) floatRm (arith fun _ a b _ => mulX a b) s

/-- Fused multiply-add (R207). -/
def execFfma (e : Bool) (d : BitVec 7) (a : BitVec 7) (b : BitVec 7) (s : State) : Out :=
  issueWord (insnA 0x183 (sigA .vector .vector .vector) e d a b) floatRm (arith fun rm a b d => exactFma rm a b d false false) s

/-- Fused multiply-subtract (R207). -/
def execFfms (e : Bool) (d : BitVec 7) (a : BitVec 7) (b : BitVec 7) (s : State) : Out :=
  issueWord (insnA 0x184 (sigA .vector .vector .vector) e d a b) floatRm (arith fun rm a b d => exactFma rm a b d false true) s

/-- Fused negated multiply-add (R207). -/
def execFnma (e : Bool) (d : BitVec 7) (a : BitVec 7) (b : BitVec 7) (s : State) : Out :=
  issueWord (insnA 0x185 (sigA .vector .vector .vector) e d a b) floatRm (arith fun rm a b d => exactFma rm a b d true false) s

/-- Correctly rounded reciprocal (R207). -/
def execFrcp (e : Bool) (d : BitVec 7) (a : BitVec 7) (s : State) : Out :=
  issueWord (insnA 0x18B (sigA .vector .vector .zero) e d a 0) floatRm (arith fun _ a _ _ => rcpX a) s

/-- Correctly rounded reciprocal square root (R207). -/
def execFrsq (e : Bool) (d : BitVec 7) (a : BitVec 7) (s : State) : Out :=
  issueWord (insnA 0x18C (sigA .vector .vector .zero) e d a 0) floatRm (arith fun _ a _ _ => rsqX a) s

/-- Square root (R207). -/
def execFsqrt (e : Bool) (d : BitVec 7) (a : BitVec 7) (s : State) : Out :=
  issueWord (insnA 0x18D (sigA .vector .vector .zero) e d a 0) floatRm (arith fun _ a _ _ => sqrtX a) s

/-- Base-2 exponential (R207). -/
def execFexp2 (e : Bool) (d : BitVec 7) (a : BitVec 7) (s : State) : Out :=
  issueWord (insnA 0x18E (sigA .vector .vector .zero) e d a 0) floatRm (arith fun _ a _ _ => exp2X a) s

/-- Base-2 logarithm (R207). -/
def execFlog2 (e : Bool) (d : BitVec 7) (a : BitVec 7) (s : State) : Out :=
  issueWord (insnA 0x18F (sigA .vector .vector .zero) e d a 0) floatRm (arith fun _ a _ _ => log2X a) s

/-- Hyperbolic tangent (R207). -/
def execFtanh (e : Bool) (d : BitVec 7) (a : BitVec 7) (s : State) : Out :=
  issueWord (insnA 0x190 (sigA .vector .vector .zero) e d a 0) floatRm (arith fun _ a _ _ => tanhX a) s

/-! ### Minima and maxima (R208) -/

/-- An operand's encoding after FZ (02 R47). -/
def fzCode (F : Fmt) (fz : Bool) (x : Nat) : Nat :=
  if fz && F.flushes && F.isSubnormalCode x then F.signCode (x / 2 ^ (F.width - 1) % 2 == 1) else x

/-- The lesser or greater operand, after FZ, without rounding. -/
def pickCode (greater : Bool) (i : Iss) (a b _d : Nat) : Nat :=
  let F := etFmt i.et
  let fz := modeFz i.g.mode
  let x := F.decodeFz fz a
  let y := F.decodeFz fz b
  if x.isNan && y.isNan then F.canonicalNan
  else if x.isNan then fzCode F fz b
  else if y.isNan then fzCode F fz a
  else if (if greater then x.ltMin y else y.ltMin x) then fzCode F fz b
  else fzCode F fz a

/-- Floating-point minimum (R208). -/
def execFmin (e : Bool) (d : BitVec 7) (a : BitVec 7) (b : BitVec 7) (s : State) : Out :=
  issueWord (insnA 0x186 (sigA .vector .vector .vector) e d a b) wideEt (elementwise (pickCode false)) s

/-- Floating-point maximum (R208). -/
def execFmax (e : Bool) (d : BitVec 7) (a : BitVec 7) (b : BitVec 7) (s : State) : Out :=
  issueWord (insnA 0x187 (sigA .vector .vector .vector) e d a b) wideEt (elementwise (pickCode true)) s

/-! ### Signs and selection (R209) -/

/-- An elementwise word on the bits of floats, with the weight of the sign. -/
def signOp (f : Nat → Nat → Nat → Nat) (i : Iss) (a b _d : Nat) : Nat := f (2 ^ (etBits i.et - 1)) a b

/-- Clear the sign bit (R209). -/
def execFabs (e : Bool) (d : BitVec 7) (a : BitVec 7) (s : State) : Out :=
  issueWord (insnA 0x188 (sigA .vector .vector .zero) e d a 0) floatEt (elementwise (signOp fun m a _ => a % m)) s

/-- Invert the sign bit (R209). -/
def execFneg (e : Bool) (d : BitVec 7) (a : BitVec 7) (s : State) : Out :=
  issueWord (insnA 0x189 (sigA .vector .vector .zero) e d a 0) floatEt (elementwise (signOp fun m a _ => (a + m) % (2 * m))) s

/-- Copy the sign bit (R209). -/
def execFcpys (e : Bool) (d : BitVec 7) (a : BitVec 7) (b : BitVec 7) (s : State) : Out :=
  issueWord (insnA 0x18A (sigA .vector .vector .vector) e d a b) floatEt (elementwise (signOp fun m a b => a % m + b / m * m)) s

/-- `fsel`: by the old element as a number. -/
def fselOp (i : Iss) (a b d : Nat) : Nat := if ((etFmt i.et).decode d).isZero then b else a

/-- Select by whether the old destination is nonzero (R209). -/
def execFsel (e : Bool) (d : BitVec 7) (a : BitVec 7) (b : BitVec 7) (s : State) : Out :=
  issueWord (insnA 0x197 (sigA .vector .vector .vector) e d a b) floatEt (elementwise fselOp) s

/-! ### Compares and classes (R210, R211) -/

/-- A compare of values under FZ. -/
def floatCmp (p : XVal → XVal → Bool) (i : Iss) (a b : Nat) : Bool := p (i.val a) (i.val b)

/-- Float compare equal into a predicate (R210). -/
def execFcmpeq (e : Bool) (d : BitVec 7) (a : BitVec 7) (b : BitVec 7) (s : State) : Out :=
  issueWord (insnA 0x191 (sigA .pred .vector .vector) e d a b) wideEt (compareAll (floatCmp fun a b => a.eqv b)) s

/-- Float compare less than into a predicate (R210). -/
def execFcmplt (e : Bool) (d : BitVec 7) (a : BitVec 7) (b : BitVec 7) (s : State) : Out :=
  issueWord (insnA 0x192 (sigA .pred .vector .vector) e d a b) wideEt (compareAll (floatCmp fun a b => a.lt b)) s

/-- Float compare less or equal into a predicate (R210). -/
def execFcmple (e : Bool) (d : BitVec 7) (a : BitVec 7) (b : BitVec 7) (s : State) : Out :=
  issueWord (insnA 0x193 (sigA .pred .vector .vector) e d a b) wideEt (compareAll (floatCmp fun a b => a.lt b || a.eqv b)) s

/-- Float compare unordered into a predicate (R210). -/
def execFcmpun (e : Bool) (d : BitVec 7) (a : BitVec 7) (b : BitVec 7) (s : State) : Out :=
  issueWord (insnA 0x194 (sigA .pred .vector .vector) e d a b) wideEt (compareAll (floatCmp fun a b => a.isNan || b.isNan)) s

/-- The class code of an encoding (R211). -/
def classOf (F : Fmt) (x : Nat) : Nat :=
  match F.decode x with
  | .nan => 8
  | .inf n => if n then 0 else 7
  | .fin n m _ _ => if m = 0 then (if n then 3 else 4) else if F.isSubnormalCode x then (if n then 2 else 5) else if n then 1 else 6

/-- `fclass`. -/
def fclassOp (i : Iss) (a _b _d : Nat) : Nat := classOf (etFmt i.et) a

/-- Class code of each element (R211). -/
def execFclass (e : Bool) (d : BitVec 7) (a : BitVec 7) (s : State) : Out :=
  issueWord (insnA 0x195 (sigA .vector .vector .zero) e d a 0) floatEt (elementwise fclassOp) s

/-! ### `frnd` (R212) -/

/-- An element rounded to an integral value, with the draw `r` that RSR takes. -/
def roundElem (F : Fmt) (rm r : Nat) (x : XVal) : Nat :=
  match x with
  | .nan => F.canonicalNan
  | .inf n => F.signCode n + F.infCode
  | .fin n m e _ =>
    let v := (roundIntegral rm n m e r).1
    (round F rmRNE false false 0 (.fin n v 0 false)).1

/-- The elements of a lane of `frnd`, in ascending order, each with its draw. -/
def roundElems (F : Fmt) (rm : Nat) (gen : BitVec 32) : List XVal → List Nat × BitVec 32
  | [] => ([], gen)
  | x :: xs =>
    let gen1 := if rm = rmRSR then stepGenerator gen else gen
    let r := roundElems F rm gen1 xs
    (roundElem F rm gen1.toNat x :: r.1, r.2)

/-- `frnd`. -/
def frndBody (s : State) (i : Iss) : Res :=
  let lane := fun l => roundElems (etFmt i.et) (modeRm i.g.mode) (vget i.g.gen l 0) ((elems i.et (i.va l)).map i.val)
  i.fin (s.updGrp i.agent fun g =>
    (lanesOf i.g.active).foldl
      (fun g l => { (g.setV i.x.d l (ofElems (etBits i.et) (lane l).1)) with gen := vset g.gen l (lane l).2 }) g)

/-- Round each element to an integral value (R212). -/
def execFrnd (e : Bool) (d : BitVec 7) (a : BitVec 7) (s : State) : Out :=
  issueWord (insnA 0x196 (sigA .vector .vector .zero) e d a 0) floatRm frndBody s

end Sys2Proof.Machine
end

