-- ==== Sys2Proof/Machine/Tile.lean ====
section
/-!
DEFINITION. Sys2Proof/Machine/Tile.lean: the accumulator instructions and `mma` (14 R282 to R295): what each checks, what it reads
at its issue, and its acceptance by the matrix array (R285, R289). What an accepted one does to its tile is in Array.lean.
-/

namespace Sys2Proof.Machine

/-! ### Tiles and handles -/

/-- The binding word of the handle in a field. -/
def Iss.handle (i : Iss) (f : Nat) : BitVec 16 := i.g.hreg f

/-- Accumulator slots of a tile, charged as class 9 of 21 R401. -/
def Iss.accDone (_ : Iss) (s : State) (cls : Nat) : Res := .done s .next 9 (classSlots cls)

/-- The bound tile that an instruction needs (R284): ACC_UNALLOCATED on an unbound handle. -/
def Iss.bound (i : Iss) (s : State) (f : Nat) (k : Nat → Nat → Res) : Res :=
  let h := i.handle f
  if bindClass h = 0 then .trap s cAccUnallocated 0 0 else k (bindClass h) (bindFirst h)

/-- An instruction accepted by the array (R289). -/
def Iss.accept (i : Iss) (s : State) (cls first : Nat) (w : AccWork) : State :=
  s.updCore i.core fun c => { c with accQ := c.accQ ++ [⟨i.agent, cls, first, w⟩] }

/-- The array takes one more instruction (R289), and the group one more variable-latency result (08 R155). -/
def Iss.withRoom (i : Iss) (s : State) (k : Res) : Res :=
  let c := s.core i.core
  if Config.accQueue ≤ c.accQ.length then .wait s .waitMem .arrayRoom
  else if Config.groupResults ≤ i.g.vreds.length + c.ownCount i.agent then .wait s .waitMem .again
  else k

/-- A word that reads a tile (R285, R289): the group's own writes on it complete first; it is accepted, and its registers are written as
it completes (`Core.results`). -/
def Iss.reading (i : Iss) (s : State) (cls first : Nat) (w : AccWork) (n : Nat) : Res :=
  if (s.core i.core).ownWrites i.agent first then .wait s .waitMem (.tileWritten first)
  else i.withRoom s (i.accDone (i.accept s cls first w) n)

/-- A tile of a class for an instruction that writes (R283, R284): the bound one, or one created; `cls` 0 names no class.
The queue of the array is checked before a tile is created (R289). -/
def Iss.writeTile (i : Iss) (s : State) (f cls : Nat) (k : State → Nat → Nat → Res) : Res :=
  let h := i.handle f
  let c := s.core i.core
  if bindClass h ≠ 0 then
    if cls ≠ 0 ∧ cls ≠ bindClass h then .trap s cShapeMismatch 0 (h.zeroExtend 64)
    else i.withRoom s (k s (bindClass h) (bindFirst h))
  else if cls = 0 then .trap s cAccUnallocated 0 0
  else
    let held := c.heldSlots i.g.block
    if i.blk.desc.acc < held + classSlots cls then .trap s cAccQuota 0 (BitVec.ofNat 64 (held + i.blk.desc.acc * 2 ^ 8))
    else
      i.withRoom s (match c.createTile i.g.block cls with
        | none => .wait s .waitMem (.slots (classSlots cls))
        | some (first, c) =>
          k ((s.setCore i.core c).updGrp i.agent fun g => g.setH f (bindingWord cls first)) cls first)

/-! ### Releasing and sharing (R290, R295) -/

/-- A handle released (R290): it waits for the group's own work on the tile. -/
def Iss.releaseHandle (i : Iss) (s : State) (k : State → Res) : Res :=
  let h := i.handle i.x.a
  if (s.core i.core).ownWork i.agent (bindFirst h) then .wait s .waitMem (.tileIdle (bindFirst h))
  else
    let s := s.updCore i.core fun c => c.unbind (bindFirst h)
    k (s.updGrp i.agent fun g => g.setH i.x.a 0)

/-- `arel`. -/
def arelBody (s : State) (i : Iss) : Res :=
  if bindClass (i.handle i.x.a) = 0 then .done s .next 9 0
  else i.releaseHandle s fun s => i.accDone s (bindClass (i.handle i.x.a))

/-- The binding that `ahnd` asks for is one of the issuing block's tiles (R295). -/
def Core.tileNamed (c : Core) (blk : Nat) (w : BitVec 16) : Bool :=
  let e := vget c.slots (bindFirst w) AccSlot.reset
  e.used && e.part == 0 && e.block == blk && e.cls == bindClass w

/-- `ahnd`'s last part: the handle bound, or left unbound. -/
def Iss.bindHandle (i : Iss) (s : State) (w : BitVec 16) : Res :=
  let old := i.handle i.x.a
  let s := if bindClass w = 0 then s else
    (s.updCore i.core fun c => c.setBinds (bindFirst w) ((vget c.slots (bindFirst w) AccSlot.reset).binds + 1)).updGrp i.agent
      fun g => g.setH i.x.a w
  .done (s.updGrp i.agent fun g => g.setS i.x.d (old.zeroExtend 64)) .next 9 1

/-- `ahnd`. -/
def ahndBody (s : State) (i : Iss) : Res :=
  let old := i.handle i.x.a
  let w : BitVec 16 := i.sb.truncate 16
  if i.sb = BitVec.allOnes 64 then .done (s.updGrp i.agent fun g => g.setS i.x.d (old.zeroExtend 64)) .next 9 1
  else if i.sb.toNat / 2 ^ 8 ≠ 0 then i.illegal s
  else if bindClass w ≠ 0 ∧ (s.core i.core).tileNamed i.g.block w = false then i.illegal s
  else if bindClass w = 0 ∧ bindFirst w ≠ 0 then i.illegal s
  else if bindClass w ≠ 0 ∧ w = old then .done (s.updGrp i.agent fun g => g.setS i.x.d (old.zeroExtend 64)) .next 9 1
  else if bindClass old ≠ 0 then i.releaseHandle s fun s => i.bindHandle s w
  else i.bindHandle s w

/-- Release a tile handle (R290). -/
def execArel (e : Bool) (a : BitVec 7) (s : State) : Out :=
  issueWord (insnA 0x380 (sigA .zero .handle .zero) e 0 a 0) always arelBody s

/-- Query, bind or unbind a handle's tile (R295). -/
def execAhnd (e : Bool) (d : BitVec 7) (a : BitVec 7) (b : BitVec 7) (s : State) : Out :=
  issueWord (insnA 0x388 (sigA .scalar .handle .scalar) e d a b) always ahndBody s

/-! ### Clearing and single elements (R291, R294) -/

/-- `azero`. -/
def azeroBody (s : State) (i : Iss) : Res :=
  if i.sa.toNat / 2 ^ 3 ≠ 0 ∨ 5 ≤ i.sa.toNat then i.illegal s
  else i.writeTile s i.x.d i.sa.toNat fun s cls first => i.accDone (i.accept s cls first .azero) cls

/-- An index word (R294): row and column, none where a reserved bit is set. -/
def indexOf (x : BitVec 64) : Option (Nat × Nat) :=
  if bitsOf x 7 7 ≠ 0 ∨ bitsOf x 63 15 ≠ 0 then none else some (bitsOf x 6 0, bitsOf x 14 8)

/-- An element inside a class. -/
def inClass (cls : Nat) (ij : Nat × Nat) : Bool := decide (ij.1 < classRows cls ∧ ij.2 < classCols cls)

/-- `aget`. -/
def agetBody (s : State) (i : Iss) : Res :=
  match indexOf i.sb with
  | none => i.illegal s
  | some ij =>
    i.bound s i.x.a fun cls first =>
      if inClass cls ij then
        i.reading s cls first (.aget ij.1 ij.2 i.x.d) 1
      else i.illegal s

/-- `apatch`. -/
def apatchBody (s : State) (i : Iss) : Res :=
  match indexOf i.sa with
  | none => i.illegal s
  | some ij =>
    if 2 ^ 32 ≤ i.sb.toNat then i.illegal s
    else
      i.bound s i.x.d fun cls first =>
        if inClass cls ij then i.withRoom s (i.accDone (i.accept s cls first (.apatch ij.1 ij.2 i.sb.toNat)) 1)
        else i.illegal s

/-- Zero or create a tile (R291). -/
def execAzero (e : Bool) (d : BitVec 7) (a : BitVec 7) (s : State) : Out :=
  issueWord (insnA 0x385 (sigA .handle .scalar .zero) e d a 0) always azeroBody s

/-- Read one tile element (R294). -/
def execAget (e : Bool) (d : BitVec 7) (a : BitVec 7) (b : BitVec 7) (s : State) : Out :=
  issueWord (insnA 0x387 (sigA .scalar .handle .scalar) e d a b) always agetBody s

/-- Write one tile element, privileged (R294). -/
def execApatch (e : Bool) (d : BitVec 7) (a : BitVec 7) (b : BitVec 7) (s : State) : Out :=
  issueWord (insnA 0x386 ((sigA .handle .scalar .scalar).priv) e d a b) always apatchBody s

/-! ### Strips (R292) -/

/-- The span of eight registers in field a, or in field d. -/
def spanA8 (i : Iss) : Bool := spanFits i.g.kregs i.x.a 8
def spanD8 (i : Iss) : Bool := spanFits i.g.kregs i.x.d 8

/-- A strip inside a class: row group and column half. -/
def stripFits (cls g h : Nat) : Bool := decide (8 * g + 7 < classRows cls ∧ 64 * h + 63 < classCols cls)

/-- The values of a strip: of each lane 64, column by column. -/
def Iss.stripVals (i : Iss) : List (List Nat) :=
  (List.range 8).map fun l => ((List.range 8).map fun c => (List.range 8).map fun t =>
    elem (i.g.vlane (i.x.a + c) l) 32 t).flatten

/-- `ald`: the strip is checked against the class before a tile is created. -/
def aldBody (s : State) (i : Iss) : Res :=
  let g := bitsOf i.sb 3 0
  let h := bitsOf i.sb 4 4
  let cls := bitsOf i.sb 7 5
  let bnd := bindClass (i.handle i.x.d)
  if i.sb.toNat / 2 ^ 8 ≠ 0 ∨ 5 ≤ cls then i.illegal s
  else if bnd ≠ 0 ∧ cls ≠ 0 ∧ cls ≠ bnd then .trap s cShapeMismatch 0 ((i.handle i.x.d).zeroExtend 64)
  else if bnd = 0 ∧ cls = 0 then .trap s cAccUnallocated 0 0
  else if stripFits (if bnd = 0 then cls else bnd) g h then
    i.writeTile s i.x.d cls fun s cls first =>
      i.accDone (i.accept s cls first (.ald (8 * g) (64 * h) i.stripVals)) cls
  else i.illegal s

/-- `ast`. -/
def astBody (s : State) (i : Iss) : Res :=
  let r := bitsOf i.sb 3 0
  let h := bitsOf i.sb 4 4
  if i.sb.toNat / 2 ^ 5 ≠ 0 then i.illegal s
  else
    i.bound s i.x.a fun cls first =>
      if stripFits cls r h then
        i.reading s cls first (.ast (8 * r) (64 * h) i.x.d) cls
      else i.illegal s

/-- Write a tile strip from registers (R292). -/
def execAld (e : Bool) (d : BitVec 7) (a : BitVec 7) (b : BitVec 7) (s : State) : Out :=
  issueWord (insnA 0x383 (sigA .handle .vector .scalar) e d a b) spanA8 aldBody s

/-- Copy a tile strip to registers (R292). -/
def execAst (e : Bool) (d : BitVec 7) (a : BitVec 7) (b : BitVec 7) (s : State) : Out :=
  issueWord (insnA 0x384 (sigA .vector .handle .scalar) e d a b) spanD8 astBody s

/-! ### Requantisation (R293) -/

/-- `rqnt`, and `rqntt` with `cols`. -/
def requant (cols : Bool) (s : State) (i : Iss) : Res :=
  let et := modeEt2 i.g.mode
  let f := Fmt.decode .fp32 (bitsOf i.sb 31 0)
  let clip := Fmt.decode .bf16 (bitsOf i.sb 47 32)
  let lanes := bitsOf i.sb 51 48
  let nb := bitsOf i.sb 53 52 + 1
  let regs := requantRegs et nb
  if isMx et = false ∨ i.sb.toNat / 2 ^ 54 ≠ 0 ∨ clip.isNan = true ∨ (clip.neg? = true ∧ clip.isZero = false) ∨
      spanFits i.g.kregs i.x.d regs = false then i.illegal s
  else
    i.bound s i.x.a fun cls first =>
      let high := if cols then classCols cls else classRows cls
      let wide := if cols then classRows cls else classCols cls
      if high ≤ 8 * lanes + 7 ∨ wide < 32 * nb then i.illegal s
      else
        i.reading s cls first (.requant cols et f clip (8 * lanes) nb i.x.d) cls

/-- Requantise tile rows into MX blocks (R293). -/
def execRqnt (e : Bool) (d : BitVec 7) (a : BitVec 7) (b : BitVec 7) (s : State) : Out :=
  issueWord (insnA 0x381 (sigA .vector .handle .scalar) e d a b) always (requant false) s

/-- Requantise tile columns into MX blocks (R293). -/
def execRqntt (e : Bool) (d : BitVec 7) (a : BitVec 7) (b : BitVec 7) (s : State) : Out :=
  issueWord (insnA 0x382 (sigA .vector .handle .scalar) e d a b) always (requant true) s

/-! ### `mma` (R286 to R288) -/

/-- The class of a shape (R286). -/
def shapeClass (code : Nat) : Nat := if code < 4 then 1 else if code = 4 then 2 else if code = 5 then 3 else 4

/-- Row r of an operand from vector register v (R287): its K elements with their scales. -/
def Group.fragment (g : Group) (v et K r : Nat) : List XVal :=
  let p := kpr et
  let c := (K + p - 1) / p
  (List.range K).map fun k =>
    let reg := v + r / 8 * c + k / p
    let e := k % p
    let code := elem (g.vlane reg (r % 8)) (etBits et) e
    if isMx et then mxValue (etFmt et) (g.klane reg (r % 8) / 2 ^ (8 * (e / 32)) % 256) code else (etFmt et).decode code

/-- TA and TB hold no reserved code (R288, step 6). -/
def mmaOk (i : Iss) : Bool := decide (modeTa i.g.mode ≤ 6 ∧ modeTb i.g.mode ≤ 6)

/-- `mma` of a shape on a handle, with the Z and N flags. -/
def mmaBody (code h : Nat) (z n : Bool) (s : State) (i : Iss) : Res :=
  let ta := taType (modeTa i.g.mode)
  let tb := taType (modeTb i.g.mode)
  let wide := fun (t : Nat) => t == 9 || t == 10
  let (M, N, k) := shapeOf code
  let K := k * min (kpr ta) (kpr tb)
  let cA := (K + kpr ta - 1) / kpr ta
  let cB := (K + kpr tb - 1) / kpr tb
  if (wide ta || wide tb) && ta != tb then i.illegal s
  else if !(spanFits i.g.kregs i.x.a (M / 8 * cA) && spanFits i.g.kregs i.x.b (N / 8 * cB)) then i.illegal s
  else
    i.writeTile s h (shapeClass code) fun s cls first =>
      let a := (List.range M).map (i.g.fragment i.x.a ta K)
      let b := (List.range N).map (i.g.fragment i.x.b tb K)
      let s := i.accept s cls first (.mma M N z n (s.ctx i.ctx).nbv a b)
      let macs := M * N * K
      let family := if min (kpr ta) (kpr tb) = 64 then 7 else if wide ta then 8 else 6
      .done (s.countUp i.core 6 macs) .next family (macs / 1024)

/-- Matrix multiply-accumulate into a tile (R288). -/
def execMma (e : Bool) (sh : BitVec 3) (h : BitVec 4) (z n : Bool) (a b : BitVec 7) (s : State) : Out :=
  issueWord ⟨0x3C0 + sh.toNat, sigM, e, h.toNat, a.toNat, b.toNat, 0, none⟩ mmaOk (mmaBody sh.toNat h.toNat z n) s

end Sys2Proof.Machine
end

