-- ==== Sys2Proof/Machine/CapEv.lean ====
section
/-!
DEFINITION. Sys2Proof/Machine/CapEv.lean: the matrix array's completions (14 R289), stop markings (17 R335) and the apply of capsule logs
(R329).
-/

namespace Sys2Proof.Machine

/-- The array of a core has accepted work. -/
def State.canAcc (s : State) (core : Nat) : Bool := decide (core < Config.cores) && (s.core core).accQ != []

/-- An accepted accumulator instruction completes 40 clocks after its occupancy (R289). -/
def execAccComplete (core : Nat) (s : State) : Out := .next (if s.canAcc core then s.accStep core else s)

/-- A marking on its way that no earlier one of the same group precedes. -/
def State.canMark (s : State) (index : Nat) : Bool :=
  match s.markings[index]? with
  | some m => !((s.markings.take index).any fun x => x.1 == m.1)
  | none => false

/-- It reaches its line. -/
def State.deliverMark (s : State) (index : Nat) : State :=
  match s.markings[index]? with
  | some m => { s with markings := s.markings.eraseIdx index }.capMark m.1 m.2
  | none => s

/-- A stopping group's marking reaches its capsule line and makes it PARKED_HELD (R335). -/
def execStopMarking (index : Nat) (s : State) : Out := .next (if s.canMark index then s.deliverMark index else s)

/-- The apply of a committed log ends. -/
def State.endLog (s : State) (index : Nat) : State :=
  match s.capLogs[index]? with
  | some c => s.finishLog c
  | none => s

/-- All writes of a committed capsule log are performed and LOG becomes APPLIED (R329). -/
def execLogApplied (index : Nat) (s : State) : Out := .next (s.endLog index)

end Sys2Proof.Machine
end

