-- ==== Sys2Proof/Machine/GraphWords.lean ====
section
/-!
DEFINITION. Sys2Proof/Machine/GraphWords.lean: the graph instructions (06 R131 to R135).
-/

namespace Sys2Proof.Machine

/-- The graph and node of the issuing group's grid, and the node. -/
def State.ownNode (s : State) (i : Iss) : Option (Nat × Nat × Node) :=
  match amGet s.grids i.blk.grid with
  | none => none
  | some k => (s.node k.graph k.node).map fun x => (k.graph, k.node, x)

/-- `gtok` (R131). -/
def gtokBody (s : State) (i : Iss) : Res :=
  match s.ownNode i with
  | none => .trap s cGraphError 0 0
  | some (g, n, x) =>
    if x.early then
      if s.graphStuck g then .wait s .waitMem .again
      else
        let r := s.release i.core i.agent 4
        if r.2 then i.fin (if x.toksent = false ∧ x.state = nRunning then r.1.sendTokens g n else r.1)
        else .wait r.1 .waitMem .acks
    else .trap s cGraphError 0 0

/-- The access of a group to memory that a graph instruction makes. -/
def graphAcc (va n : Nat) (kind : Access) (data : Option Nat) : Acc := ⟨va % 2 ^ 64, n, kind, 0, 0, true, false, false, data, 0⟩

/-- The header address of a queue (05 R102). -/
def State.queueHdr (s : State) (q : Nat) : Nat := bitsOf (s.reg 0x0018) 51 19 * 2 ^ 19 + q * 512
/-- The tail line of a queue (05 R104). -/
def State.tailPa (s : State) (q : Nat) : Nat := if (s.queue q).tailpa = 0 then s.queueHdr q + 0x100 else (s.queue q).tailpa

/-- The 32 bytes of a LAUNCH entry (05 R105). -/
def launchEntry (graph : BitVec 64) (n : Nat) : Nat := graph.toNat + (n % 2 ^ 32 + 2 ^ 32) * 2 ^ 64

/-- TAIL written by a release store: at the home of a tail line in device memory, or at the host. -/
def State.writeTail (s : State) (i : Iss) (pa v : Nat) : State :=
  if s.isMemory pa then (s.dropGuest (dieOf i.core) (pa / 256)).performBytes none pa 8 v else s.performWrite ⟨i.agent, i.core, i.ctx, 0, pa, 8, v, none, 0, []⟩

/-- TAIL as the append finds it: at the home, or at a host line; none while the host's reply is outstanding. -/
def State.readTail (s : State) (i : Iss) (pa : Nat) : Option (Bool × Nat) :=
  if s.isMemory pa then some (s.poisoned pa 8, s.read pa 8) else s.extValue i.agent pa 8

/-- The append of `glaunch` (R132), once the release is satisfied. XADDR of the POISON trap for a poisoned TAIL or header, which have no
virtual address, is sB, as R132 has it for the ring's entry: the spec names none (the model's choice, log 32). -/
def glaunchAppend (s : State) (i : Iss) (q : Nat) : Res :=
  let pa := s.tailPa q
  match s.readTail i pa with
  | none => .wait (s.extAsk i.agent i.ctx pa 8) .waitMem .reply
  | some (true, _) => .trap s cPoison i.sb 0
  | some (false, n) =>
    let x := s.queue q
    if s.poisoned (s.queueHdr q) 64 then .trap s cPoison i.sb 0
    else if x.done.toNat + 2 ^ x.log2n ≤ n then i.finS s (BitVec.allOnes 64)
    else
      let va := x.ring.toNat + n % 2 ^ x.log2n * 32
      i.store s [graphAcc va 32 .write (some (launchEntry i.sb n))] fun s =>
        i.finS ((s.drainCore i.core).writeTail i pa ((n + 1) % 2 ^ 64)) (BitVec.ofNat 64 n)

/-- `glaunch` (R132). -/
def glaunchBody (s : State) (i : Iss) : Res :=
  let r := s.release i.core i.agent 5
  if r.2 then
    let q := i.sa.toNat
    let x := r.1.queue q
    if 1023 < q ∨ x.state = .closed ∨ x.state = .faulted ∨ x.ctx ≠ i.ctx then i.finS r.1 (-2)
    else glaunchAppend r.1 i q
  else .wait r.1 .waitMem .acks

/-- Words of a header or record read with device-scope acquire (R133). -/
def Iss.graphRead (i : Iss) (s : State) (vas : List Nat) (k : State → List Nat → Res) : Res :=
  i.load s 4 true (vas.map fun va => graphAcc va 8 .read none) fun s vs => k (s.acquire i.agent 4) vs

/-- `gstat` (R133). -/
def gstatBody (s : State) (i : Iss) : Res :=
  let a := i.sa.toNat
  i.graphRead s [a, a + 8, a + 16, a + 24] fun s vs =>
    let h := vs.getD 0 0
    if h / 2 ^ 16 % 256 ≠ i.ctx then i.finS s (BitVec.allOnes 64)
    else if i.sb = BitVec.allOnes 64 then
      i.finS s (BitVec.ofNat 64 (h % 256 + h / 2 ^ 32 % 2 ^ 16 * 2 ^ 16 + vs.getD 3 0 % 2 ^ 32 * 2 ^ 32))
    else if i.sb.toNat < vs.getD 2 0 % 2 ^ 16 then
      let nv := vs.getD 1 0 + i.sb.toNat * 128
      i.graphRead s [nv, nv + 8] fun s ws =>
        let w := ws.getD 0 0
        i.finS s (BitVec.ofNat 64 (w / 2 ^ 4 % 16 + w / 2 ^ 24 % 256 * 2 ^ 8 + w / 2 ^ 20 % 16 * 2 ^ 16 +
          ws.getD 1 0 / 2 ^ 16 % 2 ^ 16 * 2 ^ 32))
    else i.finS s (BitVec.allOnes 64)

/-- The place in memory that an address of a context translates to. -/
def State.placeOf (s : State) (c va : Nat) : Option Nat :=
  match s.walkCheck c va .read true with
  | .ok pa => some pa
  | _ => none

/-- The running graph of the issuing group's context whose header is at the place of an address. -/
def State.graphAt (s : State) (i : Iss) (va : BitVec 64) : Option (Nat × Graph) :=
  s.graphs.find? fun x => x.2.ctx == i.ctx &&
    (x.2.va == va || ((s.placeOf i.ctx x.2.va.toNat).isSome && s.placeOf i.ctx x.2.va.toNat == s.placeOf i.ctx va.toNat))

/-- `gcancel` on a running graph (R134). -/
def gcancelGraph (s : State) (i : Iss) (g : Nat) (x : Graph) : Res :=
  if i.sb = BitVec.allOnes 64 then i.finS (s.cancelChildren 0x43 9 g) 0
  else
    let n := i.sb.toNat
    match x.nodes[n]? with
    | none => i.finS s 2
    | some nd =>
      if nFailed ≤ nd.state then i.finS s 3
      else i.finS (((s.coneVisit g n 0x43).startWalk g n).markRoot g n) 0

/-- A word that comes after the other words of its clock and the visits and HALT_GRAPH actions of the walks in progress (R124). -/
def Iss.afterVisits (i : Iss) (s : State) (k : Res) : Res :=
  if s.putOff.contains i.agent || ((s.issue.all fun a => a == i.agent || !(s.unused a)) &&
      !(s.graphs.any fun x => x.2.wact || x.2.halts != [])) then k
  else .later s

/-- `gcancel` (R134). -/
def gcancelBody (s : State) (i : Iss) : Res :=
  i.afterVisits s <| i.graphRead s [i.sa.toNat] fun s vs =>
    if vs.getD 0 0 / 2 ^ 16 % 256 ≠ i.ctx then i.finS s 1
    else
      match s.graphAt i i.sa with
      | none => i.finS s 1
      | some (g, x) =>
        if x.state ≠ 1 ∨ x.halts ≠ [] then i.finS s 1
        else if s.graphStuck g then .wait s .waitMem .again
        else gcancelGraph s i g x

/-- `gfail` (R135). -/
def gfailBody (s : State) (i : Iss) : Res :=
  let v := i.sa.toNat
  if 0x1B < v then i.illegal s
  else
    match s.ownNode i with
    | none => i.fin s
    | some (g, n, _) =>
      if s.graphStuck g then .wait s .waitMem .again else i.fin (s.nodeFault g n (if v = 0 then 0x46 else v))

/-- Send the node's early tokens (R131). -/
def execGtok (e : Bool) (s : State) : Out :=
  issueWord (insnA 0x2A0 (sigA .zero .zero .zero) e 0 0 0) always gtokBody s

/-- Append a LAUNCH entry to a queue (R132). -/
def execGlaunch (e : Bool) (d : BitVec 7) (a : BitVec 7) (b : BitVec 7) (s : State) : Out :=
  issueWord (insnA 0x2A1 (sigA .scalar .scalar .scalar) e d a b) always glaunchBody s

/-- Read a graph header or node status (R133). -/
def execGstat (e : Bool) (d : BitVec 7) (a : BitVec 7) (b : BitVec 7) (s : State) : Out :=
  issueWord (insnA 0x2A2 (sigA .scalar .scalar .scalar) e d a b) always gstatBody s

/-- Cancel a node's cone or a whole graph (R134). -/
def execGcancel (e : Bool) (d : BitVec 7) (a : BitVec 7) (b : BitVec 7) (s : State) : Out :=
  issueWord (insnA 0x2A3 (sigA .scalar .scalar .scalar) e d a b) always gcancelBody s

/-- Fail the current attempt of the group's node (R135). -/
def execGfail (e : Bool) (a : BitVec 7) (s : State) : Out :=
  issueWord (insnA 0x2A4 (sigA .zero .scalar .zero) e 0 a 0) always gfailBody s

end Sys2Proof.Machine
end

