-- ==== Sys2Proof/Machine/Queue.lean ====
section
/-!
DEFINITION. Sys2Proof/Machine/Queue.lean: the admission of graphs (06 R119) and the queues (05): commands, tail observation, entries,
admission by the Marionettes, completion.
-/

namespace Sys2Proof.Machine

/-! ### Admission of a graph (06 R117, R119) -/

/-- The node that a record of 128 bytes holds. -/
def Node.ofCode (x : Nat) : Node :=
  let f := fun (at' n : Nat) => x / 2 ^ at' % 2 ^ n
  { kind := f 0 4, state := 0, policy := f 8 2, idem := f 10 1 == 1, early := f 11 1 == 1, nvar := f 12 2, vsel := f 14 2,
    rbudget := f 16 4, rused := 0, status := 0, fdom := f 32 8, prio := f 40 3, povr := f 43 1 == 1, toksent := false,
    walked := false, need := f 64 16, haveTok := 0, succs := [], payload := BitVec.ofNat 64 (f 320 64),
    vars := Vector.ofFn fun k => BitVec.ofNat 64 (f (384 + 64 * k.val) 64),
    times := Vector.ofFn fun k => f (640 + 32 * k.val) 32, lseq := BitVec.ofNat 64 (f 768 64), tFire := f 832 64,
    wlink := 0xFFFF, cores := f 976 8, accs := f 984 16, readyClk := 0, raised := 0, waited := 0, limit := 0, grid := none,
    child := none, engine := none, ending := none, starting := none, work := Vector.replicate 4 0, watchPa := 0 }

/-- NSUCC, NOVF and OVF of a record. -/
def recordLists (x : Nat) : Nat × Nat × Nat := (x / 2 ^ 96 % 16, x / 2 ^ 100 % 2 ^ 16, x / 2 ^ 256 % 2 ^ 64)

/-- The inline successors of a record. -/
def inlineSuccs (x : Nat) : List Nat := (List.range (recordLists x).1).map fun k => x / 2 ^ (128 + 16 * k) % 2 ^ 16

/-- The reads of the records of a graph and then of their overflow lists: what they give, in order. -/
inductive Records where
  | ok (nodes : List Node) (s : State)
  | refused (s : State)
  | wait (s : State)

/-- The records of n nodes from an address on. -/
def State.readRecords (s : State) (c va : Nat) : Nat → Records
  | 0 => .ok [] s
  | n + 1 =>
    match s.ctxRead c va 128 with
    | .fault _ s => .refused s
    | .wait s => .wait s
    | .ok x s =>
      let l := recordLists x
      if 8 < l.1 then .refused s
      else if l.2.1 ≠ 0 ∧ l.2.2 % 2 ≠ 0 then .refused s
      else
        match s.ctxReads c ((List.range l.2.1).map fun k => ((l.2.2 + 2 * k) % 2 ^ 64, 2)) with
        | .fault _ s => .refused s
        | .wait s => .wait s
        | .ok os s =>
          match s.readRecords c (va + 128) n with
          | .ok ns s => .ok ({ Node.ofCode x with succs := inlineSuccs x ++ os } :: ns) s
          | r => r

/-- A node that R119 refuses, in a graph of some nodes and in-degrees. -/
def Node.refused (x : Node) (count indeg : Nat) (pin : Bool) : Bool :=
  x.kind == 0 || decide (8 ≤ x.kind) || x.policy == 0 || x.succs.any (fun k => decide (count ≤ k)) || x.need != indeg ||
  (x.kind == 1 && (((List.range (x.nvar + 1)).any fun k => vget x.vars k 0 == 0) || (pin && decide (x.nvar < x.vsel))))

/-- The least of budgets, zeros aside; the default where every one is zero (R117). -/
def leastBudget (bs : List Nat) (default : Nat) : Nat :=
  match bs.filter fun b => b != 0 with
  | [] => default
  | b :: r => r.foldl min b

/-- The outcome of an admission. -/
inductive Admission where
  | ok (g : Nat) (s : State)
  | refused (s : State)
  | wait (s : State)

/-- The graph that a header of 40 bytes at an address describes, with what it inherits (R117). -/
def State.newGraph (s : State) (h c va die : Nat) (queue : Option Nat) (parent : Option (Nat × Nat)) (nodes : List Node) :
    Graph :=
  let f := fun (at' n : Nat) => h / 2 ^ at' % 2 ^ n
  let up := parent.bind fun p => (amGet s.graphs p.1).bind fun x => (x.nodes[p.2]?).map fun y => (x, y)
  let prio := match up with
    | some (x, y) => if f 11 1 = 1 then x.nodePrio y else f 8 3
    | none => f 8 3
  let fdom := if f 24 8 ≠ 0 then f 24 8 else match up with
    | some (x, y) => x.nodeFdom y
    | none => 0
  let cores := match up with
    | some (x, y) => leastBudget [f 144 8, y.cores, x.cores] Config.cores
    | none => leastBudget [f 144 8] Config.cores
  let accs := match up with
    | some (x, y) => leastBudget [f 152 16, y.accs, x.accs] (Config.cores * Config.accSlots)
    | none => leastBudget [f 152 16] (Config.cores * Config.accSlots)
  { va := BitVec.ofNat 64 va, ctx := c, die := die, queue := queue, parent := parent,
    depth := match up with
      | some (x, _) => x.depth + 1
      | none => 1
    prio := prio, fdom := fdom, cores := cores, accs := accs,
    regions := match up with
      | some (x, _) => x.regions
      | none => []
    nodesVa := BitVec.ofNat 64 (f 64 64), state := 1, completion := BitVec.ofNat 64 (f 192 64), failed := 0xFFFF,
    whead := 0xFFFF, wtail := 0xFFFF, wact := false, visitClk := 0, halts := [], halted := false, cancelled := false,
    admitted := s.clk.toNat,
    compl := ((queue.bind fun q => (s.queue q).entry).map fun e => e.2.1).getD 0,
    cval := ((queue.bind fun q => (s.queue q).entry).map fun e => e.2.2).getD 0, told := false, nodes := nodes }

/-- The dynamic fields of an accepted graph written (R119): every node's, then the header's. -/
def State.writeAdmitted (s : State) (x : Graph) (gseq : BitVec 64) : State :=
  let s := (List.range x.nodes.length).foldl (fun s n =>
    match x.nodes[n]? with
    | none => s
    | some y =>
      let va := x.nodeVa n
      let s := s.marWrite x.ctx va nodeMask0 y.word0
      let s := s.marWrite x.ctx (va + 8) nodeMask8 0
      s.marWrite x.ctx (va + 0x78) nodeMask78 0xFFFF) s
  let h := x.va.toNat
  let s := s.marWrite x.ctx h (headerRsv ||| 0xFFFF000000FF) (x.word0 0)
  let s := s.marWrite x.ctx (h + 0x20) (BitVec.allOnes 64) x.walkWord
  let s := s.marWrite x.ctx (h + 0x28) (BitVec.allOnes 64) gseq
  s.marWrite x.ctx (h + 0x30) (BitVec.allOnes 64) s.clk

/-- The die of the Marionette that admits a graph: the one that homes its header (R110); `some none` where GRAPH is misaligned
or does not translate, `none` where the access waits. -/
def State.graphDie (s : State) (c va : Nat) : Option (Option Nat) :=
  if va % 256 ≠ 0 then some none
  else
    match s.walkCheck c va .read true with
    | .ok pa => if va < 2 ^ 57 then some (some (s.homeDie pa)) else some none
    | .migrating _ => none
    | _ => some none

/-- A translation of GRAPH performed: one that finds the page's lease ended writes REVOKED (18 R350, R358). -/
def State.graphTouched (s : State) (c va : Nat) : State := if va % 256 = 0 ∧ va < 2 ^ 57 then (s.direct c va .read true).2 else s

/-- A graph's header and records checked and the graph admitted (R119). -/
def State.admitGraph (s : State) (c va die : Nat) (queue : Option Nat) (parent : Option (Nat × Nat)) : Admission :=
  if va % 256 ≠ 0 then .refused s
  else if s.recWaits c then .wait s
  else
    match s.ctxRead c va 40 with
    | .fault _ s => .refused s
    | .wait s => .wait s
    | .ok h s =>
      let f := fun (at' n : Nat) => h / 2 ^ at' % 2 ^ n
      if f 0 4 = 1 ∨ f 0 4 = 2 ∨ f 16 8 ≠ c ∨ f 128 16 = 0 ∨ f 64 64 % 128 ≠ 0 then .refused s
      else
        match s.readRecords c (f 64 64) (f 128 16) with
        | .refused s => .refused s
        | .wait s => .wait s
        | .ok nodes s =>
          let all := (nodes.map fun x => x.succs).flatten
          let count := f 128 16
          if (nodes.zip (List.range count)).any fun xn => xn.1.refused count (all.filter fun k => k == xn.2).length (s.ctx c).pinVariant
          then .refused s
          else
            let nodes := nodes.map fun x =>
              { x with state := if x.need = 0 then nReady else nWaiting, readyClk := s.clk.toNat }
            let x := s.newGraph h c va die queue parent nodes
            let (gseq, s) := s.partDone.nextLseq
            let (g, s) := s.fresh
            let x := { x with regions := g :: x.regions }
            .ok g ({ s with graphs := amSet s.graphs g x }.writeAdmitted x gseq)

/-! ### The header (05 R104) -/

/-- STATE of a queue as a code (R104). -/
def QState.code : QState → Nat
  | .closed => 0 | .idle => 1 | .watching => 2 | .active => 3 | .draining => 4 | .paused => 5 | .faulted => 6

/-- The word of FCODE and DLIMIT. -/
def Queue.word28 (x : Queue) : BitVec 64 := BitVec.ofNat 64 (x.fcode.toNat + x.dlimit.toNat * 2 ^ 8)

/-- A queue put, in the part and in its header; the reserved bits of the header's first word are written as zero (00 R7). -/
def State.putQueue (s : State) (q : Nat) (x : Queue) : State :=
  let old := s.queue q
  let h := s.queueHdr q
  let s := s.setQueue q x
  let s := if old.state = x.state then s
    else s.write64 h ((s.read64 h &&& 0xFF0700#64) ||| BitVec.ofNat 64 x.state.code)
  let s := if old.head = x.head then s else s.write64 (h + 0x18) x.head
  let s := if old.done = x.done then s else s.write64 (h + 0x20) x.done
  if old.word28 = x.word28 then s else s.write64 (h + 0x28) x.word28

/-- QSTS after a command (R103). -/
def State.queueResult (s : State) (q code : Nat) : State :=
  { s with qSts := (s.qSts &&& 16#64) ||| BitVec.ofNat 64 (code * 2 + q % 1024 * 2 ^ 16) }

/-- A queue leaves its state for good: a DRAIN that waits for TAIL ends with it. -/
def State.endDrain (s : State) (q : Nat) : State := if (s.queue q).drainDue then s.queueResult q 0 else s

/-- A queue enters FAULTED (R111). -/
def State.faultQueue (s : State) (q code : Nat) : State :=
  ((s.disarm (.queue q)).endDrain q).putQueue q
    { s.queue q with state := .faulted, fcode := BitVec.ofNat 8 code, drainDue := false }

/-- A queue closes: the entries that it has not taken are abandoned; a launch taken goes on (R109, log 32). -/
def State.closeQueue (s : State) (q : Nat) : State :=
  ((s.disarm (.queue q)).endDrain q).putQueue q { s.queue q with state := .closed, drainDue := false }

/-- An open queue (R112). -/
def Queue.isOpen (x : Queue) : Bool := x.state != .closed

/-! ### Completion of entries (R109) -/

/-- The completion word of an entry can be written now, with system-scope release: its leaf is not MIGRATING, and the context's writes to
hosts and peers are acknowledged (R109, 11 R231). -/
def State.complReady (s : State) (c compl : Nat) : Bool := compl == 0 || (!(s.migratingAt c compl) && !(s.ctxWrites c))

/-- DONE counts an entry (R109). -/
def State.countDone (s : State) (q : Nat) : State := s.putQueue q { s.queue q with done := (s.queue q).done + 1 }

/-- A completion write that faults puts its queue, where it is open, in FAULTED (R111, R112). -/
def State.complFault (s : State) (q : Nat) : State := if (s.queue q).state = .closed then s else s.faultQueue q 5

/-- An entry of a context completes: CVAL to COMPL, then DONE where the queue counts it; a fault of the write faults the queue (R111). R105
wants COMPL aligned and gives no outcome where it is not: the model takes it as a completion write that faults (its choice, log 32). -/
def State.completeEntry (s : State) (q c : Nat) (counts : Bool) (compl cval : BitVec 64) : State :=
  let count := fun (s : State) => if counts then s.countDone q else s
  let fail := fun (s : State) => if counts then (s.countDone q).complFault q else s
  if compl = 0 then count s
  else if compl.toNat % 8 ≠ 0 then fail s
  else
    match s.ctxWrite c compl.toNat 8 cval.toNat false with
    | .ok _ s => count s
    | .fault _ s => fail s
    | .wait s => s

/-- A launch of a queue completes (R109, R110): the queue counts it unless it has been opened anew since. -/
def State.launchDone (s : State) (q g : Nat) (x : Graph) : State :=
  let y := s.queue q
  let mine := y.flying == some g
  let s := if mine then s.putQueue q { y with entry := none, flying := none, eff := y.prio } else s
  s.completeEntry q x.ctx mine x.compl x.cval

/-! ### Taking entries (R105, R109) -/

/-- Entry HEAD may be taken: the queue takes entries, its context runs, and no earlier entry is still in hand. -/
def State.mayTake (s : State) (x : Queue) : Bool :=
  (s.ctx x.ctx).state == .running && !(s.ctx x.ctx).restoring && x.entry.isNone && x.flying.isNone && x.head == x.done &&
  ((x.state == .active && decide (x.head.toNat < x.tail.toNat)) ||
    (x.state == .draining && x.head.truncate 56 != x.dlimit))

/-- Entry HEAD taken (R109, R111); none where the queue takes none now. -/
def State.takeEntry (s : State) (q : Nat) : Option State :=
  let x := s.queue q
  if s.mayTake x then
    match s.ctxRead x.ctx ((x.ring.toNat + x.head.toNat % 2 ^ x.log2n * 32) % 2 ^ 64) 32 with
    | .wait t => if t.extReqs.length = s.extReqs.length then none else some t
    | .fault _ t => some (t.partDone.faultQueue q 3)
    | .ok v t =>
      let t := t.partDone
      let kind := v / 2 ^ 96 % 2 ^ 8
      let compl := BitVec.ofNat 64 (v / 2 ^ 128)
      let cval := BitVec.ofNat 64 (v / 2 ^ 192)
      if v / 2 ^ 64 % 2 ^ 32 ≠ x.head.toNat % 2 ^ 32 ∨ kind = 0 ∨ 3 < kind then some (t.faultQueue q 1)
      else if kind = 1 then
        match t.graphDie x.ctx (v % 2 ^ 64) with
        | none => none
        | some none => some ((t.graphTouched x.ctx (v % 2 ^ 64)).faultQueue q 4)
        | some (some _) =>
          some (t.putQueue q { x with head := x.head + 1, entry := some (BitVec.ofNat 64 v, compl, cval), eff := x.prio,
                                      waitClk := s.clk.toNat })
      else if t.complReady x.ctx compl.toNat then
        let y := { x with head := x.head + 1 }
        let y := if kind = 3 then { y with dlimit := (x.head + 1).truncate 56, state := .draining } else y
        some ((t.putQueue q y).completeEntry q x.ctx true compl cval)
      else none
  else none

/-- BAD_GRAPH: HEAD stands at the entry again (R111). A queue that has been closed since it took the entry is in no state that faults (R112):
the entry is dropped (log 32). -/
def State.badGraph (s : State) (q : Nat) : State :=
  let x := s.queue q
  let s := match x.entry with
    | some (va, _, _) => s.graphTouched x.ctx va.toNat
    | none => s
  if x.state = .closed then s.setQueue q { x with entry := none }
  else (s.putQueue q { x with head := x.head - 1, entry := none }).faultQueue q 4

/-- A launch that a queue has taken and that translates no more (R110). -/
def State.launchBad (s : State) (x : Queue) : Bool :=
  (x.state == .active || x.state == .draining || x.state == .closed) && x.flying.isNone && (s.ctx x.ctx).state == .running &&
  match x.entry with
  | some (va, _, _) => s.graphDie x.ctx va.toNat == some none
  | none => false

/-! ### Tail observation (R107, R108, R112, R113) -/

/-- A watch of a queue has fired. -/
def State.queueFired (s : State) (q : Nat) : Bool := s.watches.any fun w => w.kind == .queue q && w.fired

/-- TAIL as it can be read now: of memory of this module as it stands (its poison is ignored: R111 names no outcome for it, log 32); of a
host window, the line that the I/O die holds, or else the answer to the read; none where there is no answer yet. A read that is refused, or
of a hole, gives no new TAIL. -/
def State.tailNow (s : State) (q : Nat) : Option (BitVec 64) :=
  let pa := s.tailPa q
  if s.isMemory pa then some (s.read64 pa)
  else if s.region pa = .hole ∨ s.refuses pa = true then some (s.queue q).tail
  else
    match amGet s.hostLines (pa / 256) with
    | some l => some (BitVec.ofNat 64 (bytesOf l (pa % 256) 8))
    | none => if (s.extKey pa 8).2 = 256 then none else (s.extValue partAgent pa 8).map fun v => BitVec.ofNat 64 v.2

/-- The answers to a read of TAIL are used up. -/
def State.tailUsed (s : State) (q : Nat) : State :=
  let pa := s.tailPa q
  { s with extReqs := s.extReqs.filter fun r =>
      r.write || r.agent != partAgent || r.reply.isNone || !(decide (r.pa ≤ pa ∧ pa < r.pa + r.size)) }

/-- TAIL out of order: before HEAD, or more than the ring's entries beyond DONE (R108). -/
def Queue.overruns (x : Queue) (tail : BitVec 64) : Bool := decide (tail < x.head ∨ x.done.toNat + 2 ^ x.log2n < tail.toNat)

/-- What a queue has to observe: TAIL, a drain that is over, a launch that translates no more. A drained queue closes
in every state of its context: of R112, whose row has it CLOSED and whose text has it wait in DRAINING while its context is not RUNNING,
the model takes the row (log 32). -/
def State.canObserve (s : State) (q : Nat) : Bool :=
  let x := s.queue q
  s.launchBad x ||
  if x.drainDue then s.queueFired q
  else match x.state with
  | .watching => s.queueFired q
  | .active => s.queueFired q || ((s.ctx x.ctx).state == .running && x.head == x.tail && x.done == x.head)
  | .draining => x.head.truncate 56 == x.dlimit && x.done == x.head
  | _ => false

/-- The context of a queue has changed its state, which the queue takes after the clock's completions, faults, TAIL and commands (R113). -/
def State.canFollow (s : State) (q : Nat) : Bool :=
  let x := s.queue q
  let running := (s.ctx x.ctx).state == .running
  match x.state with
  | .idle => running
  | .watching | .active => !running
  | _ => false

/-- A queue with TAIL read (R108). A queue armed anew while a launch that it took is in flight is ACTIVE, though TAIL = HEAD: of R112, whose
row takes WATCHING to ACTIVE on TAIL ≠ HEAD and whose other row takes ACTIVE to WATCHING when the last pending entry completes, the model
takes the second (its choice, log 32). -/
def State.classify (s : State) (q : Nat) (tail : BitVec 64) : State :=
  let x := s.queue q
  if x.overruns tail then s.faultQueue q 2
  else s.putQueue q { x with tail := tail, state := if tail ≠ x.head ∨ x.done ≠ x.head then .active else .watching }

/-- The watch of a queue armed (again), then TAIL read (R107): `act` with its value, where it is there; else it is asked for. -/
def State.readTailOf (s : State) (q : Nat) (act : State → BitVec 64 → State) (wait : State → State) : State :=
  let pa := s.tailPa q
  let s := (s.disarm (.queue q)).arm (.queue q) (pa / 256 * 256) 256
  match s.tailNow q with
  | some tail => act (s.tailUsed q) tail
  | none => wait ((s.tailUsed q).extAsk partAgent (s.queue q).ctx pa 8)

/-- DRAIN with TAIL read (R112): DLIMIT := TAIL, unless TAIL is out of order (R108): then the queue is FAULTED, and RESULT, on which the spec
is silent, is 0 (the model's choice, log 32). -/
def State.drainTo (s : State) (q : Nat) (tail : BitVec 64) : State :=
  let x := { s.queue q with drainDue := false }
  let s := s.disarm (.queue q)
  (if x.overruns tail then (s.setQueue q x).faultQueue q 2
   else s.putQueue q { x with state := .draining, tail := tail, dlimit := tail.truncate 56 }).queueResult q 0

/-- DRAIN; where TAIL must be asked for at a host, the command is busy until the answer comes. -/
def State.drainQueue (s : State) (q : Nat) : State :=
  s.readTailOf q (fun s tail => s.drainTo q tail) fun s => s.setQueue q { s.queue q with drainDue := true }

/-- A queue observes: a launch that fails, a drain, TAIL, the context's state. -/
def State.observe (s : State) (q : Nat) : State :=
  let x := s.queue q
  let running := (s.ctx x.ctx).state == .running
  if s.launchBad x then s.badGraph q
  else if x.drainDue then s.drainQueue q
  else
    match x.state with
    | .idle | .watching | .active =>
      if running = true ∨ s.queueFired q = true then
        s.readTailOf q (fun s tail => s.classify q tail) fun s =>
          s.putQueue q { s.queue q with state := if x.head = x.tail ∧ x.done = x.head then .watching else .active }
      else if x.state = .idle then s
      else (s.disarm (.queue q)).putQueue q { x with state := .idle }
    | .draining => if x.head.truncate 56 = x.dlimit ∧ x.done = x.head then s.closeQueue q else s
    | _ => s

/-- A queue observes where it has something to observe; else it takes entry HEAD, where it may. -/
def State.serveQueue (s : State) (q : Nat) : State :=
  if s.canObserve q || s.canFollow q then s.observe q else (s.takeEntry q).getD s

/-! ### Admission by the Marionettes (R110) -/

/-- The launch that a queue has ready for the Marionette of a die. Choices of the model where the spec is silent (log 32): a PAUSED queue
keeps a launch that it has taken unadmitted until RESUME, and one whose GRAPH lies in HBM of a die out of service waits, since no live
Marionette homes it. -/
def State.launchReady (s : State) (q : Nat) (x : Queue) (die : Nat) : Bool :=
  (x.state == .active || x.state == .draining || x.state == .closed) && x.flying.isNone && (s.ctx x.ctx).state == .running &&
  !(s.ctx x.ctx).restoring && decide (q < Config.queues) &&
  match x.entry with
  | none => false
  | some (va, _, _) =>
    match s.graphDie x.ctx va.toNat with
    | none => false
    | some none => false
    | some (some d) => d == die &&
      match s.admitGraph x.ctx va.toNat d (some q) none with
      | .wait t => t.extReqs.length != s.extReqs.length
      | _ => true

/-- The queues ready for a die. -/
def State.readyQueues (s : State) (die : Nat) : List (Nat × Queue) := s.queues.filter fun x => s.launchReady x.1 x.2 die

/-- The Marionette of a die may admit. -/
def State.canAdmit (s : State) (die : Nat) : Bool :=
  decide (die < Config.computeDies) && s.liveCd.getLsbD die && decide ((s.die die).admitClk ≤ s.clk.toNat) &&
  !(s.readyQueues die).isEmpty

/-- The queue that wins: the highest effective priority, then round-robin after the queue admitted last. -/
def State.winner (s : State) (die : Nat) : Option (Nat × Queue) :=
  let last := (s.die die).lastQueue
  let turn := fun (q : Nat) => (q + Config.queues - last - 1) % Config.queues
  (sortBy (fun x y => decide (y.2.eff < x.2.eff ∨ (y.2.eff = x.2.eff ∧ turn x.1 ≤ turn y.1))) (s.readyQueues die)).head?

/-- One launch admitted; one whose header is refused faults its queue, and takes no turn from the others. -/
def State.admitNext (s : State) (die : Nat) : State :=
  match s.winner die with
  | none => s
  | some (q, x) =>
    match x.entry with
    | none => s
    | some (va, _, _) =>
      match s.admitGraph x.ctx va.toNat die (some q) none with
      | .ok g t => (t.setQueue q { t.queue q with flying := some g, eff := x.prio }).setDie die
          { s.die die with admitClk := s.clk.toNat + 16, lastQueue := q }
      | .refused t => t.partDone.badGraph q
      | .wait t => t

/-- A ready entry has waited for another 4,096 clocks (R110): while its queue is PAUSED or FAULTED or its context is not RUNNING too (the
model's choice, log 32). -/
def State.canAge (s : State) (q : Nat) : Bool :=
  let x := s.queue q
  x.entry.isSome && x.flying.isNone && decide (x.eff < 7 ∧ x.waitClk + 4096 ≤ s.clk.toNat)

/-! ### Commands (R103, R112) -/

/-- A command on a queue of the table: accepted in some states, with an effect. -/
def State.queueCmd (s : State) (q : Nat) (states : List QState) (act : State → State) : State :=
  if q < Config.queues ∧ (s.queue q).state ∈ states then (act s).queueResult q 0 else s.queueResult q 1

/-- The queue that a header describes (R104). -/
def State.headerQueue (s : State) (q : Nat) : Queue :=
  let h := s.queueHdr q
  let w0 := s.read64 h
  { Queue.reset with
    state := .idle, prio := bitsOf w0 10 8, ctx := bitsOf w0 23 16, ring := s.read64 (h + 8),
    log2n := bitsOf (s.read64 (h + 0x10)) 4 0, tailpa := bitsOf (s.read64 (h + 0x30)) 51 0, eff := bitsOf w0 10 8 }

/-- A header that OPEN refuses (R112). -/
def State.headerBad (s : State) (x : Queue) : Bool :=
  (s.ctx x.ctx).state == .destroyed || decide (x.log2n < 4 ∨ 16 < x.log2n) || x.ring.toNat % 4096 != 0 ||
  (x.tailpa != 0 && (x.tailpa % 256 != 0 ||
    match windowOf x.tailpa with
    | .hbm _ => false
    | .host k => !((s.hostLink k).cxlCache && (s.hostLink k).trained == some false)
    | _ => true))

/-- A queue in another state. -/
def Queue.withState (x : Queue) (st : QState) : Queue := { x with state := st }
/-- A queue after CLEAR. -/
def Queue.cleared (x : Queue) : Queue := { x with state := .paused, fcode := 0 }
/-- A queue whose effective priority has risen (R110). -/
def Queue.aged (x : Queue) : Queue := { x with eff := x.eff + 1, waitClk := x.waitClk + 4096 }

/-- OPEN (R112): HEAD, DONE and FCODE := 0, the header latched. -/
def State.openQueue (s : State) (q : Nat) : State :=
  if q < Config.queues ∧ (s.queue q).state = .closed then
    let x := s.headerQueue q
    if s.headerBad x then s.queueResult q 2
    else
      let h := s.queueHdr q
      let s := ((s.write64 (h + 0x18) 0).write64 (h + 0x20) 0).performBytes none (h + 0x28) 1 0
      let x := { x with dlimit := (s.read64 (h + 0x28) >>> 8).truncate 56 }
      ((s.write64 h ((s.read64 h &&& 0xFF0700#64) ||| 1#64)).setQueue q x).queueResult q 0
  else s.queueResult q 1

/-- QCMD OPEN latches a queue header and makes the queue IDLE (R112). -/
def execQueueOpen (queue : Nat) (s : State) : Out := .next (s.openQueue queue)

/-- QCMD PAUSE stops a queue from taking entries (R112). -/
def execQueuePause (queue : Nat) (s : State) : Out := .next (s.queueCmd queue [.idle, .watching, .active] fun s => (s.disarm (.queue queue)).putQueue queue (Queue.withState (s.queue queue) .paused))

/-- QCMD RESUME returns a paused queue to IDLE (R112). -/
def execQueueResume (queue : Nat) (s : State) : Out := .next (s.queueCmd queue [.paused] fun s => s.putQueue queue (Queue.withState (s.queue queue) .idle))

/-- QCMD DRAIN sets DLIMIT from TAIL and puts the queue in DRAINING (R112). -/
def execQueueDrain (queue : Nat) (s : State) : Out := .next (if queue < Config.queues ∧ (s.queue queue).state ∈ [QState.idle, .watching, .active, .paused] then s.drainQueue queue else s.queueResult queue 1)

/-- QCMD CLOSE closes a queue that is not ACTIVE or DRAINING (R112). -/
def execQueueClose (queue : Nat) (s : State) : Out := .next (s.queueCmd queue [.idle, .watching, .paused, .faulted] fun s => s.closeQueue queue)

/-- QCMD CLEAR moves a FAULTED queue to PAUSED (R112). -/
def execQueueClear (queue : Nat) (s : State) : Out := .next (s.queueCmd queue [.faulted] fun s => s.putQueue queue (Queue.cleared (s.queue queue)))

/-- A queue reads TAIL after its watch fires and classifies the pending entries (R108), and takes the next one (R109). A host's TAIL comes
with the line that the I/O die fetches. -/
def execTailObservation (queue : Nat) (_hostTail : BitVec 64) (s : State) : Out := .next (s.serveQueue queue)

/-- Every 16 clocks a Marionette admits one launch from its ready queues (R110). -/
def execQueueAdmit (die : Nat) (s : State) : Out := .next (if s.canAdmit die then s.admitNext die else s)

/-- A ready entry left unadmitted for 4,096 clocks raises its queue's effective priority (R110). -/
def execQueuePriorityAging (queue : Nat) (s : State) : Out := .next (if s.canAge queue then s.setQueue queue (Queue.aged (s.queue queue)) else s)

end Sys2Proof.Machine
end

