-- ==== Sys2Proof/Machine/Graph.lean ====
section
/-!
DEFINITION. Sys2Proof/Machine/Graph.lean: the events of running graphs (06): completion (R120), firing (R121, R123, R126, R412), aging,
the end of a node's work (R125), timeouts, cone visits (R130).
-/

namespace Sys2Proof.Machine

/-! ### Completion (R120) -/

/-- A node that is READY, RUNNING or CANCELLING. -/
def Node.live (x : Node) : Bool := x.state == nReady || x.state == nRunning || x.state == nCancelling

/-- Nothing of a graph's launch remains. -/
def State.graphOver (s : State) (g : Nat) (x : Graph) : Bool :=
  !(x.nodes.any Node.live) && !x.wact && x.halts == [] &&
  !(s.blocks.any fun b => match amGet s.grids b.2.grid with
    | some k => k.graph == g
    | none => false) &&
  !(s.engines.any fun e => e.2.work.any fun w => w.1 == g) &&
  !(s.graphs.any fun y => y.2.parent.any fun p => p.1 == g)

/-- What has been written of a graph's context is performed and acknowledged, as a release of system scope wants it (R120, 11 R231, R235). -/
def State.released (s : State) (g : Nat) (x : Graph) : Bool := !(s.graphStuck g) && !(s.ctxWrites x.ctx)

/-- A graph may complete: its header is written; then, once those writes are performed, COMPLETION; then, once that one is and the word of
its entry can be written, the launch ends. -/
def State.canComplete (s : State) (g : Nat) : Bool :=
  match amGet s.graphs g with
  | none => false
  | some x => s.released g x && (if x.told then s.complReady x.ctx x.compl.toNat else x.state == 3 || s.graphOver g x)

/-- GSTATUS of a completed launch (R120), with FAILED where a cycle leaves nodes WAITING. A graph whose nodes are DONE and TAINTED fits no row
of R120: the model gives OK (its choice, log 33). -/
def Graph.outcome (x : Graph) : Nat × Option Nat :=
  match (List.range x.nodes.length).find? fun n => match x.nodes[n]? with
    | some y => y.state == nWaiting
    | none => false with
  | some n => (5, some n)
  | none =>
    if x.halted then (3, none)
    else if x.cancelled then (4, none)
    else if x.nodes.any fun y => y.state == nFailed || y.state == nCancelled then (2, none)
    else (1, none)

/-- The words of a completed graph's header that come before COMPLETION: T_END, GSTATUS, STATE. -/
def State.writeCompleted (s : State) (x : Graph) : State :=
  let out := x.outcome
  let h := x.va.toNat
  let s := s.marWrite x.ctx (h + 0x38) (BitVec.allOnes 64) s.clk
  let s := match out.2 with
    | some n => s.marWrite x.ctx h (headerRsv ||| 0xFFFF00000000) (BitVec.ofNat 64 (n * 2 ^ 32))
    | none => s
  let s := s.marWrite x.ctx h (headerRsv ||| 0xF0) (BitVec.ofNat 64 (out.1 * 16))
  s.marWrite x.ctx h (headerRsv ||| 0xF) 3

/-- COMPLETION written, with system-scope release: after the other words of the header (R120). -/
def State.writeCompletion (s : State) (g : Nat) (x : Graph) : State :=
  (s.marWrite x.ctx (x.va.toNat + 0x18) (BitVec.allOnes 64) (x.completion + 1)).updGraph g fun y => { y with told := true }

/-- A launch ends: the queue's entry completes, or the subgraph node is done or fails. -/
def State.endGraph (s : State) (g : Nat) (x : Graph) : State :=
  let s := { s with graphs := amDel s.graphs g }
  match x.parent, x.queue with
  | some (p, n), _ =>
    match s.node p n with
    | some y => if x.outcome.1 = 1 ∨ y.state = nCancelling then s.nodeFinish p n else s.nodeFault p n 0x44
    | none => s
  | none, some q => s.launchDone q g x
  | none, none => s

/-- The words of the header written; STATE is COMPLETE. -/
def State.headerDone (s : State) (g : Nat) (x : Graph) : State := (s.writeCompleted x).updGraph g fun y => { y with state := 3 }

/-- A graph completes: its header is written, once those writes are performed COMPLETION, and once that one is the launch ends (R120). -/
def State.completeGraph (s : State) (g : Nat) : State :=
  match amGet s.graphs g with
  | none => s
  | some x =>
    let t := if x.state = 3 then s else s.headerDone g x
    if t.released g x then
      let u := if x.told then t else t.writeCompletion g x
      if u.released g x && u.complReady x.ctx x.compl.toNat then u.endGraph g x else u
    else t

/-! ### Firing (R121, R123, R126, R412) -/

/-- The variant that a firing chooses (R126); a retry keeps its attempt's. -/
def Node.variant (x : Node) (pin : Bool) : Nat :=
  if pin || x.rused != 0 then x.vsel
  else
    let vs := List.range (x.nvar + 1)
    match vs.find? fun v => vget x.times v 0 == 0 with
    | some v => v
    | none => vs.foldl (fun best v => if vget x.times v 0 < vget x.times best 0 then v else best) 0

/-- A kernel's descriptor and phase table, read for a firing (07 R138): GRAPH_ERROR, the fault of a read, or the two. When the phase table is
read, and what a fault of that read does, the spec does not say: as of the descriptor (the model's choice, log 33). -/
def State.readKernel (s : State) (x : Graph) (va : Nat) : CReads :=
  if va % 64 ≠ 0 then .fault cGraphError s
  else
    match s.ctxRead x.ctx va 64 with
    | .fault c s => .fault c s
    | .wait s => .wait s
    | .ok code s =>
      let d := KDesc.ofCode code
      if d.bad code x.cores x.accs then .fault cGraphError s
      else
        match s.ctxReads x.ctx ((List.range d.nph).map fun i => ((d.phtab.toNat + 4 * i) % 2 ^ 64, 4)) with
        | .ok ps s => .ok (code :: ps) s
        | r => r

/-- The payload words of a node read (R412). -/
def State.readPayload (s : State) (x : Graph) (n : Node) : CReads :=
  let p := n.payload.toNat
  if p % 8 ≠ 0 then .fault cMisalign s
  else s.ctxReads x.ctx ((List.range (if n.kind = 3 ∨ n.kind = 4 then 3 else if n.kind = 7 then 2 else 4)).map fun i =>
    ((p + 8 * i) % 2 ^ 64, 8))

/-- The checks of a payload (R412): the cause that fails the node. -/
def payloadFault (kind : Nat) (w : List Nat) : Option Nat :=
  let a := w.getD 0 0
  match kind with
  | 3 => if a % 8 ≠ 0 then some cMisalign else if w.getD 1 0 % 8 ≠ 0 then some cIllegalOperand else none
  | 4 => if a % 8 ≠ 0 then some cMisalign else if 1 < w.getD 2 0 then some cIllegalOperand else none
  | 5 => if a % 8 ≠ 0 then some cMisalign else if 2 < w.getD 2 0 then some cIllegalOperand else none
  | 7 => if a % 16 ≠ 0 then some cMisalign else none
  | _ => none

/-- What a node's firing reads, by its kind; a LACE node's entry is read by its engine. -/
def State.fireReads (s : State) (x : Graph) (n : Node) : CReads :=
  match n.kind with
  | 1 => s.readKernel x (vget n.vars (n.variant (s.ctx x.ctx).pinVariant) 0).toNat
  | 2 => .ok [] s
  | 6 => .ok [] s
  | _ =>
    match s.readPayload x n with
    | .ok ws t =>
      match payloadFault n.kind ws with
      | some c => .fault c t
      | none =>
        if (n.kind = 5 ∨ n.kind = 7) ∧ t.migratingAt x.ctx (ws.getD 0 0) = true then .wait s else .ok ws t
    | r => r

/-- The engine that takes a node's work: of the I/O die in the Marionette's row, the one with the least work, the lowest number on
ties (R121). Of an I/O die out of service R121 says nothing: its engines go on (the model's choice, log 33). -/
def State.engineFor (s : State) (die : Nat) : Nat :=
  let load := fun (e : Nat) => (s.engine e).work.length + (s.engine e).descs.length
  (numsFrom (die / 2 * 16) 16).foldl (fun best e => if load e < load best then e else best) (die / 2 * 16)

/-- The grid that a kernel node's firing gives to the distributor (07 R149). -/
def State.newGrid (s : State) (g n : Nat) (x : Graph) (nd : Node) (lseq : BitVec 64) (vals : List Nat) : Grid :=
  let d := KDesc.ofCode (vals.headD 0)
  { graph := g, node := n, lseq := lseq, ctx := x.ctx, die := x.die, prio := x.nodePrio nd, fired := s.clk.toNat, desc := d,
    phases := vals.drop 1, state := .dispatching, nextCluster := 0, tried := false, waited := 0, resClk := 0, reserved := [],
    started := false, clocks := 0, busy := [] }

/-- A subgraph node's child admitted (R118, R121). -/
def State.fireChild (s : State) (g n : Nat) (x : Graph) (nd : Node) : State :=
  if 8 ≤ x.depth then s.nodeFault g n cGraphError
  else
    match s.graphDie x.ctx nd.payload.toNat with
    | some (some d) =>
      match s.admitGraph x.ctx nd.payload.toNat d none (some (g, n)) with
      | .ok c s => s.updNode g n fun y => { y with child := some c }
      | .refused s => s.partDone.nodeFault g n cGraphError
      | .wait s => s
    | _ => (s.graphTouched x.ctx nd.payload.toNat).nodeFault g n cGraphError

/-- A word watched by a node (R121): its home slice arms the watch. -/
def State.watchNode (s : State) (g n c va : Nat) : State :=
  match s.walkCheck c va .read true with
  | .ok pa => (s.arm (.node g n) pa 8).updNode g n fun nd => { nd with watchPa := pa }
  | .fault cause _ => s.nodeFault g n cause
  | .revoke _ _ => s.nodeFault g n cLeaseRevoked
  | _ => s

/-- The work of a node started (R121), after STATE := RUNNING. -/
def State.startWork (s : State) (g n : Nat) (x : Graph) (nd : Node) (lseq : BitVec 64) (vals : List Nat) : State :=
  match nd.kind with
  | 1 =>
    let (k, s) := s.fresh
    let s := { s with grids := amSet s.grids k (s.newGrid g n x nd lseq vals) }
    s.updNode g n fun y => { y with grid := some k }
  | 5 => s.watchNode g n x.ctx (vals.getD 0 0)
  | 6 => s.fireChild g n x nd
  | 7 =>
    match s.ctxWrite x.ctx (vals.getD 0 0) 8 lseq.toNat true with
    | .ok _ s => s.watchNode g n x.ctx ((vals.getD 0 0 + 8) % 2 ^ 64)
    | .fault c s => s.nodeFault g n c
    | .wait s => s
  | _ =>
    if nd.kind = 3 ∧ vals.getD 1 0 = 0 then s.nodeFinish g n
    else
      let e := s.engineFor x.die
      let s := s.setEngine e { s.engine e with work := (s.engine e).work ++ [(g, n)] }
      s.updNode g n fun y => { y with engine := some e }

/-- The header and records of a subgraph node's child can be had: the state in which a read has been sent to a host, none where a
MIGRATING leaf or an answer is still to come; else the state as it is. -/
def State.childAsked (s : State) (x : Graph) (nd : Node) : Option State :=
  if 8 ≤ x.depth then some s
  else
    match s.graphDie x.ctx nd.payload.toNat with
    | none => none
    | some none => some s
    | some (some d) =>
      match s.admitGraph x.ctx nd.payload.toNat d none none with
      | .wait t => if t.extReqs.length = s.extReqs.length then none else some t
      | _ => some s

/-- The work of a node whose record says RUNNING may be started: the writes of its record are performed (R120); its word is at no MIGRATING
leaf; the write of a HOST node, a release of system scope, follows every acknowledgement (R122). -/
def State.canStartWork (s : State) (x : Graph) (nd : Node) (vals : List Nat) : Bool :=
  !(s.recWaits x.ctx) && !((nd.kind == 5 || nd.kind == 7) && s.migratingAt x.ctx (vals.getD 0 0)) && !(nd.kind == 7 && s.ctxWrites x.ctx) &&
    (nd.kind != 6 || (s.childAsked x nd).any fun t => t.extReqs.length == s.extReqs.length)

/-- It is started, with the values that the firing has read. -/
def State.beginWork (s : State) (g n : Nat) (x : Graph) (nd : Node) (vals : List Nat) : State :=
  (s.updNode g n fun y => { y with starting := none }).startWork g n x nd nd.lseq vals

/-- A node fired: LSEQ, T_FIRE, VSEL, STATE := RUNNING, then its work, once those are written (R120), or the fault that its checks found. -/
def State.fireNode (s : State) (g n : Nat) (x : Graph) (nd : Node) : State :=
  let run := fun (s : State) (fault : Option Nat) (vals : List Nat) =>
    let (lseq, s) := s.partDone.nextLseq
    let w := fun (k : Nat) => BitVec.ofNat 64 (vals.getD k 0)
    let s := s.nodeWord g n 0x60 lseq
    let s := s.nodeWord g n 0x68 s.clk
    let s := if nd.kind = 1 then s.marWrite x.ctx (x.nodeVa n) 0xFFFFC0000000C000 (BitVec.ofNat 64 (nd.variant (s.ctx x.ctx).pinVariant * 2 ^ 14)) else s
    let new := { nd with state := nRunning, lseq := lseq, tFire := s.clk.toNat, waited := 0, ending := none, starting := some vals,
                         vsel := if nd.kind = 1 then nd.variant (s.ctx x.ctx).pinVariant else nd.vsel,
                         work := #v[w 0, w 1, w 2, w 3],
                         limit := if nd.kind = 5 then vals.getD 3 0 else if nd.kind = 7 then vals.getD 1 0 else 0 }
    let s := s.putNode g n new
    match fault with
    | some c => s.nodeFault g n c
    | none => if s.canStartWork x new vals then s.beginWork g n x new vals else s
  match s.fireReads x nd with
  | .wait t => t
  | .fault c t => run t (some c) []
  | .ok vals t => run t none vals

/-- A node that may fire: READY in a graph of a context that fires, with nothing that its reads wait for; a HOST node, whose write is a
release of system scope, once the context's writes to hosts and peers are acknowledged (R122). -/
def State.mayFire (s : State) (x : Graph) (nd : Node) : Bool :=
  nd.state == nReady && !(nd.kind == 7 && s.ctxWrites x.ctx) &&
  (match s.fireReads x nd with
   | .wait t => t.extReqs.length != s.extReqs.length
   | _ => true) &&
  (nd.kind != 6 || (s.childAsked x nd).isSome)

/-- A subgraph node whose child's header or records are still asked for at a host: the reads are asked for, and the node stays
READY. -/
def State.askChild (s : State) (x : Graph) (nd : Node) : Option State :=
  if nd.kind = 6 then (s.childAsked x nd).filter fun t => t.extReqs.length != s.extReqs.length else none

/-- The nodes that the Marionette of a die may fire: graph, node, and both records. -/
def State.fireable (s : State) (die : Nat) : List (Nat × Nat × Graph × Node) :=
  (s.graphs.map fun gx =>
    let c := s.ctx gx.2.ctx
    if gx.2.die == die && c.state == .running && !c.restoring && !c.noFire && gx.2.nodes.any (fun y => y.state == nReady) &&
        !(s.graphStuck gx.1) then
      (List.range gx.2.nodes.length).filterMap fun n =>
        match gx.2.nodes[n]? with
        | some nd => if s.mayFire gx.2 nd then some (gx.1, n, gx.2, nd) else none
        | none => none
    else []).flatten

/-- The order of R123. -/
def fireBefore (x y : Nat × Nat × Graph × Node) : Bool :=
  let p := fun (z : Nat × Nat × Graph × Node) => min 7 (z.2.2.1.nodePrio z.2.2.2 + z.2.2.2.raised)
  let a := [7 - p x, x.2.2.2.readyClk, x.2.2.1.admitted, x.1, x.2.1]
  let b := [7 - p y, y.2.2.2.readyClk, y.2.2.1.admitted, y.1, y.2.1]
  decide (a ≤ b)

/-- The Marionette of a die may fire. -/
def State.canFire (s : State) (die : Nat) : Bool :=
  decide (die < Config.computeDies) && s.liveCd.getLsbD die && decide ((s.die die).fireClk ≤ s.clk.toNat) &&
  !(s.fireable die).isEmpty

/-- One node fired. -/
def State.fire (s : State) (die : Nat) : State :=
  match (sortBy fireBefore (s.fireable die)).head? with
  | none => s
  | some (g, n, x, nd) =>
    let t := s.setDie die { s.die die with fireClk := s.clk.toNat + 8 }
    match t.askChild x nd with
    | some u => u
    | none => t.fireNode g n x nd

/-! ### Aging (R123) -/

/-- A node that has been READY for long enough to be raised another level. -/
def State.canRaise (s : State) (g n : Nat) : Bool :=
  match s.node g n with
  | some x => x.state == nReady && decide (x.raised < min 7 (agedLevels (s.clk.toNat - x.readyClk)))
  | none => false

/-- It is raised one level. -/
def State.raise (s : State) (g n : Nat) : State :=
  s.updNode g n fun x => { x with raised := x.raised + 1 }

/-! ### The end of a node's work (R125) -/

/-- The address of the word that a WAIT or HOST node watches. -/
def Node.watchedVa (nd : Node) : Nat :=
  if nd.kind = 5 then (vget nd.work 0 0).toNat else ((vget nd.work 0 0).toNat + 8) % 2 ^ 64

/-- That word. -/
def State.watchedWord (s : State) (x : Graph) (nd : Node) : CRes := s.ctxRead x.ctx nd.watchedVa 8

/-- The comparison of a WAIT node holds, or the reply of a HOST node is there. -/
def Node.holds (nd : Node) (v : Nat) : Bool :=
  let b := (vget nd.work 1 0).toNat
  if nd.kind = 7 then v == nd.lseq.toNat
  else
    match (vget nd.work 2 0).toNat with
    | 0 => v == b
    | 1 => decide (b ≤ v)
    | _ => v != b

/-- No block of a grid remains, resident or saved (04 R97). -/
def State.gridEmpty (s : State) (k : Nat) : Bool :=
  !(s.blocks.any fun b => b.2.grid == k) && !(s.ctxs.any fun c => c.2.saved.any fun b => b.block.grid == k)

/-- How a node's work stands: still to be started with the values that its firing read, over, failed with a cause, or a read sent to a
host. -/
inductive WorkEnd where
  | going
  | start (vals : List Nat)
  | asked (s : State)
  | over
  | failed (cause : Nat)

/-- A reply with the word of a node in a host or fabric window is there: the next read follows it. -/
def State.polled (s : State) (c va : Nat) : Bool :=
  match s.walkCheck c va .read true with
  | .ok pa =>
    let key := s.extKey pa 8
    !s.isMemory pa && s.extReqs.any fun r => r.agent == partAgent && !r.write && r.reply.isSome && r.pa == key.1 && r.size == key.2
  | _ => false

/-- The end of a node's work. -/
def State.workEnd (s : State) (x : Graph) (nd : Node) : WorkEnd :=
  if nd.state = nRunning then
    match nd.starting with
    | some vals =>
      if s.canStartWork x nd vals then .start vals
      else
        match (if s.recWaits x.ctx then none else s.askChild x nd) with
        | some t => .asked t
        | none => .going
    | none =>
    match nd.grid with
    | some k =>
      match nd.ending with
      | some c => if s.gridEmpty k then .failed c else .going
      | none =>
        match amGet s.grids k with
        | some gr => if gr.state = .resident ∧ s.gridEmpty k = true then .over else .going
        | none => .going
    | none =>
      if nd.kind = 5 ∨ nd.kind = 7 then
        match s.watchedWord x nd with
        | .ok v t =>
          if nd.holds v then .over
          else if s.polled x.ctx nd.watchedVa then .asked t.partDone
          else .going
        | .fault c _ => .failed c
        | .wait t => if t.extReqs.length = s.extReqs.length then .going else .asked t
      else .going
  else if nd.state = nCancelling then
    match nd.grid, nd.child, nd.engine with
    | some k, _, _ => if s.gridEmpty k then .over else .going
    | none, none, none => .over
    | _, _, _ => .going
  else .going

/-- Nodes of a context end their work, and the policy of a failed one is applied: not while the context is reset or stands still
(04 R97). -/
def State.nodesEnd (s : State) (c : Nat) : Bool :=
  match (s.ctx c).state with
  | .running | .draining | .parking => !(s.ctx c).restoring
  | _ => false

/-- A node's work has ended. -/
def State.canFinish (s : State) (g n : Nat) : Bool :=
  match amGet s.graphs g, s.node g n with
  | some x, some nd =>
    (nd.state == nRunning || nd.state == nCancelling) && s.nodesEnd x.ctx &&
    (match s.workEnd x nd with
     | .going => false
     | _ => true) && !(s.graphStuck g)
  | _, _ => false

/-- The grid of a node forgotten once it has ended. -/
def State.dropGrid (s : State) (k : Option Nat) : State :=
  match k with
  | some k => { s with grids := amDel s.grids k }
  | none => s

/-- A node whose work is still to be started starts it; else it takes the row of R125; of a word in a host or fabric window that does not hold yet, the next read is asked for. -/
def State.finishNode (s : State) (g n : Nat) : State :=
  match amGet s.graphs g, s.node g n with
  | some x, some nd =>
    match s.workEnd x nd with
    | .going => s
    | .start vals => s.beginWork g n x nd vals
    | .asked t => t
    | .over => (s.partDone.nodeFinish g n).dropGrid nd.grid
    | .failed c =>
      if nd.grid.isSome then (s.faultNow g n c).dropGrid nd.grid else s.partDone.nodeFault g n c
  | _, _ => s

/-- A node's work is done, not failed (R124). -/
def State.canSucceed (s : State) (g n : Nat) : Bool :=
  s.canFinish g n &&
  match amGet s.graphs g, s.node g n with
  | some x, some nd =>
    match s.workEnd x nd with
    | .over => true
    | _ => false
  | _, _ => false

/-- A WAIT or HOST node's timeout has expired (R412). -/
def State.canTimeout (s : State) (g n : Nat) : Bool :=
  match s.node g n with
  | some x => x.state == nRunning && (x.kind == 5 || x.kind == 7) && x.limit != 0 && decide (x.limit ≤ x.waited) && !(s.graphStuck g)
  | none => false

/-! ### Cone visits (R130) -/

/-- The walk of a graph is due to make its next visit: the first 4 clocks after it began, and one every 4 clocks for all the walks of a
Marionette (R130). -/
def State.walkDue (s : State) (x : Graph) : Bool :=
  x.wact && (s.ctx x.ctx).state == .running && !(s.ctx x.ctx).restoring && decide (x.visitClk ≤ s.clk.toNat ∧ (s.die x.die).visitClk ≤ s.clk.toNat)

/-- The walk of a graph may make its next visit, or a HALT_GRAPH action is due. -/
def State.canVisit (s : State) (g : Nat) : Bool :=
  match amGet s.graphs g with
  | some x => (s.walkDue x || x.halts != []) && !(s.graphStuck g)
  | none => false

/-- The HALT_GRAPH action that has been due for longest. -/
def State.haltNext (s : State) (g : Nat) (x : Graph) : State :=
  match x.halts with
  | [] => s
  | n :: rest => (s.updGraph g fun y => { y with halts := rest }).haltGraph g n

/-- One visit; where none is due, a HALT_GRAPH action, which follows the visit of its clock (R124). -/
def State.visit (s : State) (g : Nat) : State :=
  match amGet s.graphs g with
  | none => s
  | some x =>
    if !(s.walkDue x) then s.haltNext g x else
    match s.node g x.whead with
    | none => s.putGraph g { x with wact := false, whead := 0xFFFF }
    | some nd =>
      let n := x.whead
      let s := (s.putGraph g { x with whead := nd.wlink }).setDie x.die { s.die x.die with visitClk := s.clk.toNat + 4 }
      let s := s.coneVisit g n 0x43
      let s := nd.succs.foldl (fun s m => s.walkAppend g m) s
      match amGet s.graphs g with
      | some y => if y.whead = 0xFFFF then s.putGraph g { y with wact := false } else s
      | none => s

/-- A graph with no live node or work completes: T_END, GSTATUS, STATE and COMPLETION are written (R120). -/
def execGraphComplete (graph : Nat) (s : State) : Out := .next (if s.canComplete graph then s.completeGraph graph else s)

/-- Every 8 clocks the Marionette fires one READY node and starts its work (R123). -/
def execNodeFire (die : Nat) (s : State) : Out := .next (if s.canFire die then s.fire die else s)

/-- A node READY for 4,096 clocks is raised one priority level (R123). -/
def execNodeAging (graph : Nat) (node : Nat) (s : State) : Out := .next (if s.canRaise graph node then s.raise graph node else s)

/-- A node's work finishes and the node becomes DONE, or CANCELLED if it was CANCELLING (R125). -/
def execNodeWorkDone (graph : Nat) (node : Nat) (s : State) : Out := .next (if s.canFinish graph node then s.finishNode graph node else s)

/-- Every 4 clocks the cone walk visits the node at WHEAD (R130). -/
def execConeVisit (graph : Nat) (s : State) : Out := .next (if s.canVisit graph then s.visit graph else s)

/-- A WAIT or HOST node's timeout expires and the node fails with TIMEOUT (R412). -/
def execNodeTimeout (graph : Nat) (node : Nat) (s : State) : Out := .next (if s.canTimeout graph node then s.nodeFault graph node 0x47 else s)

end Sys2Proof.Machine
end

