-- ==== Sys2Proof/Machine/Lacer.lean ====
section
/-!
DEFINITION. Sys2Proof/Machine/Lacer.lean: the Lacer instructions (12 R270 to R274) and the ring instructions (R275, R276).
-/

namespace Sys2Proof.Machine

/-! ### `lace` (R271) -/

/-- The number of the Lacer in a word. -/
def Iss.eng (i : Iss) : Nat := i.imm.toNat % 4

/-- The fault record that a Lacer holds for the issuing block (R267). -/
def Iss.faultRec (i : Iss) : Option LRec := vget i.blk.lfault i.eng none

/-- A command accepted (R271): with a fault record held, it ends at once (R267). -/
def laceAccept (s : State) (i : Iss) (e : LEntry) : Res :=
  let l := i.eng
  let s := (s.release i.core i.agent 1).1
  let t := vget i.blk.tickets l 0 + 1
  let s := s.updBlk i.g.block fun b => { b with tickets := vset b.tickets l t }
  let s :=
    if i.faultRec.isSome then s
    else
      let ts := s.tilesTaken i.blk e
      let f := s.fresh
      let s := f.2
      let k : LCmd := ⟨f.1, i.g.block, t, i.agent, !i.g.trapMode, e, 0, ts, 0, [], none, 0, false, none⟩
      (s.updBlk i.g.block fun b => b.hold ts true).updCore i.core fun c => c.setLacer l (c.lacer l ++ [k])
  i.finS s (BitVec.ofNat 64 t)

/-- `lace`. -/
def laceBody (s : State) (i : Iss) : Res :=
  i.load s 0 false [⟨i.sa.toNat, 64, .read, 0, 0, true, false, false, none, 0⟩] fun s vs =>
    let e := LEntry.ofCode (vs.headD 0)
    match s.laceCheck i.blk e with
    | 0 =>
      if Config.lacerQueue ≤ ((s.core i.core).lacer i.eng).length then .wait s .waitMem (.room i.eng) else laceAccept s i e
    | code => .trap s cLaceFault i.sa (BitVec.ofNat 64 code)

/-- Give a lace table entry to a Lacer and take a ticket (R271). -/
def execLace (e : Bool) (d : BitVec 7) (a : BitVec 7) (i : BitVec 2) (s : State) : Out :=
  issueWord (insnB 0x240 (sigB .scalar .scalar) e d a i.toNat (some 3)) always laceBody s

/-! ### `lacew`, `laceq`, `lacek` (R272, R273) -/

/-- A ticket that the issuing block has been given. -/
def Iss.ticketOk (i : Iss) : Bool := decide (i.sa.toNat ≠ 0 ∧ i.sa.toNat ≤ vget i.blk.tickets i.eng 0)

/-- XAUX of a record at `lacew`: code, Lacer, ticket (R272, 21 R389). -/
def LRec.aux (r : LRec) (eng : Nat) : BitVec 64 := BitVec.ofNat 64 (r.code + eng * 2 ^ 8 + r.ticket % 2 ^ 48 * 2 ^ 16)

/-- The end of `lacew`: the acquire of block scope, and of the command's SCOPE. -/
def lacewEnd (s : State) (i : Iss) : Res :=
  i.fin (s.acquire i.agent ((amGet (vget i.blk.lscope i.eng []) i.sa.toNat).getD 1))

/-- The watch record of a Lacer for the issuing block is cleared, and its command resumes past the watchpoint once (21 R389). -/
def State.clearWatchRec (s : State) (i : Iss) (r : LRec) : State :=
  let l := i.eng
  let s := s.updBlk i.g.block fun b => { b with lwatch := vset b.lwatch l none }
  s.updCore i.core fun c =>
    c.setLacer l ((c.lacer l).map fun k =>
      if k.block = i.g.block ∧ k.ticket = r.ticket then { k with pass := some (r.code % 16) } else k)

/-- `lacew`. -/
def lacewBody (s : State) (i : Iss) : Res :=
  let l := i.eng
  let a := i.sa.toNat
  if i.ticketOk then
    match (vget i.blk.lwatch l none).filter fun r => r.ticket ≤ a with
    | some r => .trap (s.clearWatchRec i r) cWatchpoint r.addr (r.aux l)
    | none =>
      if (s.core i.core).laceEnded l i.g.block a then
        match i.faultRec.filter fun r => r.ticket ≤ a with
        | some r =>
          .trap (s.updBlk i.g.block fun b => { b with lfault := vset b.lfault l none }) cLaceFault r.addr (r.aux l)
        | none => lacewEnd s i
      else .wait s .waitMem (.ended l a)
  else i.illegal s

/-- `laceq`. -/
def laceqBody (s : State) (i : Iss) : Res :=
  i.finS s (BitVec.ofNat 64 ((s.core i.core).lastEnded i.eng i.g.block (vget i.blk.tickets i.eng 0)))

/-- Commands a and later of a block on a Lacer cancelled: those not started end at once, one that runs at its next
boundary; a watch record of one of them goes with it (R273). -/
def State.cancelCmds (s : State) (core l blk a : Nat) : State :=
  let s := s.updBlk blk fun b => { b with lwatch := vset b.lwatch l ((vget b.lwatch l none).filter fun r => decide (r.ticket < a)) }
  let mine := ((s.core core).lacer l).filter fun k => k.block == blk && decide (a ≤ k.ticket)
  mine.foldl (fun s k =>
    if k.unit = 0 ∧ k.packed = [] then s.endCmd core l k
    else s.updCore core fun c => c.setLacer l ((c.lacer l).map fun x => if x = k then { x with cancelled := true } else x)) s

/-- A cancelled command of a block, at or after a ticket, is still to end (R273). -/
def Core.cancelling (c : Core) (l blk a : Nat) : Bool :=
  (c.lacer l).any fun k => k.block == blk && decide (a ≤ k.ticket) && k.cancelled

/-- `lacek`. -/
def lacekBody (s : State) (i : Iss) : Res :=
  let l := i.eng
  let a := i.sa.toNat
  if i.ticketOk then
    let s := if i.g.sent then s else (s.cancelCmds i.core l i.g.block a).updGrp i.agent fun g => { g with sent := true }
    if (s.core i.core).cancelling l i.g.block a then .wait s .waitMem (.cancel l a)
    else i.fin (s.acquire i.agent 1)
  else i.illegal s

/-- Wait for a Lacer command to end and report its faults (R272). -/
def execLacew (e : Bool) (a : BitVec 7) (i : BitVec 2) (s : State) : Out :=
  issueWord (insnB 0x241 (sigB .zero .scalar) e 0 a i.toNat (some 3)) always lacewBody s

/-- Read the highest ended ticket (R272). -/
def execLaceq (e : Bool) (d : BitVec 7) (i : BitVec 2) (s : State) : Out :=
  issueWord (insnB 0x242 (sigB .scalar .zero) e d 0 i.toNat (some 3)) always laceqBody s

/-- Cancel Lacer commands from a ticket on (R273). -/
def execLacek (e : Bool) (a : BitVec 7) (i : BitVec 2) (s : State) : Out :=
  issueWord (insnB 0x243 (sigB .zero .scalar) e 0 a i.toNat (some 3)) always lacekBody s

/-! ### `town` (R274) -/

/-- The tile at a scratchpad address reads ENGINE, none where the address is refused (R220, R274). -/
def State.tileEngine (s : State) (b : Block) (va : Nat) : Option Bool :=
  match s.scrTarget b va 1 with
  | none => none
  | some _ =>
    match s.scrBlock b (va / 2 ^ 23) (va / 2 ^ 20 % 8) with
    | none => none
    | some t => some (amGet t.holders (va % 2 ^ 20 / 4096)).isSome

/-- `town`. -/
def townBody (s : State) (i : Iss) : Res :=
  match s.tileEngine i.blk i.sa.toNat with
  | none => .trap s cProtection i.sa 0
  | some engine =>
    if i.imm = 0 then i.finS s (BitVec.ofNat 64 engine.toNat)
    else if engine then .wait s .waitMem (.tile i.sa.toNat)
    else i.finS (s.acquire i.agent 1) 0

/-- Read, or wait for, a tile owner bit (R274). -/
def execTown (e : Bool) (d : BitVec 7) (a : BitVec 7) (i : BitVec 1) (s : State) : Out :=
  issueWord (insnB 0x248 (sigB .scalar .scalar) e d a i.toNat (some 1)) always townBody s

/-! ### Rings (R275, R276) -/

/-- The number of the ring in a word. -/
def Iss.ringNo (i : Iss) : Nat := i.imm.toNat % 16
/-- The ring that a word names. -/
def Iss.ring (i : Iss) : Option Ring := amGet i.blk.rings i.ringNo
/-- RING_ERROR. -/
def ringError (s : State) : Res := .trap s cRingError 0 0

/-- The scratchpad address of a slot: the ring lies in the issuing block's range (R220, R275). -/
def State.slotAddr (s : State) (b : Block) (r : Ring) (k : Nat) : Nat :=
  let idx := match amGet s.clusters b.cluster with
    | none => 0
    | some c => if c.halfOf b.rank = 0 then b.rank else b.rank - c.firstHalf
  idx * 2 ^ 20 + r.base + k * r.slot

/-- The ring put back, changed. -/
def Iss.putRing (i : Iss) (s : State) (r : Ring) : State := s.updBlk i.g.block fun b => b.setRing i.ringNo r

/-- `rngget` (R276). -/
def rnggetBody (s : State) (i : Iss) : Res :=
  match i.ring with
  | none => ringError s
  | some r =>
    if r.lfed then ringError s
    else if r.free = 0 then .wait s .waitMem (.ringFree i.ringNo)
    else i.finS (i.putRing s r.claim) (BitVec.ofNat 64 (s.slotAddr i.blk r r.pidx))

/-- `rngput` (R276). -/
def rngputBody (s : State) (i : Iss) : Res :=
  match i.ring with
  | none => ringError s
  | some r =>
    if r.lfed ∨ r.outp = 0 then ringError s
    else i.fin (i.putRing (s.release i.core i.agent 1).1 r.publish)

/-- `rngacq` (R276). -/
def rngacqBody (s : State) (i : Iss) : Res :=
  match i.ring with
  | none => ringError s
  | some r =>
    if r.filled = 0 then .wait s .waitMem (.ringFilled i.ringNo)
    else i.finS (i.putRing (s.acquire i.agent 1) r.take) (BitVec.ofNat 64 (s.slotAddr i.blk r r.cidx))

/-- `rngrel` (R276). -/
def rngrelBody (s : State) (i : Iss) : Res :=
  match i.ring with
  | none => ringError s
  | some r =>
    if r.outc = 0 then ringError s
    else i.fin (i.putRing (s.release i.core i.agent 1).1 r.giveBack)

/-- The ring of a configuration (R275), none where a field is bad or the range leaves the block's scratchpad. -/
def ringOf (a : BitVec 64) (scr : Nat) : Option Ring :=
  let base := bitsOf a 19 0
  let slot := bitsOf a 35 20
  let n := bitsOf a 41 36
  if base % 256 ≠ 0 ∨ slot % 256 ≠ 0 ∨ slot = 0 ∨ n < 2 ∨ 32 < n ∨ scr * 65536 < base + n * slot then none
  else some ⟨base, slot, n, a.getLsbD 42, n, 0, 0, 0, 0, 0⟩

/-- `rngput` with INIT (R275). -/
def rngputInitBody (s : State) (i : Iss) : Res :=
  let idle := match i.ring with
    | none => true
    | some r => decide (r.free = r.n ∧ r.filled = 0 ∧ r.outp = 0 ∧ r.outc = 0)
  if bitsOf i.sa 63 43 ≠ 0 ∨ idle = false then ringError s
  else if bitsOf i.sa 41 36 = 0 then i.fin (s.updBlk i.g.block fun b => { b with rings := amDel b.rings i.ringNo })
  else
    match ringOf i.sa i.blk.desc.scr with
    | none => ringError s
    | some r => i.fin (i.putRing s r)

/-- Claim a ring slot as producer (R276). -/
def execRngget (e : Bool) (d : BitVec 7) (i : BitVec 4) (s : State) : Out :=
  issueWord (insnB 0x244 (sigB .scalar .zero) e d 0 i.toNat (some 15)) always rnggetBody s

/-- Publish the oldest claimed ring slot (R276). -/
def execRngput (e : Bool) (i : BitVec 4) (s : State) : Out :=
  issueWord (insnB 0x245 (sigB .zero .scalar) e 0 0 i.toNat (some 15)) always rngputBody s

/-- Take a filled ring slot as consumer (R276). -/
def execRngacq (e : Bool) (d : BitVec 7) (i : BitVec 4) (s : State) : Out :=
  issueWord (insnB 0x246 (sigB .scalar .zero) e d 0 i.toNat (some 15)) always rngacqBody s

/-- Return the oldest taken ring slot (R276). -/
def execRngrel (e : Bool) (i : BitVec 4) (s : State) : Out :=
  issueWord (insnB 0x247 (sigB .zero .zero) e 0 0 i.toNat (some 15)) always rngrelBody s

/-- `rngput` with INIT: set up or tear down an eyelet ring (R275). -/
def execRngputInit (e : Bool) (a : BitVec 7) (i : BitVec 4) (s : State) : Out :=
  issueWord (insnB 0x245 (sigB .zero .scalar) e 0 a (64 + i.toNat) (some 79)) always rngputInitBody s

end Sys2Proof.Machine
end

