-- ==== Sys2Proof/Machine/Dma.lean ====
section
/-!
DEFINITION. Sys2Proof/Machine/Dma.lean: the Lacers at work (12 R261, R264 to R267, R271) and the DMA engines: node work (06 R121, R412)
and privileged descriptors (R268, R269), with their freezes (22 R408).
-/

namespace Sys2Proof.Machine

/-! ### The Lacers -/

/-- A command may perform its next unit: its block has no watch record on the Lacer, its context's engines run (21 R394), its context is
not being parked and its block not discarded, for every unit follows a command boundary (R261). -/
def State.cmdRuns (s : State) (l : Nat) (k : LCmd) : Bool :=
  match s.blk k.block with
  | none => false
  | some b =>
    let c := s.ctx b.ctx
    (vget b.lwatch l none).isNone && !c.noFire && !c.restoring && (c.state == .running || c.state == .draining) && !b.discarding

/-- The command that a Lacer performs now: the first in acceptance order whose block has no watch record. -/
def State.lacerCmd (s : State) (core l : Nat) : Option LCmd :=
  match ((s.core core).lacer l).find? fun k => match s.blk k.block with
    | some b => (vget b.lwatch l none).isNone
    | none => false with
  | some k => if s.cmdRuns l k then some k else none
  | none => none

/-- Every unit of a command is done, or it stops at this boundary (R273), or it has met a fault (R267). -/
def LCmd.atEnd (k : LCmd) : Bool := k.cancelled || k.failed.isSome || (k.unit == k.entry.units && k.packed == [])

/-- A command changed in its queue. -/
def State.putCmd (s : State) (core l : Nat) (k : LCmd) : State :=
  s.updCore core fun c =>
    c.setLacer l ((c.lacer l).map fun x => if x.block = k.block ∧ x.ticket = k.ticket then k else x)

/-- The Lacer's walker for a command (R261, 21 R387). -/
def LCmd.walker (k : LCmd) (core l ctx : Nat) : Walker :=
  ⟨some ctx, k.user, k.user, some core, lacerAgent core l, k.pass⟩

/-- The bytes of a row. -/
def rowList (row n : Nat) : List Nat := (List.range n).map fun i => bytesOf row i 1

/-- A number from its bytes. -/
def ofRow (bs : List Nat) : Nat := bs.foldr (fun b n => b + 256 * n) 0

/-- A watchpoint stops a command at the boundary before the unit or the slot that meets it (21 R389). -/
def State.watchStop (s : State) (l : Nat) (k : LCmd) (i : Nat) (kind : Access) (addr : Nat) : State :=
  s.updBlk k.block fun b => { b with lwatch := vset b.lwatch l (some ⟨k.ticket, BitVec.ofNat 64 addr, i + kind.code * 16⟩) }

/-- A slot of a ring claimed, written and published (R246, R266), unless a watchpoint observes the write (21 R387); none while no slot is
free. -/
def State.fillSlot (s : State) (core l : Nat) (k : LCmd) (b : Block) : Option State :=
  match amGet b.rings k.entry.ring with
  | none => none
  | some r =>
    if r.free = 0 then none
    else
      let data := ofRow (k.packed.take r.slot)
      let ctx := b.ctx
      match (cutRuns [⟨s.slotAddr b r r.pidx, r.slot, 1, true, none, data⟩]).findSome? fun x =>
          (s.runWatch (k.walker core l ctx) .write x x.data).map fun i => (i, x.addr) with
      | some (i, addr) => some (s.watchStop l k i .write addr)
      | none =>
      let s := s.scrWrite b.core (b.scrBase + r.base + r.pidx * r.slot) r.slot data
      let s := s.updBlk k.block fun b => b.setRing k.entry.ring r.claim.publish
      let s := (s.putCmd core l { k with packed := k.packed.drop r.slot, moved := k.moved + r.slot, pass := none, nextClk := s.clk.toNat + 1 })
      some (s.countUp core 12 r.slot)

/-- A command packs for a ring and has a whole slot. -/
def LCmd.slotReady (k : LCmd) (b : Block) : Bool :=
  k.entry.ringen &&
  match amGet b.rings k.entry.ring with
  | some r => decide (r.slot ≤ k.packed.length)
  | none => true

/-- A command ends FAULTED, and with it every later command of the block on the Lacer (R267). -/
def State.lacerFail (s : State) (core l : Nat) (k : LCmd) (code addr : Nat) : State :=
  let s := s.updBlk k.block fun b => { b with lfault := vset b.lfault l (some ⟨k.ticket, BitVec.ofNat 64 addr, code⟩) }
  let mine := ((s.core core).lacer l).filter fun x => x.block == k.block
  mine.foldl (fun s x => (s.chargeLacer core x).endCmd core l x) s

/-- A fault, after which a command ends FAULTED once its writes are released (R267, R271). -/
def State.lacerFault (s : State) (core l : Nat) (k : LCmd) (cause addr : Nat) : State :=
  s.putCmd core l { k with failed := some (0x10 + cause, addr) }

/-- The requests to hosts and peers that a step of an agent has sent carry what it works for (19 R364): of a Lacer the command, of an
engine the node. -/
def State.stampReqs (s : State) (before agent : Nat) (tag : Nat × Nat) : State :=
  if s.nextId = before then s
  else { s with extReqs := s.extReqs.map fun r => if before ≤ r.id ∧ r.agent = agent then { r with cmd := some tag } else r }

/-- The next step of a command: a unit, or a slot of its ring; none where nothing can be done now. -/
def State.cmdStep (s : State) (core l : Nat) (k : LCmd) : Option State :=
  match s.blk k.block with
  | none => none
  | some b =>
    let at' := s.nextId
    if k.slotReady b then s.fillSlot core l k b
    else
      match s.unitRun (k.walker core l b.ctx) (some b) k.entry k.unit with
      | .done s row moved =>
        let e := k.entry
        let s := (s.stampReqs at' (lacerAgent core l) (k.block, k.ticket)).putCmd core l
          { k with unit := k.unit + 1, moved := if e.ringen then k.moved else k.moved + moved, pass := none,
                   packed := if e.ringen then k.packed ++ rowList row e.rowBytes else [], nextClk := s.clk.toNat + 1 }
        some (if e.ringen then s else s.countUp core 12 moved)
      | .fault s cause addr _ => some ((s.stampReqs at' (lacerAgent core l) (k.block, k.ticket)).lacerFault core l k cause addr)
      | .watch s i kind addr => some (s.watchStop l k i kind addr)
      | .ask s => some (s.stampReqs at' (lacerAgent core l) (k.block, k.ticket))
      | .stuck => none

/-- A Lacer may take a step. -/
def State.canUnit (s : State) (core l : Nat) : Bool :=
  decide (l < 4) && s.liveCd.getLsbD (dieOf core) &&
  match s.lacerCmd core l with
  | some k => !k.atEnd && decide (k.nextClk ≤ s.clk.toNat) && (s.cmdStep core l k).isSome
  | none => false

/-- The step. -/
def State.lacerUnit (s : State) (core l : Nat) : State :=
  match s.lacerCmd core l with
  | some k => (s.cmdStep core l k).getD s
  | none => s

/-- A command is at its end, and its global writes are released at the entry's SCOPE (R271): at system scope, those to hosts and
peers have been acknowledged. -/
def State.canEnd (s : State) (core l : Nat) : Bool :=
  decide (l < 4) && s.liveCd.getLsbD (dieOf core) &&
  match s.lacerCmd core l with
  | some k => k.atEnd && (decide (k.entry.scope < 5) ||
      !(s.extReqs.any fun r => r.write && r.reply.isNone && r.agent == lacerAgent core l))
  | none => false

/-- The command ends: its tiles return, and its bytes are charged (21 R401). -/
def State.lacerEnd (s : State) (core l : Nat) : State :=
  match s.lacerCmd core l with
  | some k =>
    match k.failed with
    | some f => s.lacerFail core l k f.1 f.2
    | none => (s.chargeLacer core k).endCmd core l k
  | none => s

/-- A Lacer walks one unit of its current command, reading and then writing (R264). -/
def execLacerUnit (core : Nat) (lacer : Nat) (s : State) : Out := .next (if s.canUnit core lacer then s.lacerUnit core lacer else s)

/-- A Lacer command ends: tile holders drop and global writes are released (R271). -/
def execLacerCommandEnd (core : Nat) (lacer : Nat) (s : State) : Out := .next (if s.canEnd core lacer then s.lacerEnd core lacer else s)

/-! ### What an engine does next (R268) -/

/-- A node's work may start on an engine: its context's engines run, or the node has been cancelled. -/
def State.workRuns (s : State) (w : Nat × Nat) : Bool :=
  match amGet s.graphs w.1, s.node w.1 w.2 with
  | some x, some nd =>
    let c := s.ctx x.ctx
    !(s.graphStuck w.1) && (nd.state == nCancelling || (c.state == .running && !c.noFire && !c.restoring))
  | _, _ => true

/-- The node work that an engine serves: the one it has begun, or the first that may start. -/
def State.engineWork (s : State) (e : Nat) : Option (Nat × Nat) :=
  let x := s.engine e
  if x.unit ≠ 0 ∨ x.entry.isSome = true then x.work.head? else x.work.find? s.workRuns

/-- The privileged descriptor is served next: it has begun, or it is its turn. -/
def State.privNext (s : State) (e : Nat) : Bool :=
  let x := s.engine e
  if x.current.isSome then true
  else if x.unit ≠ 0 ∨ x.entry.isSome = true then false
  else x.descs != [] && (!x.lastPriv || (s.engineWork e).isNone)

/-- An engine's violation freezes it (22 R408). -/
def State.freezeEngine (s : State) (e addr : Nat) : State :=
  let s := s.setEngine e { s.engine e with held := true, faddr := addr }
  { s with frzDma := s.frzDma ||| (1#32 <<< e), frzAddr := BitVec.ofNat 64 addr }

/-- How a walk of an engine goes on. -/
inductive EngRes where
  | done (s : State)
  | fault (s : State) (cause addr : Nat) (hole : Bool)
  | watch (s : State)
  | going (s : State)
  | stuck

/-- Units of an engine's walk, from the one it has reached; what is done is counted in the engine. -/
def State.engineUnits (e : Nat) (run : State → Nat → UnitRes) : Nat → State → EngRes
  | 0, s => .done s
  | n + 1, s =>
    let u := (s.engine e).unit
    match run s u with
    | .done s _ _ => s.setEngine e { s.engine e with unit := u + 1 } |> State.engineUnits e run n
    | .fault s c a h => .fault s c a h
    | .watch s _ _ _ => .watch s
    | .ask s => .going s
    | .stuck => if u = 0 then .stuck else .going s

/-- The writes of an engine to hosts and peers that are not acknowledged. -/
def State.engineWaits (s : State) (e : Nat) : Bool :=
  s.extReqs.any fun r => r.write && r.reply.isNone && r.agent == engineAgent e

/-! ### Node work (06 R121, R412) -/

/-- The walker of an engine for a node. -/
def engineWalker (e ctx : Nat) : Walker := ⟨some ctx, true, true, none, engineAgent e, none⟩

/-- The words of a FILL node, unit by unit. -/
def State.fillUnit (s : State) (w : Walker) (nd : Node) (u : Nat) : UnitRes :=
  let a := ((vget nd.work 0 0).toNat + 8 * u) % 2 ^ 64
  match s.storeRuns w none [⟨a, 8, 8, false, none, (vget nd.work 2 0).toNat⟩] with
  | .ok s => .done s 0 8
  | .error r => r

/-- The write of a SIGNAL node: a store, or an atomic add at its point. -/
def State.signalUnit (s : State) (w : Walker) (nd : Node) : UnitRes :=
  let a := (vget nd.work 0 0).toNat
  let v := (vget nd.work 1 0).toNat
  let r : Run := ⟨a, 8, 8, false, none, v⟩
  if vget nd.work 2 0 = 0 then
    match s.storeRuns w none [r] with
    | .ok s => .done s 0 8
    | .error r => r
  else
    match s.runCheck w none .rw r with
    | (.fault c h, s) => .fault s c a h
    | (.migrating, _) => .stuck
    | (.ok p, s) =>
      match s.runWatch w .rw r v, s.walkShut w [(r, p)] with
      | some k, _ => .watch s k .rw a
      | none, some u => u
      | none, none =>
        let pa := p.addr
        if s.poisoned pa 8 then .fault s cPoison a false
        else .done (s.performWrite ⟨w.agent, 0, w.ctx.getD Config.contexts, a, pa, 8, v, some (.add, 0), 0, []⟩) 0 8

/-- The lace entry of a LACE node, read by the engine as it reaches it, as the rest of its work (06 R121); LACE_FAULT where it is refused. -/
def State.nodeEntry (s : State) (e : Nat) (x : Graph) (nd : Node) : Except EngRes (LEntry × State) :=
  match (s.engine e).entry with
  | some ent => .ok (ent, s)
  | none =>
    let p := nd.payload.toNat
    if p % 64 ≠ 0 then .error (.fault s cMisalign p false)
    else
      match s.fetchRuns (engineWalker e x.ctx) none [⟨p, 64, 64, false, none, 0⟩] with
      | .error (.fault t c a h) => .error (.fault t c a h)
      | .error (.watch t _ _ _) => .error (.watch t)
      | .error (.ask t) => .error (.going t)
      | .error _ => .error .stuck
      | .ok (got, t) =>
        let ent := LEntry.ofCode (joinRuns got)
        if ent.engineCheck ≠ 0 then .error (.fault t cLaceFault p false)
        else .ok (ent, (t.usedReplies (engineWalker e x.ctx)).setEngine e { t.engine e with entry := some ent })

/-- An engine's work for a node, as far as it goes now. The write of a SIGNAL node is a release of system scope: it waits until the
context's writes to hosts and peers are acknowledged (06 R122). -/
def State.nodeWork (s : State) (e : Nat) (x : Graph) (nd : Node) : EngRes :=
  let w := engineWalker e x.ctx
  match nd.kind with
  | 2 =>
    match s.nodeEntry e x nd with
    | .error r => r
    | .ok (ent, t) => t.engineUnits e (fun s u => s.unitRun w none ent u) (ent.units - (t.engine e).unit)
  | 3 => s.engineUnits e (fun s u => s.fillUnit w nd u) ((vget nd.work 1 0).toNat / 8 - (s.engine e).unit)
  | _ =>
    if (s.engine e).unit = 0 ∧ s.ctxWrites x.ctx = true then .stuck
    else s.engineUnits e (fun s _ => s.signalUnit w nd) (1 - (s.engine e).unit)

/-- The work of a node leaves an engine. -/
def State.dropWork (s : State) (e : Nat) (w : Nat × Nat) : State :=
  s.setEngine e { s.engine e with
    work := (s.engine e).work.filter fun x => x != w
    unit := 0
    entry := none
    held := false
    lastPriv := false }

/-- A node's engine work has failed. -/
def State.workFault (s : State) (w : Nat × Nat) (cause : Nat) : State :=
  match s.node w.1 w.2 with
  | some nd => if nd.state = nCancelling then s.nodeFinish w.1 w.2 else s.nodeFault w.1 w.2 cause
  | none => s

/-- The chosen work stands first. -/
def State.chooseWork (s : State) (e : Nat) (w : Nat × Nat) : State :=
  s.setEngine e { s.engine e with work := w :: (s.engine e).work.filter fun x => x != w }

/-- An engine's node work taken as far as it goes; none where nothing can be done now. -/
def State.engineStep (s : State) (e : Nat) : Option State :=
  if (s.engine e).held ∨ s.privNext e = true ∨ 32 ≤ e ∨ s.stage ≠ 6 then none
  else
    match s.engineWork e with
    | none => none
    | some w =>
      match amGet s.graphs w.1, s.node w.1 w.2 with
      | some x, some nd =>
        if nd.state = nCancelling ∧ (s.engine e).unit = 0 then some ((s.dropWork e w).nodeFinish w.1 w.2)
        else
          let at' := s.nextId
          match (s.chooseWork e w).nodeWork e x nd with
          | .done t =>
            let t := t.stampReqs at' (engineAgent e) w
            if t.engineWaits e then (if (t.engine e).unit = (s.engine e).unit then none else some t) else some ((t.dropWork e w).nodeFinish w.1 w.2)
          | .fault t c a h => if h then some (t.freezeEngine e a) else some ((t.dropWork e w).workFault w c)
          | .watch t => some ((t.dropWork e w).workFault w cWatchpoint)
          | .going t =>
            if t.extReqs.length = s.extReqs.length ∧ (t.engine e).unit = (s.engine e).unit then none
            else some (t.stampReqs at' (engineAgent e) w)
          | .stuck => none
      | _, _ => some (s.dropWork e w)

/-- A LACE, FILL or SIGNAL node's engine work finishes or fails (R121). -/
def execNodeEngineDone (engine : Nat) (s : State) : Out := .next ((s.engineStep engine).getD s)

/-! ### Privileged descriptors (R268, R269) -/

/-- DMASUB (R268). -/
def State.dmaSubmit (s : State) (v : BitVec 64) : State :=
  let e := bitsOf v 4 0
  let x := s.engine e
  let waiting := x.descs.length + x.current.isSome.toNat
  if bitsOf v 6 5 ≠ 0 ∨ bitsOf v 63 52 ≠ 0 ∨ Config.engineQueue ≤ waiting then
    { s with dmaOvr := true, dmaEngine := BitVec.ofNat 5 e }
  else s.setEngine e { x with descs := x.descs ++ [bitsOf v 51 7 * 128] }

/-- The walker of a privileged descriptor: physical addresses, no context. -/
def privWalker (e : Nat) : Walker := ⟨none, false, false, none, engineAgent e, none⟩

/-- The descriptor in hand is done with. -/
def State.dropDesc (s : State) (e : Nat) : State :=
  s.setEngine e { s.engine e with current := none, unit := 0, entry := none, held := false, lastPriv := true, ending := false }

/-- STATUS, CODE and FADDR of the descriptor in hand are written; its release and CVAL are still to come (R269). -/
def State.descEnd (s : State) (e status code faddr : Nat) : State :=
  match (s.engine e).current with
  | none => s
  | some pa =>
    let s := (s.write64 (pa + 0x50) (BitVec.ofNat 64 (status + code * 2 ^ 8))).write64 (pa + 0x58) (BitVec.ofNat 64 faddr)
    s.setEngine e { s.engine e with ending := true }

/-- The engine's writes are released, and then CVAL is written to COMPL; a hole there freezes the engine with the descriptor in hand
(R269, R28). None while an acknowledgement is outstanding or COMPL cannot be reached. -/
def State.descClose (s : State) (e : Nat) : Option State :=
  let x := s.engine e
  if s.engineWaits e then none
  else if x.compl = 0 then some (s.dropDesc e)
  else
    match s.runNoted (privWalker e) .write x.compl 8 with
    | (.ok p, t) =>
      if s.walkOpen (privWalker e) p then
        some ((match p with
          | .mem a => t.performBytes none a 8 x.cval
          | .chip a => t.chipWrite a 8 x.cval
          | .ext a => t.performWrite ⟨partAgent, 0, Config.contexts, a, a, 8, x.cval, none, 0, []⟩
          | .scr _ _ => t).dropDesc e)
      else none
    | (.fault _ true, t) => some (t.freezeEngine e x.compl)
    | (_, t) => some (t.dropDesc e)

/-- A descriptor completes, as far as it can now. -/
def State.descDone (s : State) (e status code faddr : Nat) : State :=
  let t := s.descEnd e status code faddr
  (t.descClose e).getD t

/-- An engine reaches a privileged descriptor; engines work once bring-up is over (22 R403). -/
def State.canStart (s : State) (e : Nat) : Bool :=
  let x := s.engine e
  decide (e < 32) && s.stage == 6 && !x.held && x.current.isNone && s.privNext e

/-- The descriptor read and checked; its SCOPE is ignored (R269). -/
def State.descStart (s : State) (e : Nat) : State :=
  let x := s.engine e
  match x.descs with
  | [] => s
  | pa :: rest =>
    let v := s.read pa 128
    let ent := LEntry.ofCode v
    let s := s.setEngine e
      { x with descs := rest, current := some pa, unit := 0, entry := some ent, compl := v / 2 ^ 512 % 2 ^ 52,
               cval := v / 2 ^ 576 % 2 ^ 64 }
    if s.region pa = .hole then (s.setEngine e { s.engine e with compl := 0 }).freezeEngine e pa
    else if s.poisoned pa 128 then s.descDone e 3 0x17 pa
    else
      let code := LEntry.engineCheck { ent with scope := 0 }
      if code ≠ 0 then s.descDone e 2 code 0 else s

/-- The walk of the descriptor in hand, as far as it goes now; none where nothing can be done. -/
def State.descStep (s : State) (e : Nat) : Option State :=
  let x := s.engine e
  if x.held ∨ 32 ≤ e ∨ s.stage ≠ 6 then none
  else if x.ending then s.descClose e
  else
    match x.current, x.entry with
    | some _, some ent =>
      match s.engineUnits e (fun s u => s.unitRun (privWalker e) none ent u) (ent.units - x.unit) with
      | .done t => some (t.descDone e 1 0 0)
      | .fault t c a h => if h then some (t.freezeEngine e a) else some (t.descDone e 3 (0x10 + c) a)
      | .watch t => some t
      | .going t => if t.extReqs.length = s.extReqs.length ∧ (t.engine e).unit = x.unit then none else some t
      | .stuck => none
    | _, _ => none

/-- A privileged write submits a DMA descriptor to an engine (R268). -/
def execDmasub (value : BitVec 64) (s : State) : Out := .next (s.dmaSubmit value)

/-- An engine reaches a privileged descriptor, reads and checks it (R269). -/
def execDmaDescriptorStart (engine : Nat) (s : State) : Out := .next (if s.canStart engine then s.descStart engine else s)

/-- An engine finishes a descriptor's walk and writes STATUS, release and CVAL (R269). -/
def execDmaDescriptorComplete (engine : Nat) (s : State) : Out := .next ((s.descStep engine).getD s)

/-- A frozen engine released (R408): its node fails with PROTECTION, or its descriptor completes with STATUS 3, without CVAL where COMPL
was what it could not reach (log 32). -/
def State.releaseEngine (s : State) (e : Nat) : State :=
  let x := s.engine e
  if x.held then
    match x.current with
    | some _ =>
      (s.setEngine e { x with held := false, compl := if x.ending then 0 else x.compl }).descDone e 3 0x16 x.faddr
    | none =>
      match x.work with
      | w :: _ => (s.dropWork e w).workFault w cProtection
      | [] => s.setEngine e { x with held := false }
  else s

end Sys2Proof.Machine
end

