-- ==== Sys2Proof/Machine/Fetch.lean ====
section
/-!
DEFINITION. Sys2Proof/Machine/Fetch.lean: the fetch of a word (03 R62), with its faults, waits and watchpoints, and the passing
of a clock (03 R76, 08 R166, 21 R399).
-/

namespace Sys2Proof.Machine

/-- What a fetch gives: the word, or a state in which the group has trapped or waits. -/
inductive Fetched where
  | word (w : BitVec 32) (s : State)
  | stop (s : State)

/-- The address that a trap of the coming word takes as XPC: of its first prefix (R68). -/
def Group.first (g : Group) : BitVec 57 := g.pc - BitVec.ofNat 57 (4 * g.exts.length)

/-- The word at a physical address, with the core's writes on their way. -/
def State.textWord (s : State) (core pa : Nat) : Nat :=
  overlay (s.writes.filter fun w => w.core == core) pa 4 (s.read pa 4)

/-- A fetch whose leaf the die's TLB has served counts as a miss of the core's (18 R352, 21 R399). -/
def State.countFetch (s : State) (core ctx va : Nat) : State :=
  if s.dieHits core ctx [va] = 0 then s else s.countUp core 10 1

/-- A fetched word issues unless a watchpoint on fetches takes it (21 R387, R388) or it is poisoned (22 R406). -/
def State.fetchGot (s : State) (a : Nat) (g : Group) (b : Block) (w : Nat) (bad : Bool) : Fetched :=
  let va := g.pc.zeroExtend 64
  match (if g.trapMode then none else (s.ctx b.ctx).wpHit .fetch g.pc.toNat 4 none false) with
  | some k => .stop (s.takeTrap a cWatchpoint va (wpAux k .fetch 0 0) g.first g.onB)
  | none =>
    if bad then .stop (s.takeTrap a cPoison va 0 g.first g.onB)
    else .word (BitVec.ofNat 32 w) (s.countFetch (coreOf a) b.ctx g.pc.toNat)

/-- The fetch of a word from a host or peer (11 R224), which may refuse it (19 R364). -/
def State.fetchExt (s : State) (a pa : Nat) (g : Group) (b : Block) : Fetched :=
  match s.extValue a pa 4 with
  | some v => (if v.1 then s.noteRefused pa else s).fetchGot a g b v.2 v.1
  | none => .stop ((s.extAsk a b.ctx pa 4).suspendAt a g.first .waitMem .reply)

/-- The fetch of a group's next word. -/
def State.fetch (s : State) (a : Nat) (g : Group) (b : Block) : Fetched :=
  let core := coreOf a
  let va := g.pc.zeroExtend 64
  match s.translate core b.ctx g.pc.toNat .fetch g.trapMode with
  | .fault cause aux => .stop (s.takeTrap a cause va aux g.first g.onB)
  | .revoke aux at' => .stop ((s.setRevoked at').takeTrap a cLeaseRevoked va aux g.first g.onB)
  | .miss _ =>
    if s.missRoom (dieOf core) b.ctx [g.pc.toNat] then
      .stop ((s.addMiss (dieOf core) b.ctx g.pc.toNat a core .fetch).suspendAt a g.first .waitMem .walk)
    else .stop (s.suspendAt a g.first .waitMem .again)
  | .migrating at' => .stop ((s.arm (.group a) at' 8).suspendAt a g.first .waitMem .watch)
  | .ok pa =>
    if s.inReach core pa = false then .stop ((s.snoopBack (pa / 256)).suspendAt a g.first .waitMem (.home pa))
    else if s.isMemory pa then
      let s := s.settlePoison core pa 4
      s.fetchGot a g b (s.textWord core pa) (s.poisoned pa 4)
    else
      match s.region pa with
      | .chip =>
        if s.chipHole pa 4 then .stop (s.takeTrap a cProtection va 0 g.first g.onB)
        else
          let r := s.chipRead pa 4
          r.2.fetchGot a g b r.1 (r.2.chipBad pa 4)
      | .hole => .stop (s.takeTrap a cProtection va 0 g.first g.onB)
      | .fabric =>
        if s.fabricPort pa = none then .stop (s.takeTrap a cProtection va 0 g.first g.onB)
        else s.fetchExt a pa g b
      | _ => s.fetchExt a pa g b

/-- A group takes its turn. -/
def State.takeTurn (s : State) (a : Nat) : State :=
  { s with issue := a :: s.issue.filter (fun x => x != a), used := s.used ++ [a] }

/-- The group whose turn it is fetches; none where every slot of this clock has been used. -/
def State.fetchNext (s : State) : Option Fetched :=
  match s.turn.orElse fun _ => s.lateTurn with
  | none => none
  | some a =>
    match s.grp a with
    | none => none
    | some g =>
      match s.blk g.block with
      | none => none
      | some b => some ((s.takeTurn a).fetch a g b)

/-! ### Time -/

/-- The phase timer of a group counts a clock (08 R166). -/
def State.phaseCounts (s : State) (g : Group) (b : Block) : Bool :=
  (s.ctx b.ctx).state == .running && g.state != .parked && g.state != .halted && g.state != .launching &&
    g.state != .exited && !g.trapMode && !g.phOver &&
    !(s.groups.any fun ag => ag.2.block == g.block && ag.2.state == .halted)

/-- The bound of a group's phase (08 R166), 0 for none. -/
def Block.phaseBound (b : Block) (g : Group) : Nat :=
  if b.desc.nph ≤ g.phase.toNat then 0 else b.phases.getD g.phase.toNat 0

/-- A group's timer after a clock. -/
def State.tickGroup (s : State) (g : Group) : Group :=
  match s.blk g.block with
  | none => g
  | some b => if s.phaseCounts g b then { g with phTimer := g.phTimer + 1 } else g

/-- A core's counters after a clock: 4 holds the clocks in which slots were held, 5 the clocks of the array, 13 the clocks
of groups that wait at barriers (21 R399). -/
def State.tickCore (s : State) (c : Nat) (k : Core) : Core :=
  let held := (s.issue.filter fun a => coreOf a == c).length
  let bars := (s.groups.filter fun ag => coreOf ag.1 == c && ag.2.state == .waitBarrier).length
  ((k.count 4 held).count 5 (if k.accQ = [] then 0 else 1)).count 13 bars

end Sys2Proof.Machine
end

