-- ==== Sys2Proof/Machine/GroupEv.lean ====
section
/-!
DEFINITION. Sys2Proof/Machine/GroupEv.lean: what happens to groups between their words: arbitration and promotion (08 R154, R156,
R157), dependences (R64, R152), watches (11 R247), `vred` results (10 R202), phase timers and asynchronous traps (R166, R167),
stops by a broadcast or a context fault (21 R390, R394), and capsule re-entry (17 R340).
-/

namespace Sys2Proof.Machine

/-! ### Where a group stands -/

/-- As `runsOn`; while its context parks, a group completes the word whose read or atomic a host or peer has answered (04 R96, step 2), and
whatever stops its context, the word whose atomics have been sent; a group of a block that is to be discarded issues no further run, but
reaches the end of a step (06 R128, 17 R330). -/
def State.mayIssue (s : State) (a : Nat) (g : Group) : Bool :=
  (s.runsOn g || g.going != [] || ((s.ctx (s.groupCtx g)).state == .parking && s.askedOf a)) &&
  (g.midStep || !((s.blk g.block).any fun b => b.discarding))

/-- A group that waits for the issue slot (R154). -/
def Group.eligible (g : Group) : Bool :=
  g.dep.isNone && g.entry.isNone && !g.cap.reenter &&
  (g.state == .ready || (g.trapMode && g.state == .trapped) || (g.state == .halted && g.cobRun))

/-- The base priority of a group (R154). -/
def State.basePrio (s : State) (g : Group) : Nat :=
  if g.trapMode then 7
  else
    match (s.blk g.block).bind fun b => amGet s.grids b.grid with
    | some k => k.prio
    | none => 0

/-- Its arbitration priority (R154). -/
def State.issuePrio (s : State) (g : Group) : Nat := min 7 (s.basePrio g + g.promo)

/-! ### Arbitration -/

/-- The groups of a quadrant that may win. -/
def State.contenders (s : State) (quad : Nat) : List (Nat × Group) :=
  s.groups.filter fun x => quadOf x.1 == quad && x.2.eligible && s.mayIssue x.1 x.2

/-- A quadrant's slot is free, and a group wants it. -/
def State.canArbitrate (s : State) (core quadrant : Nat) : Bool :=
  decide (core < Config.cores ∧ quadrant < 4) && s.liveCd.getLsbD (dieOf core) &&
  !(s.issue.any fun a => quadOf a == core * 4 + quadrant) && !(s.contenders (core * 4 + quadrant)).isEmpty

/-- The winner: the highest priority, then the next slot after the last winner; a group that yielded only where no other is
there (R156). -/
def State.issueWinner (s : State) (quad : Nat) : Option (Nat × Group) :=
  let all := s.contenders quad
  let fresh := all.filter fun x => !x.2.yielded
  let last := (amGet s.lastWin quad).getD (Config.slotsPerQuadrant - 1)
  let turn := fun (a : Nat) => (a + 2 * Config.slotsPerQuadrant - last - 1) % Config.slotsPerQuadrant
  let before := fun (x y : Nat × Group) =>
    let p := s.issuePrio x.2
    let q := s.issuePrio y.2
    decide (q < p ∨ (p = q ∧ turn (x.1 % Config.slotsPerQuadrant) ≤ turn (y.1 % Config.slotsPerQuadrant)))
  (sortBy before (if fresh = [] then all else fresh)).head?

/-- The group as it wins: its run begins on the path whose turn it is (R63, R157). -/
def Group.win (g : Group) : Group :=
  { g with state := if g.state = .ready then .issuing else g.state, promo := 0, runWords := 0, exts := [], onB := g.nextOnB }

/-- The slot given. -/
def State.arbitrate (s : State) (core quadrant : Nat) : State :=
  let quad := core * 4 + quadrant
  match s.issueWinner quad with
  | none => s
  | some (a, _) =>
    let groups := amMap (fun k g => if quadOf k = quad then { g with yielded := false } else g) s.groups
    { s with groups := amUpd groups a Group.win, issue := s.issue ++ [a],
             lastWin := amSet s.lastWin quad (a % Config.slotsPerQuadrant) }

/-- A quadrant's free issue slot is given to the eligible group of highest priority (R154). -/
def execIssueArbitration (core : Nat) (quadrant : Nat) (s : State) : Out := .next (if s.canArbitrate core quadrant then s.arbitrate core quadrant else s)

/-- A group eligible for another 4,096 clocks without winning (R154). -/
def State.canPromote (s : State) (a : Nat) : Bool :=
  match s.grp a with
  | some g => g.eligible && !(s.issue.contains a) && decide (g.promo < 7 ∧ g.readyClk + 4096 * (g.promo + 1) ≤ s.clk.toNat)
  | none => false

/-- One level more. -/
def Group.promoted (g : Group) : Group := { g with promo := g.promo + 1 }

/-- A group READY for 4,096 clocks without winning gains one level of promotion (R154). -/
def execIssuePromotion (agent : Nat) (s : State) : Out := .next (if s.canPromote agent then s.updGrp agent Group.promoted else s)

/-! ### Dependences (R64, R152) -/

/-- The tile at a scratchpad address is THREAD (12 R274). -/
def State.tileThread (s : State) (b : Block) (va : Nat) : Bool := s.tileEngine b va != some true

/-- What a group waits for has come about. -/
def State.depMet (s : State) (a : Nat) (g : Group) (b : Block) (d : Dep) : Bool :=
  let core := s.core (coreOf a)
  match d with
  | .again => true
  | .walk => !(s.misses.any fun m => m.joined.any fun j => j.1 == a)
  | .yseq y seq => (g.yreg y.toNat).seq == seq
  | .phase bar t _ => g.fate.isSome || s.phaseOver bar t
  | .held .. => !(s.arrivals.any fun h => h.agent == a && decide (h.act.rank < 2))
  | .monitor m => !(s.checkOf b.ctx m)
  | .object pa => !(s.objChecking pa)
  | .watch => false
  | .reply => !(s.extReqs.any fun r => r.agent == a && !r.write && r.reply.isNone)
  | .home pa => s.inReach (coreOf a) pa
  | .entries n => decide (core.missing.length + (s.extEntries (coreOf a)).length + n ≤ Config.missStatus)
  | .acks => (s.drained (coreOf a) || s.drainable (coreOf a)) && !(s.extReqs.any fun r => r.write && r.reply.isNone && coreOf r.agent == coreOf a)
  | .results => core.resultsDue a == []
  | .arrayRoom => decide (core.accQ.length < Config.accQueue)
  | .tileWritten first => !(core.ownWrites a first)
  | .slots n => decide (n ≤ core.freeSlots.length)
  | .tileIdle first => !(core.ownWork a first)
  | .room l => decide ((core.lacer l).length < Config.lacerQueue)
  | .ended l t => core.laceEnded l g.block t || (vget b.lwatch l none).any fun r => decide (r.ticket ≤ t)
  | .cancel l t => !(core.cancelling l g.block t)
  | .tile va => s.tileThread b va
  | .ringFree r => (amGet b.rings r).all fun x => decide (0 < x.free)
  | .ringFilled r => (amGet b.rings r).all fun x => decide (0 < x.filled)
  | .apply line => !(s.capLogs.any fun c => c.line == line)
  | .arm _ _ => decide (g.waitClk < s.clk.toNat)

/-- A state of waiting (R151). -/
def GState.waits : GState → Bool
  | .waitScore => true | .waitMem => true | .waitBarrier => true | .waitMonitor => true | .waitCapsule => true
  | _ => false

/-- The wait of a group over: it is READY, or keeps its code in trap mode (R152, R154). -/
def Group.resume (g : Group) (now : Nat) : Group :=
  { g with dep := none, state := if g.state.waits then .ready else g.state, readyClk := now, promo := 0 }

/-- A wait for the home of an address. -/
def Dep.atHome : Dep → Bool
  | .home _ => true
  | _ => false

/-- A group that waits, in a context where a resolved wait is of use; a trap entry waits for the home of its frame (R162). -/
def State.canResolve (s : State) (a : Nat) : Bool :=
  match s.grp a with
  | none => false
  | some g =>
    match s.blk g.block, g.dep with
    | some b, some d =>
      (g.entry.isNone || d.atHome) && !g.cap.reenter &&
        ((s.ctx b.ctx).state != .faulted || g.midStep || g.going != [] || g.state == .halted) && s.depMet a g b d
    | _, _ => false

/-- What the end of a wait brings about: that of `wpset` and `wpclr` arms or disarms an entry (R187); that of `yget` holds back further
results until the word has read its own (R203). -/
def State.waitEnds (s : State) (a : Nat) : State :=
  match s.grp a with
  | some g =>
    match g.dep with
    | some (.arm k w) => s.updCtx (s.groupCtx g) fun c => { c with wps := vset c.wps k w }
    | some (.yseq _ _) => s.updGrp a fun g => { g with woke := true }
    | _ => s
  | none => s

/-- BARRIER_STALL or BALANCE taken in a barrier wait (16 R309, R320): the instruction ends, its destination written with the token, of
BALANCE with its acquire performed, and the path that waits takes the trap with XPC at the next word. -/
def State.fateTrap (s : State) (a : Nat) (g : Group) (x : BarId) (t : BitVec 32) (w : PhaseWait) (f : Fate) : State :=
  let fromB := g.nextOnB
  let here := match (if fromB then g.path1 else g.path0) with
    | some p => p.pc
    | none => 0
  let k := (w.next - here).toNat / 4 - 1
  let s := (((s.updGrp a fun g => (g.tokenTo x w.va w.dest t).resume s.clk.toNat).charge a w.cls 1).charge a 0 k).countWords (coreOf a) (k + 1) true
  let next := if g.trapMode then here else w.next
  match f with
  | .stall => s.takeTrap a cBarrierStall w.va (x.stallAux t) next fromB
  | .balance aux => (s.acquire a w.scope).takeTrap a cBalance w.va aux next fromB

/-- A group's wait over: it returns to READY, or takes the trap that its barrier wait ends with. -/
def State.resolve (s : State) (a : Nat) : State :=
  match s.grp a with
  | none => s
  | some g =>
    match g.dep, g.fate with
    | some (.phase x t w), some f => s.fateTrap a g x t w f
    | _, _ =>
      if g.entry.isSome then (s.updGrp a fun g => { g with dep := none }).finishEntry a
      else (s.waitEnds a).updGrp a fun g => g.resume s.clk.toNat

/-- A waiting group's dependence resolves and the group returns to READY (R152). -/
def execDependenceResolved (agent : Nat) (s : State) : Out := .next (if s.canResolve agent then s.resolve agent else s)

/-! ### Watches (11 R247) -/

/-- A watch that has fired for a group or a node; those of queues are taken as the queue observes (05 R107). -/
def State.canWatch (s : State) (index : Nat) : Bool :=
  match s.watches[index]? with
  | some w => w.fired && (match w.kind with | .queue _ => false | _ => true)
  | none => false

/-- A group whose watch has fired: it reads or tests again; a trap entry or a re-entry that waits is tried again. -/
def State.wake (s : State) (a : Nat) : State :=
  let s := s.disarm (.group a)
  match s.grp a with
  | none => s
  | some g =>
    if g.entry.isSome then (s.updGrp a fun g => { g with dep := none }).finishEntry a
    else if g.cap.reenter then s
    else if g.dep = some .watch then s.updGrp a fun g => { (g.resume s.clk.toNat) with woke := true }
    else s

/-- A watch ends; a node's is armed again, since its word may not hold yet. -/
def State.fireWatch (s : State) (index : Nat) : State :=
  match s.watches[index]? with
  | none => s
  | some w =>
    match w.kind with
    | .group a => s.wake a
    | _ => { s with watches := s.watches.set index { w with fired := false } }

/-- A write at a home slice ends a watch or overflow waits on the word (R247). -/
def execWatchFire (index : Nat) (s : State) : Out := .next (if s.canWatch index then s.fireWatch index else s)

/-- A wait of `waitv` or `mbox` that has outlasted VWAIT (04 R90). -/
def State.canExpire (s : State) (a : Nat) : Bool :=
  match s.grp a with
  | some g => g.dep == some .watch && g.sent && g.entry.isNone && !g.cap.reenter && s.vwaitOver (s.groupCtx g) g.waitClk
  | none => false

/-- The VWAIT limit ends a waitv or mbox wait (R260). -/
def execVwaitExpire (agent : Nat) (s : State) : Out := .next (if s.canExpire agent then s.wake agent else s)

/-- A group that waits by `waitv` on a word of a window without watches. -/
def State.polledPa (s : State) (a : Nat) : Option Nat :=
  match s.grp a with
  | none => none
  | some g =>
    if g.dep = some .watch ∧ g.sent = true then
      match s.watches.find? fun w => w.kind == .group a with
      | some w =>
        match s.region w.pa with
        | .fabric => some w.pa
        | .host _ => if s.isMemory w.pa || (s.extKey w.pa 8).2 == 256 then none else some w.pa
        | _ => none
      | none => none
    else none

/-- The clocks since the wait began are a multiple of 1,024, and no read of the word is outstanding. -/
def State.canPoll (s : State) (a : Nat) : Bool :=
  match s.polledPa a, s.grp a with
  | some pa, some g =>
    g.entry.isNone && !g.cap.reenter && decide (g.waitClk < s.clk.toNat ∧ (s.clk.toNat - g.waitClk) % 1024 = 0) &&
    !s.refuses pa && !(s.askedOf a)
  | _, _ => false

/-- The word is read at its point: `waitv` compares it once the answer is there (`State.completion`). -/
def State.poll (s : State) (a : Nat) : State :=
  match s.polledPa a, s.grp a with
  | some pa, some g => s.extAsk a (s.groupCtx g) pa 8
  | _, _ => s

/-- Every 1,024 clocks the part reads a waited-on word that lies in a host window without CXL.cache, or in a fabric window, in place of a
watch (R260). The event carries no value: the answer brings it. -/
def execHostWindowPoll (agent : Nat) (_value : BitVec 64) (s : State) : Out := .next (if s.canPoll agent then s.poll agent else s)

/-! ### `vred` results (10 R202) -/

/-- A result is on its way to a `y` register, and no `yget` whose number has come is still to read the value (10 R203): the value and the
number are read together. -/
def State.canLand (s : State) (a : Nat) : Bool :=
  match s.grp a with
  | some g => g.vreds != [] && !g.woke && (match g.dep with
    | some (.yseq y seq) => (g.yreg y.toNat).seq != seq
    | _ => true)
  | none => false

/-- The oldest result lands: of a float `vred.add` whose flags are enabled, only the sequence number. -/
def Group.landOne (g : Group) : Group :=
  match g.vreds with
  | [] => g
  | r :: rest =>
    let y := g.yreg r.y.toNat
    let seq := y.seq + 1
    let hit := r.flags &&& fpEnables g.fpstat
    let g := { g with vreds := rest }
    if hit = 0 then { g with y := vset g.y r.y.toNat ⟨r.value, seq⟩, fpstat := addFlags g.fpstat r.flags, poison := g.cleaned .yreg r.y.toNat 0 }
    else
      let aux := BitVec.ofNat 64 (r.lanes.toNat + hit.toNat * 2 ^ 8 + r.y.toNat * 2 ^ 16 + seq.toNat * 2 ^ 32)
      { g with y := vset g.y r.y.toNat ⟨y.value, seq⟩, pendFp := some (g.pendFp.getD aux) }

/-- Every result lands. -/
def Group.landAll (g : Group) : Group := g.vreds.foldl (fun g _ => g.landOne) g

/-- A reduction result lands in its y register with its sequence number, and flags are raised if any (R202). -/
def execVredLand (agent : Nat) (s : State) : Out := .next (if s.canLand agent then s.updGrp agent Group.landOne else s)

/-! ### Phase timers and asynchronous traps (R166, R167) -/

/-- A phase timer has reached its bound. -/
def State.canOverrun (s : State) (a : Nat) : Bool :=
  match s.grp a with
  | none => false
  | some g =>
    match s.blk g.block with
    | none => false
    | some b => !g.phOver && decide (b.phaseBound g ≠ 0 ∧ b.phaseBound g ≤ g.phTimer)

/-- PHASE_OVERRUN is pending, once for a phase. -/
def Group.overrun (g : Group) : Group := { g with pendPhase := true, phOver := true }

/-- A group's phase timer reaches its budget and PHASE_OVERRUN becomes pending (R166). -/
def execPhaseOverrun (agent : Nat) (s : State) : Out := .next (if s.canOverrun agent then s.updGrp agent Group.overrun else s)

/-- A trap is pending for a group that is READY in user code. -/
def State.canDeliver (s : State) (a : Nat) : Bool :=
  match s.grp a with
  | some g => g.state == .ready && !g.trapMode && g.dep.isNone && !g.midStep && (g.pendFp.isSome || g.pendPhase) &&
      !(s.issue.contains a) && g.going == [] && s.mayIssue a g
  | none => false

/-- It is taken by the path that would issue next (R160). -/
def State.deliverTrap (s : State) (a : Nat) : State :=
  match s.grp a with
  | none => s
  | some g =>
    let fromB := g.nextOnB
    let pc := match (if fromB then g.path1 else g.path0) with
      | some p => p.pc
      | none => 0
    match g.pendFp with
    | some aux => (s.updGrp a fun g => { g with pendFp := none }).takeBetween a cFpException 0 aux pc fromB
    | none => (s.updGrp a fun g => { g with pendPhase := false }).takeBetween a cPhaseOverrun 0 0 pc fromB

/-- A pending asynchronous trap is delivered at a run boundary in user code (R167). -/
def execAsyncTrapDelivery (agent : Nat) (s : State) : Out := .next (if s.canDeliver agent then s.deliverTrap agent else s)

/-! ### Stops (21 R390, R394) -/

/-- A group at a run boundary that a stop may reach: no word of it issues, its trap entry is complete, and no atomic of the word that it is at
has gone out to a host or peer, which makes that word an issued one (04 R96). -/
def State.atBoundary (s : State) (a : Nat) (g : Group) : Bool :=
  !(s.issue.contains a) && g.entry.isNone && !g.midStep && g.exts == [] && g.going == [] &&
  (g.state == .ready || g.state.waits || g.state == .trapped)

/-- A stop by a broadcast, or by the context's fault, reaches a group. -/
def State.canStop (s : State) (a : Nat) : Bool :=
  match s.grp a with
  | none => false
  | some g =>
    let c := s.ctx (s.groupCtx g)
    (s.atBoundary a g && (c.state == .faulted || (c.bcast && (c.state == .running || c.state == .draining || c.state == .parking)))) ||
      (g.state == .parked && c.state == .faulted)

/-- A PARKED group of a context that has entered FAULTED from PARKING is as it was when it stopped (04 R92). -/
def State.unpark (s : State) (a : Nat) (g : Group) : State :=
  let c := s.groupCtx g
  match (s.ctx c).saved.find? fun x => x.id == g.block with
  | none => s
  | some x =>
    let s := s.updCtx c fun k => { k with saved := (k.saved.map fun y =>
      if y.id = g.block then { y with groups := y.groups.filter fun h => h.gid != g.gid } else y).filter fun y => y.groups != [] }
    match x.groups.find? fun h => h.gid == g.gid with
    | some h => s.setGrp a h
    | none => s

/-- The group halts, where it is not HALTED already. -/
def State.stopGroup (s : State) (a : Nat) : State :=
  match s.grp a with
  | none => s
  | some g =>
    let t := if g.state = .parked then s.unpark a g else s
    if (t.grp a).any fun h => h.state == .halted then t
    else t.enterHalted a (if (s.ctx (s.groupCtx g)).state = .faulted then 0x22 else 0x21)

/-- A group reaches its run boundary during a broadcast and halts with cause 0x21 (R394). -/
def execGroupBroadcastStop (agent : Nat) (s : State) : Out := .next (if s.canStop agent then s.stopGroup agent else s)

/-! ### Capsule re-entry (17 R340) -/

/-- A group is to enter its open capsule again, and has asked nothing of the line yet. -/
def State.canReenter (s : State) (a : Nat) : Bool :=
  match s.grp a with
  | none => false
  | some g =>
    g.cap.reenter && g.entry.isNone && !(s.watches.any fun w => w.kind == .group a) &&
    (g.state == .waitCapsule || g.state == .trapped || (g.state == .halted && g.cobRun)) &&
    (match (s.ctx (s.groupCtx g)).state with
     | .running => !(s.ctx (s.groupCtx g)).restoring
     | .draining => true
     | _ => false)

/-- The PC of the path that holds the capsule (R331, R334). -/
def Group.capPc (g : Group) (pc : BitVec 57) : Group :=
  let put := fun (p : Path) => { p with pc := pc }
  if !g.trapMode && g.cap.onB then { g with path1 := g.path1.map put } else { g with path0 := g.path0.map put }

/-- A group goes on from a re-entry. -/
def Group.reentered (g : Group) (role now : Nat) (regs : Vector (BitVec 64) 16) (pc : BitVec 57) : Group :=
  let g := ((g.setUpper regs).capPc pc).resume now
  { g with cap := { g.cap with reenter := false, role := role, stores := [], words := 0 } }

/-- Re-entry at the home slice; each outcome that lets the group go on is an acquire of device scope. -/
def State.reenter (s : State) (a : Nat) : State :=
  match s.grp a with
  | none => s
  | some g =>
    let now := s.clk.toNat
    let r := s.capReenter g.cap.line (s.groupCtx g) a g.cap.role g.cap.cseq
    let go := fun (role : Nat) (regs : Vector (BitVec 64) 16) (pc : BitVec 57) =>
      (r.2.updGrp a fun g => g.reentered role now regs pc).acquire a 4
    match r.1 with
    | .resume ckpt entry => go g.cap.role ckpt entry
    | .taken regs exit => go 0 regs exit
    | .abandon => go 0 g.cap.shadow g.cap.ownpc
    | .wait => r.2.arm (.group a) g.cap.line 8
    | .violation =>
      let fromB := !g.trapMode && g.cap.onB
      let pc := match (if fromB then g.path1 else g.path0) with
        | some p => p.pc
        | none => 0
      let s := r.2.updGrp a fun g => { g with dep := none, cap := { g.cap with reenter := false, role := 0 } }
      s.takeTrap a cCapsuleViolation 0 0 pc fromB

/-- A resuming group with an open capsule reclaims, re-adopts, takes the delivery or abandons (R340). -/
def execReentry (agent : Nat) (s : State) : Out := .next (if s.canReenter agent then s.reenter agent else s)

end Sys2Proof.Machine
end

