-- ==== Sys2Proof/Machine/Sha.lean ====
section
/-!
DEFINITION. Sys2Proof/Machine/Sha.lean: SHA-256, which the tags of saved pages (04 R99) and attestation reports (22 R410) use; the
manual leaves it to its published standard.
-/

namespace Sys2Proof.Machine

/-- A rotation to the right of 32 bits. -/
def rotr (x : BitVec 32) (n : Nat) : BitVec 32 := x.rotateRight n

/-- The round constants: the first 32 bits of the fractional parts of the cube roots of the first 64 primes. -/
def shaK : List Nat :=
  [0x428a2f98, 0x71374491, 0xb5c0fbcf, 0xe9b5dba5, 0x3956c25b, 0x59f111f1, 0x923f82a4, 0xab1c5ed5] ++
  [0xd807aa98, 0x12835b01, 0x243185be, 0x550c7dc3, 0x72be5d74, 0x80deb1fe, 0x9bdc06a7, 0xc19bf174] ++
  [0xe49b69c1, 0xefbe4786, 0x0fc19dc6, 0x240ca1cc, 0x2de92c6f, 0x4a7484aa, 0x5cb0a9dc, 0x76f988da] ++
  [0x983e5152, 0xa831c66d, 0xb00327c8, 0xbf597fc7, 0xc6e00bf3, 0xd5a79147, 0x06ca6351, 0x14292967] ++
  [0x27b70a85, 0x2e1b2138, 0x4d2c6dfc, 0x53380d13, 0x650a7354, 0x766a0abb, 0x81c2c92e, 0x92722c85] ++
  [0xa2bfe8a1, 0xa81a664b, 0xc24b8b70, 0xc76c51a3, 0xd192e819, 0xd6990624, 0xf40e3585, 0x106aa070] ++
  [0x19a4c116, 0x1e376c08, 0x2748774c, 0x34b0bcb5, 0x391c0cb3, 0x4ed8aa4a, 0x5b9cca4f, 0x682e6ff3] ++
  [0x748f82ee, 0x78a5636f, 0x84c87814, 0x8cc70208, 0x90befffa, 0xa4506ceb, 0xbef9a3f7, 0xc67178f2]

/-- The working variables. -/
structure ShaState where
  a : BitVec 32
  b : BitVec 32
  c : BitVec 32
  d : BitVec 32
  e : BitVec 32
  f : BitVec 32
  g : BitVec 32
  h : BitVec 32
  deriving DecidableEq, Repr

/-- The initial hash value. -/
def shaInit : ShaState :=
  ⟨0x6a09e667, 0xbb67ae85, 0x3c6ef372, 0xa54ff53a, 0x510e527f, 0x9b05688c, 0x1f83d9ab, 0x5be0cd19⟩

/-- The message schedule extended by n words; the newest word stands first. -/
def shaExtend : Nat → List (BitVec 32) → List (BitVec 32)
  | 0, ws => ws
  | n + 1, ws =>
    let x := ws.getD 14 0
    let y := ws.getD 1 0
    let s0 := rotr x 7 ^^^ rotr x 18 ^^^ (x >>> 3)
    let s1 := rotr y 17 ^^^ rotr y 19 ^^^ (y >>> 10)
    shaExtend n ((ws.getD 15 0 + s0 + ws.getD 6 0 + s1) :: ws)

/-- One round. -/
def shaRound (v : ShaState) (kw : Nat × BitVec 32) : ShaState :=
  let s1 := rotr v.e 6 ^^^ rotr v.e 11 ^^^ rotr v.e 25
  let ch := (v.e &&& v.f) ^^^ (~~~v.e &&& v.g)
  let t1 := v.h + s1 + ch + BitVec.ofNat 32 kw.1 + kw.2
  let s0 := rotr v.a 2 ^^^ rotr v.a 13 ^^^ rotr v.a 22
  let maj := (v.a &&& v.b) ^^^ (v.a &&& v.c) ^^^ (v.b &&& v.c)
  ⟨t1 + (s0 + maj), v.a, v.b, v.c, v.d + t1, v.e, v.f, v.g⟩

/-- One block of 16 words. -/
def shaBlock (v : ShaState) (ws : List (BitVec 32)) : ShaState :=
  let w := (shaExtend 48 ws.reverse).reverse
  let r := (shaK.zip w).foldl shaRound v
  ⟨v.a + r.a, v.b + r.b, v.c + r.c, v.d + r.d, v.e + r.e, v.f + r.f, v.g + r.g, v.h + r.h⟩

/-- A word of a message, big-endian as the standard has it, from bytes by index. -/
def shaWord (byte : Nat → BitVec 8) (i : Nat) : BitVec 32 := byte i ++ byte (i + 1) ++ byte (i + 2) ++ byte (i + 3)

/-- Byte i of a message of n bytes after padding to a total: a one bit, zeros, and the length in bits. -/
def shaPadded (n total : Nat) (byte : Nat → BitVec 8) (i : Nat) : BitVec 8 :=
  if i < n then byte i
  else if i = n then 0x80
  else if total - 8 ≤ i then BitVec.ofNat 8 (n * 8 / 256 ^ (total - 1 - i))
  else 0

/-- SHA-256 of a message of n bytes given by index: its 32 bytes in order, as a little-endian number. -/
def sha256 (n : Nat) (byte : Nat → BitVec 8) : Nat :=
  let total := (n + 9 + 63) / 64 * 64
  let b := shaPadded n total byte
  let v := (List.range (total / 64)).foldl
    (fun v k => shaBlock v ((List.range 16).map fun j => shaWord b (64 * k + 4 * j))) shaInit
  let be := v.a ++ v.b ++ v.c ++ v.d ++ v.e ++ v.f ++ v.g ++ v.h
  (List.range 32).foldl (fun x i => x + be.toNat / 256 ^ (31 - i) % 256 * 256 ^ i) 0

end Sys2Proof.Machine
end

