-- ==== Sys2Proof/Machine/Save.lean ====
section
/-!
DEFINITION. Sys2Proof/Machine/Save.lean: the save area (04 R98, R99): the pages of the context header, the monitor region, the core
records and the group records as the part writes them, their tags, and the test of a page.
-/

namespace Sys2Proof.Machine

/-! ### Pages and tags (R98, R99) -/

/-- The page index of a core's record. -/
def corePage (core : Nat) : Nat := 0x100 + core * 385
/-- The page index of a group's record. -/
def groupPage (a : Nat) : Nat := 0x13000 + a * 9

/-- The page is a group header: 4 KiB at the start of a group record. -/
def isHeaderPage (i : Nat) : Bool := decide (0x13000 ≤ i ∧ i < 0x13000 + Config.agents * 9) && (i - 0x13000) % 9 == 0

/-- The tag of a page of a context for a generation: the first 16 bytes of SHA-256 over the page with a delivery area read as
zero, the context number, the index and the generation (R99). -/
def State.tagOf (s : State) (base c i : Nat) (gen : BitVec 64) : Nat :=
  let tail := c % 2 ^ 16 + i % 2 ^ 32 * 2 ^ 16 + gen.toNat * 2 ^ 48
  let byte := fun (k : Nat) =>
    if k < 4096 then
      if isHeaderPage i && decide (0x200 ≤ k ∧ k < 0x2C0) then 0 else byteAt s.mem (base + i * 4096 + k)
    else BitVec.ofNat 8 (tail / 256 ^ (k - 4096))
  sha256 4110 byte % 2 ^ 128

/-- `page_ok` of R100. -/
def State.pageOk (s : State) (base c i : Nat) (gen : BitVec 64) : Bool :=
  let tag := base + 0xEB000000 + i * 16
  !(s.poisoned (base + i * 4096) 4096) && !(s.poisoned tag 16) && s.read tag 16 == s.tagOf base c i gen

/-- A page of a save written; the delivery area of a group header is not part of it (R98). -/
def State.putPage (s : State) (base i data : Nat) : State :=
  let pa := base + i * 4096
  if isHeaderPage i then
    (s.performBytes none pa 0x200 data).performBytes none (pa + 0x2C0) (4096 - 0x2C0) (data / 256 ^ 0x2C0)
  else s.performBytes none pa 4096 data

/-- The tag of a page written, after the page (R99). -/
def State.putTag (s : State) (base c i : Nat) (gen : BitVec 64) : State :=
  s.performBytes none (base + 0xEB000000 + i * 16) 16 (s.tagOf base c i gen)

/-! ### Group records -/

/-- Fields placed at byte offsets of a page: offset, bytes, value. -/
def layPage (fs : List (Nat × Nat × Nat)) : Nat := fs.foldl (fun n f => n + f.2.2 % 256 ^ f.2.1 * 256 ^ f.1) 0

/-- A path's PC. -/
def pathPc (p : Option Path) : Nat :=
  match p with
  | some x => x.pc.toNat
  | none => 0
/-- A path's TAG and PTAG. -/
def pathTags (p : Option Path) : Nat :=
  match p with
  | some x => x.tag.toNat + x.ptag.toNat * 2 ^ 16
  | none => 0

/-- A group waits for a `y` register's sequence number. -/
def Group.ygetPending (g : Group) (y : Nat) : Bool :=
  match g.dep with
  | some (.yseq r _) => r.toNat == y
  | _ => false

/-- The barrier arrival record (16 R310). -/
def arrivalCode (r : Option Arrived) : Nat :=
  match r with
  | none => 0
  | some x => x.token.toNat + x.index % 16 * 2 ^ 32 + x.kind % 4 * 2 ^ 36 + 2 ^ 38

/-- The state code of a record: ISSUING is never recorded (08 R151). -/
def Group.savedCode (g : Group) : Nat := if g.state = .issuing then 2 else g.state.code

/-- Page 0 of a group's record (R98, R334). R98 names PHASE and the trap-mode flag at 0x11C without their bits, and the three fields of a
`y` register's 16 bytes without their places: PHASE in [15:0] and the flag in bit 16, and the value in bytes 0 to 7, the sequence number
in bytes 8 and 9 and the pending flag in bit 80, are the model's choice (log 30). -/
def Group.headerData (g : Group) : Nat :=
  layPage
    ([(0x000, 256, ofElems 64 ((List.range 32).map fun i => (g.sreg i).toNat)), (0x100, 8, pathPc g.path0), (0x108, 8, pathPc g.path1),
      (0x110, 4, g.savedCode + g.cob.toNat * 2 ^ 6 + g.maskWord), (0x114, 4, g.mode.toNat), (0x118, 4, g.fpstat.toNat),
      (0x11C, 4, g.phase.toNat + g.trapMode.toNat * 2 ^ 16),
      (0x120, 40, ofElems 64 [g.xpc.toNat, g.xmode.toNat, g.xcause.toNat, g.xaddr.toNat, g.xaux.toNat]),
      (0x148, 8, ofElems 8 ((List.range 8).map fun i => (g.preg i).toNat)),
      (0x150, 32, ofElems 16 ((List.range 16).map fun i => (g.hreg i).toNat)),
      (0x170, 64, ofElems 128 ((List.range 4).map fun i =>
        (g.yreg i).value.toNat + (g.yreg i).seq.toNat * 2 ^ 64 + (g.ygetPending i).toNat * 2 ^ 80))] ++
     [(0x1B0, 32, ofElems 32 ((List.range 8).map fun i => (vget g.gen i 0).toNat)), (0x1D0, 8, g.seed.toNat),
      (0x1D8, 8, g.energy.toNat), (0x1E0, 2, g.depth), (0x1E2, 1, g.pendPhase.toNat + g.pendFp.isSome.toNat * 2),
      (0x1E4, 4, g.phTimer), (0x1E8, 8, (g.pendFp.getD 0).toNat), (0x2C0, 4, pathTags g.path0), (0x2C4, 4, pathTags g.path1),
      (0x2C8, 2, g.splitC.toNat), (0x2D0, 8, arrivalCode g.arrivals.head?),
      (0x300, 128, ofElems 64 ((List.range 16).map fun i => (vget g.cap.shadow i 0).toNat)), (0x380, 8, g.cap.line),
      (0x388, 8, g.cap.ownpc.toNat), (0x390, 2, g.cap.cseq.toNat), (0x392, 1, g.cap.role), (0x393, 1, g.cap.cmode.toNat),
      (0x398, 8, g.cap.cfpc.toNat),
      (0x800, 2048, ofElems 128 ((List.range 128).map fun i => if i < g.kregs then (vget g.k i 0).toNat else 0))])

/-- Page 1 + p of a group's record: its vector registers from 16 p on. -/
def Group.vectorPage (g : Group) (p : Nat) : Nat :=
  ofElems 2048 ((List.range 16).map fun k => if 16 * p + k < g.kregs then (vget g.v (16 * p + k) 0).toNat else 0)

/-- A state code of R151 that a record may hold. -/
def GState.ofCode (n : Nat) : Option GState :=
  match n with
  | 2 => some .ready | 4 => some .waitScore | 5 => some .waitMem | 6 => some .waitBarrier | 7 => some .waitMonitor
  | 8 => some .waitCapsule | 9 => some .trapped | 10 => some .halted | 12 => some .exited | _ => none

/-- A path as a header page holds it. -/
def pathOf (live : Bool) (pc mask tags : Nat) : Option Path :=
  if live then some ⟨BitVec.ofNat 57 pc, BitVec.ofNat 8 mask, BitVec.ofNat 16 tags, BitVec.ofNat 16 (tags / 2 ^ 16)⟩ else none

/-- The barrier arrival record that its 8 bytes hold (16 R310). -/
def arrivalOf (x : Nat) (trap : Bool) : List Arrived :=
  if x / 2 ^ 38 % 2 = 1 then [⟨BitVec.ofNat 32 x, x / 2 ^ 32 % 16, x / 2 ^ 36 % 4, none, trap⟩] else []

/-- A group as page 0 of its record gives it (R98, R100, R334); `g` gives what the record has no place for. -/
def Group.ofHeader (g : Group) (page : Nat) : Group :=
  let f := fun (off n : Nat) => bytesOf page off n
  let code := f 0x110 4
  let v64 := fun (off i : Nat) => BitVec.ofNat 64 (f (off + 8 * i) 8)
  { g with
    s := Vector.ofFn fun i => v64 0 i.val
    path0 := pathOf (code / 2 ^ 4 % 2 == 1) (f 0x100 8) (code / 2 ^ 8) (f 0x2C0 4)
    path1 := pathOf (code / 2 ^ 5 % 2 == 1) (f 0x108 8) (code / 2 ^ 16) (f 0x2C4 4)
    state := if g.savedCode = code % 16 then g.state else (GState.ofCode (code % 16)).getD g.state
    cob := code / 2 ^ 6 % 2 == 1
    mode := BitVec.ofNat 32 (f 0x114 4)
    fpstat := BitVec.ofNat 32 (f 0x118 4)
    phase := BitVec.ofNat 16 (f 0x11C 2)
    trapMode := f 0x11E 1 % 2 == 1
    xpc := BitVec.ofNat 57 (f 0x120 8)
    xmode := BitVec.ofNat 32 (f 0x128 8)
    xcause := BitVec.ofNat 8 (f 0x130 8)
    xaddr := v64 0x138 0
    xaux := v64 0x140 0
    p := Vector.ofFn fun i => BitVec.ofNat 8 (f (0x148 + i.val) 1)
    h := Vector.ofFn fun i => BitVec.ofNat 16 (f (0x150 + 2 * i.val) 1)
    y := Vector.ofFn fun i => ⟨v64 (0x170 + 16 * i.val) 0, BitVec.ofNat 16 (f (0x178 + 16 * i.val) 2)⟩
    gen := Vector.ofFn fun i => BitVec.ofNat 32 (f (0x1B0 + 4 * i.val) 4)
    seed := v64 0x1D0 0
    energy := v64 0x1D8 0
    depth := f 0x1E0 2
    pendPhase := f 0x1E2 1 % 2 == 1
    pendFp := if f 0x1E2 1 / 2 % 2 = 1 then some (v64 0x1E8 0) else none
    phTimer := f 0x1E4 4
    splitC := BitVec.ofNat 16 (f 0x2C8 2)
    arrivals := if f 0x2D0 8 % 2 ^ 39 = arrivalCode g.arrivals.head? then g.arrivals else arrivalOf (f 0x2D0 8) (f 0x11E 1 % 2 == 1)
    cap := { g.cap with
      shadow := Vector.ofFn fun i => v64 (0x300 + 8 * i.val) 0
      line := f 0x380 8
      ownpc := BitVec.ofNat 57 (f 0x388 8)
      cseq := BitVec.ofNat 16 (f 0x390 2)
      role := f 0x392 1
      cmode := f 0x393 1 % 2 == 1
      cfpc := BitVec.ofNat 57 (f 0x398 8) }
    k := Vector.ofFn fun i => if i.val < g.kregs then BitVec.ofNat 128 (f (0x800 + 16 * i.val) 16) else vget g.k i.val 0 }

/-- A group's vector registers as pages 1 to 8 of its record give them: `vec n` is register n's 256 bytes. -/
def Group.ofVectors (g : Group) (vec : Nat → Nat) : Group :=
  { g with v := Vector.ofFn fun i => if i.val < g.kregs then BitVec.ofNat 2048 (vec i.val) else vget g.v i.val 0 }

/-- A group restored from its record (R98, R100). -/
def State.groupOf (s : State) (base a : Nat) (g : Group) : Group :=
  let at' := base + groupPage a * 4096
  { (g.ofHeader (s.read at' 4096)).ofVectors fun n => s.read (at' + 4096 + n * 256) 256 with poison := [] }

/-- The pages of a group's record that hold state: page and data. -/
def groupPages (a : Nat) (g : Group) : List (Nat × Nat) :=
  (groupPage a, g.headerData) :: (List.range ((g.kregs + 15) / 16)).map fun p => (groupPage a + 1 + p, g.vectorPage p)

/-! ### Core records -/

/-- The scratchpad pages of a block (R98): by pool offset from RB. -/
def scratchPages (core rb : Nat) (b : Block) : List (Nat × Nat) :=
  (List.range (b.desc.scr * 16)).map fun k => (corePage core + 1 + (b.scrBase - rb * 65536) / 4096 + k, b.scrBase + k * 4096)

/-- The accumulator pages of slot k: page and first element. -/
def slotPages (core k : Nat) : List (Nat × Nat) := (List.range 4).map fun j => (corePage core + 257 + 4 * k + j, k * 4096 + j * 1024)

/-- The slots that a block's tiles hold on its core. -/
def Core.blockSlots (c : Core) (block : Nat) : List (Nat × AccSlot) :=
  (List.range Config.accSlots).filterMap fun k =>
    let e := vget c.slots k AccSlot.reset
    if e.used && e.block == block then some (k, e) else none

/-- The 1,024 elements of an accumulator page. -/
def Core.accPage (c : Core) (first : Nat) : Nat := ofElems 32 ((List.range 1024).map fun i => (amGet c.acc (first + i)).getD 0)

/-- A block as the core record and the group records hold it; `parked` are the groups saved as they stopped. -/
def State.saveBlock (s : State) (id : Nat) (b : Block) : SavedBlock :=
  let c := s.core b.core
  let cl := (amGet s.clusters b.cluster).getD ⟨b.ctx, b.grid, 0, 1, false, [id], launchBars b.desc⟩
  let parked := match (s.ctx b.ctx).saved.find? fun x => x.id == id with
    | some x => x.groups
    | none => []
  let gone := (s.groups.filter fun ag => ag.2.block == id && ag.2.state == .exited).map (·.2)
  let cmds := ((List.range 4).map fun l => ((c.lacer l).filter fun k => k.block == id).map fun k => (l, k)).flatten
  ⟨id, b, cl, (c.rb, c.sb, c.lb), c.blockSlots id, cmds, parked ++ gone⟩

/-- The agent of a group of a block. -/
def Block.agent (b : Block) (g : Group) : Nat := b.slots.getD g.gid 0

/-- The pages of a saved block that its records give, with where scratchpad and tiles lie on its core. -/
def State.blockPages (s : State) (x : SavedBlock) : List (Nat × Nat) :=
  let c := s.core x.block.core
  (x.groups.map fun g => groupPages (x.block.agent g) g).flatten ++
  (scratchPages x.block.core x.part.1 x.block).map (fun p => (p.1, readLE c.scr p.2 4096)) ++
  ((x.slots.map fun k => slotPages x.block.core k.1).flatten).map fun p => (p.1, c.accPage p.2)

/-- Where the record of a group holds a poisoned register: page and 64-byte sector. -/
def poisonAt (a : Nat) (r : RegAt) : Nat × Nat :=
  match r.file with
  | .scalar => (groupPage a, r.reg * 8 / 64)
  | .pred => (groupPage a, (0x148 + r.reg) / 64)
  | .handle => (groupPage a, (0x150 + 2 * r.reg) / 64)
  | .yreg => (groupPage a, (0x170 + 16 * r.reg) / 64)
  | .scale => (groupPage a, (0x800 + 16 * r.reg) / 64)
  | .vector => (groupPage a + 1 + r.reg / 16, (r.reg % 16 * 256 + 32 * r.lane) / 64)

/-- The sectors of a saved block's pages that take a poisoned value, of a register, of scratchpad or of accumulator memory (22 R405, R406). -/
def State.badSectors (s : State) (x : SavedBlock) : List (Nat × Nat) :=
  let c := s.core x.block.core
  (x.groups.map fun g => g.poison.map (poisonAt (x.block.agent g))).flatten ++
  ((scratchPages x.block.core x.part.1 x.block).map fun p =>
    (c.scrPoison.filter fun q => decide (p.2 ≤ q * 64 ∧ q * 64 < p.2 + 4096)).map fun q => (p.1, (q * 64 - p.2) / 64)).flatten ++
  (((x.slots.map fun k => slotPages x.block.core k.1).flatten).map fun p =>
    (c.accPoison.filter fun e => decide (p.2 ≤ e ∧ e < p.2 + 1024)).map fun e => (p.1, (e - p.2) * 4 / 64)).flatten

/-- Sectors of a save's pages poisoned. -/
def State.taintPages (s : State) (base : Nat) (ks : List (Nat × Nat)) : State :=
  if ks = [] then s else { s with poison := (ks.map fun k => (base + k.1 * 4096) / 64 + k.2).eraseDups ++ s.poison }

/-- The pages that a block owns (R100). -/
def ownedPages (x : SavedBlock) : List Nat :=
  (x.groups.map fun g => (groupPages (x.block.agent g) g).map (·.1)).flatten ++
  (scratchPages x.block.core x.part.1 x.block).map (·.1) ++ ((x.slots.map fun k => slotPages x.block.core k.1).flatten).map (·.1)

/-! ### Values that the spec does not give (log 3) -/

/-- Words that the spec leaves open: `n` of them as one number, from the counter on. -/
def freeWords (at' n : Nat) : Nat := ofElems 64 ((List.range n).map fun k => (Config.freeValue (at' + k)).toNat)

/-- The context header: a copy of the descriptor, then what the spec gives no layout for. -/
def State.headerPage (s : State) (c : Nat) : Nat × State :=
  (s.read (s.ctxDesc c) 256 + freeWords s.freeCtr 480 * 256 ^ 256, { s with freeCtr := s.freeCtr + 480 })

/-- The four bytes of a slot table entry (14 R281); BLOCK is the index of the owner among the blocks of its core. -/
def AccSlot.code (e : AccSlot) (index : Nat) : Nat :=
  if e.used then 1 + e.part % 4 * 2 + e.cls % 8 * 2 ^ 3 + e.first % 32 * 2 ^ 6 + e.binds % 2 ^ 12 * 2 ^ 11 + index % 512 * 2 ^ 23 else 0

/-- A slot's entry of a block as a slot table holds it (14 R281). -/
def AccSlot.ofCode (x block : Nat) : AccSlot :=
  if x % 2 = 1 then ⟨true, x / 2 % 4, x / 2 ^ 3 % 8, x / 2 ^ 6 % 32, x / 2 ^ 11 % 2 ^ 12, block⟩ else AccSlot.reset

/-- The slot table of a core: 32 entries of four bytes (14 R281). -/
def State.slotTable (s : State) (core : Nat) : Nat :=
  let blocks := (s.blocks.filter fun x => x.2.core == core).map (·.1)
  ofElems 32 ((List.range 32).map fun i =>
    let e := vget (s.core core).slots i AccSlot.reset
    e.code ((blocks.idxOf? e.block).getD 0))

/-- Page 0 of a core record: the slot table at 0x800 (14 R281); of the rest R98 names what it holds and gives no layout. -/
def State.recordPage (s : State) (core : Nat) : Nat × State :=
  (patchBytes (freeWords s.freeCtr 512) 0x800 128 (s.slotTable core), { s with freeCtr := s.freeCtr + 512 })

/-- The monitor region of a context: cells and flags by slice and monitor. -/
def State.monitorRegion (s : State) (c : Nat) : Nat :=
  let mine := s.partials.filter fun x => x.1 / 4096 == c
  layPage (mine.map fun x =>
    let slice := x.1 % 256
    let mon := x.1 / 256 % 16
    ((slice * 16 + mon) * 40, 36, x.2.cell % 2 ^ 256 + x.2.flags.toNat * 2 ^ 256))

/-- The pages of the monitor region. -/
def monitorPages (region : Nat) : List (Nat × Nat) := (List.range 40).map fun p => (1 + p, bytesOf region (4096 * p) 4096)

/-- The partials of a monitor page: key, cell and flags, for the cells that start in it. -/
def State.monitorCells (s : State) (base c : Nat) : List (Nat × Partial) :=
  ((List.range 4096).map fun k =>
    let v := s.read (base + 0x1000 + k * 40) 36
    (partialKey c (k % 16) (k / 16), (⟨v % 2 ^ 256, BitVec.ofNat 4 (v / 2 ^ 256)⟩ : Partial))).filter
    fun x => x.2.cell != 0 || x.2.flags != 0

end Sys2Proof.Machine
end

