-- ==== Sys2Proof/Machine/Context.lean ====
section
/-!
DEFINITION. Sys2Proof/Machine/Context.lean: contexts (04): the commands of CTXCMD (R89, R91, R92), draining and parking (R95, R96), reset
(R97), the completion of a save (R96, R98), and restore (R100, R101).
-/

namespace Sys2Proof.Machine

/-! ### Commands (R89, R92) -/

/-- CTXSTS after a command: BUSY falls. -/
def State.ctxResult (s : State) (c code : Nat) : State :=
  { s with ctxSts := (s.ctxSts &&& 16#64) ||| BitVec.ofNat 64 (code * 2 + c % 256 * 2 ^ 8) }

/-- A command on a context, accepted in some states. -/
def State.ctxCmd (s : State) (c : Nat) (states : List CState) (act : State → State) : State :=
  if c < Config.contexts ∧ (s.ctx c).state ∈ states then act s else s.ctxResult c 1

/-- CREATE: the context starts anew; its generation counter goes on (R99). -/
def State.createCtx (s : State) (c : Nat) : State :=
  let gen := (s.ctx c).gen
  ((s.setCtx c { Ctx.reset with gen := gen }).setCtxState c .created).ctxResult c 0

/-- CTXCMD CREATE moves a DESTROYED context to CREATED (R92). -/
def execCtxCreate (ctx : Nat) (s : State) : Out := .next (s.ctxCmd ctx [.destroyed] fun s => s.createCtx ctx)

/-- The fields that LOAD latches from the descriptor at an address (R90). -/
def State.latched (s : State) (x : Ctx) (d : Nat) : Ctx :=
  let w := fun (off : Nat) => s.read64 (d + off)
  { x with nbv := bitsOf (w 0) 9 8, pinVariant := (w 0).getLsbD 10, levels := bitsOf (w 8) 2 0,
           ptroot := bitsOf (w 8) 51 12 * 2 ^ 12, savepa := bitsOf (w 0x10) 51 21 * 2 ^ 21, tvec := w 0x20, cvec := w 0x28,
           spill := w 0x30, montab := w 0x38, wptab := w 0x40, d1 := bitsOf (w 0x48) 31 0, d2 := bitsOf (w 0x48) 63 32,
           bwdog := bitsOf (w 0x50) 31 0, vwait := bitsOf (w 0x50) 63 32, seed0 := w 0x58 }

/-- [base, base + SaveBytes) lies in the populated part of one HBM stack of a live compute die: a stack is half of the window of a
die (R21, R91). -/
def State.inOneStack (s : State) (base : Nat) : Bool :=
  s.isHbm base && s.isHbm (base + Config.saveBytes - 1) && base / 2 ^ 37 == (base + Config.saveBytes - 1) / 2 ^ 37

/-- What LOAD refuses (R91). -/
def State.loadBad (s : State) (x : Ctx) : Bool :=
  decide (x.nbv = 0 ∨ x.nbv = 3 ∨ x.levels = 0 ∨ 5 < x.levels ∨ x.d2 < 4096) || !(s.isHbm x.ptroot) || !(s.inOneStack x.savepa)

/-- LOAD. -/
def State.loadCtx (s : State) (c : Nat) : State :=
  let x := s.latched (s.ctx c) (s.ctxDesc c)
  if s.loadBad x then s.ctxResult c 2 else ((s.setCtx c x).setCtxState c .loaded).ctxResult c 0

/-- CTXCMD LOAD checks and latches a context descriptor (R91). -/
def execCtxLoad (ctx : Nat) (s : State) : Out := .next (s.ctxCmd ctx [.created] fun s => s.loadCtx ctx)

/-- A context in an active slot (R92). -/
def State.activeCount (s : State) : Nat := (s.ctxs.filter fun x => x.2.active).length

/-- A context enters PARKING (R96). -/
def State.startPark (s : State) (c : Nat) : State := (s.setCtxState c .parking).updCtx c fun x => { x with dcnt := 0, sealed := true }

/-- A block of a context is resident or launching. -/
def State.hasBlocks (s : State) (c : Nat) : Bool := s.blocks.any fun x => x.2.ctx == c

/-- DRAIN. -/
def State.drainCtx (s : State) (c : Nat) : State :=
  let s := if s.hasBlocks c then (s.setCtxState c .draining).updCtx c fun x => { x with dcnt := 0 } else s.startPark c
  s.ctxResult c 0

/-- CTXCMD DRAIN starts tier 1 pre-emption, or tier 2 if no block is resident (R95). -/
def execCtxDrain (ctx : Nat) (s : State) : Out := .next (s.ctxCmd ctx [.running] fun s => s.drainCtx ctx)

/-- CTXCMD PARK starts tier 2 pre-emption (R96). -/
def execCtxPark (ctx : Nat) (s : State) : Out := .next (s.ctxCmd ctx [.running, .draining] fun s => (s.startPark ctx).ctxResult ctx 0)

/-! ### Reset (R97) -/

/-- The nodes that a reset of a context faults: those with a block resident or saved (R97), and those whose grid has not ended
(07 R149); graph and node. -/
def State.blockNodes (s : State) (c : Nat) : List (Nat × Nat) :=
  let grids := (s.blocks.filter fun x => x.2.ctx == c).map (fun x => x.2.grid) ++ (s.ctx c).saved.map (fun x => x.block.grid) ++
    (s.grids.filter fun x => x.2.ctx == c && x.2.state != .ended).map (·.1)
  (grids.filterMap fun k => (amGet s.grids k).map fun g => (g.graph, g.node)).eraseDups

/-- Tier 3: every block of the context is discarded, its nodes fault with RESET, its partials are zeroed, its save is
abandoned. -/
def State.startReset (s : State) (c : Nat) : State :=
  let nodes := s.blockNodes c
  let s := s.setCtxState c .resetting
  let s := s.updCtx c fun x => { x with saved := [], restoring := false, bcast := false, resumeDue := false }
  let s := nodes.foldl (fun s n => s.nodeFault n.1 n.2 0x42) s
  { s with
    blocks := amMap (fun _ b => if b.ctx = c then { b with discarding := true } else b) s.blocks
    partials := s.partials.filter fun x => x.1 / 4096 != c }

/-- CTXCMD RESET starts tier 3 and discards the context's groups (R97). -/
def execCtxReset (ctx : Nat) (s : State) : Out := .next (s.ctxCmd ctx [.running, .draining, .parking, .parked, .faulted] fun s => (s.startReset ctx).ctxResult ctx 0)

/-- A reset has left nothing of the context resident. -/
def State.canEndReset (s : State) (c : Nat) : Bool := (s.ctx c).state == .resetting && !(s.hasBlocks c)

/-- The end of a reset: what writes of the discarded blocks have counted since is zeroed as well. -/
def State.endReset (s : State) (c : Nat) : State :=
  { (s.updCtx c fun x => { x with active := false, noFire := false, sealed := false }).setCtxState c .loaded with
    partials := s.partials.filter fun x => x.1 / 4096 != c }

/-- The tier 3 reset completes and the context returns to LOADED (R97). -/
def execResetComplete (ctx : Nat) (s : State) : Out := .next (if s.canEndReset ctx then s.endReset ctx else s)

/-- DESTROY: the queues of the context close (05 R112), and its graphs and launches end with it. -/
def State.destroyCtx (s : State) (c : Nat) : State :=
  let mine := s.queues.filter fun x => x.2.isOpen && x.2.ctx == c
  let s := mine.foldl (fun s x => s.closeQueue x.1) s
  let s := { s.updCtx c fun x => { x with saved := [] } with
    queues := amMap (fun _ (q : Queue) => if q.ctx = c then { q with entry := none, flying := none } else q) s.queues
    recWrites := s.recWrites.filter fun w => w.1 != c }
  let graphs := s.graphs.filter fun x => x.2.ctx == c
  let s := { s with
    graphs := s.graphs.filter fun x => x.2.ctx != c
    grids := s.grids.filter fun x => x.2.ctx != c
    watches := s.watches.filter fun w => match w.kind with
      | .node g _ => !(graphs.any fun x => x.1 == g)
      | _ => true }
  (s.setCtxState c .destroyed).ctxResult c 0

/-- CTXCMD DESTROY abandons the context and closes its queues (R92). -/
def execCtxDestroy (ctx : Nat) (s : State) : Out := .next (s.ctxCmd ctx [.created, .loaded, .parked] fun s => s.destroyCtx ctx)

/-! ### Deadlines (R92) -/

/-- D1 has run out. -/
def State.canD1 (s : State) (c : Nat) : Bool :=
  let x := s.ctx c
  x.state == .draining && x.d1 != 0 && decide (x.d1 ≤ x.dcnt)
/-- D2 has run out. -/
def State.canD2 (s : State) (c : Nat) : Bool :=
  let x := s.ctx c
  x.state == .parking && decide (x.d2 ≤ x.dcnt)

/-- The drain deadline expires and DRAINING moves to PARKING (R92). -/
def execD1Expire (ctx : Nat) (s : State) : Out := .next (if s.canD1 ctx then s.startPark ctx else s)

/-- The park deadline expires and PARKING moves to RESETTING (R92). -/
def execD2Expire (ctx : Nat) (s : State) : Out := .next (if s.canD2 ctx then s.startReset ctx else s)

/-! ### Park (R96) -/

/-- A read or atomic that a group has sent to a host or peer is not answered yet. -/
def State.awaitsAnswer (s : State) (a : Nat) : Bool := s.extReqs.any fun r => r.agent == a && !r.write && r.reply.isNone

/-- A group at a run boundary of a context that is being parked; a HALTED group is at one unless it is inside a capsule step or its word is
under way at a host or peer, and the Cobbler's between its runs. A read or atomic that it has sent to a host or peer completes first (R96,
step 2); a HALTED group reads again once it goes on. -/
def State.canPark (s : State) (a : Nat) : Bool :=
  match s.grp a with
  | none => false
  | some g =>
    (s.ctx (s.groupCtx g)).state == .parking && s.liveCd.getLsbD (dieOf (coreOf a)) &&
    (s.atBoundary a g || (g.state == .halted && g.entry.isNone && !(s.issue.contains a) && !g.midStep && g.exts == [] && g.going == [])) &&
    (if g.state == .halted && !g.cobRun then !(s.awaitsAnswer a) else !(s.askedOf a))

/-- The group as its record holds it: its `vred` results have landed. -/
def Group.stopped (g : Group) : Group :=
  let g := g.landAll
  { g with exts := [], runWords := 0, promo := 0, woke := false, yielded := false }

/-- The group is saved and PARKED: its open capsule is marked, its watches and requests are dropped. -/
def State.parkGroup (s : State) (a : Nat) : State :=
  match s.grp a with
  | none => s
  | some g =>
    match s.blk g.block with
    | none => s
    | some b =>
      let s := ((s.accDrain b.core).drainCore b.core).mark a
      let s := (s.dropWaits a).leaveSlot a
      let kept := g.stopped
      let saved := (s.ctx b.ctx).saved
      let old := match saved.find? fun x => x.id == g.block with
        | some x => x
        | none => { s.saveBlock g.block b with groups := [] }
      let new := { old with groups := old.groups ++ [kept] }
      let s := s.updCtx b.ctx fun c => { c with saved := (saved.filter fun x => x.id != g.block) ++ [new] }
      { s.setGrp a { kept with state := .parked, dep := none } with arrivals := s.arrivals.filter fun h => h.agent != a || decide (2 ≤ h.act.rank) }

/-- A group reaches its run boundary during a park and is saved (R96). -/
def execGroupParkStop (agent : Nat) (s : State) : Out := .next (if s.canPark agent then s.parkGroup agent else s)

/-- The stop records of a context are written (21 R392). -/
def State.stopsRecorded (s : State) (c : Nat) : Bool :=
  !(s.stopRecs.any fun r => (s.grp r.agent).any fun g => s.groupCtx g == c)

/-- Every core and slice of a context can be saved: its groups are parked, no launch, check or apply of a log is in progress, its stop
records are written and no link or host holds its cores' writes back; its Lacers are at command boundaries between any two units (12 R261).
A dump in progress ends first (21 R396). -/
def State.canSave (s : State) (c : Nat) : Bool :=
  (s.ctx c).state == .parking &&
  (s.blocks.all fun x => x.2.ctx != c ||
    (!x.2.launching && !x.2.discarding &&
      (s.groups.all fun ag => ag.2.block != x.1 || ag.2.state == .parked || ag.2.state == .exited))) &&
  !(s.checks.any fun k => k.ctx == c) && !(s.capLogs.any fun k => k.ctx == c) && (s.ctx c).dumping.isNone && s.stopsRecorded c &&
  s.blocks.all fun x => x.2.ctx != c || s.drained x.2.core || s.drainable x.2.core

/-- The save completes: every page of the context's records is written with its tag, GEN goes up, the cores are freed, and the
context is PARKED. Blocks that a restore had not yet returned keep their pages, under tags of the new generation. -/
def State.save (s : State) (c : Nat) : State :=
  let mine := s.blocks.filter fun x => x.2.ctx == c
  let s := (mine.map fun x => x.2.core).eraseDups.foldl (fun s k => (s.accDrain k).drainCore k) s
  let saved := mine.map fun x => s.saveBlock x.1 x.2
  let left := (s.ctx c).saved.filter fun x => !(mine.any fun y => y.1 == x.id)
  let base := (s.ctx c).savepa
  let gen := (s.ctx c).gen + 1
  let s := (s.updCtx c fun x => { x with gen := gen }).write64 (s.ctxDesc c + 0x18) gen
  let header := s.headerPage c
  let records := (mine.map fun x => x.2.core).eraseDups
  let rec0 := records.foldl (fun (acc : List (Nat × Nat) × State) k =>
    let r := acc.2.recordPage k
    (acc.1 ++ [(corePage k, r.1)], r.2)) ([], header.2)
  let s := rec0.2
  let pages := (0, header.1) :: (monitorPages (s.monitorRegion c) ++ rec0.1 ++ (saved.map s.blockPages).flatten)
  let bad := (saved.map s.badSectors).flatten
  let s := (pages.foldl (fun s p => (s.putPage base p.1 p.2).putTag base c p.1 gen) s).taintPages base bad
  let s := (left.map fun x => corePage x.block.core :: ownedPages x).flatten.foldl (fun s p => s.putTag base c p gen) s
  let s := mine.foldl (fun s x => s.freeBlock x.1) s
  let s := { s with partials := s.partials.filter fun x => x.1 / 4096 != c }
  (s.updCtx c fun x => { x with saved := saved ++ left, restoring := false, active := false }).setCtxState c .parked

/-- Every core and slice has saved; GEN is written and the context is PARKED (R96). -/
def execSaveComplete (ctx : Nat) (s : State) : Out := .next (if s.canSave ctx then s.save ctx else s)

/-! ### Restore (R100, R101) -/

/-- The cells of the monitor region loaded; those of a bad page are INVALID. R100 does not say what becomes of a cell and flags that lie in
two pages of which one is bad: the model makes them INVALID (its choice, log 31). -/
def State.loadMonitors (s : State) (c : Nat) : State :=
  let base := (s.ctx c).savepa
  let gen := (s.ctx c).gen
  let bad := (monitorPages 0).filterMap fun p => if s.pageOk base c p.1 gen then none else some p.1
  let good := (s.monitorCells base c).filter fun x =>
    let at' := (x.1 % 256 * 16 + x.1 / 256 % 16) * 40
    !(bad.contains (1 + at' / 4096)) && !(bad.contains (1 + (at' + 35) / 4096))
  let lost := ((List.range 4096).filter fun k =>
    bad.contains (1 + k * 40 / 4096) || bad.contains (1 + (k * 40 + 35) / 4096)).map fun k =>
      (partialKey c (k % 16) (k / 16), (⟨cellInvalid, 0⟩ : Partial))
  { s with partials := (good ++ lost).foldl (fun ps x => amSet ps x.1 x.2) s.partials }

/-- A saved block that restore loses for a page of its own or its core record's first page. -/
def State.pagesBad (s : State) (c : Nat) (x : SavedBlock) : Bool :=
  let base := (s.ctx c).savepa
  let gen := (s.ctx c).gen
  !(s.pageOk base c (corePage x.block.core) gen) || (ownedPages x).any fun p => !(s.pageOk base c p gen)

/-- Blocks are lost with their clusters, and their nodes fault with RESTORE_CORRUPT, which discards what else they saved
(R101, 06 R128). -/
def State.loseBlocks (s : State) (c : Nat) : State :=
  let saved := (s.ctx c).saved
  let bad := saved.filter (s.pagesBad c)
  let hit := saved.filter fun x => bad.any fun y => y.block.cluster == x.block.cluster
  let nodes := (hit.filterMap fun x => (amGet s.grids x.block.grid).map fun k => (k.graph, k.node)).eraseDups
  let s := s.updCtx c fun x =>
    { x with saved := x.saved.filter fun y => !(hit.any fun z => z.block.grid == y.block.grid) }
  nodes.foldl (fun s n => s.nodeFault n.1 n.2 cRestoreCorrupt) s

/-- RUN from PARKED: the header page, the monitor region, then the losses; the surviving blocks are reloaded next. -/
def State.restore (s : State) (c : Nat) : State :=
  let x := s.ctx c
  if s.pageOk x.savepa c 0 x.gen then
    let s := s.updCtx c fun x => { x with active := true, restoring := true }
    let s := (s.loadMonitors c).setCtxState c .running
    s.loseBlocks c
  else
    let s := s.updCtx c fun x => { x with active := true, fcause := 0x19, fdetail := 0 }
    (s.write64 (s.ctxDesc c + 0x60) 0x19).setCtxState c .faulted

/-- RUN. -/
def State.runCtx (s : State) (c : Nat) : State :=
  if Config.activeSlots ≤ s.activeCount then s.ctxResult c 3
  else
    let s := s.updCtx c fun x => { x with sealed := false }
    if (s.ctx c).state = .parked then (s.restore c).ctxResult c 0
    else ((s.updCtx c fun x => { x with active := true }).setCtxState c .running).ctxResult c 0

/-- CTXCMD RUN activates a context, restoring it first if it was parked (R92). -/
def execCtxRun (ctx : Nat) (s : State) : Out := .next (s.ctxCmd ctx [.loaded, .parked] fun s => s.runCtx ctx)

/-- A group as it resumes after a restore: what it waited for is tested again (08 R152), and an open capsule is entered again first
(17 R340). -/
def Group.restored (g : Group) (now : Nat) : Group :=
  let again := g.cap.role != 0 && g.cap.cmode == g.trapMode && (g.state != .halted || g.cobRun)
  let waits := g.state.waits || (g.dep.isSome && g.trapMode)
  { g with
    readyClk := now
    acqClk := now
    waitClk := now
    cap := { g.cap with reenter := again, stores := [], words := 0 }
    state := if again && !g.trapMode then .waitCapsule else g.state
    dep := if again then some .watch else
      match g.dep with
      | some (.arm k w) => some (.arm k w)
      | _ => if waits then some .again else none }

/-- A saved block may return to its core: no block of another context is resident there. On a block whose die has gone out of service since
the park R100 is silent: its restore waits, and ends by RESET or PARK alone (the model's choice, log 40). -/
def State.canReturnTo (s : State) (c : Nat) (x : SavedBlock) : Bool :=
  s.liveCd.getLsbD (dieOf x.block.core) && (s.coreBlocks x.block.core).all fun b => b.ctx == c

/-- A block's scratchpad pages and tiles loaded into its core. -/
def State.loadPages (s : State) (c : Nat) (x : SavedBlock) : State :=
  let base := (s.ctx c).savepa
  let s := (scratchPages x.block.core x.part.1 x.block).foldl
    (fun s p => s.scrWrite x.block.core p.2 4096 (s.read (base + p.1 * 4096) 4096)) s
  ((x.slots.map fun k => slotPages x.block.core k.1).flatten).foldl (fun s p =>
    let v := s.read (base + p.1 * 4096) 4096
    s.updCore x.block.core fun k =>
      { k with acc := (List.range 1024).foldl (fun m i => accPut m (p.2 + i) (elem v 32 i)) k.acc
               accPoison := k.accPoison.filter fun e => !(decide (p.2 ≤ e ∧ e < p.2 + 1024)) }) s

/-- A block is resident again: on the same core, in the same slots, at the same pool offsets, as the pages of its records hold it (what
they have no layout for is as it was saved, log 3); the commands of a Lacer are in the order of their acceptance (12 R261). -/
def State.reload (s : State) (c : Nat) (x : SavedBlock) : State :=
  let b := x.block
  let now := s.clk.toNat
  let base := (s.ctx c).savepa
  let table := base + corePage b.core * 4096 + 0x800
  let s := s.updCore b.core fun k =>
    let k := k.pass c s.clk
    { k with rb := x.part.1, sb := x.part.2.1, lb := x.part.2.2, l1 := [], recut := [],
             slots := x.slots.foldl (fun v e => vset v e.1 (AccSlot.ofCode (s.read (table + 4 * e.1) 4) x.id)) k.slots,
             lacers := Vector.ofFn fun (l : Fin 4) =>
               sortBy (fun p q => decide (p.seq ≤ q.seq)) (vget k.lacers l.val [] ++ (x.cmds.filter fun e => e.1 == l.val).map (·.2)) }
  let s := s.loadPages c x
  let s := { s with
    blocks := amSet s.blocks x.id b
    clusters := if (amGet s.clusters b.cluster).isSome then s.clusters else amSet s.clusters b.cluster x.cluster
    groups := x.groups.foldl (fun m g => amSet m (b.agent g) ((s.groupOf base (b.agent g) g).restored now)) s.groups }
  s.updCtx c fun k => { k with saved := k.saved.filter fun y => y.id != x.id }

/-- A restore goes on: a block can return, or none is left to return. -/
def State.canReload (s : State) (c : Nat) : Bool :=
  let x := s.ctx c
  x.restoring && (x.state == .running || x.state == .draining) && (x.saved == [] || x.saved.any (s.canReturnTo c))

/-- One block returns, where its pages are still good (a block that has waited for its core is tested again); without one the restore is
complete. -/
def State.reloadNext (s : State) (c : Nat) : State :=
  match (s.ctx c).saved.find? (s.canReturnTo c) with
  | some x => if s.pagesBad c x then s.loseBlocks c else s.reload c x
  | none => if (s.ctx c).saved == [] then (s.updCtx c fun k => { k with restoring := false }).drainEnd c else s

/-- A reserved core, freed by another context's blocks, receives the restoring blocks (R100). -/
def execRestoreReload (ctx : Nat) (s : State) : Out := .next (if s.canReload ctx then s.reloadNext ctx else s)

end Sys2Proof.Machine
end

