-- ==== Sys2Proof/Machine/Conv.lean ====
section
/-!
DEFINITION. Sys2Proof/Machine/Conv.lean: conversions between types, MX blocks and exact cells (10 R213 to R216), and the scale
instructions (R217).
-/

namespace Sys2Proof.Machine

/-! ### Spans (R213) -/

/-- The source and destination spans of a conversion lie below the count. -/
def convSpans (i : Iss) : Bool :=
  let n := convCount i.et i.et2
  spanFits i.g.kregs i.x.a (regsFor i.et n) && spanFits i.g.kregs i.x.d (regsFor i.et2 n)

/-- The elements of a lane of a span of r registers from `vA`. -/
def Iss.spanElems (i : Iss) (l r : Nat) : List Nat :=
  ((List.range r).map fun k => elems i.et (i.g.vlane (i.x.a + k) l)).flatten

/-- Registers of a span written in one lane from a list of elements of a type. -/
def putSpan (et d l : Nat) (g : Group) (xs : List Nat) : Nat → Group
  | 0 => g
  | r + 1 =>
    let n := etCount et
    putSpan et d l (g.setV (d + r) l (ofElems (etBits et) ((xs.drop (n * r)).take n))) xs r

/-- One element converted, with its flags and the generator after. -/
abbrev ConvOp := BitVec 32 → Nat → Nat × FpFlags × BitVec 32

/-- A conversion of the spans, lane by lane (R213), or FP_EXCEPTION (02 R49). -/
def convert (f : Iss → Nat → Nat → ConvOp) (s : State) (i : Iss) : Res :=
  let n := convCount i.et i.et2
  let outs := (lanesOf i.g.active).map fun l =>
    (l, ((i.spanElems l (regsFor i.et n)).zip (List.range n)).foldl
      (fun (acc : List Nat × FpFlags × BitVec 32) xk =>
        let r := f i l xk.2 acc.2.2 xk.1
        (acc.1 ++ [r.1], acc.2.1 ||| r.2.1, r.2.2)) ([], 0, vget i.g.gen l 0))
  match fpTrap i.g.fpstat (outs.map fun o => (o.1, o.2.2.1)) with
  | some aux => .trap s cFpException 0 aux
  | none =>
    i.fin (s.updGrp i.agent fun g =>
      let g := { g with fpstat := addFlags g.fpstat (orFlags (outs.map fun o => o.2.2.1)) }
      outs.foldl
        (fun g o => { (putSpan i.et2 i.x.d o.1 g o.2.1 (regsFor i.et2 n)) with gen := vset g.gen o.1 o.2.2.2 }) g)

/-- A destination that holds every value of a source format (02 R52). -/
def holdsAll (et et2 : Nat) : Bool :=
  (isMx et && isWide et2) || ((et == 9 || et == 10) && (et2 == 11 || et2 == 12)) || (et == 11 && et2 == 12)

/-- `fcvt` of one element (02 R52): exact widening sets no flag, but draws as every element does. -/
def fcvtOp (i : Iss) (_l _k : Nat) : ConvOp := fun gen x =>
  let m := i.g.mode
  if holdsAll i.et i.et2 then
    let r := roundDraw (etFmt i.et2) (modeRm m) false false gen (i.val x)
    (r.1, 0, r.2.2)
  else roundDraw (etFmt i.et2) (modeRm m) (modeSat m) (modeFz m) gen (i.val x)

/-- `ftoi` of one element (02 R52): the source is read as it stands. -/
def ftoiOp (i : Iss) (_l _k : Nat) : ConvOp := fun gen x =>
  let rm := modeRm i.g.mode
  let gen1 := if rm = rmRSR then stepGenerator gen else gen
  let r := toInt (etBits i.et2) rm gen1.toNat ((etFmt i.et).decode x)
  (r.1, r.2, gen1)

/-- `itof` of one element (02 R52). -/
def itofOp (i : Iss) (_l _k : Nat) : ConvOp := fun gen x =>
  roundDraw (etFmt i.et2) (modeRm i.g.mode) (modeSat i.g.mode) false gen (XVal.ofInt (sgOf (etBits i.et) x))

/-- `fcvt` accepts any two float types. -/
def fcvtOk (i : Iss) : Bool := isFloat i.et && isFloat i.et2 && rmOk i && convSpans i
/-- `ftoi`: a float and an integer type. -/
def ftoiOk (i : Iss) : Bool := isFloat i.et && isInt i.et2 && rmOk i && convSpans i
/-- `itof`: an integer and a float type. -/
def itofOk (i : Iss) : Bool := isInt i.et && isFloat i.et2 && rmOk i && convSpans i

/-- Float to float conversion (R213). -/
def execFcvt (e : Bool) (d : BitVec 7) (a : BitVec 7) (s : State) : Out :=
  issueWord (insnA 0x1A0 (sigA .vector .vector .zero) e d a 0) fcvtOk (convert fcvtOp) s

/-- Float to integer conversion (R213). -/
def execFtoi (e : Bool) (d : BitVec 7) (a : BitVec 7) (s : State) : Out :=
  issueWord (insnA 0x1A1 (sigA .vector .vector .zero) e d a 0) ftoiOk (convert ftoiOp) s

/-- Integer to float conversion (R213). -/
def execItof (e : Bool) (d : BitVec 7) (a : BitVec 7) (s : State) : Out :=
  issueWord (insnA 0x1A2 (sigA .vector .vector .zero) e d a 0) itofOk (convert itofOp) s

/-! ### MX blocks (R214, R215) -/

/-- `mxq`: FP32, BF16 or FP16 to an MX type, with the source span below the count. -/
def mxqOk (i : Iss) : Bool :=
  (i.et == 9 || i.et == 10 || i.et == 11) && isMx i.et2 && spanFits i.g.kregs i.x.a (etCount i.et2 / etCount i.et)

/-- The blocks of a lane quantised: scale bytes and elements (02 R57). -/
def quantBlocks (F : Fmt) (f c : XVal) : Nat → List XVal → List Nat × List Nat
  | 0, _ => ([], [])
  | n + 1, xs =>
    let q := quantiseBlock F f c (xs.take 32)
    let r := quantBlocks F f c n (xs.drop 32)
    (q.1 :: r.1, q.2 ++ r.2)

/-- `mxq`: a clip that is NaN or negative, −0 excepted, is refused. -/
def mxqBody (s : State) (i : Iss) : Res :=
  let f := Fmt.decode .fp32 (i.sb.toNat % 2 ^ 32)
  let c := Fmt.decode .fp32 (i.sb.toNat / 2 ^ 32)
  let n := etCount i.et2
  if c.isNan || (c.neg? && !c.isZero) then i.illegal s
  else
    let lane := fun l =>
      quantBlocks (etFmt i.et2) f c (n / 32) ((i.spanElems l (n / etCount i.et)).map (etFmt i.et).decode)
    i.fin (s.updGrp i.agent fun g =>
      (lanesOf i.g.active).foldl
        (fun g l => (g.setV i.x.d l (ofElems (etBits i.et2) (lane l).2)).setK i.x.d l (ofElems 8 (lane l).1)) g)

/-- `mxdq`: an MX type to FP32, BF16 or FP16. -/
def mxdqOk (i : Iss) : Bool :=
  isMx i.et && (i.et2 == 9 || i.et2 == 10 || i.et2 == 11) && rmOk i && convSpans i

/-- `mxdq` of one element: its block's scale byte (02 R40, R41). -/
def mxdqOp (i : Iss) (l k : Nat) : ConvOp := fun gen x =>
  let m := i.g.mode
  roundDraw (etFmt i.et2) (modeRm m) (modeSat m) (modeFz m) gen
    (mxValue (etFmt i.et) (elem (i.g.klane i.x.a l) 8 (k / 32)) x)

/-- Quantise into MX blocks with scales (R214). -/
def execMxq (e : Bool) (d : BitVec 7) (a : BitVec 7) (b : BitVec 7) (s : State) : Out :=
  issueWord (insnA 0x1A3 (sigA .vector .vector .scalar) e d a b) mxqOk mxqBody s

/-- Dequantise MX blocks (R215). -/
def execMxdq (e : Bool) (d : BitVec 7) (a : BitVec 7) (s : State) : Out :=
  issueWord (insnA 0x1A4 (sigA .vector .vector .zero) e d a 0) mxdqOk (convert mxdqOp) s

/-! ### Exact cells (R216) -/

/-- `xcvt` to FP32 or FP64. -/
def xcvtOk (i : Iss) : Bool := (i.et2 == 11 || i.et2 == 12) && rmOk i

/-- `xcvt`. -/
def xcvtBody (s : State) (i : Iss) : Res :=
  let m := i.g.mode
  let lane := fun l =>
    let gen := vget i.g.gen l 0
    let step := modeRm m = rmRSR ∧ i.va l ≠ cellInvalid
    let gen1 := if step then stepGenerator gen else gen
    let r := cellToFloat (i.va l) (etFmt i.et2) (modeRm m) (modeSat m) gen1.toNat
    (l, LaneOut.mk r.1 r.2 gen1)
  i.floatOut s ((lanesOf i.g.active).map lane) fun g l v => g.setV i.x.d l v

/-- Convert an exact cell to float (R216). -/
def execXcvt (e : Bool) (d : BitVec 7) (a : BitVec 7) (s : State) : Out :=
  issueWord (insnA 0x1A9 (sigA .vector .vector .zero) e d a 0) xcvtOk xcvtBody s

/-! ### Scale registers (R217) -/

/-- `kget`. -/
def kgetBody (s : State) (i : Iss) : Res := i.vecOut s fun l => i.g.klane i.x.a l

/-- Scale registers written in each active lane. -/
def Iss.scaleOut (i : Iss) (s : State) (f : Nat → Nat) : Res :=
  i.fin (s.updGrp i.agent fun g => (lanesOf i.g.active).foldl (fun g l => g.setK i.x.d l (f l)) g)

/-- `kset`. -/
def ksetBody (s : State) (i : Iss) : Res := i.scaleOut s fun l => i.va l % 2 ^ 16

/-- Both scale bytes of a lane. -/
def onBytes (f : Nat → Nat → Nat) (a b : Nat) : Nat := f (a % 256) (b % 256) + f (a / 256) (b / 256) * 256

/-- `kadd`: b outside −254 to 254 is refused at step 7. -/
def kaddBody (s : State) (i : Iss) : Res :=
  let b := i.sb.toInt
  if b < -254 ∨ 254 < b then i.illegal s
  else
    i.scaleOut s fun l =>
      onBytes (fun x _ => if x = 255 then 255 else (max 0 (min 254 ((x : Int) + b))).toNat) (i.g.klane i.x.a l) 0

/-- `kmax`. -/
def kmaxBody (s : State) (i : Iss) : Res :=
  i.scaleOut s fun l => onBytes (fun x y => max x y) (i.g.klane i.x.a l) (i.g.klane i.x.b l)

/-- Move a scale register into a vector register (R217). -/
def execKget (e : Bool) (d : BitVec 7) (a : BitVec 7) (s : State) : Out :=
  issueWord (insnA 0x1A5 (sigA .vector .vector .zero) e d a 0) always kgetBody s

/-- Move a vector register into a scale register (R217). -/
def execKset (e : Bool) (d : BitVec 7) (a : BitVec 7) (s : State) : Out :=
  issueWord (insnA 0x1A6 (sigA .vector .vector .zero) e d a 0) always ksetBody s

/-- Add to scale exponents, saturating (R217). -/
def execKadd (e : Bool) (d : BitVec 7) (a : BitVec 7) (b : BitVec 7) (s : State) : Out :=
  issueWord (insnA 0x1A7 (sigA .vector .vector .scalar) e d a b) always kaddBody s

/-- Maximum of scale bytes (R217). -/
def execKmax (e : Bool) (d : BitVec 7) (a : BitVec 7) (b : BitVec 7) (s : State) : Out :=
  issueWord (insnA 0x1A8 (sigA .vector .vector .vector) e d a b) always kmaxBody s

end Sys2Proof.Machine
end

