-- ==== Sys2Proof/Machine/Debug.lean ====
section
/-!
DEFINITION. Sys2Proof/Machine/Debug.lean: halt broadcasts and the commands of DBGCMD (21 R394, R395), core dumps (R396), and counter
snapshots (R400).
-/

namespace Sys2Proof.Machine

/-- DBGSTS after a command: BUSY falls (R385). -/
def State.dbgResult (s : State) (c code : Nat) : State :=
  { s with dbgSts := (s.dbgSts &&& 16#64) ||| BitVec.ofNat 64 (code * 2 + c % 256 * 2 ^ 8) }

/-- A command of DBGCMD on a context is in progress. -/
def State.dbgBusy (s : State) (c : Nat) : Bool := s.dbgSts.getLsbD 0 && bitsOf s.dbgSts 15 8 == c

/-! ### Halt broadcasts (R394) -/

/-- A group has made its stop; while a dump waits, so has the one that runs the Cobbler once it is at a run boundary. -/
def State.groupStopped (s : State) (a : Nat) (g : Group) (dump : Bool) : Bool :=
  g.state == .parked || g.state == .exited ||
  (g.state == .halted && (!dump || !g.cobRun || (!(s.issue.contains a) && g.entry.isNone && g.exts == [] && !g.midStep)))

/-- An engine is inside node work of a context. -/
def State.engineMoves (s : State) (c : Nat) (x : Engine) : Bool :=
  !x.held && x.current.isNone && (x.unit != 0 || x.entry.isSome) &&
  match x.work.head? with
  | some w => match amGet s.graphs w.1 with
    | some g => g.ctx == c
    | none => false
  | none => false

/-- Every stop of a broadcast of a context has been made and recorded (R392); Lacers are at command boundaries between any two units (12
R261). -/
def State.stopsMade (s : State) (c : Nat) : Bool :=
  let dump := (s.ctx c).dumping.isSome
  (s.groups.all fun ag => s.groupCtx ag.2 != c || s.groupStopped ag.1 ag.2 dump) && s.stopsRecorded c &&
  s.engines.all fun e => !(s.engineMoves c e.2)

/-- A broadcast, or the command that waits for one, can be completed. -/
def State.canBroadcastEnd (s : State) (c : Nat) : Bool :=
  ((s.ctx c).bcast || (s.dbgBusy c && (s.ctx c).dumping.isNone)) && s.stopsMade c

/-- A group halted by `halt` or by a broadcast goes on where it stopped, and enters an open capsule again first (R395, 17 R340). -/
def Group.resumed (g : Group) (now : Nat) : Group :=
  if g.state = .halted ∧ g.cobRun = false ∧ (g.stopCause = 0x20 ∨ g.stopCause = 0x21) then
    let again := g.inStep
    let g := { g with stopCause := 0, readyClk := now, promo := 0, waitClk := now, cap := { g.cap with reenter := again } }
    let g := if again then { g with dep := some .watch } else g
    if g.cob then { g with cobRun := true }
    else if g.trapMode then { g with state := .trapped }
    else if again then { g with state := .waitCapsule }
    else { g with state := .ready }
  else g

/-- RESUME: the groups, the engines and firing go on. -/
def State.resumeCtx (s : State) (c : Nat) : State :=
  let now := s.clk.toNat
  let go := fun (_ : Nat) (g : Group) => if s.groupCtx g = c then g.resumed now else g
  ({ s with groups := amMap go s.groups }).updCtx c fun x => { x with bcast := false, noFire := false, resumeDue := false }

/-- A broadcast completes: a RESUME that waited takes effect, a HALT has done. -/
def State.broadcastEnd (s : State) (c : Nat) : State :=
  let due := (s.ctx c).resumeDue
  let s := s.updCtx c fun x => { x with bcast := false }
  let s := if due then s.resumeCtx c else s
  if s.dbgBusy c && (s.ctx c).dumping.isNone then s.dbgResult c 0 else s

/-! ### Commands (R395) -/

/-- A context in an active slot. -/
def State.isActive (s : State) (c : Nat) : Bool := decide (c < Config.contexts) && (s.ctx c).active

/-- HALT. -/
def State.haltCmd (s : State) (c : Nat) : State := if s.isActive c then s.broadcast c else s.dbgResult c 1

/-- RESUME. -/
def State.resumeCmd (s : State) (c : Nat) : State :=
  if s.isActive c then
    if (s.ctx c).bcast then s.updCtx c fun x => { x with resumeDue := true }
    else (s.resumeCtx c).dbgResult c 0
  else s.dbgResult c 1

/-- The base that DUMPPA names. -/
def State.dumpBase (s : State) : Nat := bitsOf (s.reg 0x0170) 51 21 * 2 ^ 21

/-- DUMP. -/
def State.dumpCmd (s : State) (c : Nat) : State :=
  if s.isActive c && s.inOneStack s.dumpBase then
    (s.broadcast c).updCtx c fun x => { x with dumping := some (s.dumpBase, s.clk) }
  else s.dbgResult c 1

/-- DBGCMD HALT starts a halt broadcast of the context (R395). -/
def execDbgHalt (ctx : Nat) (s : State) : Out := .next (s.haltCmd ctx)

/-- DBGCMD RESUME resumes groups halted with cause 0x20 or 0x21, and the engines (R395). -/
def execDbgResume (ctx : Nat) (s : State) : Out := .next (s.resumeCmd ctx)

/-- Every stop of a halt broadcast has been made (R394). -/
def execBroadcastComplete (ctx : Nat) (s : State) : Out := .next (if s.canBroadcastEnd ctx then s.broadcastEnd ctx else s)

/-- DBGCMD DUMP halts the context and writes a dump in the save-area layout (R396). -/
def execDbgDump (ctx : Nat) (s : State) : Out := .next (s.dumpCmd ctx)

/-! ### The dump (R396) -/

/-- A block with every group of it, as a dump records it. -/
def State.dumpBlock (s : State) (id : Nat) (b : Block) : SavedBlock :=
  { s.saveBlock id b with groups := (s.groups.filter fun ag => ag.2.block == id).map (·.2) }

/-- Page 0 of a dump: the descriptor, CLK at the start and at the end, and the RESULT. -/
def State.dumpHeader (s : State) (c : Nat) (start : BitVec 64) (result : Nat) : Nat × State :=
  (s.read (s.ctxDesc c) 256 + (start.toNat + s.clk.toNat * 2 ^ 64 + result * 2 ^ 128) * 256 ^ 256 +
    freeWords s.freeCtr 477 * 256 ^ 280, { s with freeCtr := s.freeCtr + 477 })

/-- A page of a dump with its tag: zeroes where it was read whole, ones where reading it met an uncorrectable error. -/
def State.dumpPage (s : State) (base i data : Nat) (bad : Bool) : State :=
  (s.putPage base i (if bad then 0 else data)).performBytes none (base + 0xEB000000 + i * 16) 16
    (if bad then 2 ^ 128 - 1 else 0)

/-- A dump may be written: its broadcast is complete, and the Cobbler's group has stopped. -/
def State.canDump (s : State) (c : Nat) : Bool := (s.ctx c).dumping.isSome && !(s.ctx c).bcast && s.stopsMade c

/-- The dump is written, and what waited for its end goes on. -/
def State.dump (s : State) (c : Nat) : State :=
  match (s.ctx c).dumping with
  | none => s
  | some (base, start) =>
    let mine := s.blocks.filter fun x => x.2.ctx == c
    let s := (mine.map fun x => x.2.core).eraseDups.foldl (fun s k => (s.accDrain k).drainCore k) s
    let bad := s.poisoned (s.ctxDesc c) 256
    let blocks := mine.map fun x => s.dumpBlock x.1 x.2
    let poison := ((blocks.map s.badSectors).flatten.map (·.1)).eraseDups
    let result := if bad || !poison.isEmpty then 5 else 0
    let header := s.dumpHeader c start result
    let records := (mine.map fun x => x.2.core).eraseDups
    let rec0 := records.foldl (fun (acc : List (Nat × Nat) × State) k =>
      let r := acc.2.recordPage k
      (acc.1 ++ [(corePage k, r.1)], r.2)) ([], header.2)
    let s := rec0.2
    let pages := monitorPages (s.monitorRegion c) ++ rec0.1 ++ (blocks.map s.blockPages).flatten
    let s := s.dumpPage base 0 header.1 bad
    let s := pages.foldl (fun s p => s.dumpPage base p.1 p.2 (poison.contains p.1)) s
    let s := s.updCtx c fun x => { x with dumping := none }
    let s := { s with
      agenda := match s.heldCmd with
        | some e => e :: s.agenda
        | none => s.agenda
      heldCmd := none }
    s.dbgResult c result

/-- The dump finishes writing and BUSY falls (R396). -/
def execDumpDone (ctx : Nat) (s : State) : Out := .next (if s.canDump ctx then s.dump ctx else s)

/-! ### Snapshots (R400) -/

/-- The clocks of PERFCTL's ticks are 2^K apart. -/
def State.tickLog (s : State) : Nat := bitsOf (s.reg 0x0180) 5 1

/-- This clock is a tick whose snapshot is not yet written. -/
def State.canSnapshot (s : State) : Bool :=
  (s.reg 0x0180).getLsbD 0 && bitsOf (s.reg 0x0180) 31 16 != 0 && s.clk.toNat % 2 ^ s.tickLog == 0 &&
    s.snapClk != s.clk.toNat + 1

/-- The counters that a core has latched written, with device-scope release: at once, unless a link or a host holds back its earlier writes or
a line of the record. -/
def State.putLatch (s : State) (core : Nat) : State :=
  match (s.core core).latch with
  | none => s
  | some (at', data) =>
    if s.drainable core && s.inReach core at' && s.inReach core (at' + 256) then
      ((s.drainCore core).performBytes none at' 512 data).updCore core fun c => { c with latch := none }
    else (s.snoopBack (at' / 256)).snoopBack (at' / 256 + 1)

/-- A core's 64 counters latched; a record that is still to be written is lost, and counted once the counters are latched (log 12). -/
def State.latchCore (s : State) (core : Nat) : State :=
  let t := s.clk.toNat / 2 ^ s.tickLog
  let at' := bitsOf (s.reg 0x0188) 51 12 * 2 ^ 12 + (t % bitsOf (s.reg 0x0180) 31 16 * 192 + core) * 512
  let data := ofElems 64 ((List.range 64).map fun i => (s.counter core i).toNat)
  let s := if (s.core core).latch.isSome then s.countUp core 63 1 else s
  s.updCore core fun c => { c with latch := some (at', data) }

/-- A core's 64 counters latched and their record written, or left to be written (R400). -/
def State.snapCore (s : State) (core : Nat) : State := (s.latchCore core).putLatch core

/-- The records that cores still have to write, tried again. -/
def State.retryLatches (s : State) : State :=
  ((s.cores.filter fun x => x.2.latch.isSome).map (·.1)).foldl State.putLatch s

/-- Every core of a live die writes its record. -/
def State.snapshot (s : State) : State :=
  let s := ((List.range Config.cores).filter fun c => s.liveCd.getLsbD (dieOf c)).foldl State.snapCore s
  { s with snapClk := s.clk.toNat + 1 }

/-- At each tick every core latches its counters and writes a snapshot (R400). -/
def execSnapshotTick (s : State) : Out := .next (if s.canSnapshot then s.snapshot else s)

end Sys2Proof.Machine
end

