-- ==== Sys2Proof/Machine/PageEv.lean ====
section
/-!
DEFINITION. Sys2Proof/Machine/PageEv.lean: the end of a walk (18 R349, R352, R356), invalidations (R354, R355), leases (R359, R360), and
the retirement of a frame (22 R407).
-/

namespace Sys2Proof.Machine

/-! ### Walks (R352) -/

/-- The pointers that a walk passes: their level and the node that each names. -/
def State.walkPointers (s : State) (va : Nat) : Nat → Nat → List (Nat × Nat)
  | 0, _ => []
  | lv + 1, node =>
    let at' := node + levelIndex va (lv + 1) * 8
    let e := s.read64 at'
    if pteState e = 1 ∧ pteLeaf e = false then (lv + 1, pteAddr e) :: s.walkPointers va lv (pteAddr e) else []

/-- The key of a pointer in a pointer cache: context, level, and the part of the address that it maps. -/
def pointerKey (ctx lv va : Nat) : Nat := (ctx * 8 + lv) * 2 ^ 64 + va / 2 ^ levelShift lv

/-- The pointers of a walk entered into the die's pointer cache. -/
def State.fillPointers (s : State) (die ctx va : Nat) : State :=
  let c := s.ctx ctx
  let ps := s.walkPointers va c.levels c.ptroot
  let old := (amGet s.ptrCache die).getD []
  let add := fun (m : List (Nat × Nat)) (p : Nat × Nat) =>
    keepNewest Config.pointerEntries ((m.filter fun x => x.1 != pointerKey ctx p.1 va) ++ [(pointerKey ctx p.1 va, p.2)])
  { s with ptrCache := amSet s.ptrCache die (ps.foldl add old) }

/-- A leaf that TLBs may hold: RESIDENT, SECOND_TIER, HOST, or LEASED under a live lease (R350, R352). -/
def State.cacheable (s : State) (e : BitVec 64) : Bool :=
  match pteState e with
  | 1 => true | 2 => true | 3 => true
  | 4 => s.leaseState (pteLease e) == 1 || s.leaseState (pteLease e) == 2
  | _ => false

/-- A miss has a walker: it is among the 64 of its die that have waited longest (R352). -/
def State.canWalk (s : State) (index : Nat) : Bool :=
  match s.misses[index]? with
  | some m => decide (((s.misses.take index).filter fun x => x.die == m.die).length < Config.walkers)
  | none => false

/-- The walk of a miss ends: the leaf takes A, and D for a write that it grants, and fills the TLBs; then every joined access is
tried again, and takes a fault of the walk for itself. -/
def State.endWalk (s : State) (index : Nat) : State :=
  match s.misses[index]? with
  | none => s
  | some m =>
    let s := { s with misses := s.misses.eraseIdx index }
    match s.walk m.ctx m.va with
    | .fault .. => s
    | .leaf e lv at' =>
      if s.cacheable e then
        let s := s.setAD m.ctx m.va (m.write && e.getLsbD 7)
        let t : TlbEntry := ⟨m.ctx, m.va, lv, s.read64 at'⟩
        m.joined.foldl (fun s j => s.fillTlb j.2 t) (s.fillPointers m.die m.ctx m.va)
      else s

/-- A walk ends, filling TLBs or faulting each joined miss (R352). -/
def execPageWalkDone (index : Nat) (s : State) : Out := .next (if s.canWalk index then s.endWalk index else s)

/-! ### Entries of the lease table (R359) -/

/-- The address of a lease's entry. -/
def State.leaseAt (s : State) (l : Nat) : Nat := bitsOf (s.reg 0x0020) 51 17 * 2 ^ 17 + l * 32
/-- Its first word. -/
def State.leaseWord (s : State) (l : Nat) : BitVec 64 := s.read64 (s.leaseAt l)
/-- ROLE: 1 for a lender. -/
def State.leaseLender (s : State) (l : Nat) : Bool := (s.leaseWord l).getLsbD 2
/-- PEER. -/
def State.leasePeer (s : State) (l : Nat) : Nat := bitsOf (s.leaseWord l) 19 8
/-- PLEASE. -/
def State.leasePlease (s : State) (l : Nat) : Nat := bitsOf (s.leaseWord l) 31 20
/-- NOTICE in clocks (R360). -/
def State.leaseNotice (s : State) (l : Nat) : Nat := bitsOf (s.leaseWord l) 63 32 * 2400
/-- DEADLINE. -/
def State.leaseDeadline (s : State) (l : Nat) : Nat := (s.read64 (s.leaseAt l + 0x18)).toNat

/-- An address in the range of a lease. -/
def State.inLease (s : State) (l pa : Nat) : Bool :=
  decide (s.read (s.leaseAt l + 8) 8 ≤ pa ∧ pa < s.read (s.leaseAt l + 8) 8 + s.read (s.leaseAt l + 16) 8)

/-- The borrower acknowledges the end of a lease to its lender (R360). -/
def State.leaseEnds (s : State) (l : Nat) : State := s.send (.acknowledge (s.leasePeer l) (s.leasePlease l))

/-! ### Invalidations (R354, R355) -/

/-- Entries that satisfy a test dropped from every TLB. -/
def State.dropTlb (s : State) (p : TlbEntry → Bool) : State :=
  { s with cores := amMap (fun _ (c : Core) => { c with tlb := c.tlb.filter fun t => !(p t) }) s.cores,
           dieTlb := amMap (fun _ ts => ts.filter fun t => !(p t)) s.dieTlb }

/-- Pointers of a context dropped from every pointer cache. -/
def State.dropPointers (s : State) (p : Nat → Bool) : State :=
  { s with ptrCache := amMap (fun _ m => m.filter fun x => !(p (x.1 / 2 ^ 67))) s.ptrCache }

/-- Every access made through an entry dropped is performed: the cores' writes, and the logs committed. Those at hosts and peers, and those
that links or a host hold back, are waited for (`settle`). -/
def State.settleAll (s : State) : State :=
  let s := (s.cores.map (·.1)).foldl State.drainCore s
  s.capLogs.foldl State.finishLog s

/-- TLBSTS after a command. -/
def State.tlbDone (s : State) (ctx : Nat) : State :=
  { s with tlbSts := (s.tlbSts &&& 16#64) ||| BitVec.ofNat 64 (ctx % 256 * 2 ^ 8) }

/-- What follows once the requests have been answered. -/
def State.settled (s : State) : Settled → State
  | .tlb ctx => s.tlbDone ctx
  | .lease l => s.leaseEnds l

/-- The requests at hosts and peers that pass a test and are not answered. -/
def State.unanswered (s : State) (p : ExtReq → Bool) : List Nat :=
  (s.extReqs.filter fun r => r.reply.isNone && p r).map (·.id)

/-- What an invalidation has waited for is over: its requests are answered, and the writes that were held back performed (R355). -/
def State.settledBy (s : State) (x : List Nat × List PendWrite × Settled) : Bool :=
  let open' := s.unanswered fun _ => true
  x.1.all (fun n => !(open'.contains n)) && x.2.1.all fun w => !(s.writes.contains w)

/-- What follows once the requests that pass a test are answered and the writes that are still on their way, which were held back, are
performed: at once where there are none (R355). -/
def State.settle (s : State) (p : ExtReq → Bool) (w : Settled) : State :=
  let x := (s.unanswered p, s.writes, w)
  if s.settledBy x then s.settled w else { s with settling := s.settling ++ [x] }

/-- Of what waits, what has nothing left to wait for follows. -/
def State.settleNow (s : State) : State :=
  (s.settling.filter s.settledBy).foldl (fun s x => s.settled x.2.2) { s with settling := s.settling.filter fun x => !(s.settledBy x) }

/-- PAGE. -/
def State.invalidatePage (s : State) (ctx va : Nat) : State :=
  ((s.settleAll.dropTlb fun t => t.maps ctx va).dropPointers fun c => c == ctx)
/-- CONTEXT. -/
def State.invalidateContext (s : State) (ctx : Nat) : State :=
  ((s.settleAll.dropTlb fun t => t.ctx == ctx).dropPointers fun c => c == ctx)
/-- LEASE. -/
def State.invalidateLease (s : State) (lease : Nat) : State :=
  s.settleAll.dropTlb fun t => pteTier t.leaf == 3 && pteLease t.leaf == lease

/-- TLBCMD PAGE drops the entries that map TLBVA (R354). -/
def execTlbInvalidatePage (ctx : Nat) (va : Nat) (s : State) : Out := .next ((s.invalidatePage ctx va).settle (fun r => r.ctx == ctx) (.tlb ctx))

/-- TLBCMD CONTEXT drops every entry and pointer of a context (R354). -/
def execTlbInvalidateContext (ctx : Nat) (s : State) : Out := .next ((s.invalidateContext ctx).settle (fun r => r.ctx == ctx) (.tlb ctx))

/-- TLBCMD LEASE drops every leaf of a lease (R354). -/
def execTlbInvalidateLease (lease : Nat) (s : State) : Out := .next ((s.invalidateLease lease).settle (fun r => s.inLease lease r.pa) (.tlb (bitsOf s.tlbSts 15 8)))

/-! ### Leases (R359, R360) -/

/-- STATE of a lease written. -/
def State.setLease (s : State) (l st : Nat) : State :=
  let s := s.write64 (s.leaseAt l) ((s.leaseWord l &&& ~~~0xFB#64) ||| BitVec.ofNat 64 st)
  { s with revoking := if st = 2 then insertNat l s.revoking else s.revoking.filter fun x => x != l }

/-- A lease enters REVOKING, with its deadline. -/
def State.startRevoke (s : State) (l : Nat) : State :=
  (s.write64 (s.leaseAt l + 0x18) (BitVec.ofNat 64 (s.clk.toNat + s.leaseNotice l))).setLease l 2

/-- Step 4: the borrower's entry is REVOKED, its leaves leave the TLBs, and once every access through the lease is complete the lender is
told. -/
def State.endBorrow (s : State) (l : Nat) : State :=
  ((s.setLease l 3).invalidateLease l).settle (fun r => s.inLease l r.pa) (.lease l)

/-- An ACTIVE lender entry. -/
def State.canRevoke (s : State) (l : Nat) : Bool := decide (l < 4096) && s.leaseLender l && s.leaseState l == 1
/-- A borrower entry in ACTIVE or REVOKING. -/
def State.canReturn (s : State) (l : Nat) : Bool :=
  decide (l < 4096) && !(s.leaseLender l) && (s.leaseState l == 1 || s.leaseState l == 2)
/-- A borrower entry whose notice has ended. -/
def State.canLapse (s : State) (l : Nat) : Bool :=
  decide (l < 4096) && !(s.leaseLender l) && s.leaseState l == 2 && decide (s.leaseDeadline l ≤ s.clk.toNat)
/-- A lender entry whose acknowledgement has not come. -/
def State.canGiveUp (s : State) (l : Nat) : Bool :=
  decide (l < 4096) && s.leaseLender l && s.leaseState l == 2 && decide (s.leaseDeadline l + 2400000 ≤ s.clk.toNat)

/-- LSREV naming a lender entry starts REVOKING and sends the revocation message (R360). -/
def execLeaseRevoke (lease : Nat) (s : State) : Out := .next (if s.canRevoke lease then (s.startRevoke lease).send (.revoke (s.leasePeer lease) (s.leasePlease lease)) else s)

/-- LSREV naming a borrower entry returns the lease early (R360). -/
def execLeaseReturn (lease : Nat) (s : State) : Out := .next (if s.canReturn lease then s.endBorrow lease else s)

/-- The revocation message arrives at the borrower and sets its deadline, and Walolmest is informed (R360). -/
def execRevocationMessage (lease : Nat) (s : State) : Out := .next (if s.canReturn lease && s.leaseState lease == 1 then (s.startRevoke lease).send (.informed lease) else s)

/-- The borrower's deadline arrives: the lease is revoked, invalidated and acknowledged (R360). -/
def execLeaseDeadline (lease : Nat) (s : State) : Out := .next (if s.canLapse lease then s.endBorrow lease else s)

/-- The lender receives the acknowledgement and stops serving the range (R360). -/
def execLeaseAcknowledge (lease : Nat) (s : State) : Out := .next (if decide (lease < 4096) && s.leaseLender lease && (s.leaseState lease == 1 || s.leaseState lease == 2) then s.setLease lease 0 else s)

/-- The lender's DEADLINE plus 2,400,000 clocks passes without an acknowledgement (R360). -/
def execLeaseAckTimeout (lease : Nat) (s : State) : Out := .next (if s.canGiveUp lease then s.setLease lease 0 else s)

/-! ### A frame retired (22 R407, R358) -/

/-- The leaf at an address becomes POISONED, and the cached leaves of its frame are dropped. -/
def State.retireFrame (s : State) (leafPa : Nat) : State :=
  let e := s.read64 leafPa
  if s.isHbm leafPa ∧ leafPa % 8 = 0 ∧ pteState e ≠ 0 ∧ pteLeaf e = true then
    (s.settleAll.write64 leafPa ((e &&& ~~~7#64) ||| 7#64)).dropTlb fun t => pteAddr t.leaf == pteAddr e
  else s

/-- Walolmest retires a frame as POISONED once it has taken 16 corrected errors within 24 hours, or an uncorrectable one that a rewrite does not
clear (R407). -/
def execFrameRetire (frame : Nat × Nat × Bool) (s : State) : Out :=
  .next (if 16 ≤ frame.2.1 ∨ frame.2.2 = true then s.retireFrame frame.1 else s)

end Sys2Proof.Machine
end

