-- ==== Sys2Proof/Machine/Traffic.lean ====
section
/-!
DEFINITION. Sys2Proof/Machine/Traffic.lean: requests on their way (11 R227 to R229, 19 R365, R368), guest lines (11 R223, 19 R369), and
what hosts and peers send (19 R372 to R378, 11 R224, R231), with the freezes of host functions and fabric ports (22 R408).
-/

namespace Sys2Proof.Machine

/-! ### Requests, responses, invalidations (R365, R368, R369) -/

/-- A write on its way that may be performed next: no link of its route (R362, R366) and no host (R374) holds it back, and the order of R229
and R368 lets it. -/
def State.canReq (s : State) (index : Nat) : Bool :=
  match s.writes[index]? with
  | some w => s.homeOpen w.core w.pa && (s.writes.take index).all fun e => s.mayPass w e
  | none => false

/-- A write performed where a condition holds. -/
def State.performIf (s : State) (c : Bool) (w : PendWrite) : State := if c then s.performWrite w else s

/-- Two writes of one store instruction to one sector (11 R225). -/
def PendWrite.tied (w e : PendWrite) : Bool := w.tie != 0 && w.tie == e.tie && w.pa / 64 == e.pa / 64

/-- It is performed at its home, with the other writes of its instruction to its sector. -/
def State.consume (s : State) (index : Nat) : State :=
  match s.writes[index]? with
  | some w =>
    (s.writes.filter w.tied).foldl State.performWrite
      ({ s with writes := (s.writes.eraseIdx index).filter fun e => !(w.tied e) }.performIf (!(w.tied w)) w)
  | none => s

/-- A request message is consumed at a home slice, cluster unit, core or I/O die and performed (R365). -/
def execHomeReq (index : Nat) (s : State) : Out := .next (if s.canReq index then s.consume index else s)

/-- The set of a line in the slice of its stop: which lines share a set the spec leaves open (log 13). -/
def guestSet (line : Nat) : Nat × Nat := (fold line 6, line / Config.slicesPerDie % Config.sliceSets)

/-- Guest sectors with one more; where the set of its line holds 16 lines already, the line whose newest sector is oldest gives up its way
(R19; the choice of the victim is the model's: log 13). -/
def installGuest (m : AMap Guest) (line sector : Nat) (g : Guest) : AMap Guest :=
  let others := ((m.map fun x => x.1 / 4).eraseDups).filter fun l => l != line && guestSet l == guestSet line
  let newest := fun (l : Nat) => (m.filter fun x => x.1 / 4 == l).foldl (fun n x => max n x.2.fillClk) 0
  let m := if others.length < Config.sliceWays then m
    else match others.find? fun l => others.all fun k => decide (newest l ≤ newest k) with
      | some l => dropLine m l
      | none => m
  amSet m (guestKey line sector) g

/-- Two messages about lines have one source stop and one destination stop: the home slice and the stop of the line on a die (R20, R368). -/
def State.sameStops (s : State) (e f : Nat × Nat) : Bool :=
  e.1 == f.1 && s.homeSlice (e.2 * 256) == s.homeSlice (f.2 * 256)

/-- The data of a fill arrives: the sector is installed, unless an invalidation has marked it (R369). -/
def State.respond (s : State) (index : Nat) : State :=
  match s.fills[index]? with
  | none => s
  | some f =>
    let s := { s with fills := s.fills.eraseIdx index }
    if f.marked then s
    else { s with guests := amSet s.guests f.die (installGuest ((amGet s.guests f.die).getD []) f.line f.sector ⟨f.data, f.clk⟩) }

/-- A fill that arrives: no link of its route holds it back, and none sent earlier from the same slice to the same stop is still on its way
(R368). -/
def State.canRsp (s : State) (index : Nat) : Bool :=
  match s.fills[index]? with
  | some f => s.lineOpen f.die f.line && (s.fills.take index).all fun e => !(s.sameStops (e.die, e.line) (f.die, f.line))
  | none => false

/-- A response message delivers data or an acknowledgement into reserved space (R365). -/
def execHomeRsp (index : Nat) (s : State) : Out := .next (if s.canRsp index then s.respond index else s)

/-- An invalidation arrives: the guest line is dropped, and fills of it that are on their way are marked (R369). -/
def State.invalidated (s : State) (index : Nat) : State :=
  match s.invs[index]? with
  | none => s
  | some (die, line) =>
    { s with invs := s.invs.eraseIdx index,
             guests := amUpd s.guests die fun m => dropLine m line,
             fills := s.fills.map fun f => if f.die = die ∧ f.line = line then { f with marked := true } else f }

/-- An invalidation that arrives: no link of its route holds it back, and none sent earlier from the same slice to the same stop is still on
its way (R368). -/
def State.canInv (s : State) (index : Nat) : Bool :=
  match s.invs[index]? with
  | some (die, line) => s.lineOpen die line && (s.invs.take index).all fun e => !(s.sameStops e (die, line))
  | none => false

/-- An invalidation of a guest line arrives at a die and is applied (R369). -/
def execHomeInv (index : Nat) (s : State) : Out := .next (if s.canInv index then s.invalidated index else s)

/-! ### Completions of hosts and peers (R224, R231, R364) -/

/-- A refused write of a Lacer ends the command that sent it with code 0x17, where that has not ended (R364). -/
def State.lacerRefused (s : State) (core l : Nat) (r : ExtReq) : State :=
  match ((s.core core).lacer l).find? fun k => r.cmd == some (k.block, k.ticket) with
  | some k => s.lacerFault core l k cPoison r.pa
  | none => s

/-- A refused write of an engine: its descriptor completes with STATUS 3, or the node that it was for fails with POISON; a frozen engine
stays as it is (22 R408). -/
def State.engineRefused (s : State) (e : Nat) (r : ExtReq) : State :=
  let x := s.engine e
  if x.held then s
  else
    match x.current, r.cmd with
    | some _, none => s.descDone e 3 0x17 r.pa
    | none, some w => if x.work.head? = some w then (s.dropWork e w).workFault w cPoison else s
    | _, _ => s

/-- What a refused write does to the agent that made it, where it does anything. -/
def State.writeRefused (s : State) (r : ExtReq) : State :=
  if r.agent < Config.agents then s
  else if r.agent < engineAgent 0 then s.lacerRefused ((r.agent - Config.agents) / 4) (r.agent % 4) r
  else if r.agent < partAgent then s.engineRefused (r.agent - engineAgent 0) r
  else s

/-- What waits for an answer of the part's or of a poll: a queue whose TAIL lies in the bytes observes again (05 R107), and a group that
waits by `waitv` compares the word (12 R260). -/
def State.answered (s : State) (r : ExtReq) : State :=
  if r.agent = partAgent then
    { s with watches := s.watches.map fun w =>
        match w.kind with
        | .queue _ => if w.pa < r.pa + r.size ∧ r.pa < w.pa + w.size then { w with fired := true } else w
        | _ => w }
  else
    match s.grp r.agent with
    | some g =>
      if g.dep = some .watch ∧ g.sent = true ∧ g.entry = none ∧ g.cap.reenter = false then
        (s.disarm (.group r.agent)).updGrp r.agent fun g => g.resume s.clk.toNat
      else s
    | none => s

/-- A host or peer answers a request of the part; the completion of a back-invalidation says that the host holds the line no longer
(R374). -/
def State.completion (s : State) (id : Nat) (refused : Bool) (data : Nat) : State :=
  match s.extReqs.find? fun r => r.id == id && r.reply.isNone with
  | none => s
  | some r =>
    let s := if refused then s.setRefused r.link else s
    if r.agent = snoopAgent then
      { s with extReqs := s.extReqs.filter fun q => q.id != id, hdmHeld := s.hdmHeld.filter fun l => l != r.pa / 256 }
    else if r.write then
      let s := { s with extReqs := s.extReqs.filter fun q => q.id != id }
      (if refused then s.writeRefused r else s).settleNow
    else
      let line := (s.extKey r.pa r.size).2 == 256 && r.size == 256 && !refused
      let s := if line then { s with hostLines := amSet s.hostLines (r.pa / 256) (data % 256 ^ 256) } else s
      let got := fun (q : ExtReq) => if q.id = id then { q with reply := some (refused, data % 256 ^ r.size) } else q
      ({ s with extReqs := s.extReqs.map got }.answered r).settleNow

/-- A host or peer module returns data, an acknowledgement or a refusal over a host link or UALink port for a request the part sent into its window (R231). -/
def execHostOrPeerCompletion (id : Nat) (refused : Bool) (data : Nat) (s : State) : Out := .next (s.completion id refused data)

/-- A host takes a cached line away: a queue whose TAIL lies in it observes again (05 R107). -/
def State.snoop (s : State) (line : Nat) : State :=
  match amGet s.hostLines line with
  | none => s
  | some v =>
    { s.send (.snoopReply line v) with hostLines := amDel s.hostLines line, watches := fireWatches s (line * 256) 256 }

/-- A host snoop takes away a host-window line cached under CXL.cache (R224). -/
def execCxlCacheSnoop (line : Nat) (s : State) : Out := .next (s.snoop line)

/-! ### The host's view of device memory (R374) -/

/-- A CXL.mem access of 64 bytes at an offset of the range that the port trained with; the completion of a poisoned one is poisoned
(22 R406), and before READY every one is refused (22 R402). -/
def State.cxlMem (s : State) (xd off : Nat) (write : Bool) (data : Nat) : State :=
  match (s.hostLink xd).hdm with
  | none => s
  | some (base, size) =>
    if off % 64 ≠ 0 ∨ size < off + 64 ∨ (s.hostLink xd).state ≠ .active then s
    else if s.ready = false then (if write then s else s.send (.cxlReply xd true 0))
    else
      let pa := base + off
      let line := pa / 256
      if write then
        { s with hdmHeld := s.hdmHeld.filter fun l => l != line }.performBytes none pa 64 data
      else
        let bad := s.poisoned pa 64
        { s.send (.cxlReply xd bad (if bad then 0 else s.read pa 64)) with hdmHeld := insertNat line s.hdmHeld }

/-- A host CXL.mem access to the HDM range, with back-invalidation where needed (R374). -/
def execCxlMemAccess (xd : Nat) (off : Nat) (write : Bool) (data : Nat) (s : State) : Out := .next (s.cxlMem xd off write data)

/-! ### Host accesses (R372, R373, R375, R408) -/

/-- The reply to a host. -/
def State.answer (s : State) (xd fn : Nat) (refused : Bool) (data : Nat) : State :=
  let s := if refused then s.setLink (16 + xd) { s.link (16 + xd) with refused := true } else s
  s.send (.hostReply xd fn refused data)

/-- A violation by a host function freezes it. -/
def State.freezeHost (s : State) (xd fn pa : Nat) : State :=
  ({ s with frzHost := s.frzHost ||| (1#4 <<< (2 * xd + fn)), frzAddr := BitVec.ofNat 64 pa }).answer xd fn true 0

/-- What a host asks of an address: to read it, to write it, or an AtomicOp (R370). -/
inductive HostOp where
  | read
  | write
  | atomic (op : AtomOp)
  deriving DecidableEq, Repr

/-- The kinds of host accesses by number: 0 a read, 1 a write, 2 FetchAdd, 3 Swap, 4 CAS (R370). -/
def HostOp.ofCode (n : Nat) : HostOp :=
  match n with
  | 0 => .read | 1 => .write | 2 => .atomic .add | 3 => .atomic .exch | _ => .atomic .cas

/-- It changes what it finds. -/
def HostOp.writes (o : HostOp) : Bool := o != .read

/-- A host's write at its home. -/
def State.hostPut (s : State) (pa size data : Nat) : State :=
  match s.region pa with
  | .chip => s.chipWrite pa size data
  | _ => s.performBytes none pa size data

/-- A host's read at its home. -/
def State.hostGet (s : State) (pa size : Nat) : Nat × State :=
  match s.region pa with
  | .chip => s.chipRead pa size
  | _ => (s.read pa size, s.touchHome Config.computeDies pa)

/-- An AtomicOp of a host: of 4 or 8 bytes, naturally aligned; the part declines any other (R370). The data of a CAS are the compare value
and, above it, the new one. -/
def State.hostAtomicAt (s : State) (xd fn pa : Nat) (op : AtomOp) (size data : Nat) : State :=
  if (size = 4 ∨ size = 8) ∧ pa % size = 0 then
    let r := s.hostGet pa size
    let cas := op == .cas
    (match op.apply (if size = 4 then 2 else 3) size r.1 (if cas then data / 2 ^ (8 * size) else data) (data % 2 ^ (8 * size)) with
     | some v => r.2.hostPut pa size v
     | none => r.2).answer xd fn false r.1
  else s.answer xd fn true 0

/-- A read of a host at its home meets poison: of memory, or behind an on-chip window (22 R406). -/
def State.homeBad (s : State) (pa size : Nat) : Bool :=
  match s.region pa with
  | .chip => s.chipBad pa size
  | _ => s.poisoned pa size

/-- An access of a host at its home (R372): memory, or an on-chip window. -/
def State.hostAt (s : State) (xd fn pa : Nat) (op : HostOp) (size data : Nat) : State :=
  if s.homeBad pa size && op != .write then s.send (.hostReply xd fn true 0)
  else
    match op with
    | .write => (s.hostPut pa size data).answer xd fn false 0
    | .read =>
      let r := s.hostGet pa size
      r.2.answer xd fn false r.1
    | .atomic a => s.hostAtomicAt xd fn pa a size data

/-- An access by physical address that freezes its function where a byte of it lies in a hole (R28). -/
def State.hostPhys (s : State) (xd fn pa : Nat) (op : HostOp) (size data : Nat) : State :=
  match s.region pa, s.region (pa + size - 1) with
  | .hole, _ => s.freezeHost xd fn pa
  | _, .hole => s.freezeHost xd fn pa
  | .chip, _ => if s.chipHole pa size then s.freezeHost xd fn pa else s.hostAt xd fn pa op size data
  | _, _ => s.hostAt xd fn pa op size data

/-- RCVSTS (R375). -/
def State.rcvSts (s : State) : Nat := s.rcvBusy.toNat + s.rcvResult.toNat * 2

/-- n bytes of the recovery control page from an offset (R375). -/
def recoveryBytes (read : Nat → Nat) (off : Nat) : Nat → Nat
  | 0 => 0
  | n + 1 => bytesOf (read (off / 8 * 8)) (off % 8) 1 + 256 * recoveryBytes read (off + 1) n

/-- The 8 bytes of the recovery control page at an aligned offset, zero outside recovery. -/
def State.recoveryRead (s : State) (xd off : Nat) : Nat :=
  if s.recovery && xd == 0 then
    match off with
    | 0x000 => s.rcvLen.toNat
    | 0x010 => s.rcvSts
    | _ => 0
  else 0

/-- A BAR0 access of PF0: the device control page before 0x1000 once READY, the recovery control page of XD0 behind it. -/
def State.hostBar0 (s : State) (xd off : Nat) (write : Bool) (size data : Nat) : State :=
  if off < 0x1000 then
    if s.ready then
      if write then { s with regWrites := s.regWrites ++ s.controlWrites off size data }.answer xd 0 false 0
      else s.answer xd 0 false (s.controlBytes off size)
    else s.answer xd 0 true 0
  else if off < 0x2000 then
    if s.ready || (s.recovery && xd == 0) then
      if write then
        let whole := decide (size = 8 ∧ off % 8 = 0)
        let live := s.recovery && xd == 0
        if live && whole then { s with regWrites := s.regWrites ++ [Instr.registerWrite off (BitVec.ofNat 64 data)] }.answer xd 0 false 0
        else if live && decide (off < 0x1008) then
          let v := patchBytes ((s.pendingReg 0x1000).getD s.rcvLen.toNat) (off - 0x1000) (min size (0x1008 - off)) data
          { s with regWrites := s.regWrites ++ [Instr.registerWrite 0x1000 (BitVec.ofNat 64 v)] }.answer xd 0 false 0
        else s.answer xd 0 false 0
      else s.answer xd 0 false (recoveryBytes (s.recoveryRead xd) (off - 0x1000) size)
    else s.answer xd 0 true 0
  else if s.ready then s.answer xd 0 false 0
  else s.answer xd 0 true 0

/-- HWIN of window n of port x (R373). -/
def State.hwin (s : State) (xd n : Nat) : BitVec 64 := s.reg (0x0A00 + xd * 256 + n * 16)

/-- A PF1 access through a user window. -/
def State.hostWindow (s : State) (xd off : Nat) (op : HostOp) (size data : Nat) : State :=
  let w := s.hwin xd (off / 2 ^ 35 % 16)
  if !w.getLsbD 0 || (op.writes && w.getLsbD 1) then s.answer xd 1 true 0
  else
    let pa := bitsOf w 51 16 * 2 ^ 16 + off % 2 ^ 35
    if s.isHbmOrSecond pa && s.isHbmOrSecond (pa + size - 1) then s.hostAt xd 1 pa op size data else s.freezeHost xd 1 pa

/-- An access of the recovery image buffer (R375): bytes of HBM stack 0, with their poison (22 R406). -/
def State.hostBuffer (s : State) (xd off : Nat) (write : Bool) (size data : Nat) : State :=
  if write then { s with mem := writeLE s.mem off size data, poison := clearPoison s.poison off size }.answer xd 0 false 0
  else if s.poisoned off size then s.send (.hostReply xd 0 true 0)
  else s.answer xd 0 false (readLE s.mem off size)

/-- A configuration request, which each function answers once its link has trained (22 R402): what configuration space holds is left to PCI
Express, and a read of it gives a free value (log 3). -/
def State.hostConfig (s : State) (xd fn : Nat) (write : Bool) (size : Nat) : State :=
  if write then s.answer xd fn false 0
  else { s with freeCtr := s.freeCtr + 1 }.answer xd fn false ((Config.freeValue s.freeCtr).toNat % 256 ^ size)

/-- The number by which a host access names configuration space instead of a BAR. -/
def configSpace : Nat := 6

/-- A function's BAR holds an access. -/
def barHolds (fn bar off size : Nat) : Bool :=
  decide (0 < size) &&
  match fn, bar with
  | _, 6 => decide (off + size ≤ 2 ^ 12 ∧ size ≤ 4)
  | 0, 0 => decide (off + size ≤ 2 ^ 16)
  | 0, 2 => decide (off + size ≤ 2 ^ 28)
  | 0, 4 => decide (off + size ≤ 2 ^ 42)
  | 1, 0 => decide (off + size ≤ 2 ^ 16)
  | 1, 2 => decide (off + size ≤ 2 ^ 39)
  | _, _ => false

/-- A host access through an I/O die's port (R372, R375, R402, R408). An AtomicOp is for device memory: registers take none (R370). -/
def State.hostAccess (s : State) (xd fn bar off : Nat) (op : HostOp) (size data : Nat) : State :=
  let write := op.writes
  if 2 ≤ xd ∨ (s.hostLink xd).state ≠ .active ∨ (s.hostLink xd).trained ≠ some false ∨ barHolds fn bar off size = false then s
  else if s.frzHost.getLsbD (2 * xd + fn) then s.answer xd fn true 0
  else if op ≠ .read ∧ op ≠ .write ∧ !(fn == 0 && bar == 4) ∧ !(fn == 1 && bar == 2) then s.answer xd fn true 0
  else
    match fn, bar with
    | _, 6 => s.hostConfig xd fn write size
    | 0, 0 => s.hostBar0 xd off write size data
    | 0, 2 =>
      if s.recovery && xd == 0 then s.hostBuffer xd off write size data else s.answer xd 0 true 0
    | 0, _ => if s.ready then s.hostPhys xd 0 off op size data else s.answer xd 0 true 0
    | _, 0 =>
      if write then s.answer xd 1 (!s.ready) 0
      else s.answer xd 1 false (if off < 8 then bytesOf s.devstat off (min size (8 - off)) else 0)
    | _, _ => if s.ready then s.hostWindow xd off op size data else s.answer xd 1 true 0

/-- A host request through PF0 or PF1 is performed, refused or frozen (R372). -/
def execHostAccess (xd : Nat) (fn : Nat) (bar : Nat) (off : Nat) (kind : Nat) (size : Nat) (data : Nat) (s : State) : Out := .next (s.hostAccess xd fn bar off (HostOp.ofCode kind) size data)

/-! ### Requests of peers (R377, R408) -/

/-- A lender entry that covers a peer's request. -/
def State.leaseCovers (s : State) (peer addr size : Nat) : Bool :=
  (List.range 4096).any fun l =>
    (s.leaseState l == 1 || s.leaseState l == 2) && s.leaseLender l && s.leasePeer l == peer &&
      decide ((s.read64 (s.leaseAt l + 8)).toNat ≤ addr ∧
        addr + size ≤ (s.read64 (s.leaseAt l + 8)).toNat + (s.read64 (s.leaseAt l + 16)).toNat)

/-- The read-modify-write operations by number, as requests of peers carry them. -/
def AtomOp.ofCode (n : Nat) : AtomOp :=
  match n with
  | 0 => .add | 1 => .and | 2 => .or | 3 => .xor | 4 => .min | 5 => .max | 6 => .minu | 7 => .maxu | 8 => .exch | 9 => .cas
  | 10 => .fadd | _ => .cell

/-- The reply to a peer; a refusal sets REFUSED on the port's link. -/
def State.portReply (s : State) (port : Nat) (refused : Bool) (data : Nat) : State :=
  let s := if refused then s.setLink (32 + port) { s.link (32 + port) with refused := true } else s
  s.send (.fabricReply port refused data)

/-- A peer's request: kind 0 reads, 1 writes, 2 performs an atomic or a reduction. -/
def State.fabricServe (s : State) (port peer kind op et addr size data cmp : Nat) : State :=
  if 64 ≤ port ∨ size = 0 ∨ (s.link (32 + port)).state ≠ .active then s
  else if s.frzPort.getLsbD port || !s.ready || decide (2048 ≤ peer) || !(s.leaseCovers peer addr size) then
    s.portReply port true 0
  else if s.isHbm addr && s.isHbm (addr + size - 1) then
    if s.poisoned addr size && kind != 1 then s.send (.fabricReply port true 0)
    else
      let old := s.read addr size
      match kind with
      | 0 => (s.touchHome Config.computeDies addr).portReply port false old
      | 1 => (s.performBytes none addr size data).portReply port false 0
      | _ =>
        match (AtomOp.ofCode op).apply et size old data cmp with
        | some v => (s.performBytes none addr size v).portReply port false old
        | none => (s.touchHome Config.computeDies addr).portReply port false old
  else
    ({ s with frzPort := s.frzPort ||| (1#64 <<< port), frzAddr := BitVec.ofNat 64 addr }).portReply port true 0

/-- A peer's request at a UALink port is served under a lender lease or refused (R377). -/
def execFabricRequest (port : Nat) (peer : Nat) (kind : Nat) (op : Nat) (et : Nat) (addr : Nat) (size : Nat) (data : Nat) (cmp : Nat) (s : State) : Out := .next (s.fabricServe port peer kind op et addr size data cmp)

/-! ### Window accesses of other privileged agents (01 R31, R32) -/

/-- A naturally aligned access of a core window by Walolmest; what it reads leaves as a reply. R28 and R32 name no result for an access
of Walolmest to a hole, or for a misaligned one: the model drops it, with no reply and no change (its choice, log 29). -/
def State.windowServe (s : State) (write : Bool) (pa size data : Nat) : State :=
  match s.region pa with
  | .chip =>
    if size = 0 ∨ s.chipHole pa size = true ∨ pa % size ≠ 0 then s
    else if write then s.chipWrite pa size data
    else
      let r := s.chipRead pa size
      r.2.send (.windowReply r.1)
  | _ => s

/-- A privileged access to a core window of registers, scratchpad, scale, scalar or accumulator memory (R32). -/
def execWindowAccess (write : Bool) (pa : Nat) (size : Nat) (data : Nat) (s : State) : Out := .next (s.windowServe write pa size data)

end Sys2Proof.Machine
end

