-- ==== Sys2Proof/Machine/LinkEv.lean ====
section
/-!
DEFINITION. Sys2Proof/Machine/LinkEv.lean: the links (19): their states (R361, R362), what a link that goes DOWN or DISABLED ends (R363),
and what a training settles: the role and the range of a host port (R348, R374), the extension of a UALink port (R371).
-/

namespace Sys2Proof.Machine

/-! ### What a lost link ends (R363) -/

/-- Every context in an active slot is reset (04 R97). -/
def State.resetActive (s : State) : State :=
  (s.ctxs.filter fun x => x.2.active && x.2.state != .resetting).foldl (fun s x => s.startReset x.1) s

/-- The part cannot go on: a y link is lost, or both x links of one die in a row: two of the three of its row. -/
def State.fatalLoss (s : State) (l : Nat) : Bool :=
  if l < 6 then
    (numsFrom (l / 3 * 3) 3).any fun k => k != l && (s.link k).state.lost
  else decide (l < 9)

/-- The requests outstanding on a link complete as refused. -/
def State.refuseOutstanding (s : State) (l : Nat) : State :=
  (s.extReqs.filter fun r => r.link == l && r.reply.isNone).foldl (fun s r => s.completion r.id true 0) s

/-- The lines that the part caches of a host window go, and what watches them reads again: the port runs CXL.cache no longer (11 R224). -/
def State.dropHostLines (s : State) (xd : Nat) : State :=
  let mine := s.hostLines.filter fun x => windowOf (x.1 * 256) == .host xd
  { mine.foldl (fun s x => { s with watches := fireWatches s (x.1 * 256) 256 }) s with
    hostLines := s.hostLines.filter fun x => !(windowOf (x.1 * 256) == .host xd) }

/-- The lines of the range that a host port exposes: the host holds them no longer. -/
def State.dropHeldLines (s : State) (xd : Nat) : State :=
  { s with hdmHeld := s.hdmHeld.filter fun line => match (s.hostLink xd).hdm with
      | some (base, size) => decide (line * 256 < base ∨ base + size ≤ line * 256)
      | none => true }

/-- A link enters DOWN or DISABLED: what it carried is refused, messages that waited for it go nowhere, and a host is gone with what it
held. -/
def State.loseLink (s : State) (l : Nat) (st : LState) : State :=
  let s := (s.setLink l { s.link l with state := st }).refuseOutstanding l
  let s : State := { s with heldMsgs := s.heldMsgs.filter fun m => m.1 != l }
  let s := if 16 ≤ l ∧ l < 18 then (s.dropHostLines (l - 16)).dropHeldLines (l - 16) else s
  if s.fatalLoss l then { s with ready := false }.resetActive else s

/-! ### States (R362) -/

/-- EN := 1 starts the training of a link that is DISABLED or DOWN. -/
def State.enableLink (s : State) (l : Nat) : State :=
  let x := s.link l
  if linkListed l then s.setLink l { x with en := true, state := if x.state.lost then .training else x.state } else s

/-- EN := 0 disables a link. -/
def State.disableLink (s : State) (l : Nat) : State :=
  let x := s.link l
  if linkListed l then
    let s := s.setLink l { x with en := false }
    if x.state = .disabled then s else s.loseLink l .disabled
  else s

/-- An ACTIVE link starts retraining. -/
def State.retrainLink (s : State) (l : Nat) : State :=
  let x := s.link l
  if linkListed l && x.state == .active then s.setLink l { x with state := .retraining } else s

/-- The range that a host port offers at training (R374). -/
def State.hdmOffer (s : State) (xd : Nat) : Option (Nat × Nat) :=
  let b := s.reg (0x0280 + xd * 16)
  let base := bitsOf b 51 30 * 2 ^ 30
  let size := (s.reg (0x0288 + xd * 16)).toNat
  let chunk := fun (k : Nat) => s.isHbm (base + k * 2 ^ 30) && s.isHbm (base + k * 2 ^ 30 + 2 ^ 30 - 1)
  if b.getLsbD 0 && decide (0 < size ∧ size % 2 ^ 30 = 0 ∧ base + size ≤ 2 ^ 40) &&
      (List.range (min (size / 2 ^ 30) 1024)).all chunk
  then some (base, size) else none

/-- Lines that a host port's earlier training let either side hold. -/
def State.dropHeld (s : State) (xd : Nat) : State := (s.dropHostLines xd).dropHeldLines xd

/-- A link trains: what the far side and the registers ask for takes effect. -/
def State.trained (s : State) (l : Nat) (half fast cxlMem cxlCache : Bool) : State :=
  let x := s.link l
  let y := { x with state := .active, replays := 0 }
  if l < 9 then s.setLink l { y with half := half }
  else if l < 18 then
    let s := s.dropHeld (l - 16)
    s.setLink l { y with
      trained := some x.role
      cxlCache := cxlCache && !x.role
      hdm := if cxlMem && !x.role then s.hdmOffer (l - 16) else none }
  else s.setLink l { y with fastOn := fast && x.fast }

/-- The outcome of a training or a retraining; the messages that waited for the link go (R362). -/
def State.trainDone (s : State) (l : Nat) (half fast cxlMem cxlCache : Bool) : State :=
  let x := s.link l
  if linkListed l then
    match x.state with
    | .training => (s.trained l half fast cxlMem cxlCache).postHeld l
    | .retraining => (s.setLink l { x with state := .active, retrains := x.retrains + 1 }).postHeld l
    | _ => s
  else s

/-- Three attempts have failed. -/
def State.trainFailed (s : State) (l : Nat) : State :=
  match (s.link l).state with
  | .training => if linkListed l then s.loseLink l .down else s
  | .retraining => if linkListed l then s.loseLink l .down else s
  | _ => s

/-- A flit is replayed (22 R405). -/
def State.replayed (s : State) (l : Nat) : State :=
  let x := s.link l
  if linkListed l && x.state == .active then s.setLink l { x with replays := x.replays + 1 } else s

/-- A write of LNKCTL.EN := 1 starts training (R362). -/
def execLinkEnable (link : Nat) (s : State) : Out := .next (s.enableLink link)

/-- A write of LNKCTL.EN := 0 disables the link (R362). -/
def execLinkDisable (link : Nat) (s : State) : Out := .next (s.disableLink link)

/-- A write of RETRAIN to an ACTIVE link starts retraining (R362). -/
def execRetrain (link : Nat) (s : State) : Out := .next (s.retrainLink link)

/-- Training or retraining succeeds and the link becomes ACTIVE (R362). -/
def execLinkTrained (link : Nat) (half : Bool) (fast : Bool) (hdm : Nat) (cxlCache : Bool) (s : State) : Out := .next (s.trainDone link half fast (hdm != 0) cxlCache)

/-- Three training attempts fail and the link goes DOWN (R362). -/
def execLinkTrainFailed (link : Nat) (s : State) : Out := .next (s.trainFailed link)

/-- 16 consecutive failed replays of a flit start retraining (R362). -/
def execReplayFailure (link : Nat) (s : State) : Out := .next (s.retrainLink link)

/-- A link detects a CRC error on a flit and replays it, counting in LNKSTS.REPLAYS (R405). -/
def execLinkLevelReplay (link : Nat) (s : State) : Out := .next (s.replayed link)

end Sys2Proof.Machine
end

