-- ==== Sys2Proof/Machine/Device.lean ====
section
/-!
DEFINITION. Sys2Proof/Machine/Device.lean: writes of the control page by register (00 R6, R7, 01 R411 and each register's own rule), and the
life of the device (22): bring-up (R403), recovery (R409), power (R404), scrubbing (R405), frozen masters (R408), attestation (R410), a die
taken out of service (01 R15).
-/

namespace Sys2Proof.Machine

/-! ### Bring-up (R403, R409) -/

/-- The dies that a UCIe link joins, as bit numbers: compute die d is d, I/O die x is 4 + x (R361). -/
def linkEnds (l : Nat) : Nat × Nat :=
  match l with
  | 0 => (4, 0) | 1 => (0, 1) | 2 => (1, 4) | 3 => (5, 2) | 4 => (2, 3) | 5 => (3, 5) | 6 => (4, 5) | 7 => (0, 2) | _ => (1, 3)

/-- A UCIe link both of whose dies are in service. -/
def State.endsLive (s : State) (l : Nat) : Bool :=
  let live := fun (d : Nat) => if d < 4 then s.liveCd.getLsbD d else s.liveXd.getLsbD (d - 4)
  live (linkEnds l).1 && live (linkEnds l).2

/-- The links after bring-up: UCIe links between live dies have trained, some of them at half width, and those of a die that is left out have
failed to (R362); host links and UALink ports train where EN is 1. -/
def State.bringLinks (s : State) (half : BitVec 9) : State :=
  let on := fun (s : State) (l : Nat) (st : LState) => s.setLink l { s.link l with state := st }
  let ucie := fun (s : State) (l : Nat) =>
    if (s.link l).en = false then s
    else if s.endsLive l then s.setLink l { s.link l with state := .active, half := half.getLsbD l }
    else on s l .down
  let s := (List.range 9).foldl ucie s
  ((16 :: 17 :: numsFrom 32 64).filter fun l => (s.link l).en &&
    (if l = 16 then s.liveXd.getLsbD 0 else if l = 17 then s.liveXd.getLsbD 1
     else s.liveXd.getLsbD ((l - 32) / 32))).foldl (fun s l => on s l .training) s

/-- A byte address that bring-up does not write: memory of a device behind a host port, or of a peer (R403, log 38). -/
def farAway (pa : Nat) : Bool :=
  match windowOf pa with
  | .host _ => true
  | .fabric => true
  | _ => false

/-- Steps 3 and 4: HBM and the second tier are written to zero. -/
def State.zeroMemory (s : State) : State :=
  { s with mem := s.mem.filter fun c => farAway c.1, poison := s.poison.filter fun k => farAway (k * 64) }

/-- Step 5: pools, accumulator memory, L2, TLBs and counters are cleared. -/
def State.clearSram (s : State) : State :=
  { s with
    cores := if s.clk = 0 then [] else (List.range Config.cores).map fun c => (c, { Core.reset with since := s.clk })
    dieTlb := [], ptrCache := [], guests := [], clLines := [] }

/-- Steps 2 to 6, with what calibration finds. -/
def State.bringUpFrom2 (s : State) (b : BringUp) : State :=
  let cd := s.liveCd &&& b.cdOk
  let xd := s.liveXd &&& b.xdOk
  let s := { s with liveCd := cd, liveXd := xd, calfail := decide (cd ≠ s.liveCd ∨ xd ≠ s.liveXd), stage := 2 }
  if cd = 0 ∨ xd.getLsbD 0 = false then s
  else { s.zeroMemory.clearSram with stage := 6, ready := true }.bringLinks b.half

/-- Recovery: HBM stack 0 of CD0 and link 16 alone. -/
def State.enterRecovery (s : State) (cdOk linkOk : Bool) : State :=
  let s := { s with recovery := true, stage := 1, ready := false, calfail := !(cdOk && linkOk),
                    liveCd := if cdOk then s.liveCd else s.liveCd &&& 0xE }
  let x := s.link 16
  s.setLink 16 { x with state := if !linkOk then .down else if cdOk then .active else .disabled, trained := some false }

/-- The bring-up sequence. -/
def State.bringUpRun (s : State) (b : BringUp) : State :=
  if b.imageOk then s.bringUpFrom2 b else s.enterRecovery (b.cdOk.getLsbD 0 && s.liveCd.getLsbD 0) b.linkOk

/-- Part reset: what is kept is the image, the keys with their leaf indexes, and what the outside world is about to do. A compute die that the
package is shipped without is in no service from the start, and sets no CALFAIL (R402). -/
def State.partReset (s : State) (b : BringUp) : State :=
  let t : State := { State.reset with
    liveCd := 0xF &&& ~~~b.absent
    image := s.image, lmsIndex := s.lmsIndex, attKey := s.attKey, devIndex := s.devIndex, mem := s.mem, poison := s.poison,
    agenda := s.agenda, outbox := s.outbox, freeCtr := s.freeCtr, nextId := s.nextId, bringUp := b }
  t.bringUpRun b

/-- Part reset starts the bring-up sequence: image check, calibration, DRAM zeroing, clearing, and then READY (R403). -/
def execPartReset (imageOk : Bool) (cdOk : BitVec 4 × BitVec 4) (xdOk : BitVec 2) (linkOk : Bool × BitVec 9) (s : State) : Out :=
  .next (s.partReset ⟨imageOk, cdOk.1, xdOk, linkOk.1, linkOk.2, cdOk.2⟩)

/-- COMMIT (R375). -/
def State.commit (s : State) : State :=
  if s.recovery && !s.rcvBusy then
    if s.rcvLen = 0 ∨ 2 ^ 28 < s.rcvLen.toNat then { s with rcvResult := 2 } else { s with rcvBusy := true }
  else s

/-- A write of COMMIT starts the check of the recovery image buffer (R375). -/
def execRcvcmdCommit (s : State) : Out := .next s.commit

/-- A link when bring-up starts again: RETRAINS counts on (19 R361). -/
def Link.restart (l : Nat) (x : Link) : Link := { Link.reset l with retrains := x.retrains }

/-- The image that COMMIT names: bytes [0, LEN) of the buffer (R375). -/
def State.committed (s : State) : Nat × List Host.Cell := (s.rcvLen.toNat, s.mem.filter fun c => decide (c.1 < s.rcvLen.toNat))

/-- The security processor's verdict on the image in the buffer: one that passes is stored in place of the old one, and the part starts
again, with what calibration then finds. -/
def State.recoveryDone (s : State) (pass : Bool) (cdOk : BitVec 4) (xdOk : BitVec 2) : State :=
  if s.recovery && s.rcvBusy then
    if pass then
      ({ s with rcvBusy := false, rcvResult := 1, recovery := false, image := some s.committed, links := amMap Link.restart s.links,
                calfail := false, stage := 1, liveCd := 0xF &&& ~~~s.bringUp.absent }).bringUpRun { s.bringUp with imageOk := true, cdOk := cdOk, xdOk := xdOk }
    else { s with rcvBusy := false, rcvResult := 2 }
  else s

/-- The recovery image check ends: accepted and restart, or refused (R409). -/
def execRecoveryCheckDone (pass : Bool) (found : BitVec 4 × BitVec 2) (s : State) : Out := .next (s.recoveryDone pass found.1 found.2)

/-! ### A die out of service (R15) -/

/-- A compute die's LIVECD bit cleared: its groups hold no issue slot from then on. -/
def State.dieOut (s : State) (die : Nat) : State :=
  if die < Config.computeDies then
    { s with liveCd := s.liveCd &&& ~~~(1#4 <<< die), issue := s.issue.filter fun a => dieOf (coreOf a) != die }
  else s

/-- Walolmest takes a compute die out of service for fault isolation and clears its LIVECD bit (R15). -/
def execDieOutOfService (die : Nat) (s : State) : Out := .next (s.dieOut die)

/-! ### Power and scrubbing (R404, R405) -/

/-- LIMIT in force. -/
def State.powerLimit (s : State) : Nat := bitsOf (s.reg 0x0040) 11 0

/-- A power tick: WATTS is measured, and the clock takes one step. -/
def State.powerTick (s : State) (watts : Nat) : State :=
  let m := s.mhz10.toNat
  let next := if s.powerLimit < watts then max 120 (m - 10) else if watts * 100 < s.powerLimit * 95 then min 240 (m + 10) else m
  { s with watts := BitVec.ofNat 12 (min watts 4095), mhz10 := BitVec.ofNat 8 next, throttle := decide (next < 240) }

/-- The clock ends 2^20 clocks, and its step is still to be taken (R404). -/
def State.canPower (s : State) : Bool := decide (s.clk.toNat % 2 ^ 20 = 0 ∧ s.powerClk ≠ s.clk.toNat)

/-- Every 2^20 clocks the clock of all compute dies steps by 100 MHz against PWRLIM (R404), once. -/
def execPowerTick (watts : Nat) (s : State) : Out := .next (if s.canPower then { s.powerTick watts with powerClk := s.clk.toNat } else s)

/-- A write of PWRLIM. -/
def State.writePwrlim (s : State) (v : BitVec 64) : State :=
  s.setReg 0x0040 (BitVec.ofNat 64 (max 600 (min 2000 (bitsOf v 11 0))))

/-- A write of the power limit, clamped to the range 600 to 2,000 W (R404). -/
def execPwrlimWrite (value : BitVec 64) (s : State) : Out := .next (s.writePwrlim value)

/-- Daily scrub pass over HBM and second tier (R405). -/
def execScrub (s : State) : Out := .next s

/-! ### Frozen masters (R408) -/

/-- A W1C write of a freeze register. -/
def State.masterRelease (s : State) (off : Nat) (v : BitVec 64) : State :=
  match off with
  | 0x0300 =>
    let hit := s.frzDma &&& v.truncate 32
    let t : State := { s with frzDma := s.frzDma &&& ~~~(v.truncate 32) }
    ((List.range 32).filter fun e => hit.getLsbD e).foldl State.releaseEngine t
  | 0x0308 => { s with frzHost := s.frzHost &&& ~~~(v.truncate 4) }
  | 0x0310 => { s with frzPort := s.frzPort &&& ~~~v }
  | _ => s

/-- A W1C write of FRZDMA, FRZHOST or FRZPORT releases a frozen bus master (R408). -/
def execMasterRelease (off : Nat) (value : BitVec 64) (s : State) : Out := .next (s.masterRelease off value)

/-! ### Attestation (R410) -/

/-- The SHA-256 of the image that the part runs (R409). -/
def State.imageDigest (s : State) : Nat :=
  match s.image with
  | none => Config.shippedDigest
  | some (n, cells) => sha256 n fun i => BitVec.ofNat 8 (readLE cells i 1)

/-- The message of a report: the SHA-256 of the running image, DEVCFG, the nonce, and the leaf (log 5). -/
def State.reportMessage (s : State) (nonce : Nat) : Nat :=
  s.imageDigest % 2 ^ 256 + s.controlRead 0 * 2 ^ 256 + nonce % 2 ^ 256 * 2 ^ 320 + s.lmsIndex * 2 ^ 576

/-- A report: the leaf index advances before it is signed. -/
def State.attest (s : State) (nonce : Nat) : State :=
  if Config.lmsLeaves ≤ s.lmsIndex then s.send .reportRefused
  else
    let m := s.reportMessage nonce
    { s with lmsIndex := s.lmsIndex + 1 }.send (.report m (Config.lmsSignature m (s.attKey * 2 ^ 64 + s.lmsIndex)))

/-- A requested attestation report is signed after the LMS leaf index has advanced (R410). -/
def execAttestationReport (nonce : Nat) (s : State) : Out := .next (s.attest nonce)

/-- A new attestation key, certified by the device key: its leaf index advances before it signs. A device key without leaves certifies none
(log 5). -/
def State.certify (s : State) : State :=
  if Config.lmsLeaves ≤ s.devIndex then s
  else
    { s with attKey := s.attKey + 1, lmsIndex := 0, devIndex := s.devIndex + 1 }.send
      (.certificate (s.attKey + 1) (Config.deviceSignature (s.attKey + 1) s.devIndex))

/-- Walolmest certifies a new attestation key, so that an exhausted part signs reports again (R410). -/
def execAttestationKeyCertify (s : State) : Out := .next s.certify

/-! ### Table bases -/

/-- The bits of a value from lo to hi, in place. -/
def keepBits (v : BitVec 64) (hi lo : Nat) : BitVec 64 := BitVec.ofNat 64 (bitsOf v hi lo * 2 ^ lo)

/-- CTXTAB, while every context is DESTROYED (04 R88). -/
def State.writeCtxtab (s : State) (v : BitVec 64) : State :=
  if s.ctxs.all fun x => x.2.state == .destroyed then s.setReg 0x0010 (keepBits v 51 16) else s

/-- A write of CTXTAB, dropped unless every context is DESTROYED (R88). -/
def execCtxtabWrite (value : BitVec 64) (s : State) : Out := .next (s.writeCtxtab value)

/-- QTAB, while every queue is CLOSED (05 R102). -/
def State.writeQtab (s : State) (v : BitVec 64) : State :=
  if s.queues.all fun x => x.2.state == .closed then s.setReg 0x0018 (keepBits v 51 19) else s

/-- A write of QTAB, dropped unless every queue is CLOSED (R102). -/
def execQtabWrite (value : BitVec 64) (s : State) : Out := .next (s.writeQtab value)

/-! ### Commands (R89, R103, R354, R385) -/

/-- A command register's OVR bit set. -/
def State.overrun (s : State) (off : Nat) : State :=
  match off with
  | 0x0100 => { s with ctxSts := s.ctxSts ||| 16#64 }
  | 0x0120 => { s with qSts := s.qSts ||| 16#64 }
  | 0x0140 => { s with tlbSts := s.tlbSts ||| 16#64 }
  | 0x0160 => { s with dbgSts := s.dbgSts ||| 16#64 }
  | 0x0240 => { s with dmaOvr := true }
  | _ => s

/-- A narrow or misaligned write to a command register starts nothing and sets OVR (R411). -/
def execCommandWriteDropped (off : Nat) (s : State) : Out := .next (s.overrun off)

/-- An event that comes before every other one. -/
def State.push (s : State) (e : Instr) : State := { s with agenda := e :: s.agenda }

/-- CTXCMD's command on a context, none for a reserved code. -/
def ctxCommand (cmd c : Nat) : Option Instr :=
  match cmd with
  | 1 => some (.ctxCreate c) | 2 => some (.ctxLoad c) | 3 => some (.ctxRun c) | 4 => some (.ctxDrain c)
  | 5 => some (.ctxPark c) | 6 => some (.ctxReset c) | 7 => some (.ctxDestroy c) | _ => none

/-- QCMD's command on a queue. -/
def queueCommand (cmd q : Nat) : Option Instr :=
  match cmd with
  | 1 => some (.queueOpen q) | 2 => some (.queuePause q) | 3 => some (.queueResume q) | 4 => some (.queueDrain q)
  | 5 => some (.queueClose q) | 6 => some (.queueClear q) | _ => none

/-- DBGCMD's command on a context. -/
def dbgCommand (cmd c : Nat) : Option Instr :=
  match cmd with
  | 1 => some (.dbgHalt c) | 2 => some (.dbgResume c) | 3 => some (.dbgDump c) | _ => none

/-- TLBCMD's command. -/
def State.tlbCommand (s : State) (v : BitVec 64) : Option Instr :=
  match bitsOf v 11 8 with
  | 1 => some (.tlbInvalidatePage (bitsOf v 7 0) (s.reg 0x0148).toNat)
  | 2 => some (.tlbInvalidateContext (bitsOf v 7 0))
  | 3 => some (.tlbInvalidateLease (bitsOf v 23 12))
  | _ => none

/-- A status register when a command starts, or is refused: OVR stays, and the object is named. -/
def stsStart (sts : BitVec 64) (name : Nat) : BitVec 64 := (sts &&& 0x1E#64) ||| 1#64 ||| BitVec.ofNat 64 name
/-- BAD_COMMAND, with OVR. -/
def stsBad (name : Nat) : BitVec 64 := 16#64 ||| 8#64 ||| BitVec.ofNat 64 name

/-- A write of CTXCMD; a command on a context that is being dumped waits for the dump's end (21 R396). -/
def State.writeCtxcmd (s : State) (v : BitVec 64) : State :=
  let c := bitsOf v 7 0
  if s.ctxSts.getLsbD 0 then s.overrun 0x0100
  else
    match ctxCommand (bitsOf v 11 8) c with
    | none => { s with ctxSts := stsBad (c * 2 ^ 8) }
    | some e =>
      let t : State := { s with ctxSts := stsStart s.ctxSts (c * 2 ^ 8) }
      if (s.ctx c).dumping.isSome then { t with heldCmd := some e } else t.push e

/-- A write of QCMD. -/
def State.writeQcmd (s : State) (v : BitVec 64) : State :=
  let q := bitsOf v 9 0
  if s.qSts.getLsbD 0 then s.overrun 0x0120
  else
    match queueCommand (bitsOf v 13 10) q with
    | none => { s with qSts := stsBad (q * 2 ^ 16) }
    | some e => { s with qSts := stsStart s.qSts (q * 2 ^ 16) }.push e

/-- A write of TLBCMD. -/
def State.writeTlbcmd (s : State) (v : BitVec 64) : State :=
  let c := bitsOf v 7 0
  if s.tlbSts.getLsbD 0 then s.overrun 0x0140
  else
    match s.tlbCommand v with
    | none => { s with tlbSts := stsBad (c * 2 ^ 8) }
    | some e => { s with tlbSts := stsStart s.tlbSts (c * 2 ^ 8) }.push e

/-- A write of DBGCMD. -/
def State.writeDbgcmd (s : State) (v : BitVec 64) : State :=
  let c := bitsOf v 7 0
  if s.dbgSts.getLsbD 0 then s.overrun 0x0160
  else
    match dbgCommand (bitsOf v 11 8) c with
    | none => { s with dbgSts := stsBad (c * 2 ^ 8) }
    | some e => { s with dbgSts := stsStart s.dbgSts (c * 2 ^ 8) }.push e

/-- A write of LSREV (18 R360): any other entry drops it. -/
def State.writeLsrev (s : State) (v : BitVec 64) : State :=
  let l := bitsOf v 11 0
  if s.canRevoke l then s.push (.leaseRevoke l) else if s.canReturn l then s.push (.leaseReturn l) else s

/-! ### Register writes (R6, R7) -/

/-- A write of LNKCTL: FAST and ROLE where the kind of link has them, then the events of EN and RETRAIN (19 R361, R362). -/
def State.writeLnkctl (s : State) (l : Nat) (v : BitVec 64) : State :=
  let x := s.link l
  let y := { x with
    en := v.getLsbD 0
    fast := if 32 ≤ l then v.getLsbD 2 else false
    role := if l = 16 ∨ l = 17 then v.getLsbD 3 else false }
  let s := s.setLink l y
  if !y.en then (if x.state = .disabled then s else s.push (.linkDisable l))
  else if x.state.lost then s.push (.linkEnable l)
  else if v.getLsbD 1 && x.state == .active then s.push (.retrain l)
  else s

/-- K of PERFCTL: values outside 10 to 24 are read as 10 (21 R385). -/
def perfctlValue (v : BitVec 64) : BitVec 64 :=
  let k := bitsOf v 5 1
  BitVec.ofNat 64 (bitsOf v 0 0 + (if 10 ≤ k ∧ k ≤ 24 then k else 10) * 2 + bitsOf v 31 16 * 2 ^ 16)

/-- Registers of n bytes in the 8 bytes at an offset, each with the writable low bits of its field. -/
def State.writeParts (s : State) (off n width : Nat) (v : BitVec 64) : State :=
  (List.range (8 / n)).foldl (fun s i =>
    s.setReg (off + n * i) (BitVec.ofNat 64 (bitsOf v (8 * n * i + width - 1) (8 * n * i)))) s

/-- Trace that a write of TRCFG or of a DBGCTL pair turns on: a SYNC packet comes first (21 R397). -/
def State.traceOn (s old : State) : State :=
  let on := (List.range Config.contexts).any fun c => s.traced c && !(old.traced c)
  if on then { s with cores := amMap (fun _ (k : Core) => { k with trace := { k.trace with synced := false } }) s.cores } else s

/-- The 8 bytes of the control page or of the recovery control page at an aligned offset written, under the access codes of what they
hold. -/
def State.writeRegister (s : State) (off : Nat) (v : BitVec 64) : State :=
  if off % 8 ≠ 0 then s
  else if off = 0x0010 then s.push (.ctxtabWrite v)
  else if off = 0x0018 then s.push (.qtabWrite v)
  else if off = 0x0020 then s.setReg off (keepBits v 51 17)
  else if off = 0x0028 then s.writeLsrev v
  else if off = 0x0030 then s.setReg off (keepBits v 51 12)
  else if off = 0x0038 then s.setReg off (keepBits v 10 0)
  else if off = 0x0040 then s.push (.pwrlimWrite v)
  else if off = 0x0100 then s.writeCtxcmd v
  else if off = 0x0108 then { s with ctxSts := s.ctxSts &&& ~~~(v &&& 16#64) }
  else if off = 0x0120 then s.writeQcmd v
  else if off = 0x0128 then { s with qSts := s.qSts &&& ~~~(v &&& 16#64) }
  else if off = 0x0140 then s.writeTlbcmd v
  else if off = 0x0148 then s.setReg off (keepBits v 56 0)
  else if off = 0x0150 then { s with tlbSts := s.tlbSts &&& ~~~(v &&& 16#64) }
  else if off = 0x0160 then s.writeDbgcmd v
  else if off = 0x0168 then { s with dbgSts := s.dbgSts &&& ~~~(v &&& 16#64) }
  else if off = 0x0170 then s.setReg off (keepBits v 51 21)
  else if off = 0x0178 then s.setReg off (keepBits v 51 16)
  else if off = 0x0180 then s.setReg off (perfctlValue v)
  else if off = 0x0188 ∨ off = 0x0190 then s.setReg off (keepBits v 51 12)
  else if off = 0x0198 then (s.setReg off (keepBits v 5 0)).traceOn s
  else if 0x0200 ≤ off ∧ off < 0x0220 then s.writeParts off 2 16 v
  else if off = 0x0240 then s.push (.dmasub v)
  else if off = 0x0248 then { s with dmaOvr := s.dmaOvr && !v.getLsbD 0 }
  else if off = 0x0280 ∨ off = 0x0290 then s.setReg off (keepBits v 51 30 ||| keepBits v 0 0)
  else if off = 0x0288 ∨ off = 0x0298 then s.setReg off v
  else if off = 0x0300 ∨ off = 0x0308 ∨ off = 0x0310 then s.push (.masterRelease off v)
  else if 0x0400 ≤ off ∧ off < 0x0A00 ∧ linkListed ((off - 0x0400) / 16) = true then
    let l := (off - 0x0400) / 16
    if off % 16 = 0 then s.writeLnkctl l v
    else if v.getLsbD 5 then s.setLink l { s.link l with refused := false }
    else s
  else if 0x0A00 ≤ off ∧ off < 0x0C00 ∧ off % 16 = 0 then s.setReg off (keepBits v 51 16 ||| keepBits v 1 0)
  else if 0x0C00 ≤ off ∧ off < 0x1000 then (s.writeParts off 4 3 v).traceOn s
  else if off = 0x1000 ∧ s.recovery = true then { s with rcvLen := v.truncate 29 }
  else if off = 0x1008 ∧ s.recovery = true ∧ v.getLsbD 0 = true then s.push .rcvcmdCommit
  else s

/-- A write to a register that has no row of its own, under its access codes (R6). -/
def execRegisterWrite (off : Nat) (value : BitVec 64) (s : State) : Out := .next (s.writeRegister off value)

end Sys2Proof.Machine
end

