-- ==== Sys2Proof/Machine/Monitor.lean ====
section
/-!
DEFINITION. Sys2Proof/Machine/Monitor.lean: the balance monitor instructions (16 R322 to R325).
-/

namespace Sys2Proof.Machine

/-- The monitor in a word. -/
def Iss.mon (i : Iss) : Nat := i.imm.toNat % 16

/-- The monitor of a 64-byte descriptor, bindings aside (R315). -/
def Mon.ofCode (x : Nat) : Mon :=
  let w := fun (k : Nat) => x / 2 ^ (64 * k) % 2 ^ 64
  ⟨x % 8, x / 8 % 2 == 1, x / 16 % 4, x / 64 % 2 == 1, x / 2 ^ 16 % 2 ^ 16, x / 2 ^ 32 % 2 ^ 32, w 1, w 2,
    BitVec.ofNat 64 (w 3), BitVec.ofNat 64 (w 4), BitVec.ofNat 64 (w 5), 0, 0, none⟩

/-- A value that is no NaN and no infinity. -/
def finite64 (x : BitVec 64) : Bool := !(f64 x).isNan && !(f64 x).isInf

/-- A descriptor that `bmset` refuses (R323). -/
def monBad (x : Nat) : Bool :=
  let m := Mon.ofCode x
  decide (5 ≤ m.fmt ∨ m.action = 3) || x / 2 ^ 7 % 2 ^ 9 != 0 || x / 2 ^ 389 % 2 ^ 27 != 0 || m.stride == 0 || m.stride % m.size != 0 ||
  decide (m.stride < m.offset + m.size) || (m.base + m.offset) % m.size != 0 || decide (m.limit ≤ m.base) ||
  decide (2 ^ 57 ≤ m.base) || decide (2 ^ 57 < m.limit) ||
  !(finite64 m.ref && finite64 m.babs && finite64 m.brel) ||
  ((f64 m.babs).neg? && !(f64 m.babs).isZero) || ((f64 m.brel).neg? && !(f64 m.brel).isZero)

/-- `bmset`: every slice matches by the new descriptor at once. -/
def bmsetBody (s : State) (i : Iss) : Res :=
  i.load s 0 true [⟨i.sa.toNat, 64, .read, 0, 0, true, false, false, none, 0⟩] fun s vs =>
    let x := vs.headD 0
    if monBad x then i.illegal s
    else if s.checkOf i.ctx i.mon then .wait s .waitMonitor (.monitor i.mon)
    else
      let s := s.montabWrite i.ctx i.mon 0 64 (x % 2 ^ 384)
      let s := s.zeroPartials i.ctx i.mon
      i.fin (s.updCtx i.ctx fun c =>
        { c with mons := vset c.mons i.mon { Mon.ofCode x with bound := (vget c.mons i.mon Mon.reset).bound } })

/-- `bmclr`. -/
def bmclrBody (s : State) (i : Iss) : Res :=
  if s.checkOf i.ctx i.mon then .wait s .waitMonitor (.monitor i.mon)
  else
    let s := s.montabWrite i.ctx i.mon 0x30 16 0
    let s := s.zeroPartials i.ctx i.mon
    i.fin (s.updCtx i.ctx fun c =>
      { c with mons := vset c.mons i.mon { vget c.mons i.mon Mon.reset with status := 0, last := 0 } })

/-- `bmref`. -/
def bmrefBody (s : State) (i : Iss) : Res :=
  if finite64 i.sa then
    let s := s.montabWrite i.ctx i.mon 0x18 8 i.sa.toNat
    i.fin (s.updCtx i.ctx fun c => { c with mons := vset c.mons i.mon { vget c.mons i.mon Mon.reset with ref := i.sa } })
  else i.illegal s

/-- The object that a monitor is bound to, in the part's copy. -/
def State.setBound (s : State) (c m : Nat) (o : Option Nat) : State :=
  s.updCtx c fun x => { x with mons := vset x.mons m { vget x.mons m Mon.reset with bound := o } }

/-- A monitor is bound to an object that still names it (R324). -/
def State.boundElsewhere (s : State) (c m : Nat) : Bool :=
  match (vget (s.ctx c).mons m Mon.reset).bound with
  | some o => s.objCtx o == c && (s.objBound o).any fun x => x.2 == m
  | none => false

/-- A monitor of a context is on its way to a place of an object that passes a test. -/
def State.bindComing (s : State) (c m : Nat) (p : Nat → Bool) : Bool :=
  s.arrivals.any fun h => match h.bar, h.act with
    | .object pa, .bind _ k => k == m && p pa && s.objCtx pa == c
    | _, _ => false

/-- A place of an object taken by a binding of this clock. -/
def State.bindDue (s : State) (pa k : Nat) : Bool :=
  s.arrivals.any fun h => h.bar == .object pa && match h.act with | .bind j _ => j == k | _ => false

/-- `bmbind` (R324). -/
def bmbindBody (s : State) (i : Iss) : Res :=
  i.withObject s .rw false i.sa fun s pa =>
    if s.objChecking pa then .wait s .waitMonitor (.object pa)
    else if (s.objBound pa).any (fun x => x.2 == i.mon) || s.bindComing i.ctx i.mon (fun o => o == pa) then i.fin s
    else if s.boundElsewhere i.ctx i.mon || s.bindComing i.ctx i.mon (fun o => o != pa) then i.illegal s
    else
      match (List.range 4).find? fun k => (s.objBinding pa k).isNone && !(s.bindDue pa k) with
      | some k => i.fin ((s.reach (.object pa) i.agent (.bind k i.mon) none).setBound i.ctx i.mon (some pa))
      | none => i.illegal s

/-- `bmunbind` (R324). -/
def bmunbindBody (s : State) (i : Iss) : Res :=
  i.withObject s .rw false i.sa fun s pa =>
    if s.objChecking pa then .wait s .waitMonitor (.object pa)
    else
      match (s.objBound pa).find? fun x => x.2 == i.mon with
      | some x => i.fin ((s.reach (.object pa) i.agent (.unbind x.1) none).setBound i.ctx i.mon none)
      | none => i.fin s

/-- `bmrd` (R325): sel in imm7 [5:4]. The running total is asked of the slices at a split point, and read as the group goes on. -/
def bmrdBody (s : State) (i : Iss) : Res :=
  let m := vget (s.ctx i.ctx).mons i.mon Mon.reset
  match i.imm.toNat / 16 with
  | 0 => i.finS s m.status
  | 1 => i.finS s m.last
  | 2 => i.finS s m.ref
  | _ =>
    if i.g.sent then i.finS s (s.runningTotal i.ctx i.mon)
    else .wait ((s.drainCore i.core).updGrp i.agent fun g => { g with sent := true }) .waitMonitor .again

/-- Latch a balance monitor descriptor (R323). -/
def execBmset (e : Bool) (a : BitVec 7) (i : BitVec 4) (s : State) : Out :=
  issueWord (insnB 0x298 (sigB .zero .scalar) e 0 a i.toNat (some 15)) always bmsetBody s

/-- Set a monitor's reference value (R324). -/
def execBmref (e : Bool) (a : BitVec 7) (i : BitVec 4) (s : State) : Out :=
  issueWord (insnB 0x299 (sigB .zero .scalar) e 0 a i.toNat (some 15)) always bmrefBody s

/-- Bind a monitor to a memory barrier object (R324). -/
def execBmbind (e : Bool) (a : BitVec 7) (i : BitVec 4) (s : State) : Out :=
  issueWord (insnB 0x29A (sigB .zero .scalar) e 0 a i.toNat (some 15)) always bmbindBody s

/-- Zero a monitor's partials and status (R323). -/
def execBmclr (e : Bool) (i : BitVec 4) (s : State) : Out :=
  issueWord (insnB 0x29C (sigB .zero .zero) e 0 0 i.toNat (some 15)) always bmclrBody s

/-- Unbind a balance monitor from a memory barrier object (R324). -/
def execBmunbind (e : Bool) (a : BitVec 7) (i : BitVec 4) (s : State) : Out :=
  issueWord (insnB 0x29A (sigB .zero .scalar) e 0 a (64 + i.toNat) (some 79)) always bmunbindBody s

/-- Read a monitor's status, last total, reference or running total (R325). -/
def execBmrd (e : Bool) (d : BitVec 7) (sel : BitVec 2) (i : BitVec 4) (s : State) : Out :=
  issueWord (insnB 0x29B (sigB .scalar .zero) e d 0 (sel.toNat * 16 + i.toNat) (some 63)) always bmrdBody s

end Sys2Proof.Machine
end

