-- ==== Sys2Proof/Machine/Dispatch.lean ====
section
/-!
DEFINITION. Sys2Proof/Machine/Dispatch.lean: one arm per constructor of Instr, each a direct call of its meaning.
-/

namespace Sys2Proof.Machine

/-- What an instruction word or event does. -/
def exec (i : Instr) (s : State) : Host.Outcome State Fault Refusal :=
  match i with
  | .partReset imageOk cdOk xdOk linkOk => Sys2Proof.Machine.execPartReset imageOk cdOk xdOk linkOk s
  | .dieOutOfService die => Sys2Proof.Machine.execDieOutOfService die s
  | .rcvcmdCommit => Sys2Proof.Machine.execRcvcmdCommit s
  | .recoveryCheckDone pass found => Sys2Proof.Machine.execRecoveryCheckDone pass found s
  | .powerTick watts => Sys2Proof.Machine.execPowerTick watts s
  | .pwrlimWrite value => Sys2Proof.Machine.execPwrlimWrite value s
  | .scrub => Sys2Proof.Machine.execScrub s
  | .frameRetire frame => Sys2Proof.Machine.execFrameRetire frame s
  | .masterRelease off value => Sys2Proof.Machine.execMasterRelease off value s
  | .attestationReport nonce => Sys2Proof.Machine.execAttestationReport nonce s
  | .registerWrite off value => Sys2Proof.Machine.execRegisterWrite off value s
  | .commandWriteDropped off => Sys2Proof.Machine.execCommandWriteDropped off s
  | .ctxtabWrite value => Sys2Proof.Machine.execCtxtabWrite value s
  | .qtabWrite value => Sys2Proof.Machine.execQtabWrite value s
  | .windowAccess write pa size data => Sys2Proof.Machine.execWindowAccess write pa size data s
  | .ctxCreate ctx => Sys2Proof.Machine.execCtxCreate ctx s
  | .ctxLoad ctx => Sys2Proof.Machine.execCtxLoad ctx s
  | .ctxRun ctx => Sys2Proof.Machine.execCtxRun ctx s
  | .restoreReload ctx => Sys2Proof.Machine.execRestoreReload ctx s
  | .ctxDrain ctx => Sys2Proof.Machine.execCtxDrain ctx s
  | .ctxPark ctx => Sys2Proof.Machine.execCtxPark ctx s
  | .ctxReset ctx => Sys2Proof.Machine.execCtxReset ctx s
  | .ctxDestroy ctx => Sys2Proof.Machine.execCtxDestroy ctx s
  | .d1Expire ctx => Sys2Proof.Machine.execD1Expire ctx s
  | .d2Expire ctx => Sys2Proof.Machine.execD2Expire ctx s
  | .saveComplete ctx => Sys2Proof.Machine.execSaveComplete ctx s
  | .resetComplete ctx => Sys2Proof.Machine.execResetComplete ctx s
  | .groupParkStop agent => Sys2Proof.Machine.execGroupParkStop agent s
  | .queueOpen queue => Sys2Proof.Machine.execQueueOpen queue s
  | .queuePause queue => Sys2Proof.Machine.execQueuePause queue s
  | .queueResume queue => Sys2Proof.Machine.execQueueResume queue s
  | .queueDrain queue => Sys2Proof.Machine.execQueueDrain queue s
  | .queueClose queue => Sys2Proof.Machine.execQueueClose queue s
  | .queueClear queue => Sys2Proof.Machine.execQueueClear queue s
  | .tailObservation queue hostTail => Sys2Proof.Machine.execTailObservation queue hostTail s
  | .queueAdmit die => Sys2Proof.Machine.execQueueAdmit die s
  | .queuePriorityAging queue => Sys2Proof.Machine.execQueuePriorityAging queue s
  | .graphComplete graph => Sys2Proof.Machine.execGraphComplete graph s
  | .nodeFire die => Sys2Proof.Machine.execNodeFire die s
  | .nodeAging graph node => Sys2Proof.Machine.execNodeAging graph node s
  | .nodeWorkDone graph node => Sys2Proof.Machine.execNodeWorkDone graph node s
  | .coneVisit graph => Sys2Proof.Machine.execConeVisit graph s
  | .nodeTimeout graph node => Sys2Proof.Machine.execNodeTimeout graph node s
  | .nodeEngineDone engine => Sys2Proof.Machine.execNodeEngineDone engine s
  | .clusterOffer die => Sys2Proof.Machine.execClusterOffer die s
  | .clusterReserve grid => Sys2Proof.Machine.execClusterReserve grid s
  | .recut core => Sys2Proof.Machine.execRecut core s
  | .blockLaunchDone block => Sys2Proof.Machine.execBlockLaunchDone block s
  | .blockExit block => Sys2Proof.Machine.execBlockExit block s
  | .issueArbitration core quadrant => Sys2Proof.Machine.execIssueArbitration core quadrant s
  | .issuePromotion agent => Sys2Proof.Machine.execIssuePromotion agent s
  | .dependenceResolved agent => Sys2Proof.Machine.execDependenceResolved agent s
  | .phaseOverrun agent => Sys2Proof.Machine.execPhaseOverrun agent s
  | .asyncTrapDelivery agent => Sys2Proof.Machine.execAsyncTrapDelivery agent s
  | .vredLand agent => Sys2Proof.Machine.execVredLand agent s
  | .accComplete core => Sys2Proof.Machine.execAccComplete core s
  | .homeReq index => Sys2Proof.Machine.execHomeReq index s
  | .homeRsp index => Sys2Proof.Machine.execHomeRsp index s
  | .homeInv index => Sys2Proof.Machine.execHomeInv index s
  | .watchFire index => Sys2Proof.Machine.execWatchFire index s
  | .vwaitExpire agent => Sys2Proof.Machine.execVwaitExpire agent s
  | .lacerUnit core lacer => Sys2Proof.Machine.execLacerUnit core lacer s
  | .lacerCommandEnd core lacer => Sys2Proof.Machine.execLacerCommandEnd core lacer s
  | .dmasub value => Sys2Proof.Machine.execDmasub value s
  | .dmaDescriptorStart engine => Sys2Proof.Machine.execDmaDescriptorStart engine s
  | .dmaDescriptorComplete engine => Sys2Proof.Machine.execDmaDescriptorComplete engine s
  | .barrierBatch bar => Sys2Proof.Machine.execBarrierBatch bar s
  | .monitorCollect check slice => Sys2Proof.Machine.execMonitorCollect check slice s
  | .monitorCheckDone check => Sys2Proof.Machine.execMonitorCheckDone check s
  | .barrierWatchdog bar => Sys2Proof.Machine.execBarrierWatchdog bar s
  | .clusterBarrierExchange bar => Sys2Proof.Machine.execClusterBarrierExchange bar s
  | .stopMarking index => Sys2Proof.Machine.execStopMarking index s
  | .reentry agent => Sys2Proof.Machine.execReentry agent s
  | .logApplied index => Sys2Proof.Machine.execLogApplied index s
  | .pageWalkDone index => Sys2Proof.Machine.execPageWalkDone index s
  | .tlbInvalidatePage ctx va => Sys2Proof.Machine.execTlbInvalidatePage ctx va s
  | .tlbInvalidateContext ctx => Sys2Proof.Machine.execTlbInvalidateContext ctx s
  | .tlbInvalidateLease lease => Sys2Proof.Machine.execTlbInvalidateLease lease s
  | .leaseRevoke lease => Sys2Proof.Machine.execLeaseRevoke lease s
  | .leaseReturn lease => Sys2Proof.Machine.execLeaseReturn lease s
  | .revocationMessage lease => Sys2Proof.Machine.execRevocationMessage lease s
  | .leaseDeadline lease => Sys2Proof.Machine.execLeaseDeadline lease s
  | .leaseAcknowledge lease => Sys2Proof.Machine.execLeaseAcknowledge lease s
  | .leaseAckTimeout lease => Sys2Proof.Machine.execLeaseAckTimeout lease s
  | .linkEnable link => Sys2Proof.Machine.execLinkEnable link s
  | .linkDisable link => Sys2Proof.Machine.execLinkDisable link s
  | .retrain link => Sys2Proof.Machine.execRetrain link s
  | .linkTrained link half fast hdm cxlCache => Sys2Proof.Machine.execLinkTrained link half fast hdm cxlCache s
  | .linkTrainFailed link => Sys2Proof.Machine.execLinkTrainFailed link s
  | .replayFailure link => Sys2Proof.Machine.execReplayFailure link s
  | .hostAccess xd fn bar off kind size data => Sys2Proof.Machine.execHostAccess xd fn bar off kind size data s
  | .cxlMemAccess xd off write data => Sys2Proof.Machine.execCxlMemAccess xd off write data s
  | .cxlCacheSnoop line => Sys2Proof.Machine.execCxlCacheSnoop line s
  | .fabricRequest port peer kind op et addr size data cmp => Sys2Proof.Machine.execFabricRequest port peer kind op et addr size data cmp s
  | .dbgHalt ctx => Sys2Proof.Machine.execDbgHalt ctx s
  | .dbgResume ctx => Sys2Proof.Machine.execDbgResume ctx s
  | .dbgDump ctx => Sys2Proof.Machine.execDbgDump ctx s
  | .dumpDone ctx => Sys2Proof.Machine.execDumpDone ctx s
  | .groupBroadcastStop agent => Sys2Proof.Machine.execGroupBroadcastStop agent s
  | .broadcastComplete ctx => Sys2Proof.Machine.execBroadcastComplete ctx s
  | .snapshotTick => Sys2Proof.Machine.execSnapshotTick s
  | .sadd e d a b => Sys2Proof.Machine.execSadd e d a b s
  | .ssub e d a b => Sys2Proof.Machine.execSsub e d a b s
  | .smul e d a b => Sys2Proof.Machine.execSmul e d a b s
  | .smulh e d a b => Sys2Proof.Machine.execSmulh e d a b s
  | .smulhu e d a b => Sys2Proof.Machine.execSmulhu e d a b s
  | .sdiv e d a b => Sys2Proof.Machine.execSdiv e d a b s
  | .sdivu e d a b => Sys2Proof.Machine.execSdivu e d a b s
  | .srem e d a b => Sys2Proof.Machine.execSrem e d a b s
  | .sremu e d a b => Sys2Proof.Machine.execSremu e d a b s
  | .sand e d a b => Sys2Proof.Machine.execSand e d a b s
  | .sor e d a b => Sys2Proof.Machine.execSor e d a b s
  | .sxor e d a b => Sys2Proof.Machine.execSxor e d a b s
  | .sshl e d a b => Sys2Proof.Machine.execSshl e d a b s
  | .sshr e d a b => Sys2Proof.Machine.execSshr e d a b s
  | .ssra e d a b => Sys2Proof.Machine.execSsra e d a b s
  | .smin e d a b => Sys2Proof.Machine.execSmin e d a b s
  | .smax e d a b => Sys2Proof.Machine.execSmax e d a b s
  | .sminu e d a b => Sys2Proof.Machine.execSminu e d a b s
  | .smaxu e d a b => Sys2Proof.Machine.execSmaxu e d a b s
  | .sseq e d a b => Sys2Proof.Machine.execSseq e d a b s
  | .sslt e d a b => Sys2Proof.Machine.execSslt e d a b s
  | .ssltu e d a b => Sys2Proof.Machine.execSsltu e d a b s
  | .ssel e d a b => Sys2Proof.Machine.execSsel e d a b s
  | .sclz e d a => Sys2Proof.Machine.execSclz e d a s
  | .spopc e d a => Sys2Proof.Machine.execSpopc e d a s
  | .sbrev e d a => Sys2Proof.Machine.execSbrev e d a s
  | .sext e d a imm => Sys2Proof.Machine.execSext e d a imm s
  | .slea e d a b => Sys2Proof.Machine.execSlea e d a b s
  | .saddi e d a imm => Sys2Proof.Machine.execSaddi e d a imm s
  | .sandi e d a imm => Sys2Proof.Machine.execSandi e d a imm s
  | .sori e d a imm => Sys2Proof.Machine.execSori e d a imm s
  | .sxori e d a imm => Sys2Proof.Machine.execSxori e d a imm s
  | .sshli e d a imm => Sys2Proof.Machine.execSshli e d a imm s
  | .sshri e d a imm => Sys2Proof.Machine.execSshri e d a imm s
  | .ssrai e d a imm => Sys2Proof.Machine.execSsrai e d a imm s
  | .sli e d imm => Sys2Proof.Machine.execSli e d imm s
  | .br imm => Sys2Proof.Machine.execBr imm s
  | .brz a o => Sys2Proof.Machine.execBrz a o s
  | .brnz a o => Sys2Proof.Machine.execBrnz a o s
  | .brany a o => Sys2Proof.Machine.execBrany a o s
  | .brall a o => Sys2Proof.Machine.execBrall a o s
  | .call imm => Sys2Proof.Machine.execCall imm s
  | .ret => Sys2Proof.Machine.execRet s
  | .jmp a o => Sys2Proof.Machine.execJmp a o s
  | .vbr a o => Sys2Proof.Machine.execVbr a o s
  | .vjoin => Sys2Proof.Machine.execVjoin s
  | .exit => Sys2Proof.Machine.execExit s
  | .nop e => Sys2Proof.Machine.execNop e s
  | .phase e imm => Sys2Proof.Machine.execPhase e imm s
  | .setmode e a => Sys2Proof.Machine.execSetmode e a s
  | .modei e d imm => Sys2Proof.Machine.execModei e d imm s
  | .getmode e d => Sys2Proof.Machine.execGetmode e d s
  | .srd e d imm => Sys2Proof.Machine.execSrd e d imm s
  | .swr e d imm => Sys2Proof.Machine.execSwr e d imm s
  | .trap e imm => Sys2Proof.Machine.execTrap e imm s
  | .tret => Sys2Proof.Machine.execTret s
  | .bkpt e imm => Sys2Proof.Machine.execBkpt e imm s
  | .haltInsn e => Sys2Proof.Machine.execHaltInsn e s
  | .wpset e a b => Sys2Proof.Machine.execWpset e a b s
  | .wpclr e imm => Sys2Proof.Machine.execWpclr e imm s
  | .trc e a imm => Sys2Proof.Machine.execTrc e a imm s
  | .gget e d a imm => Sys2Proof.Machine.execGget e d a imm s
  | .gput e d a imm => Sys2Proof.Machine.execGput e d a imm s
  | .mbox e d a b => Sys2Proof.Machine.execMbox e d a b s
  | .perfrd e d imm => Sys2Proof.Machine.execPerfrd e d imm s
  | .enrd e d a => Sys2Proof.Machine.execEnrd e d a s
  | .sldB e d a imm => Sys2Proof.Machine.execSldB e d a imm s
  | .sldH e d a imm => Sys2Proof.Machine.execSldH e d a imm s
  | .sldW e d a imm => Sys2Proof.Machine.execSldW e d a imm s
  | .sldD e d a imm => Sys2Proof.Machine.execSldD e d a imm s
  | .slduB e d a imm => Sys2Proof.Machine.execSlduB e d a imm s
  | .slduH e d a imm => Sys2Proof.Machine.execSlduH e d a imm s
  | .slduW e d a imm => Sys2Proof.Machine.execSlduW e d a imm s
  | .sstB e d a imm => Sys2Proof.Machine.execSstB e d a imm s
  | .sstH e d a imm => Sys2Proof.Machine.execSstH e d a imm s
  | .sstW e d a imm => Sys2Proof.Machine.execSstW e d a imm s
  | .sstD e d a imm => Sys2Proof.Machine.execSstD e d a imm s
  | .sldDAcq e d a imm => Sys2Proof.Machine.execSldDAcq e d a imm s
  | .sstDRel e d a imm => Sys2Proof.Machine.execSstDRel e d a imm s
  | .sldWAcq e d a imm => Sys2Proof.Machine.execSldWAcq e d a imm s
  | .sstWRel e d a imm => Sys2Proof.Machine.execSstWRel e d a imm s
  | .fence e imm => Sys2Proof.Machine.execFence e imm s
  | .waitv e d a b => Sys2Proof.Machine.execWaitv e d a b s
  | .atomAdd e d a b => Sys2Proof.Machine.execAtomAdd e d a b s
  | .atomAnd e d a b => Sys2Proof.Machine.execAtomAnd e d a b s
  | .atomOr e d a b => Sys2Proof.Machine.execAtomOr e d a b s
  | .atomXor e d a b => Sys2Proof.Machine.execAtomXor e d a b s
  | .atomMin e d a b => Sys2Proof.Machine.execAtomMin e d a b s
  | .atomMax e d a b => Sys2Proof.Machine.execAtomMax e d a b s
  | .atomMinu e d a b => Sys2Proof.Machine.execAtomMinu e d a b s
  | .atomMaxu e d a b => Sys2Proof.Machine.execAtomMaxu e d a b s
  | .atomExch e d a b => Sys2Proof.Machine.execAtomExch e d a b s
  | .atomCas e d a b => Sys2Proof.Machine.execAtomCas e d a b s
  | .atomFadd e d a b => Sys2Proof.Machine.execAtomFadd e d a b s
  | .pldW e d a imm => Sys2Proof.Machine.execPldW e d a imm s
  | .pldD e d a imm => Sys2Proof.Machine.execPldD e d a imm s
  | .pstW e d a imm => Sys2Proof.Machine.execPstW e d a imm s
  | .pstD e d a imm => Sys2Proof.Machine.execPstD e d a imm s
  | .vadd e d a b => Sys2Proof.Machine.execVadd e d a b s
  | .vsub e d a b => Sys2Proof.Machine.execVsub e d a b s
  | .vmul e d a b => Sys2Proof.Machine.execVmul e d a b s
  | .vmulh e d a b => Sys2Proof.Machine.execVmulh e d a b s
  | .vmulhu e d a b => Sys2Proof.Machine.execVmulhu e d a b s
  | .vmad e d a b => Sys2Proof.Machine.execVmad e d a b s
  | .vmin e d a b => Sys2Proof.Machine.execVmin e d a b s
  | .vmax e d a b => Sys2Proof.Machine.execVmax e d a b s
  | .vminu e d a b => Sys2Proof.Machine.execVminu e d a b s
  | .vmaxu e d a b => Sys2Proof.Machine.execVmaxu e d a b s
  | .vabs e d a => Sys2Proof.Machine.execVabs e d a s
  | .vneg e d a => Sys2Proof.Machine.execVneg e d a s
  | .vand e d a b => Sys2Proof.Machine.execVand e d a b s
  | .vor e d a b => Sys2Proof.Machine.execVor e d a b s
  | .vxor e d a b => Sys2Proof.Machine.execVxor e d a b s
  | .vnot e d a => Sys2Proof.Machine.execVnot e d a s
  | .vshl e d a b => Sys2Proof.Machine.execVshl e d a b s
  | .vshr e d a b => Sys2Proof.Machine.execVshr e d a b s
  | .vsra e d a b => Sys2Proof.Machine.execVsra e d a b s
  | .vclz e d a => Sys2Proof.Machine.execVclz e d a s
  | .vpopc e d a => Sys2Proof.Machine.execVpopc e d a s
  | .vcmpeq e d a b => Sys2Proof.Machine.execVcmpeq e d a b s
  | .vcmplt e d a b => Sys2Proof.Machine.execVcmplt e d a b s
  | .vcmpltu e d a b => Sys2Proof.Machine.execVcmpltu e d a b s
  | .vcmple e d a b => Sys2Proof.Machine.execVcmple e d a b s
  | .vsel e d a b => Sys2Proof.Machine.execVsel e d a b s
  | .vaddi e d a imm => Sys2Proof.Machine.execVaddi e d a imm s
  | .vshli e d a imm => Sys2Proof.Machine.execVshli e d a imm s
  | .vshri e d a imm => Sys2Proof.Machine.execVshri e d a imm s
  | .vsrai e d a imm => Sys2Proof.Machine.execVsrai e d a imm s
  | .vandi e d a imm => Sys2Proof.Machine.execVandi e d a imm s
  | .vmov e d a => Sys2Proof.Machine.execVmov e d a s
  | .vsplat e d a => Sys2Proof.Machine.execVsplat e d a s
  | .vins e d a b => Sys2Proof.Machine.execVins e d a b s
  | .vperm e d a b => Sys2Proof.Machine.execVperm e d a b s
  | .vshfl e d a b => Sys2Proof.Machine.execVshfl e d a b s
  | .vbcast e d a imm => Sys2Proof.Machine.execVbcast e d a imm s
  | .vrotl e d a imm => Sys2Proof.Machine.execVrotl e d a imm s
  | .vpack e d a b => Sys2Proof.Machine.execVpack e d a b s
  | .vunpk e d a => Sys2Proof.Machine.execVunpk e d a s
  | .vzip e d a b => Sys2Proof.Machine.execVzip e d a b s
  | .vunzip e d a b => Sys2Proof.Machine.execVunzip e d a b s
  | .viota e d => Sys2Proof.Machine.execViota e d s
  | .pand e d a b => Sys2Proof.Machine.execPand e d a b s
  | .por e d a b => Sys2Proof.Machine.execPor e d a b s
  | .pxor e d a b => Sys2Proof.Machine.execPxor e d a b s
  | .pnot e d a => Sys2Proof.Machine.execPnot e d a s
  | .pmov e d a => Sys2Proof.Machine.execPmov e d a s
  | .pget e d a => Sys2Proof.Machine.execPget e d a s
  | .vredAdd e d a => Sys2Proof.Machine.execVredAdd e d a s
  | .vredMax e d a => Sys2Proof.Machine.execVredMax e d a s
  | .vredMin e d a => Sys2Proof.Machine.execVredMin e d a s
  | .vredAnd e d a => Sys2Proof.Machine.execVredAnd e d a s
  | .vredOr e d a => Sys2Proof.Machine.execVredOr e d a s
  | .vredlAdd e d a => Sys2Proof.Machine.execVredlAdd e d a s
  | .vscanAdd e d a => Sys2Proof.Machine.execVscanAdd e d a s
  | .yget e d a imm => Sys2Proof.Machine.execYget e d a imm s
  | .yseq e d a => Sys2Proof.Machine.execYseq e d a s
  | .vsrd e d imm => Sys2Proof.Machine.execVsrd e d imm s
  | .fadd e d a b => Sys2Proof.Machine.execFadd e d a b s
  | .fsub e d a b => Sys2Proof.Machine.execFsub e d a b s
  | .fmul e d a b => Sys2Proof.Machine.execFmul e d a b s
  | .ffma e d a b => Sys2Proof.Machine.execFfma e d a b s
  | .ffms e d a b => Sys2Proof.Machine.execFfms e d a b s
  | .fnma e d a b => Sys2Proof.Machine.execFnma e d a b s
  | .fmin e d a b => Sys2Proof.Machine.execFmin e d a b s
  | .fmax e d a b => Sys2Proof.Machine.execFmax e d a b s
  | .fabs e d a => Sys2Proof.Machine.execFabs e d a s
  | .fneg e d a => Sys2Proof.Machine.execFneg e d a s
  | .fcpys e d a b => Sys2Proof.Machine.execFcpys e d a b s
  | .frcp e d a => Sys2Proof.Machine.execFrcp e d a s
  | .frsq e d a => Sys2Proof.Machine.execFrsq e d a s
  | .fsqrt e d a => Sys2Proof.Machine.execFsqrt e d a s
  | .fexp2 e d a => Sys2Proof.Machine.execFexp2 e d a s
  | .flog2 e d a => Sys2Proof.Machine.execFlog2 e d a s
  | .ftanh e d a => Sys2Proof.Machine.execFtanh e d a s
  | .fcmpeq e d a b => Sys2Proof.Machine.execFcmpeq e d a b s
  | .fcmplt e d a b => Sys2Proof.Machine.execFcmplt e d a b s
  | .fcmple e d a b => Sys2Proof.Machine.execFcmple e d a b s
  | .fcmpun e d a b => Sys2Proof.Machine.execFcmpun e d a b s
  | .fclass e d a => Sys2Proof.Machine.execFclass e d a s
  | .frnd e d a => Sys2Proof.Machine.execFrnd e d a s
  | .fsel e d a b => Sys2Proof.Machine.execFsel e d a b s
  | .fcvt e d a => Sys2Proof.Machine.execFcvt e d a s
  | .ftoi e d a => Sys2Proof.Machine.execFtoi e d a s
  | .itof e d a => Sys2Proof.Machine.execItof e d a s
  | .mxq e d a b => Sys2Proof.Machine.execMxq e d a b s
  | .mxdq e d a => Sys2Proof.Machine.execMxdq e d a s
  | .kget e d a => Sys2Proof.Machine.execKget e d a s
  | .kset e d a => Sys2Proof.Machine.execKset e d a s
  | .kadd e d a b => Sys2Proof.Machine.execKadd e d a b s
  | .kmax e d a b => Sys2Proof.Machine.execKmax e d a b s
  | .xcvt e d a => Sys2Proof.Machine.execXcvt e d a s
  | .vldW e d a b => Sys2Proof.Machine.execVldW e d a b s
  | .vldD e d a b => Sys2Proof.Machine.execVldD e d a b s
  | .vldQ e d a b => Sys2Proof.Machine.execVldQ e d a b s
  | .vldO e d a b => Sys2Proof.Machine.execVldO e d a b s
  | .vstW e d a b => Sys2Proof.Machine.execVstW e d a b s
  | .vstD e d a b => Sys2Proof.Machine.execVstD e d a b s
  | .vstQ e d a b => Sys2Proof.Machine.execVstQ e d a b s
  | .vstO e d a b => Sys2Proof.Machine.execVstO e d a b s
  | .vldsW e d a b => Sys2Proof.Machine.execVldsW e d a b s
  | .vldsD e d a b => Sys2Proof.Machine.execVldsD e d a b s
  | .vldsQ e d a b => Sys2Proof.Machine.execVldsQ e d a b s
  | .vldsO e d a b => Sys2Proof.Machine.execVldsO e d a b s
  | .vstsW e d a b => Sys2Proof.Machine.execVstsW e d a b s
  | .vstsD e d a b => Sys2Proof.Machine.execVstsD e d a b s
  | .vstsQ e d a b => Sys2Proof.Machine.execVstsQ e d a b s
  | .vstsO e d a b => Sys2Proof.Machine.execVstsO e d a b s
  | .vldOAcq e d a b => Sys2Proof.Machine.execVldOAcq e d a b s
  | .vstORel e d a b => Sys2Proof.Machine.execVstORel e d a b s
  | .vldQAcq e d a b => Sys2Proof.Machine.execVldQAcq e d a b s
  | .vstQRel e d a b => Sys2Proof.Machine.execVstQRel e d a b s
  | .vldmx e d a b => Sys2Proof.Machine.execVldmx e d a b s
  | .vstmx e d a b => Sys2Proof.Machine.execVstmx e d a b s
  | .pldO e d a => Sys2Proof.Machine.execPldO e d a s
  | .pstO e d a => Sys2Proof.Machine.execPstO e d a s
  | .pldmx e d a b => Sys2Proof.Machine.execPldmx e d a b s
  | .pstmx e d a b => Sys2Proof.Machine.execPstmx e d a b s
  | .vatomAdd e d a b => Sys2Proof.Machine.execVatomAdd e d a b s
  | .vatomMin e d a b => Sys2Proof.Machine.execVatomMin e d a b s
  | .vatomMax e d a b => Sys2Proof.Machine.execVatomMax e d a b s
  | .vatomExch e d a b => Sys2Proof.Machine.execVatomExch e d a b s
  | .vatomCas e d a b => Sys2Proof.Machine.execVatomCas e d a b s
  | .vatomFadd e d a b => Sys2Proof.Machine.execVatomFadd e d a b s
  | .redstAdd e d a b => Sys2Proof.Machine.execRedstAdd e d a b s
  | .redstMin e d a b => Sys2Proof.Machine.execRedstMin e d a b s
  | .redstMax e d a b => Sys2Proof.Machine.execRedstMax e d a b s
  | .redstFadd e d a b => Sys2Proof.Machine.execRedstFadd e d a b s
  | .redstX e d a b => Sys2Proof.Machine.execRedstX e d a b s
  | .vprefetch e a b => Sys2Proof.Machine.execVprefetch e a b s
  | .lace e d a imm => Sys2Proof.Machine.execLace e d a imm s
  | .lacew e a imm => Sys2Proof.Machine.execLacew e a imm s
  | .laceq e d imm => Sys2Proof.Machine.execLaceq e d imm s
  | .lacek e a imm => Sys2Proof.Machine.execLacek e a imm s
  | .rngget e d imm => Sys2Proof.Machine.execRngget e d imm s
  | .rngput e imm => Sys2Proof.Machine.execRngput e imm s
  | .rngputInit e a imm => Sys2Proof.Machine.execRngputInit e a imm s
  | .rngacq e d imm => Sys2Proof.Machine.execRngacq e d imm s
  | .rngrel e imm => Sys2Proof.Machine.execRngrel e imm s
  | .town e d a imm => Sys2Proof.Machine.execTown e d a imm s
  | .bara e d imm => Sys2Proof.Machine.execBara e d imm s
  | .baraw e d imm => Sys2Proof.Machine.execBaraw e d imm s
  | .barw e a imm => Sys2Proof.Machine.execBarw e a imm s
  | .bard e d imm => Sys2Proof.Machine.execBard e d imm s
  | .barx e a imm => Sys2Proof.Machine.execBarx e a imm s
  | .barq e d imm => Sys2Proof.Machine.execBarq e d imm s
  | .barma e d a => Sys2Proof.Machine.execBarma e d a s
  | .barmaw e d a => Sys2Proof.Machine.execBarmaw e d a s
  | .barmw e a b => Sys2Proof.Machine.execBarmw e a b s
  | .barmd e d a => Sys2Proof.Machine.execBarmd e d a s
  | .barmx e a b => Sys2Proof.Machine.execBarmx e a b s
  | .barmq e d a => Sys2Proof.Machine.execBarmq e d a s
  | .capb e d a => Sys2Proof.Machine.execCapb e d a s
  | .caps => Sys2Proof.Machine.execCaps s
  | .cape => Sys2Proof.Machine.execCape s
  | .capr e d a => Sys2Proof.Machine.execCapr e d a s
  | .bmset e a imm => Sys2Proof.Machine.execBmset e a imm s
  | .bmref e a imm => Sys2Proof.Machine.execBmref e a imm s
  | .bmbind e a imm => Sys2Proof.Machine.execBmbind e a imm s
  | .bmunbind e a imm => Sys2Proof.Machine.execBmunbind e a imm s
  | .bmrd e d sel imm => Sys2Proof.Machine.execBmrd e d sel imm s
  | .bmclr e imm => Sys2Proof.Machine.execBmclr e imm s
  | .gtok e => Sys2Proof.Machine.execGtok e s
  | .glaunch e d a b => Sys2Proof.Machine.execGlaunch e d a b s
  | .gstat e d a b => Sys2Proof.Machine.execGstat e d a b s
  | .gcancel e d a b => Sys2Proof.Machine.execGcancel e d a b s
  | .gfail e a => Sys2Proof.Machine.execGfail e a s
  | .yield => Sys2Proof.Machine.execYield s
  | .arel e a => Sys2Proof.Machine.execArel e a s
  | .rqnt e d a b => Sys2Proof.Machine.execRqnt e d a b s
  | .rqntt e d a b => Sys2Proof.Machine.execRqntt e d a b s
  | .ald e d a b => Sys2Proof.Machine.execAld e d a b s
  | .ast e d a b => Sys2Proof.Machine.execAst e d a b s
  | .azero e d a => Sys2Proof.Machine.execAzero e d a s
  | .apatch e d a b => Sys2Proof.Machine.execApatch e d a b s
  | .aget e d a b => Sys2Proof.Machine.execAget e d a b s
  | .ahnd e d a b => Sys2Proof.Machine.execAhnd e d a b s
  | .mma e sel h z n a b => Sys2Proof.Machine.execMma e sel h z n a b s
  | .ext p => Sys2Proof.Machine.execExt p s
  | .unassignedOpcode word => Sys2Proof.Machine.execUnassignedOpcode word s
  | .reservedFieldWord word => Sys2Proof.Machine.execReservedFieldWord word s
  | .hostWindowPoll agent value => Sys2Proof.Machine.execHostWindowPoll agent value s
  | .linkLevelReplay link => Sys2Proof.Machine.execLinkLevelReplay link s
  | .hostOrPeerCompletion id refused data => Sys2Proof.Machine.execHostOrPeerCompletion id refused data s
  | .attestationKeyCertify => Sys2Proof.Machine.execAttestationKeyCertify s

end Sys2Proof.Machine
end

