-- ==== Sys2Proof/Machine/Tick.lean ====
section
/-!
DEFINITION. Sys2Proof/Machine/Tick.lean: the passing of a clock: CLK (03 R76), what counts clocks (04 R92, 06 R126, R412, 08 R166, 16 R309,
21 R399), and what has been held back, tried again: the part's writes at a MIGRATING leaf, stop records (21 R392), trace packets (R397),
counter records (R400), and what follows an invalidation (18 R355).
-/

namespace Sys2Proof.Machine

/-- The phase index at which a group's clocks count in a placement record (06 R126). -/
def Group.phaseIndex (g : Group) : Nat := min g.phase.toNat 15

/-- The groups of a grid: agent, group, and the core. -/
def State.gridGroups (s : State) (k : Nat) : List (Nat × Group) :=
  s.groups.filter fun ag => match s.blk ag.2.block with
    | some b => b.grid == k
    | none => false

/-- One more clock in a count of a placement record. -/
def busyCount (m : AMap (Nat × Nat)) (i : Nat) (busy : Bool) : AMap (Nat × Nat) :=
  let w := (amGet m i).getD (0, 0)
  amSet m i (if busy then (w.1 + 1, w.2) else (w.1, w.2 + 1))

/-- The placement record's counts after a clock in which the given agents issued: a core on which a group of the
grid issued is busy in the phases of the groups that did, another core with a block of the grid is idle in the phases of its groups. -/
def State.gridBusy (s : State) (k : Nat) (g : Grid) (issued : List Nat) : AMap (Nat × Nat) :=
  let mine := s.gridGroups k
  let cores := (mine.map fun ag => coreOf ag.1).eraseDups
  cores.foldl (fun m c =>
    let here := mine.filter fun ag => coreOf ag.1 == c
    let now := here.filter fun ag => issued.contains ag.1
    let phases := fun (gs : List (Nat × Group)) => (gs.map fun ag => ag.2.phaseIndex).eraseDups
    (phases (if now = [] then here else now)).foldl (fun m p => busyCount m (c * 16 + p) (now != [])) m) g.busy

/-- The clocks for which a grid's next cluster has been on offer without being admitted (07 R140). -/
def Grid.tickOffer (g : Grid) (on : Bool) : Grid := if g.tried && on then { g with waited := g.waited + 1 } else g

/-- A grid after a clock (06 R126): TIME leaves out the clocks in which its context is not RUNNING, a placement record does not. -/
def State.tickGrid (s : State) (k : Nat) (g : Grid) (issued : List Nat) : Grid :=
  let c := s.ctx g.ctx
  if g.started then
    { g with clocks := if c.state = .running then g.clocks + 1 else g.clocks,
             busy := if c.pinVariant then s.gridBusy k g issued else g.busy }
  else g

/-- A WAIT or HOST node's timeout counts the clocks in which its context runs (06 R412). -/
def State.tickGraph (s : State) (g : Graph) : Graph :=
  if (s.ctx g.ctx).state = .running then
    { g with nodes := g.nodes.map fun n =>
        if n.state = nRunning ∧ (n.kind = 5 ∨ n.kind = 7) then { n with waited := n.waited + 1 } else n }
  else g

/-- A context's deadline counts in DRAINING and in PARKING (04 R92). -/
def Ctx.tick (c : Ctx) : Ctx := if c.state = .draining ∨ c.state = .parking then { c with dcnt := c.dcnt + 1 } else c

/-- Messages move in the clock that comes: the fills of the misses in hand arrive, and their entries are free (11 R226, log 14). -/
def State.movesNext (s : State) : Bool := (s.clk.toNat + 1) % 64 == 0

/-- The cores with trace packets still to be written go on with them (21 R397). -/
def State.retryTrace (s : State) : State := ((s.cores.filter fun x => x.2.trace.buf != []).map (·.1)).foldl State.traceFlush s

/-- What has been held back is tried again. -/
def State.retryAll (s : State) : State :=
  s.retryLater.retryRecords.retryStops.retryTrace.retryLatches.followObjects.settleNow

/-- A clock passes. -/
def State.tick (s : State) : State :=
  let t := s.tickDogs.retryAll
  { t with
    clk := s.clk + 1
    used := []
    putOff := []
    groups := amMap (fun _ g => s.tickGroup g) t.groups
    cores := amMap (fun c k => { s.tickCore c k with scr := s.zeroed c (s.clk.toNat + 1) k.scr, scrPoison := s.zeroedPoison c (s.clk.toNat + 1) k.scrPoison, missing := if s.movesNext then [] else k.missing }) t.cores
    grids := amMap (fun k g => (s.tickGrid k g s.used).tickOffer (s.offered g)) t.grids
    graphs := amMap (fun _ g => s.tickGraph g) t.graphs
    ctxs := amMap (fun _ c => c.tick) t.ctxs }

end Sys2Proof.Machine
end

