-- ==== Sys2Proof/Machine/Due.lean ====
section
/-!
DEFINITION. Sys2Proof/Machine/Due.lean: the event that comes next of those that the part brings about itself, none where the clock is
done with. Events of one clock come in the order of 04 R93, 05 R113, 06 R124, 07 R150, 08 R153 and 19 R362; an order that the spec leaves
open is the model's (log 9).
-/

namespace Sys2Proof.Machine

/-- The first number of a list that passes a test, as an event. -/
def firstOf (xs : List Nat) (p : Nat → Bool) (ev : Nat → Instr) : Option Instr := (xs.find? p).map ev

/-- The first event of a list of alternatives. -/
def firstEvent : List (Unit → Option Instr) → Option Instr
  | [] => none
  | f :: r =>
    match f () with
    | some e => some e
    | none => firstEvent r

/-- The numbers present in data by number. -/
def keysOf {α : Type} (m : AMap α) : List Nat := m.map (·.1)

/-- Indexes of a list. -/
def indexes {α : Type} (xs : List α) : List Nat := List.range xs.length

/-- The cores that hold something. -/
def State.busyCores (s : State) : List Nat := keysOf s.cores

/-- The nodes of running graphs: graph and node. -/
def State.allNodes (s : State) : List (Nat × Nat) :=
  (s.graphs.map fun g => (List.range g.2.nodes.length).map fun n => (g.1, n)).flatten

/-- An event of a node that passes a test. -/
def State.nodeEvent (s : State) (p : Nat → Nat → Bool) (ev : Nat → Nat → Instr) : Option Instr :=
  (s.allNodes.find? fun x => p x.1 x.2).map fun x => ev x.1 x.2

/-- Messages move: at every 64th clock, and where no group issues (log 9). -/
def State.messagesMove (s : State) : Bool := s.clk.toNat % 64 == 0 || s.issue.isEmpty

/-- What bring-up, memory and messages bring. -/
def State.dueMemory (s : State) : Option Instr :=
  firstEvent [
    fun _ => if s.stage = 0 ∧ s.ready = false ∧ s.recovery = false then
        some (.partReset s.bringUp.imageOk (s.bringUp.cdOk, s.bringUp.absent) s.bringUp.xdOk (s.bringUp.linkOk, s.bringUp.half)) else none,
    fun _ => firstOf s.revoking s.canLapse .leaseDeadline,
    fun _ => firstOf (indexes s.watches) s.canWatch .watchFire,
    fun _ => if s.capLogs = [] then none else some (.logApplied 0),
    fun _ => if s.turn.isSome then none else firstOf (indexes s.markings) s.canMark .stopMarking,
    fun _ => if s.clk.toNat % 16 = 0 ∧ s.misses ≠ [] then some (.pageWalkDone 0) else none,
    fun _ => if s.messagesMove then firstOf (indexes s.writes) s.canReq .homeReq else none,
    fun _ => if s.messagesMove then firstOf (indexes s.fills) s.canRsp .homeRsp else none,
    fun _ => if s.messagesMove then firstOf (indexes s.invs) s.canInv .homeInv else none,
    fun _ => if s.clk.toNat % 4 = 0 then firstOf s.busyCores s.canAcc .accComplete else none,
    fun _ => if s.clk.toNat % 4 = 0 then firstOf (keysOf s.groups) s.canLand .vredLand else none]

/-- What completes for blocks, contexts and cores (04 R93, 07 R150). -/
def State.dueContexts (s : State) : Option Instr :=
  firstEvent [
    fun _ => firstOf (keysOf s.blocks) s.canExit .blockExit,
    fun _ => firstOf (keysOf s.ctxs) s.canSave .saveComplete,
    fun _ => firstOf (keysOf s.ctxs) s.canEndReset .resetComplete,
    fun _ => firstOf (keysOf s.ctxs) s.canD1 .d1Expire,
    fun _ => firstOf (keysOf s.ctxs) s.canD2 .d2Expire,
    fun _ => firstOf s.busyCores s.canRecut .recut,
    fun _ => firstOf (keysOf s.blocks) s.canLaunch .blockLaunchDone,
    fun _ => firstOf (keysOf s.ctxs) s.canReload .restoreReload,
    fun _ => firstOf s.revoking s.canGiveUp .leaseAckTimeout]

/-- What reaches groups and barriers (08 R153, 16). -/
def State.dueGroups (s : State) : Option Instr :=
  let agents := keysOf s.groups
  let bars := fun (p : BarId → Bool) =>
    (((s.blocks.map fun b => (List.range 16).map fun i => BarId.block b.1 i).flatten ++
      (s.clusters.map fun c => (List.range 16).map fun i => BarId.cluster c.1 (i / 8) (i % 8)).flatten ++
      s.objDogs.map fun o => BarId.object o.1).find? p).map BarId.code
  firstEvent [
    fun _ => ((s.arrivals.map (·.bar)).find? s.canBatch).map fun b => .barrierBatch b.code,
    fun _ => if s.clusters = [] then none else (bars s.canExchange).map .clusterBarrierExchange,
    fun _ => (indexes s.checks).findSome? fun i =>
      match s.checks[i]? with
      | some k => k.slices.head?.map fun x => .monitorCollect i x
      | none => none,
    fun _ => firstOf (indexes s.checks) s.canJudge .monitorCheckDone,
    fun _ => firstOf agents s.canResolve .dependenceResolved,
    fun _ => firstOf agents s.canExpire .vwaitExpire,
    fun _ => firstOf agents s.canPoll fun a => .hostWindowPoll a 0,
    fun _ => (bars s.canDog).map .barrierWatchdog,
    fun _ => firstOf agents s.canStop .groupBroadcastStop,
    fun _ => firstOf agents s.canPark .groupParkStop,
    fun _ => firstOf agents s.canOverrun .phaseOverrun,
    fun _ => firstOf agents s.canDeliver .asyncTrapDelivery,
    fun _ => if s.turn.isSome then none else firstOf agents s.canReenter .reentry,
    fun _ => firstOf (keysOf s.ctxs) s.canBroadcastEnd .broadcastComplete,
    fun _ => firstOf (keysOf s.ctxs) s.canDump .dumpDone]

/-- What queues and graphs do, in the order of 05 R113 (completions, faults, then TAIL) and 06 R124 (completions, faults, tokens, then the
cone's visits and HALT_GRAPH). -/
def State.dueGraphs (s : State) : Option Instr :=
  let dies := fun (on : Bool) => if on then List.range Config.computeDies else []
  firstEvent [
    fun _ => s.nodeEvent s.canSucceed .nodeWorkDone,
    fun _ => s.nodeEvent s.canFinish .nodeWorkDone,
    fun _ => s.nodeEvent s.canTimeout .nodeTimeout,
    fun _ => if s.turn.isSome then none else firstOf (keysOf s.graphs) s.canVisit .coneVisit,
    fun _ => firstOf (keysOf s.graphs) s.canComplete .graphComplete,
    fun _ => firstOf (keysOf s.queues) s.canAge .queuePriorityAging,
    fun _ => firstOf (dies !s.queues.isEmpty) s.canAdmit .queueAdmit,
    fun _ => firstOf (keysOf s.queues) s.canObserve fun q => .tailObservation q (s.queue q).tail,
    fun _ => s.nodeEvent s.canRaise .nodeAging,
    fun _ => firstOf (dies !s.graphs.isEmpty) s.canFire .nodeFire]

/-- What follows everything else of a clock, its words and its commands included: the cluster distributors admit after the changes of
nodes, contexts and blocks (07 R150), queues follow their contexts and take their next entries after the clock's commands (05 R113), and the
power of 2^20 clocks is measured (22 R404). -/
def State.dueLate (s : State) : Option Instr :=
  firstEvent [
    fun _ => firstOf (keysOf s.queues) s.canFollow fun q => .tailObservation q (s.queue q).tail,
    fun _ => firstOf (keysOf s.queues) (fun q => (s.takeEntry q).isSome) fun q => .tailObservation q (s.queue q).tail,
    fun _ => firstOf (keysOf s.grids) s.canReserve .clusterReserve,
    fun _ => if s.grids.isEmpty then none else firstOf (List.range Config.computeDies) s.canOffer .clusterOffer,
    fun _ => if s.canPower then some (.powerTick (Config.measuredWatts s.clk.toNat)) else none]

/-- What Lacers and DMA engines do (12). -/
def State.dueEngines (s : State) : Option Instr :=
  let lacers := (s.busyCores.map fun c => (List.range 4).map fun l => (c, l)).flatten
  firstEvent [
    fun _ => (lacers.find? fun x => s.canEnd x.1 x.2).map fun x => .lacerCommandEnd x.1 x.2,
    fun _ => (lacers.find? fun x => s.canUnit x.1 x.2).map fun x => .lacerUnit x.1 x.2,
    fun _ => firstOf (keysOf s.engines) s.canStart .dmaDescriptorStart,
    fun _ => firstOf (keysOf s.engines) (fun e => (s.descStep e).isSome) .dmaDescriptorComplete,
    fun _ => firstOf (keysOf s.engines) (fun e => (s.engineStep e).isSome) .nodeEngineDone]

/-- What the issue slots do (08 R154), after everything that may make a group READY or stop it. -/
def State.dueIssue (s : State) : Option Instr :=
  firstEvent [
    fun _ => firstOf (keysOf s.groups) s.canPromote .issuePromotion,
    fun _ => ((s.groups.map fun ag => quadOf ag.1).eraseDups.find? fun q => s.canArbitrate (q / 4) (q % 4)).map fun q =>
      .issueArbitration (q / 4) (q % 4)]

/-- Events that a register write has led to: they follow it at once. -/
def followsWrite : Instr → Bool
  | .ctxCreate _ => true | .ctxLoad _ => true | .ctxRun _ => true | .ctxDrain _ => true | .ctxPark _ => true
  | .ctxReset _ => true | .ctxDestroy _ => true | .queueOpen _ => true | .queuePause _ => true | .queueResume _ => true
  | .queueDrain _ => true | .queueClose _ => true | .queueClear _ => true | .tlbInvalidatePage .. => true
  | .tlbInvalidateContext _ => true | .tlbInvalidateLease _ => true | .dmasub _ => true | .leaseRevoke _ => true | .leaseReturn _ => true | .masterRelease .. => true
  | .linkEnable _ => true | .linkDisable _ => true | .retrain _ => true | .ctxtabWrite _ => true | .qtabWrite _ => true
  | .pwrlimWrite _ => true | .rcvcmdCommit => true
  | _ => false

/-- The event that the part itself brings about next in this clock. -/
def State.due (s : State) : Option Instr :=
  firstEvent [
    fun _ => s.dueMemory,
    fun _ => s.dueContexts,
    fun _ => s.dueGroups,
    fun _ => s.dueEngines,
    fun _ => s.dueGraphs,
    fun _ => s.dueIssue,
    fun _ => if s.canSnapshot then some .snapshotTick else none]

/-- Some slots of the clock have been used, and others have not: the words of one clock come together. -/
def State.midClock (s : State) : Bool := s.used != [] && s.turn.isSome

/-- The link that an event of a clock reaches, with its rank among the clock's events of that link (19 R362): a training outcome, then a
link error, then a register write. -/
def linkRank : Instr → Option (Nat × Nat)
  | .linkTrained l .. => some (l, 0)
  | .linkTrainFailed l => some (l, 0)
  | .replayFailure l => some (l, 1)
  | .linkLevelReplay l => some (l, 1)
  | .linkEnable l => some (l, 2)
  | .linkDisable l => some (l, 2)
  | .retrain l => some (l, 2)
  | .registerWrite off _ => if 0x400 ≤ off ∧ off < 0xA00 then some ((off - 0x400) / 16, 2) else none
  | _ => none

/-- The release of a frozen host function or fabric port (22 R408). -/
def releases : Instr → Bool
  | .masterRelease .. => true
  | .registerWrite off _ => off == 0x0308 || off == 0x0310
  | _ => false

/-- A request of a host function or fabric port (22 R408). -/
def requests : Instr → Bool
  | .hostAccess .. => true
  | .fabricRequest .. => true
  | _ => false

/-- A write of QCMD. -/
def commandsQueue : Instr → Bool
  | .registerWrite off _ => off == 0x0120
  | _ => false

/-- A write of CTXCMD that destroys a context, and with it closes the context's queues (05 R112). -/
def destroys : Instr → Bool
  | .registerWrite off v => off == 0x0100 && bitsOf v 11 8 == 7
  | _ => false

/-- Of two events of one clock, the one that comes first whatever their order in the list: of one link, by rank (19 R362); the release of a
master before its requests (22 R408); the command on a queue before the end of its context (05 R113). -/
def beforeInClock (e x : Instr) : Bool :=
  (match linkRank e, linkRank x with
   | some a, some b => a.1 == b.1 && decide (a.2 < b.2)
   | _, _ => false) || (releases e && requests x) || (commandsQueue e && destroys x)

/-- The event of a clock's list that comes first: its head, unless another one comes before that. -/
def firstOfAgenda (e : Instr) (rest : List Instr) : Instr × List Instr :=
  let least := rest.foldl (fun m x => if beforeInClock x m then x else m) e
  if least = e then (e, rest) else (least, e :: rest.erase least)

/-- A command of DBGCMD: of the events of a clock it comes last (21 R395). -/
def debugCommand : Instr → Bool
  | .dbgHalt _ => true | .dbgResume _ => true | .dbgDump _ => true
  | _ => false

/-- What a host or peer sends over a link that retrains: the far side holds it (19 R362). -/
def State.heldBack (s : State) : Instr → Bool
  | .hostAccess xd .. => (s.hostLink xd).state == .retraining
  | .cxlMemAccess xd .. => (s.hostLink xd).state == .retraining
  | .fabricRequest port .. => (s.link (32 + port)).state == .retraining
  | .hostOrPeerCompletion id .. => s.extReqs.any fun r => r.id == id && (s.link r.link).state == .retraining
  | _ => false

/-- An event of the agenda taken at once: what the register write before it has led to. -/
def State.followed (s : State) : Option (Instr × State) :=
  match s.agenda with
  | [] => none
  | e :: rest => if followsWrite e then some (e, { s with agenda := rest }) else none

/-- An event that has come in taken out of its list. -/
def State.without (s : State) (e : Instr) : State :=
  if s.regWrites.contains e then { s with regWrites := s.regWrites.erase e } else { s with agenda := s.agenda.erase e }

/-- The next of what has come in: register writes, in their order, and then what hosts, peers, Walolmest and the core windows send. -/
def State.incoming (s : State) : Option (Instr × State) :=
  match (s.regWrites ++ s.agenda).filter fun e => !(debugCommand e) && !(s.heldBack e) with
  | [] => none
  | e :: rest =>
    let x := firstOfAgenda e rest
    some (x.1, s.without x.1)

/-- The next command of DBGCMD. -/
def State.debugNext (s : State) : Option (Instr × State) := (s.agenda.find? debugCommand).map fun e => (e, s.without e)

/-- What comes after the words of the clock: the commands of DBGCMD, then the words that were put off, then what comes last (`dueLate`). -/
def State.afterWords (s : State) : Option (Instr × State) :=
  if s.turn.isSome then none
  else
    match s.debugNext with
    | some x => some x
    | none => if s.lateTurn.isSome then none else s.dueLate.map fun e => (e, s)

/-- The next event, with the state in which it happens: what a register write has led to; then, unless the words of the clock are under
way, what is due (the completions, faults and stops of a clock come before its commands: 04 R93, 05 R113, 08 R153), then what has come in;
after the words of the clock, what follows them. -/
def State.nextEvent (s : State) : Option (Instr × State) :=
  match s.followed with
  | some x => some x
  | none =>
    if s.midClock then none
    else
      match s.due with
      | some d => some (d, s)
      | none =>
        match s.incoming with
        | some x => some x
        | none => s.afterWords

end Sys2Proof.Machine
end

