-- ==== Sys2Proof/Machine/Place.lean ====
section
/-!
DEFINITION. Sys2Proof/Machine/Place.lean: a word placed so that the next step fetches and issues it (log 1): the part is READY, a context
runs, and one group of a block of it holds an issue slot at the word.
-/

namespace Sys2Proof.Machine

/-- The kernel descriptor of the placed block. -/
def placeDesc : KDesc :=
  { entry := 0x10000, gdim := 1, bdim := 1, cldim := 1, straddle := false, regs := 128, acc := 0, scr := 1, l1min := 0, nph := 0,
    psize := 0, param := 0, phtab := 0, kseed := 0 }

/-- The placed block. -/
def placeBlock : Block :=
  { core := 0, ctx := 0, grid := 0, bid := 0, cluster := 0, rank := 0, desc := placeDesc, phases := [], slots := [0], regBase := 0,
    scrBase := 0x100000, launching := false, readyAt := 0, discarding := false, bars := Vector.replicate 16 (Bar.launch 1),
    tickets := Vector.replicate 4 0, lscope := Vector.replicate 4 [], lfault := Vector.replicate 4 none,
    lwatch := Vector.replicate 4 none, rings := [], holders := [], energy := 0 }

/-- The placed group: as after its launch with SEED 0 (02 R50), with the issue slot. -/
def placeGroup : Group :=
  { Group.launch 0 0 128 0x10000 0 (Vector.ofFn fun l => seedLane 0 l.val) with state := .issuing, onB := false }

/-- The leaf that maps the word's page: 64 KiB at its own address, RESIDENT in HBM, readable, writable, executable, accessed and
written. -/
def placeLeaf : TlbEntry := ⟨0, 0x10000, 1, 0x10DE1⟩

/-- The state with a word at the address where its group issues next. -/
def State.placeWord (s : State) (w : Nat) : State :=
  { s with
    ready := true
    stage := 6
    agenda := []
    regWrites := []
    ctxs := amSet s.ctxs 0 { s.ctx 0 with state := .running, active := true, nbv := 1, levels := 1 }
    cores := amSet s.cores 0 { s.core 0 with tlb := [placeLeaf] }
    blocks := amSet s.blocks 0 placeBlock
    groups := amSet s.groups 0 placeGroup
    issue := [0]
    used := []
    mem := writeLE s.mem 0x10000 4 w }

end Sys2Proof.Machine
end

