-- ==== Sys2Proof/Machine/Step.lean ====
section
/-!
DEFINITION. Sys2Proof/Machine/Step.lean: one step of the part: the next event, or the next word of the present clock, or the passing of
the clock.
-/

namespace Sys2Proof.Machine

/-- A step of the part (log 8, log 9). -/
noncomputable def step (s : State) : Host.Outcome State Fault Refusal :=
  match s.nextEvent with
  | some (e, t) => exec e t
  | none =>
    match s.fetchNext with
    | some (.word w t) => exec (decodeWord w) t
    | some (.stop t) => .next t
    | none => .next s.tick

/-- The state with a word placed where the next step fetches it (log 1). -/
def State.withFetchWord (s : State) (nbits w : Nat) : State := s.placeWord (w % 2 ^ nbits)

end Sys2Proof.Machine
end

