-- ==== Sys2Proof/Safety.lean ====
section
/-!
DEFINITION. Sys2Proof/Safety.lean: the terms in which claims speak of a state and of what an instruction does: a group that
issues, a word that completes with nothing changed beside its own effect, a trap that is taken.
-/

namespace Sys2Proof.Machine

/-- Group a issues next (08 R154): it holds the first issue slot, g is its state, b its block, it has not exited, no accumulator word
of its own is still to write registers (14 R285: a word that names such a register waits), and no register of it is poisoned (22 R406: a word
that reads one traps). -/
structure State.Issues (s : State) (a : Nat) (g : Group) (b : Block) : Prop where
  slot : s.issue.head? = some a
  group : s.grp a = some g
  block : s.blk g.block = some b
  live : g.state ≠ .exited
  results : (s.core (coreOf a)).resultsDue a = []
  clean : g.poison = []

/-- The conditions that 17 R331 puts on a word it permits, where the group is inside a capsule step: E is 0, every register
field names `s16` to `s31`, and the word is not the step's 24th. -/
def Group.StepAllows (g : Group) (e : Bool) (regs : List (BitVec 7)) : Prop :=
  g.inStep = true → e = false ∧ (∀ r ∈ regs, 16 ≤ r.toNat) ∧ g.cap.words + g.exts.length ≠ 23

/-- No prefix is pending, and the group is not inside a capsule step. -/
def Group.Clear (g : Group) : Prop := g.exts = [] ∧ g.inStep = false

/-- Group h is group g but for what the end of a word writes (03 R63, 08 R152, 21 R401): the run, its prefixes and ENERGY. The
state code stays, or ISSUING becomes READY as the run ends. -/
def Group.Same (h g : Group) : Prop :=
  h = { g with state := h.state, exts := [], runWords := h.runWords, energy := h.energy, readyClk := h.readyClk, promo := h.promo,
               woke := false, sent := false, going := [], cap := { g.cap with words := h.cap.words } } ∧
    (h.state = g.state ∨ g.state = .issuing ∧ h.state = .ready)

/-- State t is u with group a as `g`, but for what the end of a word writes: the issue slots, the counters of the cores (21
R399), replies that the word had, and what `Group.Same` names. Memory, every other group and all else are as in u. -/
structure Retired (u t : State) (a : Nat) (g : Group) : Prop where
  rest : ∃ gs cs rs l, t = { u with groups := gs, cores := cs, extReqs := rs, issue := l }
  others : ∀ b, b ≠ a → t.grp b = u.grp b
  cores : ∀ c, { t.core c with ctr := (u.core c).ctr } = u.core c
  requests : ∀ r ∈ t.extReqs, r ∈ u.extReqs
  group : ∃ h, t.grp a = some h ∧ h.Same g

/-- Instruction i, executed in s, completes: the next state is u with group a as g, up to the end of a word. -/
def Completes (i : Instr) (s u : State) (a : Nat) (g : Group) : Prop := ∃ t, exec i s = .next t ∧ Retired u t a g

/-- Instruction i changes no more than group a, which becomes g and moves on to the next word. -/
def Writes (i : Instr) (s : State) (a : Nat) (g : Group) : Prop := Completes i s s a (g.moveTo (g.pc + 4))

/-- The address of the word that issues, or of its first prefix (03 R68). -/
def Group.wordPc (g : Group) : BitVec 57 := g.pc - BitVec.ofNat 57 (4 * g.exts.length)

/-- Instruction i, executed in s, traps precisely (03 R78, 08 R160): a trap of the group that issues, with XPC at the word. -/
def Traps (i : Instr) (s : State) (a : Nat) (g : Group) (cause : Nat) (addr aux : BitVec 64) : Prop :=
  exec i s = .next (s.takeTrap a cause addr aux g.wordPc g.onB)

/-- Instruction i, executed in s, waits (03 R64): the run splits before the word, and what u holds is all that has taken place. -/
def Waits (i : Instr) (s u : State) (a : Nat) (g : Group) (code : GState) (dep : Dep) : Prop :=
  exec i s = .next (u.suspendAt a g.wordPc code dep)

end Sys2Proof.Machine
end

