-- ==== Sys2Proof/WellFormed.lean ====
section
/-!
DEFINITION. Sys2Proof/WellFormed.lean: what the spec asks of an instruction as syntax: register fields that name a register of their file
(03 R69, R70), unsigned immediates in their range (03 R67 and each instruction's rule), events that name something the part has.
-/

namespace Sys2Proof

open Sys2Proof.Machine

/-! ### Words -/

/-- A register field names a register of its file (R69); 128 vector registers at most (R70). -/
def regOk (k : RegKind) (f : Field) : Bool := k.fits 128 f.toNat
/-- An unsigned immediate is in its range. -/
def immOk {n : Nat} (i : BitVec n) (greatest : Nat) : Bool := decide (i.toNat ≤ greatest)
/-- A word whose opcode no instruction has (R79). -/
def unassigned (w : Word) : Bool := (sigOf (fieldOp w).toNat).isNone
/-- A word of an assigned opcode that no form of it admits (R61, R66, R68). -/
noncomputable def malformed (w : Word) : Bool :=
  match readers.lookup (fieldOp w).toNat with
  | some read => (read w).isNone
  | none => false

/-! ### Events -/

/-- A context (R88). -/
def ctxOk (n : Nat) : Bool := decide (n < Config.contexts)
/-- An agent number (R158, R306). -/
def agentOk (n : Nat) : Bool := decide (n < Config.agents)
/-- A queue (R102). -/
def queueOk (n : Nat) : Bool := decide (n < Config.queues)
/-- A compute die (R11). -/
def dieOk (n : Nat) : Bool := decide (n < Config.computeDies)
/-- A core (R14). -/
def coreOk (n : Nat) : Bool := decide (n < Config.cores)
/-- A quadrant of a core (R14). -/
def quadOk (n : Nat) : Bool := decide (n < 4)
/-- A DMA engine (R13). -/
def engineOk (n : Nat) : Bool := decide (n < Config.engines)
/-- A Lacer of a core (R16). -/
def lacerOk (n : Nat) : Bool := decide (n < 4)
/-- A lease (R359). -/
def leaseOk (n : Nat) : Bool := decide (n < 4096)
/-- An I/O die (R11). -/
def xdOk (n : Nat) : Bool := decide (n < Config.ioDies)
/-- A physical function (R372). -/
def fnOk (n : Nat) : Bool := decide (n < 2)
/-- A fabric port (R361). -/
def portOk (n : Nat) : Bool := decide (n < 64)
/-- A module of the fabric (R376). -/
def peerOk (n : Nat) : Bool := decide (n < 2048)
/-- A home slice of the device (R20). -/
def sliceOk (n : Nat) : Bool := decide (n < 256)
/-- A link (R361). -/
def linkOk (n : Nat) : Bool := linkListed n
/-- The 8 bytes of a register write: of the device control page, or RCVLEN or RCVCMD behind it (R29, R375). -/
def registerOk (off : Nat) : Bool := decide (off % 8 = 0 ∧ (off < 0x1000 ∨ off = 0x1000 ∨ off = 0x1008))
/-- A freeze register (R408). -/
def releaseOk (off : Nat) : Bool := decide (off = 0x0300 ∨ off = 0x0308 ∨ off = 0x0310)
/-- A command register (R411). -/
def commandOk (off : Nat) : Bool := commandReg off
/-- An access of a host lies in a BAR (R372), or in configuration space, which the number 6 names (22 R402). -/
def accessOk (bar off size : Nat) : Bool := decide (bar % 2 = 0 ∧ bar ≤ 6 ∧ 0 < size ∧ off + size ≤ 2 ^ 42)
/-- A kind of host access: a read, a write or one of the three AtomicOps (R370). -/
def kindOk (n : Nat) : Bool := decide (n < 5)
/-- An 8-byte word in memory. -/
def wordAligned (pa : Nat) : Bool := decide (pa % 8 = 0)
/-- A naturally aligned access of the on-chip range (R32). -/
def windowOk (pa size : Nat) : Bool := decide (0 < size ∧ pa % size = 0)
/-- A virtual address (R219). -/
def vaOk (va : Nat) : Bool := decide (va < 2 ^ 57)
/-- A 64-byte access (R374). -/
def sectorAligned (off : Nat) : Bool := decide (off % 64 = 0)
/-- A peer's access to HBM (R376). -/
def peerAccessOk (addr size : Nat) : Bool := decide (0 < size ∧ addr + size ≤ 2 ^ 40)

/-- The checks of each instruction. -/
noncomputable def wellFormed : Instr → Bool
  | .partReset _ _ _ _ => true
  | .dieOutOfService die => dieOk die
  | .rcvcmdCommit => true
  | .recoveryCheckDone _ _ => true
  | .powerTick _ => true
  | .pwrlimWrite _ => true
  | .scrub => true
  | .frameRetire frame => wordAligned frame.1
  | .masterRelease off _ => releaseOk off
  | .attestationReport _ => true
  | .registerWrite off _ => registerOk off
  | .commandWriteDropped off => commandOk off
  | .ctxtabWrite _ => true
  | .qtabWrite _ => true
  | .windowAccess _ pa size _ => windowOk pa size
  | .ctxCreate ctx => ctxOk ctx
  | .ctxLoad ctx => ctxOk ctx
  | .ctxRun ctx => ctxOk ctx
  | .restoreReload ctx => ctxOk ctx
  | .ctxDrain ctx => ctxOk ctx
  | .ctxPark ctx => ctxOk ctx
  | .ctxReset ctx => ctxOk ctx
  | .ctxDestroy ctx => ctxOk ctx
  | .d1Expire ctx => ctxOk ctx
  | .d2Expire ctx => ctxOk ctx
  | .saveComplete ctx => ctxOk ctx
  | .resetComplete ctx => ctxOk ctx
  | .groupParkStop agent => agentOk agent
  | .queueOpen queue => queueOk queue
  | .queuePause queue => queueOk queue
  | .queueResume queue => queueOk queue
  | .queueDrain queue => queueOk queue
  | .queueClose queue => queueOk queue
  | .queueClear queue => queueOk queue
  | .tailObservation queue _ => queueOk queue
  | .queueAdmit die => dieOk die
  | .queuePriorityAging queue => queueOk queue
  | .graphComplete _ => true
  | .nodeFire die => dieOk die
  | .nodeAging _ _ => true
  | .nodeWorkDone _ _ => true
  | .coneVisit _ => true
  | .nodeTimeout _ _ => true
  | .nodeEngineDone engine => engineOk engine
  | .clusterOffer die => dieOk die
  | .clusterReserve _ => true
  | .recut core => coreOk core
  | .blockLaunchDone _ => true
  | .blockExit _ => true
  | .issueArbitration core quadrant => coreOk core && quadOk quadrant
  | .issuePromotion agent => agentOk agent
  | .dependenceResolved agent => agentOk agent
  | .phaseOverrun agent => agentOk agent
  | .asyncTrapDelivery agent => agentOk agent
  | .vredLand agent => agentOk agent
  | .accComplete core => coreOk core
  | .homeReq _ => true
  | .homeRsp _ => true
  | .homeInv _ => true
  | .watchFire _ => true
  | .vwaitExpire agent => agentOk agent
  | .lacerUnit core lacer => coreOk core && lacerOk lacer
  | .lacerCommandEnd core lacer => coreOk core && lacerOk lacer
  | .dmasub _ => true
  | .dmaDescriptorStart engine => engineOk engine
  | .dmaDescriptorComplete engine => engineOk engine
  | .barrierBatch _ => true
  | .monitorCollect _ slice => sliceOk slice
  | .monitorCheckDone _ => true
  | .barrierWatchdog _ => true
  | .clusterBarrierExchange _ => true
  | .stopMarking _ => true
  | .reentry agent => agentOk agent
  | .logApplied _ => true
  | .pageWalkDone _ => true
  | .tlbInvalidatePage ctx va => ctxOk ctx && vaOk va
  | .tlbInvalidateContext ctx => ctxOk ctx
  | .tlbInvalidateLease lease => leaseOk lease
  | .leaseRevoke lease => leaseOk lease
  | .leaseReturn lease => leaseOk lease
  | .revocationMessage lease => leaseOk lease
  | .leaseDeadline lease => leaseOk lease
  | .leaseAcknowledge lease => leaseOk lease
  | .leaseAckTimeout lease => leaseOk lease
  | .linkEnable link => linkOk link
  | .linkDisable link => linkOk link
  | .retrain link => linkOk link
  | .linkTrained link _ _ _ _ => linkOk link
  | .linkTrainFailed link => linkOk link
  | .replayFailure link => linkOk link
  | .hostAccess xd fn bar off kind size _ => xdOk xd && fnOk fn && accessOk bar off size && kindOk kind
  | .cxlMemAccess xd off _ _ => xdOk xd && sectorAligned off
  | .cxlCacheSnoop _ => true
  | .fabricRequest port peer _ _ _ addr size _ _ => portOk port && peerOk peer && peerAccessOk addr size
  | .dbgHalt ctx => ctxOk ctx
  | .dbgResume ctx => ctxOk ctx
  | .dbgDump ctx => ctxOk ctx
  | .dumpDone ctx => ctxOk ctx
  | .groupBroadcastStop agent => agentOk agent
  | .broadcastComplete ctx => ctxOk ctx
  | .snapshotTick => true
  | .sadd _ d a b => regOk .scalar d && regOk .scalar a && regOk .scalar b
  | .ssub _ d a b => regOk .scalar d && regOk .scalar a && regOk .scalar b
  | .smul _ d a b => regOk .scalar d && regOk .scalar a && regOk .scalar b
  | .smulh _ d a b => regOk .scalar d && regOk .scalar a && regOk .scalar b
  | .smulhu _ d a b => regOk .scalar d && regOk .scalar a && regOk .scalar b
  | .sdiv _ d a b => regOk .scalar d && regOk .scalar a && regOk .scalar b
  | .sdivu _ d a b => regOk .scalar d && regOk .scalar a && regOk .scalar b
  | .srem _ d a b => regOk .scalar d && regOk .scalar a && regOk .scalar b
  | .sremu _ d a b => regOk .scalar d && regOk .scalar a && regOk .scalar b
  | .sand _ d a b => regOk .scalar d && regOk .scalar a && regOk .scalar b
  | .sor _ d a b => regOk .scalar d && regOk .scalar a && regOk .scalar b
  | .sxor _ d a b => regOk .scalar d && regOk .scalar a && regOk .scalar b
  | .sshl _ d a b => regOk .scalar d && regOk .scalar a && regOk .scalar b
  | .sshr _ d a b => regOk .scalar d && regOk .scalar a && regOk .scalar b
  | .ssra _ d a b => regOk .scalar d && regOk .scalar a && regOk .scalar b
  | .smin _ d a b => regOk .scalar d && regOk .scalar a && regOk .scalar b
  | .smax _ d a b => regOk .scalar d && regOk .scalar a && regOk .scalar b
  | .sminu _ d a b => regOk .scalar d && regOk .scalar a && regOk .scalar b
  | .smaxu _ d a b => regOk .scalar d && regOk .scalar a && regOk .scalar b
  | .sseq _ d a b => regOk .scalar d && regOk .scalar a && regOk .scalar b
  | .sslt _ d a b => regOk .scalar d && regOk .scalar a && regOk .scalar b
  | .ssltu _ d a b => regOk .scalar d && regOk .scalar a && regOk .scalar b
  | .ssel _ d a b => regOk .scalar d && regOk .scalar a && regOk .scalar b
  | .sclz _ d a => regOk .scalar d && regOk .scalar a
  | .spopc _ d a => regOk .scalar d && regOk .scalar a
  | .sbrev _ d a => regOk .scalar d && regOk .scalar a
  | .sext _ d a _ => regOk .scalar d && regOk .scalar a
  | .slea _ d a b => regOk .scalar d && regOk .scalar a && regOk .scalar b
  | .saddi _ d a _ => regOk .scalar d && regOk .scalar a
  | .sandi _ d a _ => regOk .scalar d && regOk .scalar a
  | .sori _ d a _ => regOk .scalar d && regOk .scalar a
  | .sxori _ d a _ => regOk .scalar d && regOk .scalar a
  | .sshli _ d a i => regOk .scalar d && regOk .scalar a && immOk i 63
  | .sshri _ d a i => regOk .scalar d && regOk .scalar a && immOk i 63
  | .ssrai _ d a i => regOk .scalar d && regOk .scalar a && immOk i 63
  | .sli _ d _ => regOk .scalar d
  | .br _ => true
  | .brz a _ => regOk .scalar a
  | .brnz a _ => regOk .scalar a
  | .brany a _ => regOk .pred a
  | .brall a _ => regOk .pred a
  | .call _ => true
  | .ret => true
  | .jmp a _ => regOk .scalar a
  | .vbr a _ => regOk .pred a
  | .vjoin => true
  | .exit => true
  | .nop _ => true
  | .phase _ _ => true
  | .setmode _ a => regOk .scalar a
  | .modei _ _ _ => true
  | .getmode _ d => regOk .scalar d
  | .srd _ d _ => regOk .scalar d
  | .swr _ d _ => regOk .scalar d
  | .trap _ _ => true
  | .tret => true
  | .bkpt _ _ => true
  | .haltInsn _ => true
  | .wpset _ a b => regOk .scalar a && regOk .scalar b
  | .wpclr _ i => immOk i 15
  | .trc _ a _ => regOk .scalar a
  | .gget _ d _ _ => regOk .scalar d
  | .gput _ _ a _ => regOk .scalar a
  | .mbox _ d a b => regOk .scalar d && regOk .scalar a && regOk .scalar b
  | .perfrd _ d i => regOk .scalar d && immOk i 63
  | .enrd _ d a => regOk .scalar d && regOk .scalar a
  | .sldB _ d a _ => regOk .scalar d && regOk .scalar a
  | .sldH _ d a _ => regOk .scalar d && regOk .scalar a
  | .sldW _ d a _ => regOk .scalar d && regOk .scalar a
  | .sldD _ d a _ => regOk .scalar d && regOk .scalar a
  | .slduB _ d a _ => regOk .scalar d && regOk .scalar a
  | .slduH _ d a _ => regOk .scalar d && regOk .scalar a
  | .slduW _ d a _ => regOk .scalar d && regOk .scalar a
  | .sstB _ d a _ => regOk .scalar d && regOk .scalar a
  | .sstH _ d a _ => regOk .scalar d && regOk .scalar a
  | .sstW _ d a _ => regOk .scalar d && regOk .scalar a
  | .sstD _ d a _ => regOk .scalar d && regOk .scalar a
  | .sldDAcq _ d a _ => regOk .scalar d && regOk .scalar a
  | .sstDRel _ d a _ => regOk .scalar d && regOk .scalar a
  | .sldWAcq _ d a _ => regOk .scalar d && regOk .scalar a
  | .sstWRel _ d a _ => regOk .scalar d && regOk .scalar a
  | .fence _ _ => true
  | .waitv _ d a b => regOk .scalar d && regOk .scalar a && regOk .scalar b
  | .atomAdd _ d a b => regOk .scalar d && regOk .scalar a && regOk .scalar b
  | .atomAnd _ d a b => regOk .scalar d && regOk .scalar a && regOk .scalar b
  | .atomOr _ d a b => regOk .scalar d && regOk .scalar a && regOk .scalar b
  | .atomXor _ d a b => regOk .scalar d && regOk .scalar a && regOk .scalar b
  | .atomMin _ d a b => regOk .scalar d && regOk .scalar a && regOk .scalar b
  | .atomMax _ d a b => regOk .scalar d && regOk .scalar a && regOk .scalar b
  | .atomMinu _ d a b => regOk .scalar d && regOk .scalar a && regOk .scalar b
  | .atomMaxu _ d a b => regOk .scalar d && regOk .scalar a && regOk .scalar b
  | .atomExch _ d a b => regOk .scalar d && regOk .scalar a && regOk .scalar b
  | .atomCas _ d a b => regOk .scalar d && regOk .scalar a && regOk .scalar b
  | .atomFadd _ d a b => regOk .scalar d && regOk .scalar a && regOk .scalar b
  | .pldW _ d a _ => regOk .scalar d && regOk .scalar a
  | .pldD _ d a _ => regOk .scalar d && regOk .scalar a
  | .pstW _ d a _ => regOk .scalar d && regOk .scalar a
  | .pstD _ d a _ => regOk .scalar d && regOk .scalar a
  | .vadd _ _ _ _ => true
  | .vsub _ _ _ _ => true
  | .vmul _ _ _ _ => true
  | .vmulh _ _ _ _ => true
  | .vmulhu _ _ _ _ => true
  | .vmad _ _ _ _ => true
  | .vmin _ _ _ _ => true
  | .vmax _ _ _ _ => true
  | .vminu _ _ _ _ => true
  | .vmaxu _ _ _ _ => true
  | .vabs _ _ _ => true
  | .vneg _ _ _ => true
  | .vand _ _ _ _ => true
  | .vor _ _ _ _ => true
  | .vxor _ _ _ _ => true
  | .vnot _ _ _ => true
  | .vshl _ _ _ _ => true
  | .vshr _ _ _ _ => true
  | .vsra _ _ _ _ => true
  | .vclz _ _ _ => true
  | .vpopc _ _ _ => true
  | .vcmpeq _ d _ _ => regOk .pred d
  | .vcmplt _ d _ _ => regOk .pred d
  | .vcmpltu _ d _ _ => regOk .pred d
  | .vcmple _ d _ _ => regOk .pred d
  | .vsel _ _ _ _ => true
  | .vaddi _ _ _ _ => true
  | .vshli _ _ _ _ => true
  | .vshri _ _ _ _ => true
  | .vsrai _ _ _ _ => true
  | .vandi _ _ _ _ => true
  | .vmov _ _ _ => true
  | .vsplat _ _ a => regOk .scalar a
  | .vins _ _ a b => regOk .scalar a && regOk .scalar b
  | .vperm _ _ _ _ => true
  | .vshfl _ _ _ _ => true
  | .vbcast _ _ _ i => immOk i 7
  | .vrotl _ _ _ _ => true
  | .vpack _ _ _ _ => true
  | .vunpk _ _ _ => true
  | .vzip _ _ _ _ => true
  | .vunzip _ _ _ _ => true
  | .viota _ _ => true
  | .pand _ d a b => regOk .pred d && regOk .pred a && regOk .pred b
  | .por _ d a b => regOk .pred d && regOk .pred a && regOk .pred b
  | .pxor _ d a b => regOk .pred d && regOk .pred a && regOk .pred b
  | .pnot _ d a => regOk .pred d && regOk .pred a
  | .pmov _ d a => regOk .pred d && regOk .scalar a
  | .pget _ d a => regOk .scalar d && regOk .pred a
  | .vredAdd _ d _ => regOk .yreg d
  | .vredMax _ d _ => regOk .yreg d
  | .vredMin _ d _ => regOk .yreg d
  | .vredAnd _ d _ => regOk .yreg d
  | .vredOr _ d _ => regOk .yreg d
  | .vredlAdd _ _ _ => true
  | .vscanAdd _ _ _ => true
  | .yget _ d a _ => regOk .scalar d && regOk .yreg a
  | .yseq _ d a => regOk .scalar d && regOk .yreg a
  | .vsrd _ _ _ => true
  | .fadd _ _ _ _ => true
  | .fsub _ _ _ _ => true
  | .fmul _ _ _ _ => true
  | .ffma _ _ _ _ => true
  | .ffms _ _ _ _ => true
  | .fnma _ _ _ _ => true
  | .fmin _ _ _ _ => true
  | .fmax _ _ _ _ => true
  | .fabs _ _ _ => true
  | .fneg _ _ _ => true
  | .fcpys _ _ _ _ => true
  | .frcp _ _ _ => true
  | .frsq _ _ _ => true
  | .fsqrt _ _ _ => true
  | .fexp2 _ _ _ => true
  | .flog2 _ _ _ => true
  | .ftanh _ _ _ => true
  | .fcmpeq _ d _ _ => regOk .pred d
  | .fcmplt _ d _ _ => regOk .pred d
  | .fcmple _ d _ _ => regOk .pred d
  | .fcmpun _ d _ _ => regOk .pred d
  | .fclass _ _ _ => true
  | .frnd _ _ _ => true
  | .fsel _ _ _ _ => true
  | .fcvt _ _ _ => true
  | .ftoi _ _ _ => true
  | .itof _ _ _ => true
  | .mxq _ _ _ b => regOk .scalar b
  | .mxdq _ _ _ => true
  | .kget _ _ _ => true
  | .kset _ _ _ => true
  | .kadd _ _ _ b => regOk .scalar b
  | .kmax _ _ _ _ => true
  | .xcvt _ _ _ => true
  | .vldW _ _ a _ => regOk .scalar a
  | .vldD _ _ a _ => regOk .scalar a
  | .vldQ _ _ a _ => regOk .scalar a
  | .vldO _ _ a _ => regOk .scalar a
  | .vstW _ _ a _ => regOk .scalar a
  | .vstD _ _ a _ => regOk .scalar a
  | .vstQ _ _ a _ => regOk .scalar a
  | .vstO _ _ a _ => regOk .scalar a
  | .vldsW _ _ a _ => regOk .scalar a
  | .vldsD _ _ a _ => regOk .scalar a
  | .vldsQ _ _ a _ => regOk .scalar a
  | .vldsO _ _ a _ => regOk .scalar a
  | .vstsW _ _ a _ => regOk .scalar a
  | .vstsD _ _ a _ => regOk .scalar a
  | .vstsQ _ _ a _ => regOk .scalar a
  | .vstsO _ _ a _ => regOk .scalar a
  | .vldOAcq _ _ a _ => regOk .scalar a
  | .vstORel _ _ a _ => regOk .scalar a
  | .vldQAcq _ _ a _ => regOk .scalar a
  | .vstQRel _ _ a _ => regOk .scalar a
  | .vldmx _ _ a _ => regOk .scalar a
  | .vstmx _ _ a _ => regOk .scalar a
  | .pldO _ _ a => regOk .scalar a
  | .pstO _ _ a => regOk .scalar a
  | .pldmx _ _ a _ => regOk .scalar a
  | .pstmx _ _ a _ => regOk .scalar a
  | .vatomAdd _ _ a _ => regOk .scalar a
  | .vatomMin _ _ a _ => regOk .scalar a
  | .vatomMax _ _ a _ => regOk .scalar a
  | .vatomExch _ _ a _ => regOk .scalar a
  | .vatomCas _ _ a _ => regOk .scalar a
  | .vatomFadd _ _ a _ => regOk .scalar a
  | .redstAdd _ _ a _ => regOk .scalar a
  | .redstMin _ _ a _ => regOk .scalar a
  | .redstMax _ _ a _ => regOk .scalar a
  | .redstFadd _ _ a _ => regOk .scalar a
  | .redstX _ _ a _ => regOk .scalar a
  | .vprefetch _ a _ => regOk .scalar a
  | .lace _ d a _ => regOk .scalar d && regOk .scalar a
  | .lacew _ a _ => regOk .scalar a
  | .laceq _ d _ => regOk .scalar d
  | .lacek _ a _ => regOk .scalar a
  | .rngget _ d _ => regOk .scalar d
  | .rngput _ _ => true
  | .rngputInit _ a _ => regOk .scalar a
  | .rngacq _ d _ => regOk .scalar d
  | .rngrel _ _ => true
  | .town _ d a _ => regOk .scalar d && regOk .scalar a
  | .bara _ d _ => regOk .scalar d
  | .baraw _ d _ => regOk .scalar d
  | .barw _ a _ => regOk .scalar a
  | .bard _ d _ => regOk .scalar d
  | .barx _ a _ => regOk .scalar a
  | .barq _ d _ => regOk .scalar d
  | .barma _ d a => regOk .scalar d && regOk .scalar a
  | .barmaw _ d a => regOk .scalar d && regOk .scalar a
  | .barmw _ a b => regOk .scalar a && regOk .scalar b
  | .barmd _ d a => regOk .scalar d && regOk .scalar a
  | .barmx _ a b => regOk .scalar a && regOk .scalar b
  | .barmq _ d a => regOk .scalar d && regOk .scalar a
  | .capb _ d a => regOk .scalar d && regOk .scalar a
  | .caps => true
  | .cape => true
  | .capr _ d a => regOk .scalar d && regOk .scalar a
  | .bmset _ a _ => regOk .scalar a
  | .bmref _ a _ => regOk .scalar a
  | .bmbind _ a _ => regOk .scalar a
  | .bmunbind _ a _ => regOk .scalar a
  | .bmrd _ d _ _ => regOk .scalar d
  | .bmclr _ _ => true
  | .gtok _ => true
  | .glaunch _ d a b => regOk .scalar d && regOk .scalar a && regOk .scalar b
  | .gstat _ d a b => regOk .scalar d && regOk .scalar a && regOk .scalar b
  | .gcancel _ d a b => regOk .scalar d && regOk .scalar a && regOk .scalar b
  | .gfail _ a => regOk .scalar a
  | .yield => true
  | .arel _ a => regOk .handle a
  | .rqnt _ _ a b => regOk .handle a && regOk .scalar b
  | .rqntt _ _ a b => regOk .handle a && regOk .scalar b
  | .ald _ d _ b => regOk .handle d && regOk .scalar b
  | .ast _ _ a b => regOk .handle a && regOk .scalar b
  | .azero _ d a => regOk .handle d && regOk .scalar a
  | .apatch _ d a b => regOk .handle d && regOk .scalar a && regOk .scalar b
  | .aget _ d a b => regOk .scalar d && regOk .handle a && regOk .scalar b
  | .ahnd _ d a b => regOk .scalar d && regOk .handle a && regOk .scalar b
  | .mma _ _ _ _ _ _ _ => true
  | .ext _ => true
  | .unassignedOpcode word => unassigned word
  | .reservedFieldWord word => malformed word
  | .hostWindowPoll agent _ => agentOk agent
  | .linkLevelReplay link => linkOk link
  | .hostOrPeerCompletion _ _ _ => true
  | .attestationKeyCertify => true

/-- An instruction that the spec admits as syntax. -/
abbrev WellFormed (i : Instr) : Prop := wellFormed i = true

end Sys2Proof
end

