-- ==== Sys2Proof/Certificates/Slice0/Obligations.lean ====
section
/-!
DEFINITION. Sys2Proof/Certificates/Slice0/Obligations.lean: the statements for the provers, family by family, with the tables that they
range over.
-/

open Sys2Proof Sys2Proof.Machine

/-! ### Words, steps and the state after reset -/

/-- A step of a state in which no event is due and a word is fetched is that word, decoded and executed: the four bytes of memory,
lowest first, to which the PC of the group whose turn it is translates, where their home can be reached, they are not poisoned, no write of
its core is on its way and no watchpoint on fetches takes them; a leaf that the die's TLB has served counts as a miss of the core's (21 R399).
Where the fetch itself ends in a trap or a wait, the step is that; an event that is due comes first; and where no group can issue, the clock
passes. That one step is one event, one word or one clock, and that an event that is due comes before the next word, is the model's choice and
no rule of the spec (logs 8 and 9). -/
def Obligations.StepRunsTheDecodedWord : Prop :=
  (∀ (s : State) (a pa : Nat) (g : Group) (b : Block),
    s.nextEvent = none → s.turn = some a → s.grp a = some g → s.blk g.block = some b →
    (s.takeTurn a).translate (coreOf a) b.ctx g.pc.toNat .fetch g.trapMode = .ok pa → (s.takeTurn a).isMemory pa = true →
    (s.takeTurn a).inReach (coreOf a) pa = true → s.poisoned pa 4 = false → (∀ w ∈ s.writes, w.core ≠ coreOf a) →
    (g.trapMode = true ∨ (s.ctx b.ctx).wpHit .fetch g.pc.toNat 4 none false = none) →
    step s = exec (decodeWord (BitVec.ofNat 32 (readLE s.mem pa 4))) ((s.takeTurn a).countFetch (coreOf a) b.ctx g.pc.toNat)) ∧
  (∀ (s t : State) (w : BitVec 32), s.nextEvent = none → s.fetchNext = some (.word w t) → step s = exec (decodeWord w) t) ∧
  (∀ (s t : State), s.nextEvent = none → s.fetchNext = some (.stop t) → step s = .next t) ∧
  (∀ (s t : State) (i : Instr), s.nextEvent = some (i, t) → step s = exec i t) ∧
  (∀ s : State, s.nextEvent = none → s.fetchNext = none → step s = .next s.tick)

namespace Sys2Proof.Claims

/-- A word of format A or B by its fields (03 R61): E, the opcode, d, a, and b or the immediate. -/
def word (e : Bool) (op : BitVec 10) (d a b : BitVec 7) : Word := BitVec.ofBool e ++ op ++ d ++ a ++ b

/-- A word of format C by its fields (03 R61): E, the opcode, d and the immediate. -/
def wordC (e : Bool) (op : BitVec 10) (d : BitVec 7) (i : BitVec 14) : Word := BitVec.ofBool e ++ op ++ d ++ i

end Sys2Proof.Claims

/-- Words written out from the encodings of the spec decode to the instructions they stand for: `sld.d s4, [s2 + 16]` = 0x1061_0102
(12 R249), `fence full, device` = 0x1200_0013 (12 R259), and others by their format (03 R61, R79). -/
def Obligations.WordsOfTheSpecDecode : Prop :=
  decodeWord 0x10610102 = .sldD false 4 2 2 ∧
  decodeWord 0x12000013 = .fence false 0x13 ∧
  decodeWord (0x001#10 ++ 5#7 ++ 6#7 ++ 7#7 |>.zeroExtend 32) = .sadd false 5 6 7 ∧
  decodeWord (1#1 ++ 0x027#10 ++ 3#7 ++ 1000#14) = .sli true 3 1000 ∧
  decodeWord (1#1 ++ 0x040#10 ++ 0x1FFFFF#21) = .br 0x1FFFFF ∧
  decodeWord (1#1 ++ 0x3C2#10 ++ 9#4 ++ 1#1 ++ 0#1 ++ 0#1 ++ 16#7 ++ 24#7) = .mma true 2 9 true false 16 24 ∧
  decodeWord (0#1 ++ 0x29A#10 ++ 0#7 ++ 4#7 ++ 67#7) = .bmunbind false 4 3 ∧
  decodeWord 0 = .unassignedOpcode 0 ∧
  decodeWord 0x80000000 = .unassignedOpcode 0x80000000

/-- Decode and encode agree (03 R61, R79): the word of every well-formed instruction that has one decodes to that instruction, with
every operand at every value its field admits. -/
def Sys2Proof.Claims.DecodeOfEncode : Prop :=
  ∀ (i : Instr) (w : Word), WellFormed i → encode i = some w → decodeWord w = i

/-- Decode loses no bit of a word: every 32-bit word is the word of what it decodes to, so no two words decode to one instruction. -/
def Sys2Proof.Claims.EncodeOfDecode : Prop := ∀ w : Word, encode (decodeWord w) = some w

/-- Decode and encode agree (03 R61, R79), in both directions: of every well-formed instruction that has a word, and of every word. -/
def Obligations.DecodeAndEncodeAgree : Prop :=
  Claims.DecodeOfEncode ∧ Claims.EncodeOfDecode

/-- What part reset leaves (22 R403): memory with nothing listed, every byte zero, no context, queue, graph, grid, block or group, no command
or descriptor, and the part not READY; the cut of every core's pool is (16, 24, 32) (01 R17) and the clock is 0. -/
def Obligations.ResetState : Prop :=
  Memory.wf State.reset.mem = true ∧ (∀ a, byteAt State.reset.mem a = 0) ∧ State.reset.ready = false ∧ State.reset.clk = 0 ∧
  State.reset.blocks = [] ∧ State.reset.groups = [] ∧ State.reset.issue = [] ∧ State.reset.writes = [] ∧
  State.reset.graphs = [] ∧ State.reset.grids = [] ∧ State.reset.clusters = [] ∧ State.reset.engines = [] ∧ State.reset.agenda = [] ∧
  (∀ c, (State.reset.ctx c).state = .destroyed) ∧ (∀ q, (State.reset.queue q).state = .closed) ∧
  (∀ c, (State.reset.core c).rb = 16 ∧ (State.reset.core c).sb = 24 ∧ (State.reset.core c).lb = 32)

/-- Every step keeps the canonical form of memory. -/
def Obligations.MemoryKeepsItsForm : Prop :=
  ∀ s t : State, Memory.wf s.mem = true → step s = .next t → Memory.wf t.mem = true

/-! ### The order of checks and words without an effect of their own (03 R67, R78 to R80) -/

namespace Sys2Proof.Claims

/-- The privileged instructions (03 R79, mark P). -/
def privileged (i : Instr) : Prop := ∃ (e : Bool) (d a b : BitVec 7),
  i ∈ [Instr.tret, .haltInsn e, .wpset e a b, .wpclr e b, .gget e d a b, .gput e d a b, .mbox e d a b, .apatch e d a b]

end Sys2Proof.Claims

/-- A privileged instruction issued outside trap mode raises PRIVILEGE (0x03 of 08 R160) with XADDR and XAUX zero, whatever its
operands and prefixes: the check comes before every check of its operands. -/
def Sys2Proof.Claims.PrivilegedWordsTrap : Prop :=
  ∀ (i : Instr) (s : State) (a : Nat) (g : Group) (b : Block), Claims.privileged i → s.Issues a g b → g.trapMode = false →
    Traps i s a g cPrivilege 0 0

/-- A word whose opcode is unassigned raises ILLEGAL_OPCODE; one of an assigned opcode that no form of it admits raises
ILLEGAL_OPERAND, or PRIVILEGE first where the opcode is privileged and the group is not in trap mode. -/
def Sys2Proof.Claims.WordsWithoutMeaningTrap : Prop :=
  ∀ (w : Word) (s : State) (a : Nat) (g : Group) (b : Block), s.Issues a g b →
    Traps (.unassignedOpcode w) s a g cIllegalOpcode 0 0 ∧
    Traps (.reservedFieldWord w) s a g (if privilegedWord w && !g.trapMode then cPrivilege else cIllegalOperand) 0 0

/-- A word that carries prefixes its format does not take (R67, R68), or whose register fields name no register of their files (03
R69, R70), raises ILLEGAL_OPERAND with XPC at its first prefix and no effect: for every word with an opcode of the opcode map but
`ext`, in trap mode where it is privileged. -/
def Sys2Proof.Claims.IllegalFormsTrap : Prop :=
  ∀ (i : Instr) (w : Word) (sg : Sig) (s : State) (a : Nat) (g : Group) (b : Block),
    encode i = some w → sigOf (fieldOp w).toNat = some sg → sg.fmt ≠ .X → s.Issues a g b → (sg.privileged = true → g.trapMode = true) →
    ((g.exts ≠ [] ∧ sg.fmt.immWidth = 0) ∨ sg.d.fits g.kregs (fieldD w).toNat = false ∨ sg.a.fits g.kregs (fieldA w).toNat = false ∨
      sg.b.fits g.kregs (fieldB w).toNat = false) →
    Traps i s a g cIllegalOperand 0 0

/-- The words that trap whatever the operands hold (03 R67, R78 to R80): privileged words in user mode, words without a meaning, and forms that the checks refuse.
Forms that this statement says complete (the answer of `exec` is a next state with their effect): `unassignedOpcode`, `reservedFieldWord`. -/
def Obligations.WordsThatTrap : Prop :=
  Claims.PrivilegedWordsTrap ∧ Claims.WordsWithoutMeaningTrap ∧ Claims.IllegalFormsTrap

/-- `ext` (03 R67, R68): the prefix is kept for the word that follows, and the PC moves to it, with no other effect; a third prefix, or
one that is the 24th word of its run, or of its capsule step, raises ILLEGAL_OPERAND at the first prefix.
Forms that this statement says complete (the answer of `exec` is a next state with their effect): `ext`. -/
def Obligations.PrefixIsKept : Prop :=
  ∀ (p : BitVec 21) (s : State) (a : Nat) (g : Group) (b : Block), s.Issues a g b →
    let words := (if g.inStep then g.cap.words else g.runWords) + g.exts.length + 1
    (g.exts.length < 2 → words < 24 →
      ∃ t, exec (.ext p) s = .next t ∧ t.grp a = some { g.moveTo (g.pc + 4) with exts := g.exts ++ [p] } ∧
        (∀ k, k ≠ a → t.grp k = s.grp k) ∧ t.mem = s.mem ∧ t.cores = s.cores ∧ t.blocks = s.blocks ∧ t.ctxs = s.ctxs) ∧
    (2 ≤ g.exts.length ∨ 24 ≤ words → Traps (.ext p) s a g cIllegalOperand 0 0)

/-! ### Traps (08 R160 to R165) -/

/-- The registers that a trap of user code writes (08 R162), before its frame is, once its accepted accumulator words have written theirs (14
R289): XPC, XMODE, XCAUSE, XADDR, XAUX and trap mode; the trapping path is in PC slot 0. Every other register of the group is kept, and
every other group and memory. -/
def Sys2Proof.Claims.TrapRegisters : Prop :=
  ∀ (s : State) (a ctx cause : Nat) (g d : Group) (addr aux : BitVec 64) (resume : BitVec 57) (fromB : Bool),
    s.grp a = some g → (s.accDrain (coreOf a)).grp a = some d → s.traced ctx = false → cause < 256 →
    let t := s.beginTrap a ctx g cause addr aux resume fromB
    ∃ h e, t.grp a = some h ∧ h.entry = some e ∧ e.cause = cause ∧ e.framed = false ∧
      h = { d with
            xpc := resume, xmode := d.mode, xcause := BitVec.ofNat 8 cause, xaddr := addr, xaux := aux, trapMode := true,
            state := .trapped, exts := [], runWords := 0, dep := none, fate := none, woke := false, sent := false, going := [],
            path0 := (if fromB then d.path1 else d.path0), path1 := (if fromB then d.path0 else d.path1), onB := false,
            cap := { d.cap with onB := d.cap.onB ^^ fromB }, stopCause := h.stopCause, entry := some e } ∧
      (∀ k, k ≠ a → t.grp k = (s.accDrain (coreOf a)).grp k) ∧ t.mem = s.mem

/-- A trap of a group outside trap mode and outside a capsule step takes the registers of `TrapRegisters` and then its frame is
written (08 R162). -/
def Sys2Proof.Claims.TrapIsTaken : Prop :=
  ∀ (s : State) (a cause : Nat) (g : Group) (b : Block) (addr aux : BitVec 64) (xpc : BitVec 57) (fromB : Bool),
    s.grp a = some g → s.blk g.block = some b → g.trapMode = false → g.inStep = false →
    s.takeTrap a cause addr aux xpc fromB = (s.beginTrap a b.ctx g cause addr aux xpc fromB).finishEntry a

/-- Taking a trap (08 R160 to R162): the trap registers, and the group and its block as the trap is taken. -/
def Obligations.TrapEntry : Prop :=
  Claims.TrapRegisters ∧ Claims.TrapIsTaken

/-- The end of trap entry (08 R161, R162), where the frame's page can be written and lies in this module's memory: the frame of 128 bytes
stands at TVEC + 0x1000 + 128 × (core × 512 + slot) and holds `s0` to `s7`, XPC, XMODE, XCAUSE, XADDR, XAUX, the masks and flags of both
PC slots, and zeros; every other byte of memory is kept. Then `s0` holds the frame's address, MODE is 0, the handler's path begins at
TVEC + 64 × cause with all eight lanes, and no other register of the group changes. A frame that takes a poisoned register has its first
sector poisoned, which is the model's reading (log 15). Where the fetch of the handler finds a MIGRATING leaf,
the entry waits for it with its frame written. (A frame in an on-chip, host or fabric window is written there: log 18 has what the model
presumes of those windows, and nothing is stated of them here.) -/
def Obligations.TrapEntryReachesTheHandler : Prop :=
  ∀ (s t : State) (a : Nat) (g : Group) (b : Block) (e : PendEntry) (pa : Nat),
    s.grp a = some g → s.blk g.block = some b → g.entry = some e → e.cobbler = false → e.framed = false → g.trapMode = true →
    s.direct b.ctx (s.frameVa b.ctx a) .write true = (.ok pa, t) → t.grp a = some g → t.isHbmOrSecond pa = true →
    t.inReach (coreOf a) pa = true → t.writes = [] → Memory.wf t.mem = true → (t.ctx b.ctx).tvec = (s.ctx b.ctx).tvec →
    let base := (s.ctx b.ctx).tvec.toNat / 4096 * 4096
    let f := base + 0x1000 + a * 128
    let pc := base + e.cause * 64
    let v := s.finishEntry a
    let u := (((t.drainCore (coreOf a)).l1Store (coreOf a) pa 128 g.frame).performWrite
      ⟨a, coreOf a, b.ctx, f, pa, 128, g.frame, none, 0, []⟩).frameTaint g pa
    let found := u.translate (coreOf a) b.ctx pc .fetch true
    s.frameVa b.ctx a = f ∧
    (∀ k, k < 8 → v.read (pa + 8 * k) 8 = (g.sreg k).toNat) ∧
    v.read (pa + 64) 8 = g.xpc.toNat ∧ v.read (pa + 72) 8 = g.xmode.toNat ∧ v.read (pa + 80) 8 = g.xcause.toNat ∧
    v.read (pa + 88) 8 = g.xaddr.toNat ∧ v.read (pa + 96) 8 = g.xaux.toNat ∧
    v.read (pa + 104) 4 = (if g.path0.isSome then 16 else 0) + (if g.path1.isSome then 32 else 0) +
      ((g.path0.map fun p => p.mask.toNat * 256).getD 0) + ((g.path1.map fun p => p.mask.toNat * 65536).getD 0) ∧
    v.read (pa + 108) 20 = 0 ∧
    (∀ k, k < pa ∨ pa + 128 ≤ k → byteAt v.mem k = byteAt t.mem k) ∧
    ((∃ r ∈ g.poison, r.file = .scalar ∧ r.reg < 8) → pa / 64 ∈ u.poison) ∧
    (∀ at', found = .migrating at' → v.grp a = some { g with dep := some .watch, entry := some { e with framed := true } }) ∧
    ((∀ at', found ≠ .migrating at') →
      ∃ h, v.grp a = some h ∧ h.mask = 0xFF ∧
        h = { g with mode := 0, s := vset g.s 0 (BitVec.ofNat 64 f), entry := none, dep := none, stopCause := 0, promo := 0,
                     readyClk := t.clk.toNat, path0 := g.path0.map fun p => { p with pc := BitVec.ofNat 57 pc },
                     poison := g.cleaned .scalar 0 0 })

/-- A trap raised in trap mode is a double trap (08 R165): the group is HALTED with its trap mode kept, XPC is the handler word, XCAUSE
0x1A, XADDR the second fault's address, XAUX its cause, and XMODE and every other register of the group are kept; the context, where it was
RUNNING, is FAULTED with FCAUSE 0x1A and FDETAIL naming the core and slot. (No accumulator word of the core is under way: such words write
their registers first.) -/
def Obligations.DoubleTrapHalts : Prop :=
  ∀ (s : State) (a cause : Nat) (g : Group) (b : Block) (addr aux : BitVec 64) (xpc : BitVec 57) (fromB : Bool),
    s.grp a = some g → s.blk g.block = some b → g.trapMode = true → g.inStep = false → cause < 256 → a < 2 ^ 56 →
    (s.ctx b.ctx).state = .running → s.writes = [] → s.markings = [] → g.cap.role = 0 → (s.core (coreOf a)).accQ = [] →
    let t := s.takeTrap a cause addr aux xpc fromB
    ∃ h, t.grp a = some h ∧
      h = { g with xpc := xpc, xcause := 0x1A, xaddr := addr, xaux := BitVec.ofNat 64 cause, state := .halted, stopCause := 0x1A,
                   cobRun := false, dep := none, fate := none, exts := [], runWords := 0, entry := none, going := [], sent := h.sent } ∧
      (t.ctx b.ctx).state = .faulted ∧ (t.ctx b.ctx).fcause = 0x1A ∧ (t.ctx b.ctx).fdetail.toNat = a ∧
      ∀ k, k ≠ a → t.grp k = s.grp k

/-! ### Scalar integer instructions (09 R169 to R173) -/

namespace Sys2Proof.Claims

/-- The three-register and two-register scalar instructions, and the value that each writes from the old `sD`, `sA` and `sB`. -/
def scalarRows : List ((Bool → BitVec 7 → BitVec 7 → BitVec 7 → Instr) × (BitVec 64 → BitVec 64 → BitVec 64 → BitVec 64)) :=
  [(.sadd, fun _ a b => a + b),
   (.ssub, fun _ a b => a - b),
   (.smul, fun _ a b => a * b),
   (.smulh, fun _ a b => BitVec.ofInt 64 (a.toInt * b.toInt / 2 ^ 64)),
   (.smulhu, fun _ a b => BitVec.ofNat 64 (a.toNat * b.toNat / 2 ^ 64)),
   (.sdiv, fun _ a b => if b = 0 then -1 else BitVec.ofInt 64 (a.toInt.tdiv b.toInt)),
   (.sdivu, fun _ a b => if b = 0 then -1 else BitVec.ofNat 64 (a.toNat / b.toNat)),
   (.srem, fun _ a b => if b = 0 then a else BitVec.ofInt 64 (a.toInt.tmod b.toInt)),
   (.sremu, fun _ a b => if b = 0 then a else BitVec.ofNat 64 (a.toNat % b.toNat)),
   (.sand, fun _ a b => a &&& b),
   (.sor, fun _ a b => a ||| b),
   (.sxor, fun _ a b => a ^^^ b),
   (.sshl, fun _ a b => a <<< (b.toNat % 64)),
   (.sshr, fun _ a b => a >>> (b.toNat % 64)),
   (.ssra, fun _ a b => a.sshiftRight (b.toNat % 64)),
   (.smin, fun _ a b => if a.toInt ≤ b.toInt then a else b),
   (.smax, fun _ a b => if a.toInt ≤ b.toInt then b else a),
   (.sminu, fun _ a b => if a.toNat ≤ b.toNat then a else b),
   (.smaxu, fun _ a b => if a.toNat ≤ b.toNat then b else a),
   (.sseq, fun _ a b => if a = b then 1 else 0),
   (.sslt, fun _ a b => if a.toInt < b.toInt then 1 else 0),
   (.ssltu, fun _ a b => if a.toNat < b.toNat then 1 else 0),
   (.ssel, fun d a b => if d ≠ 0 then a else b),
   (.slea, fun _ a b => a + b * 8),
   (fun e d a _ => .sclz e d a, fun _ a _ => BitVec.ofNat 64 (if a = 0 then 64 else 63 - Nat.log2 a.toNat)),
   (fun e d a _ => .spopc e d a, fun _ a _ => BitVec.ofNat 64 ((List.range 64).countP fun k => a.getLsbD k)),
   (fun e d a _ => .sbrev e d a, fun _ a _ => a.reverse)]

/-- The scalar instructions with a signed immediate: the value that each writes from `sA` and the immediate. -/
def scalarSignedRows : List ((Bool → BitVec 7 → BitVec 7 → BitVec 7 → Instr) × (BitVec 64 → BitVec 64 → BitVec 64)) :=
  [(.saddi, fun a m => a + m), (.sandi, fun a m => a &&& m), (.sori, fun a m => a ||| m), (.sxori, fun a m => a ^^^ m)]

/-- Those with an unsigned immediate, its greatest value, and the value written. -/
def scalarUnsignedRows : List ((Bool → BitVec 7 → BitVec 7 → BitVec 7 → Instr) × Nat × (BitVec 64 → Nat → BitVec 64)) :=
  [(.sshli, 63, fun a m => a <<< m), (.sshri, 63, fun a m => a >>> m), (.ssrai, 63, fun a m => a.sshiftRight m),
   (.sext, 127, fun a m =>
     if m < 64 then BitVec.ofInt 64 (sgOf (m % 64 + 1) (a.toNat % 2 ^ (m % 64 + 1))) else BitVec.ofNat 64 (a.toNat % 2 ^ (m % 64 + 1)))]

end Sys2Proof.Claims

/-- A scalar instruction of registers completes and writes `sD` with the result that its row names (09 R170 to R172); nothing else
changes but the bookkeeping that ends a word. -/
def Sys2Proof.Claims.ScalarRegisterResults : Prop :=
  ∀ row ∈ Claims.scalarRows, ∀ (s : State) (a : Nat) (g : Group) (b : Block) (e : Bool) (d x y : BitVec 7),
    s.Issues a g b → g.exts = [] → d.toNat < 32 → x.toNat < 32 → y.toNat < 32 → g.StepAllows e [d, x, y] →
    Writes (row.1 e d x y) s a (g.setS d.toNat (row.2 (g.sreg d.toNat) (g.sreg x.toNat) (g.sreg y.toNat)))

/-- A scalar instruction with an immediate (09 R172, R173), under its prefixes (03 R67): a signed immediate, or an unsigned one up to
its bound; an unsigned one above its bound raises ILLEGAL_OPERAND. `sli` writes the immediate itself. -/
def Sys2Proof.Claims.ScalarImmediateResults : Prop :=
  ∀ (s : State) (a : Nat) (g : Group) (b : Block) (e : Bool) (d x i7 : BitVec 7) (i14 : BitVec 14),
    s.Issues a g b → d.toNat < 32 → x.toNat < 32 →
    (∀ row ∈ Claims.scalarSignedRows,
      (∀ m, signedImm g.exts 7 i7.toNat = some m → g.StepAllows e [d, x] →
        Writes (row.1 e d x i7) s a (g.setS d.toNat (row.2 (g.sreg x.toNat) m)))) ∧
    (∀ row ∈ Claims.scalarUnsignedRows,
      (rawImm g.exts 7 i7.toNat ≤ row.2.1 → g.StepAllows e [d, x] →
        Writes (row.1 e d x i7) s a (g.setS d.toNat (row.2.2 (g.sreg x.toNat) (rawImm g.exts 7 i7.toNat)))) ∧
      (row.2.1 < rawImm g.exts 7 i7.toNat → Traps (row.1 e d x i7) s a g cIllegalOperand 0 0)) ∧
    (∀ m, signedImm g.exts 14 i14.toNat = some m → g.StepAllows e [d] → Writes (.sli e d i14) s a (g.setS d.toNat m))

/-- The encodings of the scalar words (09 R170, R172, R173): formats A, B and C with the opcodes of their tables; `sclz`, `spopc` and
`sbrev` have a zero b field. -/
def Sys2Proof.Claims.ScalarForms : Prop :=
  ∀ (e : Bool) (d a b : BitVec 7) (i : BitVec 14),
    (∀ p ∈ [0x001#10, 0x002, 0x003, 0x004, 0x005, 0x006, 0x007, 0x008, 0x009, 0x00A, 0x00B, 0x00C, 0x00D, 0x00E, 0x00F, 0x010, 0x011, 0x012,
        0x013, 0x014, 0x015, 0x016, 0x017, 0x01C, 0x018, 0x019, 0x01A].zip Claims.scalarRows,
      (p.1 = 0x018 ∨ p.1 = 0x019 ∨ p.1 = 0x01A → b = 0) → decodeWord (Claims.word e p.1 d a b) = p.2.1 e d a b) ∧
    (∀ p ∈ [0x020#10, 0x021, 0x022, 0x023].zip Claims.scalarSignedRows, decodeWord (Claims.word e p.1 d a b) = p.2.1 e d a b) ∧
    (∀ p ∈ [0x024#10, 0x025, 0x026, 0x01B].zip Claims.scalarUnsignedRows, decodeWord (Claims.word e p.1 d a b) = p.2.1 e d a b) ∧
    decodeWord (Claims.wordC e 0x027 d i) = .sli e d i

/-- The scalar words (09 R170 to R173), of registers and of immediates: their encodings and their results.
Forms that this statement says complete (the answer of `exec` is a next state with their effect): `sadd`, `ssub`, `smul`, `smulh`, `smulhu`, `sdiv`,
`sdivu`, `srem`, `sremu`, `sand`, `sor`, `sxor`, `sshl`, `sshr`, `ssra`, `smin`, `smax`, `sminu`, `smaxu`, `sseq`, `sslt`, `ssltu`, `ssel`, `sclz`,
`spopc`, `sbrev`, `sext`, `slea`, `saddi`, `sandi`, `sori`, `sxori`, `sshli`, `sshri`, `ssrai`, `sli`. -/
def Obligations.ScalarResults : Prop :=
  Claims.ScalarForms ∧ Claims.ScalarRegisterResults ∧ Claims.ScalarImmediateResults

/-! ### Control transfer (09 R174 to R181) -/

namespace Sys2Proof.Claims

/-- The state after the trace packet of a word of group a (21 R398): the same state where its context is not traced. -/
def packet (s : State) (a : Nat) (g : Group) (b : Block) (type payload : Nat) (w1 : Option (BitVec 64)) : State :=
  s.tracePacket (coreOf a) b.ctx (slotOf a) (!g.trapMode && g.onB) type payload w1

/-- The target of a branch with offset m (09 R175). -/
def branchTo (g : Group) (m : BitVec 64) : BitVec 57 := g.pc + 4 * m.truncate 57

/-- A branch inside a capsule step goes forward, and is not the step's 24th word (17 R331). -/
def branchInStep (g : Group) (m : BitVec 64) : Prop := g.inStep = true → 0 < m.toInt ∧ g.cap.words + g.exts.length ≠ 23

/-- The address of a scalar access: base and scaled offset, modulo 2^64 (12 R248). -/
def address (g : Group) (x : Nat) (m : BitVec 64) (n : Nat) : Nat := (g.sreg x + m * BitVec.ofNat 64 n).toNat

/-- A scalar load of n bytes. -/
def loadAcc (va n : Nat) (scr : Bool) : Acc := ⟨va, n, .read, 0, 0, true, scr, false, none, 0⟩

/-- A scalar store of the low n bytes of a register. -/
def storeAcc (va n : Nat) (scr : Bool) (v : BitVec 64) : Acc := ⟨va, n, .write, 0, 0, true, scr, false, some (v.toNat % 2 ^ (8 * n)), 0⟩

/-- The miss-status entries that a load of n bytes of memory takes (11 R226): one for each sector that its L1 does not hold. -/
def misses (s : State) (a : Nat) (g : Group) (scope : Nat) (home : Bool) (pa n : Nat) : List Nat :=
  s.loadMisses (coreOf a) g.acqClk scope home [(loadAcc 0 n false, .mem pa)]

/-- A load of a checked place can be performed: what it needs from a home can be reached (19 R362, R374). -/
def reachable (s : State) (a : Nat) (g : Group) (scope : Nat) (home : Bool) (n : Nat) (p : Place) : Bool :=
  (s.loadReaches (coreOf a) a g.acqClk scope home [(loadAcc 0 n false, p)]).all fun x => s.inReach (coreOf a) x.2.addr

/-- What a read at a checked place gives, and the state after it; none where the place cannot be reached or holds poison, its core has too
few free miss-status entries, or its host has not replied. -/
def readAt (s : State) (a : Nat) (g : Group) (scope : Nat) (home : Bool) (n : Nat) (p : Place) : Option (Nat × State) :=
  if reachable s a g scope home n p = false then none
  else
    match p with
    | .mem pa =>
      let ks := misses s a g scope home pa n
      if s.poisoned pa n || !(s.entriesFree (coreOf a) ks) then none
      else some ((s.takeEntries (coreOf a) ks).memLoad (coreOf a) a g.acqClk scope home pa n)
    | .chip pa => if (s.chipRead pa n).2.chipBad pa n then none else some (s.chipRead pa n)
    | .scr core off => if s.scrPoisoned core off n then none else some (s.scrRead core off n, s)
    | .ext pa =>
      match s.extValue a pa n with
      | none => none
      | some _ =>
        let u := s.settleFor (coreOf a) a pa n
        match (u.extValue a pa n).getD (false, 0) with
        | (false, v) => some (overlay (u.writes.filter fun w => w.knownTo (coreOf a) a) pa n v, u)
        | _ => none

/-- The access of a word to entry k of its group's divergence stack (08 R158): 16 bytes at SPILL + 4096 × agent + 16 × k, which watchpoints
do not observe. -/
def stackAcc (s : State) (a : Nat) (b : Block) (k : Nat) (kind : Access) (data : Option Nat) : Acc :=
  ⟨((s.ctx b.ctx).spill.toNat + a * 4096 + k * 16) % 2 ^ 64, 16, kind, 0, 0, true, false, true, data, 0⟩

/-- The state after an entry pushed at depth k of the stack, in memory at pa. -/
def pushed (s : State) (a : Nat) (b : Block) (k pa : Nat) (e : StackEntry) : State :=
  s.storePieces (coreOf a) a b.ctx (stackAcc s a b k .write none).va pa 16 e.code

/-- The sibling of a path with a tag is in the other PC slot (08 R157, 09 R178). -/
def siblingBeside (g : Group) (tag : BitVec 16) : Bool := g.otherPath.any fun q => q.tag == (tag ^^^ 1)

/-- The conditional branches: what each tests of the group, of the register that its field names. -/
def branchRows : List ((BitVec 7 → BitVec 14 → Instr) × RegKind × (Group → Nat → Bool)) :=
  [(.brz, .scalar, fun g r => g.sreg r == 0), (.brnz, .scalar, fun g r => g.sreg r != 0),
   (.brany, .pred, fun g r => g.preg r &&& g.mask != 0), (.brall, .pred, fun g r => g.preg r &&& g.mask == g.mask)]

end Sys2Proof.Claims

/-- The branches (09 R175, R176): the PC of the issuing path goes to the target, or to the next word where the condition fails, with no
other effect but a branch packet of a traced context. `brany` and `brall` look at the lanes of the path's mask. An offset that does not
fit 56 bits with its sign (03 R67) raises ILLEGAL_OPERAND. -/
def Sys2Proof.Claims.BranchTargets : Prop :=
  ∀ (s : State) (a : Nat) (g : Group) (b : Block) (i21 : BitVec 21) (r : BitVec 7) (o : BitVec 14) (m : BitVec 64),
    s.Issues a g b →
    (signedImm g.exts 21 i21.toNat = some m → Claims.branchInStep g m →
      Completes (.br i21) s s a (g.moveTo (Claims.branchTo g m))) ∧
    (signedImm g.exts 21 i21.toNat = none → Traps (.br i21) s a g cIllegalOperand 0 0 ∧ Traps (.call i21) s a g cIllegalOperand 0 0) ∧
    (∀ row ∈ Claims.branchRows, signedImm g.exts 14 o.toNat = some m → row.2.1.fits g.kregs r.toNat = true →
      (g.inStep = true → row.2.1 = .scalar ∧ 16 ≤ r.toNat) → Claims.branchInStep g m →
      Completes (row.1 r o) s (Claims.packet s a g b 2 (row.2.2 g r.toNat).toNat none) a
        (g.moveTo (if row.2.2 g r.toNat then Claims.branchTo g m else g.pc + 4)))

/-- Calls, returns and computed jumps (09 R175, R176): `call` puts the return address in `s15`, and raises DIVERGED_CALL where the group
is split; a computed target that is no multiple of 4 raises MISALIGN with the target in XADDR. -/
def Sys2Proof.Claims.CallsAndJumps : Prop :=
  ∀ (s : State) (a : Nat) (g : Group) (b : Block) (i21 : BitVec 21) (r : BitVec 7) (o : BitVec 14) (m : BitVec 64),
    s.Issues a g b → g.inStep = false →
    (signedImm g.exts 21 i21.toNat = some m → (g.trapMode = true ∨ g.otherPath = none ∧ g.depth = 0) →
      Completes (.call i21) s s a ((g.setS 15 ((g.pc + 4).zeroExtend 64)).moveTo (Claims.branchTo g m))) ∧
    (signedImm g.exts 21 i21.toNat = some m → g.trapMode = false → (g.otherPath ≠ none ∨ g.depth ≠ 0) →
      Traps (.call i21) s a g cDivergedCall 0 0) ∧
    (g.exts = [] → (g.sreg 15).toNat % 4 = 0 →
      Completes .ret s (Claims.packet s a g b 5 0 (some (((g.sreg 15).truncate 57).zeroExtend 64))) a (g.moveTo ((g.sreg 15).truncate 57))) ∧
    (g.exts = [] → (g.sreg 15).toNat % 4 ≠ 0 → Traps .ret s a g cMisalign (((g.sreg 15).truncate 57).zeroExtend 64) 0) ∧
    (signedImm g.exts 14 o.toNat = some m → r.toNat < 32 →
      let t : BitVec 57 := (g.sreg r.toNat).truncate 57 + 4 * m.truncate 57
      (t.toNat % 4 = 0 → Completes (.jmp r o) s (Claims.packet s a g b 5 0 (some (t.zeroExtend 64))) a (g.moveTo t)) ∧
      (t.toNat % 4 ≠ 0 → Traps (.jmp r o) s a g cMisalign (t.zeroExtend 64) 0))

/-- `nop` does nothing (09 R177); `phase` sets the phase index and restarts the phase timer, an overrun not yet delivered forgotten; the
group that `yield`s gives its slot away (08 R156) and waits for no other READY group to have issued. -/
def Sys2Proof.Claims.PlainControlWords : Prop :=
  ∀ (s : State) (a : Nat) (g : Group) (b : Block) (e : Bool) (i : BitVec 14), s.Issues a g b →
    (g.exts = [] → g.StepAllows e [] → Writes (.nop e) s a g) ∧
    (g.inStep = false → rawImm g.exts 14 i.toNat ≤ 0xFFFF →
      Writes (.phase e i) s a { g with phase := BitVec.ofNat 16 (rawImm g.exts 14 i.toNat), phTimer := 0, pendPhase := false, phOver := false }) ∧
    (g.inStep = false → 0xFFFF < rawImm g.exts 14 i.toNat → Traps (.phase e i) s a g cIllegalOperand 0 0) ∧
    (g.Clear → Writes .yield s a { g with promo := 0, yielded := true })

/-- Branches, calls, returns, jumps and the plain control words (09 R176, R177).
Forms that this statement says complete (the answer of `exec` is a next state with their effect): `br`, `brz`, `brnz`, `brany`, `brall`, `call`,
`ret`, `jmp`, `nop`, `phase`, `yield`. -/
def Obligations.ControlWords : Prop :=
  Claims.BranchTargets ∧ Claims.CallsAndJumps ∧ Claims.PlainControlWords

/-- `vbr` (09 R179, 08 R157): a predicate that all lanes of the path agree on branches or falls through; a mixed one splits the path. The
lanes that go on keep the path's PC slot, with the even tag; the others take the free slot, with the odd tag, at the target, or, where the
other slot holds a path, are pushed as a ready entry on the divergence stack (08 R158), which raises DIVSTACK_OVERFLOW where it is full. In
trap mode a mixed predicate is ILLEGAL_OPERAND. -/
def Sys2Proof.Claims.SplitsOfPaths : Prop :=
  ∀ (s : State) (a : Nat) (g : Group) (b : Block) (r : BitVec 7) (o : BitVec 14) (m : BitVec 64) (p : Path),
    s.Issues a g b → g.inStep = false → signedImm g.exts 14 o.toNat = some m → r.toNat < 8 → g.path = some p →
    let t := g.preg r.toNat &&& g.mask
    (t = g.mask → Completes (.vbr r o) s (Claims.packet s a g b 2 1 none) a (g.moveTo (Claims.branchTo g m))) ∧
    (t = 0 → t ≠ g.mask → Completes (.vbr r o) s (Claims.packet s a g b 2 0 none) a (g.moveTo (g.pc + 4))) ∧
    (t ≠ 0 → t ≠ g.mask → g.trapMode = true → Traps (.vbr r o) s a g cIllegalOperand 0 0) ∧
    (t ≠ 0 → t ≠ g.mask → g.trapMode = false → g.otherPath = none →
      let near : Path := { p with pc := g.pc + 4, mask := p.mask &&& ~~~(g.preg r.toNat), tag := g.splitC }
      let far : Path := ⟨Claims.branchTo g m, t, g.splitC + 1, p.tag⟩
      Completes (.vbr r o) s (Claims.packet s a g b 3 t.toNat none) a
        { g with path0 := some (if g.onB then far else near), path1 := some (if g.onB then near else far),
                 splitC := if g.splitC + 2 = 0 then 2 else g.splitC + 2 }) ∧
    (t ≠ 0 → t ≠ g.mask → g.trapMode = false → g.otherPath ≠ none → 256 ≤ g.depth → Traps (.vbr r o) s a g cDivstackOverflow 0 0) ∧
    (∀ pa, t ≠ 0 → t ≠ g.mask → g.trapMode = false → g.otherPath ≠ none → g.depth < 256 →
      let far : StackEntry := ⟨Claims.branchTo g m, t, false, g.splitC + 1, p.tag⟩
      s.checkAcc a g b (Claims.stackAcc s a b g.depth .write (some far.code)) = .ok (.mem pa) →
      Completes (.vbr r o) s (Claims.packet (Claims.pushed s a b g.depth pa far) a g b 3 t.toNat none) a
        { g.setPath (some { p with pc := g.pc + 4, mask := p.mask &&& ~~~(g.preg r.toNat), tag := g.splitC }) with
          splitC := if g.splitC + 2 = 0 then 2 else g.splitC + 2, depth := g.depth + 1 })

/-- `vjoin` (09 R180) of a path that was never split, or whose sibling has gone, goes on; one whose sibling still runs in the other PC slot
waits as a join entry on the divergence stack, at the context's SPILL (08 R158), and empties its slot; one whose sibling waits as the top
entry of the stack merges with it: the entry is removed, the masks are joined, and the tags are those of the path that was split (R178). In
trap mode `vjoin` is ILLEGAL_OPERAND. -/
def Sys2Proof.Claims.JoinsOfPaths : Prop :=
  ∀ (s : State) (a : Nat) (g : Group) (b : Block) (p : Path),
    s.Issues a g b → g.Clear → (g.trapMode = true → Traps .vjoin s a g cIllegalOperand 0 0) ∧ (g.trapMode = false → g.path = some p →
    (p.tag.toNat < 2 → Writes .vjoin s a g) ∧
    (2 ≤ p.tag.toNat → Claims.siblingBeside g p.tag = false → g.depth = 0 →
      Completes .vjoin s s a (g.setPath (some { p with pc := g.pc + 4, tag := 0, ptag := 0 }))) ∧
    (∀ pa, 2 ≤ p.tag.toNat → Claims.siblingBeside g p.tag = true → g.depth = 0 →
      let wait : StackEntry := ⟨g.pc + 4, p.mask, true, p.tag, p.ptag⟩
      s.checkAcc a g b (Claims.stackAcc s a b 0 .write (some wait.code)) = .ok (.mem pa) →
      Completes .vjoin s (Claims.pushed s a b 0 pa wait) a { g.setPath none with depth := 1 }) ∧
    (∀ q n v u h, 2 ≤ p.tag.toNat → Claims.siblingBeside g p.tag = false → g.depth = n + 1 →
      s.checkAcc a g b (Claims.stackAcc s a b n .read none) = .ok q → Claims.readAt s a g 0 false 16 q = some (v, u) →
      let w := StackEntry.ofCode v
      w.join = true → w.tag = p.tag ^^^ 1 → u.grp a = some h → h.state ≠ .exited →
      Completes .vjoin s (Claims.packet u a g b 4 (p.mask ||| w.mask).toNat none) a
        { h.setPath (some ⟨g.pc + 4, p.mask ||| w.mask, if p.tag.getLsbD 0 then p.ptag else w.ptag,
            if p.tag.getLsbD 0 then w.ptag else p.ptag⟩) with depth := n }))

/-- `exit` (09 R181): the last path of a group that was never split makes it EXITED and gives its slot up, and its ENERGY is added to
its block's; a path whose group has another one in its other PC slot leaves its own slot empty, and the group goes on. A path whose sibling
runs in the other slot leaves an entry without lanes on the stack, so that the sibling joins alone; one whose sibling waits as the top entry
lets it go on in its place, with the tags of the path that was split; and a slot left empty takes the ready path on top of the stack (08
R157). In trap mode `exit` is ILLEGAL_OPERAND. -/
def Sys2Proof.Claims.ExitsOfPaths : Prop :=
  ∀ (s : State) (a : Nat) (g : Group) (b : Block) (p : Path),
    s.Issues a g b → g.Clear → (g.trapMode = true → Traps .exit s a g cIllegalOperand 0 0) ∧ (g.trapMode = false → g.path = some p →
    (p.tag.toNat < 2 → g.depth = 0 → s.traced b.ctx = false → g.otherPath = none →
      ∃ t h c, exec .exit s = .next t ∧ t.grp a = some h ∧ h.state = .exited ∧ h.path0 = none ∧ h.path1 = none ∧ h.v = g.v ∧ h.s = g.s ∧
        a ∉ t.issue ∧ t.mem = s.mem ∧ (∀ k, k ≠ a → t.grp k = s.grp k) ∧ t.blk g.block = some c ∧ c.energy = b.energy + h.energy) ∧
    (p.tag.toNat < 2 → g.depth = 0 → g.otherPath ≠ none →
      Completes .exit s (Claims.packet s a g b 7 g.mask.toNat none) a (g.setPath none)) ∧
    (∀ pa, 2 ≤ p.tag.toNat → Claims.siblingBeside g p.tag = true → g.depth = 0 →
      let gone : StackEntry := ⟨0, 0, true, p.tag, p.ptag⟩
      s.checkAcc a g b (Claims.stackAcc s a b 0 .write (some gone.code)) = .ok (.mem pa) →
      Completes .exit s (Claims.packet (Claims.pushed s a b 0 pa gone) a g b 7 g.mask.toNat none) a { g.setPath none with depth := 1 }) ∧
    (∀ q n v u h, g.depth = n + 1 → s.checkAcc a g b (Claims.stackAcc s a b n .read none) = .ok q →
      Claims.readAt s a g 0 false 16 q = some (v, u) → u.grp a = some h → h.state ≠ .exited →
      let w := StackEntry.ofCode v
      (p.tag.toNat < 2 → w.join = false →
        Completes .exit s (Claims.packet u a g b 7 g.mask.toNat none) a { h.setPath (some ⟨w.pc, w.mask, w.tag, w.ptag⟩) with depth := n }) ∧
      (2 ≤ p.tag.toNat → Claims.siblingBeside g p.tag = false → w.join = true → w.tag = p.tag ^^^ 1 → w.mask ≠ 0 →
        Completes .exit s (Claims.packet u a g b 7 g.mask.toNat none) a
          { h.setPath (some ⟨w.pc, w.mask, if p.tag.getLsbD 0 then p.ptag else w.ptag,
              if p.tag.getLsbD 0 then w.ptag else p.ptag⟩) with depth := n })))

/-- How paths split, join and exit (09 R178 to R181).
Forms that this statement says complete (the answer of `exec` is a next state with their effect): `vbr`, `vjoin`, `exit`. -/
def Obligations.DivergenceWords : Prop :=
  Claims.SplitsOfPaths ∧ Claims.JoinsOfPaths ∧ Claims.ExitsOfPaths

/-! ### System instructions (09 R182 to R191) -/

/-- MODE (09 R182, 03 R72 to R74): `setmode` writes the low 27 bits of a value with no reserved code, and refuses any other value; `modei`
writes the field that its code names with a value it can hold and that is no reserved code, and refuses any other code or value;
`getmode` reads MODE. -/
def Sys2Proof.Claims.ModeResults : Prop :=
  ∀ (s : State) (a : Nat) (g : Group) (b : Block) (e : Bool) (r : BitVec 7) (o : BitVec 14),
    s.Issues a g b → g.inStep = false →
    (g.exts = [] → r.toNat < 32 → (g.sreg r.toNat).toNat < 2 ^ 27 → modeLegal ((g.sreg r.toNat).truncate 32) = true →
      Writes (.setmode e r) s a { g with mode := (g.sreg r.toNat).truncate 32 }) ∧
    (g.exts = [] → r.toNat < 32 → (2 ^ 27 ≤ (g.sreg r.toNat).toNat ∨ modeLegal ((g.sreg r.toNat).truncate 32) = false) →
      Traps (.setmode e r) s a g cIllegalOperand 0 0) ∧
    (∀ lo w most, modeField r.toNat = some (lo, w, most) → rawImm g.exts 14 o.toNat < 2 ^ w → rawImm g.exts 14 o.toNat ≤ most →
      Writes (.modei e r o) s a { g with mode := setField g.mode lo w (rawImm g.exts 14 o.toNat) }) ∧
    ((∀ lo w most, modeField r.toNat = some (lo, w, most) → 2 ^ w ≤ rawImm g.exts 14 o.toNat ∨ most < rawImm g.exts 14 o.toNat) →
      Traps (.modei e r o) s a g cIllegalOperand 0 0) ∧
    (g.exts = [] → r.toNat < 32 → Writes (.getmode e r) s a (g.setS r.toNat (g.mode.zeroExtend 64)))

/-- The encodings of the MODE words (09 R182): `setmode` of format A with its a field alone, `modei` of format C with the field's code
in d, `getmode` of format A with its d field alone; `modei g, 0` is the word 0x0A20_0000. -/
def Sys2Proof.Claims.ModeForms : Prop :=
  ∀ (e : Bool) (r : BitVec 7) (o : BitVec 14),
    decodeWord (Claims.word e 0x050 0 r 0) = .setmode e r ∧ decodeWord (Claims.wordC e 0x051 r o) = .modei e r o ∧
    decodeWord (Claims.word e 0x052 r 0 0) = .getmode e r ∧ decodeWord 0x0A200000 = .modei false 0 0

/-- The words of MODE (09 R182): their encodings and their effects.
Forms that this statement says complete (the answer of `exec` is a next state with their effect): `setmode`, `modei`, `getmode`. -/
def Obligations.ModeWords : Prop :=
  Claims.ModeForms ∧ Claims.ModeResults

namespace Sys2Proof.Claims

/-- The special registers that any word may read (03 R76): code and value. -/
def specials (s : State) (a : Nat) (g : Group) (b : Block) : List (Nat × BitVec 64) :=
  [(0x000, BitVec.ofNat 64 g.gid), (0x001, BitVec.ofNat 64 b.bid), (0x002, BitVec.ofNat 64 b.desc.bdim),
   (0x003, BitVec.ofNat 64 b.desc.gdim), (0x004, BitVec.ofNat 64 (b.bid / max 1 b.desc.cldim)), (0x005, BitVec.ofNat 64 b.rank),
   (0x006, BitVec.ofNat 64 (a / 512)), (0x007, BitVec.ofNat 64 (a / 512 / 48)), (0x008, BitVec.ofNat 64 (a % 512)),
   (0x009, BitVec.ofNat 64 b.ctx), (0x00A, BitVec.ofNat 64 (((amGet s.grids b.grid).map fun k => k.node).getD 0)), (0x00B, s.lseqOf b), (0x00C, BitVec.ofNat 64 (b.desc.param.toNat % 2 ^ 57)),
   (0x010, s.clk), (0x011, g.seed), (0x012, g.energy), (0x013, g.phase.zeroExtend 64), (0x014, g.fpstat.zeroExtend 64)]

/-- The exception registers (03 R77), read and written in trap mode only. -/
def exceptions (g : Group) : List (Nat × BitVec 64) :=
  [(0x020, g.xpc.zeroExtend 64), (0x021, g.xmode.zeroExtend 64), (0x022, g.xcause.zeroExtend 64), (0x023, g.xaddr), (0x024, g.xaux)]

/-- Lane registers written in the active lanes: lane l takes `f l`. -/
def putLanes (g : Group) (d : Nat) (f : Nat → Nat) : Group := (lanesOf g.active).foldl (fun h l => h.setV d l (f l)) g

/-- The registers that `swr` writes (03 R76, 09 R183): code, width, and the group afterwards. SEED restarts every lane's generator (02
R50); the reserved bits of FPSTAT and XMODE are not written. -/
def writables : List (Nat × Nat × (Group → BitVec 64 → Group)) :=
  [(0x011, 64, fun g v => { g with seed := v, gen := Vector.ofFn fun l => seedLane v l.val }),
   (0x014, 32, fun g v => { g with fpstat := v.truncate 32 &&& 0x1F1F }),
   (0x020, 57, fun g v => { g with xpc := v.truncate 57 }),
   (0x021, 32, fun g v => { g with xmode := v.truncate 32 &&& 0x07FFFFFF }),
   (0x022, 8, fun g v => { g with xcause := v.truncate 8 }),
   (0x023, 64, fun g v => { g with xaddr := v }),
   (0x024, 64, fun g v => { g with xaux := v })]

/-- A code names one of the exception registers. -/
def isException (code : Nat) : Prop := 0x020 ≤ code ∧ code ≤ 0x024

end Sys2Proof.Claims

/-- `srd` reads the special registers, those of exceptions in trap mode (03 R76, R77, 09 R183); an exception register outside trap mode
raises PRIVILEGE. -/
def Sys2Proof.Claims.SpecialRegistersAreRead : Prop :=
  ∀ (s : State) (a : Nat) (g : Group) (b : Block) (e : Bool) (d : BitVec 7) (o : BitVec 14),
    s.Issues a g b → g.inStep = false → d.toNat < 32 →
    (∀ x ∈ Claims.specials s a g b, rawImm g.exts 14 o.toNat = x.1 → Writes (.srd e d o) s a (g.setS d.toNat x.2)) ∧
    (∀ x ∈ Claims.exceptions g, rawImm g.exts 14 o.toNat = x.1 → g.trapMode = true → Writes (.srd e d o) s a (g.setS d.toNat x.2)) ∧
    (Claims.isException (rawImm g.exts 14 o.toNat) → g.trapMode = false → Traps (.srd e d o) s a g cPrivilege 0 0)

/-- `swr` writes the writable special registers with values that fit them, those of exceptions in trap mode (03 R76, R77, 09 R183); a value with a bit above the register's
width, and a code that no writable register has, raise ILLEGAL_OPERAND. -/
def Sys2Proof.Claims.SpecialRegistersAreWritten : Prop :=
  ∀ (s : State) (a : Nat) (g : Group) (b : Block) (e : Bool) (d : BitVec 7) (o : BitVec 14),
    s.Issues a g b → g.inStep = false → d.toNat < 32 → rawImm g.exts 14 o.toNat < 2 ^ 56 →
    (Claims.isException (rawImm g.exts 14 o.toNat) → g.trapMode = false → Traps (.swr e d o) s a g cPrivilege 0 0) ∧
    (∀ x ∈ Claims.writables, rawImm g.exts 14 o.toNat = x.1 → (Claims.isException x.1 → g.trapMode = true) →
      ((g.sreg d.toNat).toNat < 2 ^ x.2.1 → Writes (.swr e d o) s a (x.2.2 g (g.sreg d.toNat))) ∧
      (2 ^ x.2.1 ≤ (g.sreg d.toNat).toNat → Traps (.swr e d o) s a g cIllegalOperand 0 0)) ∧
    ((∀ x ∈ Claims.writables, rawImm g.exts 14 o.toNat ≠ x.1) → Traps (.swr e d o) s a g cIllegalOperand 0 0)

/-- `vsrd` (10 R206) writes a special register, or the lane's index 0x030 and the thread's index 0x031, to each active lane; lanes that
are not active keep their values. -/
def Sys2Proof.Claims.SpecialRegistersInLanes : Prop :=
  ∀ (s : State) (a : Nat) (g : Group) (b : Block) (e : Bool) (d : BitVec 7) (o : BitVec 14),
    s.Issues a g b → g.inStep = false → d.toNat < g.kregs →
    (∀ x ∈ Claims.specials s a g b, rawImm g.exts 14 o.toNat = x.1 →
      Writes (.vsrd e d o) s a (Claims.putLanes g d.toNat fun _ => x.2.toNat)) ∧
    (∀ x ∈ Claims.exceptions g, rawImm g.exts 14 o.toNat = x.1 → g.trapMode = true →
      Writes (.vsrd e d o) s a (Claims.putLanes g d.toNat fun _ => x.2.toNat)) ∧
    (rawImm g.exts 14 o.toNat = 0x030 → Writes (.vsrd e d o) s a (Claims.putLanes g d.toNat fun l => l)) ∧
    (rawImm g.exts 14 o.toNat = 0x031 → Writes (.vsrd e d o) s a (Claims.putLanes g d.toNat fun l => g.gid * 8 + l))

/-- The special registers (09 R183, 10 R206): read, written, and read into lanes.
Forms that this statement says complete (the answer of `exec` is a next state with their effect): `srd`, `swr`, `vsrd`. -/
def Obligations.SpecialRegisters : Prop :=
  Claims.SpecialRegistersAreRead ∧ Claims.SpecialRegistersAreWritten ∧ Claims.SpecialRegistersInLanes

/-- A vector register written in the active lanes (03 R75, 10 R192): each active lane takes its value, each other lane and each other
register is as before, and the written lanes are poisoned no more (22 R406). -/
def Sys2Proof.Claims.LanesWritten : Prop :=
  ∀ (g : Group) (d : Nat) (f : Nat → Nat), d < 128 →
    (∀ l, l < 8 → (Claims.putLanes g d f).vlane d l = if g.active.getLsbD l then f l % 2 ^ 256 else g.vlane d l) ∧
    (∀ n l, n ≠ d → (Claims.putLanes g d f).vlane n l = g.vlane n l) ∧
    (∃ v, Claims.putLanes g d f =
      { g with v := v, poison := g.poison.filter fun r => !(r.file == .vector && r.reg == d && g.active.getLsbD r.lane) })

/-- A group that reads a poisoned register takes POISON on the reading instruction (22 R406), with XADDR and XAUX zero, which is the model's
choice (log 15): a scalar word of a poisoned source, and a vector word with a poisoned source lane that is active; a word that only writes the
poisoned register completes, and the register is poisoned no more. (No prefix is pending, the group is outside capsule steps, and no
accumulator word is to write its registers.) -/
def Sys2Proof.Claims.PoisonedRegisters : Prop :=
  ∀ (s : State) (a : Nat) (g : Group) (b : Block) (e : Bool) (d x y : BitVec 7),
    s.issue.head? = some a → s.grp a = some g → s.blk g.block = some b → g.state ≠ .exited → (s.core (coreOf a)).resultsDue a = [] → g.Clear →
    (d.toNat < 32 → x.toNat < 32 → y.toNat < 32 →
      (∀ row ∈ Claims.scalarRows, ⟨.scalar, x.toNat, 0⟩ ∈ g.poison → Traps (row.1 e d x y) s a g cPoison 0 0) ∧
      (d ≠ x → d ≠ y → g.poison = [⟨.scalar, d.toNat, 0⟩] →
        Writes (.sadd e d x y) s a (g.setS d.toNat (g.sreg x.toNat + g.sreg y.toNat)) ∧
        (g.setS d.toNat (g.sreg x.toNat + g.sreg y.toNat)).poison = [])) ∧
    (modeEt g.mode ≤ 3 → d.toNat < g.kregs → x.toNat < g.kregs → y.toNat < g.kregs →
      ∀ l, g.active.getLsbD l → ⟨.vector, x.toNat, l⟩ ∈ g.poison → Traps (.vadd e d x y) s a g cPoison 0 0)

/-- The registers that a word writes, lane by lane (03 R75, 10 R192), and the poison of registers (22 R406).
Forms that this statement says complete (the answer of `exec` is a next state with their effect): `vadd`. -/
def Obligations.InactiveLanesAreKept : Prop :=
  Claims.LanesWritten ∧ Claims.PoisonedRegisters

/-- Traps by program (09 R185, R186): `trap` raises TRAP_INSN with its immediate in XAUX and XPC at the next word, in trap mode at itself
(08 R165), `bkpt` BREAKPOINT with its immediate in XAUX and XPC at itself. -/
def Sys2Proof.Claims.TrapsByProgram : Prop :=
  ∀ (s : State) (a : Nat) (g : Group) (b : Block) (e : Bool) (o : BitVec 14),
    s.Issues a g b → g.inStep = false → rawImm g.exts 14 o.toNat < 2 ^ 56 →
    (∃ u : State, (∀ k, k ≠ a → u.grp k = s.grp k) ∧ u.mem = s.mem ∧ u.ctxs = s.ctxs ∧ u.blocks = s.blocks ∧
      (∃ n, u.grp a = some { g with energy := n }) ∧
      exec (.trap e o) s = .next (u.takeTrap a cTrapInsn 0 (BitVec.ofNat 64 (rawImm g.exts 14 o.toNat)) (if g.trapMode then g.wordPc else g.pc + 4) g.onB)) ∧
    Traps (.bkpt e o) s a g cBreakpoint 0 (BitVec.ofNat 64 (rawImm g.exts 14 o.toNat))

/-- `halt` (09 R186, 21 R390): the group enters HALTED with the PC at the next word and the stop cause 0x20, it holds no issue slot, and
every register of it is kept, the exception registers and trap mode too, as is every other group. (No accumulator word of the core is under
way: such words write their registers first, 14 R289.) -/
def Sys2Proof.Claims.HaltStops : Prop :=
  ∀ (s : State) (a : Nat) (g : Group) (b : Block) (e : Bool),
    s.Issues a g b → g.Clear → g.trapMode = true → s.writes = [] → s.markings = [] → g.cap.role = 0 → (s.core (coreOf a)).accQ = [] →
    ∃ t h, exec (.haltInsn e) s = .next t ∧ t.grp a = some h ∧ a ∉ t.issue ∧ (∀ k, k ≠ a → t.grp k = s.grp k) ∧
      h = { g.moveTo (g.pc + 4) with
            state := .halted, stopCause := 0x20, cobRun := false, dep := none, fate := none, exts := [], woke := false, sent := false,
            going := [], runWords := h.runWords, energy := h.energy, readyClk := h.readyClk, promo := h.promo,
            cap := { g.cap with words := h.cap.words } }

/-- Traps, breakpoints and halts of a program (09 R185, R186).
Forms that this statement says complete (the answer of `exec` is a next state with their effect): `trap`, `bkpt`, `haltInsn`. -/
def Obligations.StopsByProgram : Prop :=
  Claims.TrapsByProgram ∧ Claims.HaltStops

/-- `tret` (08 R164), where the frame's page can be read and lies in this module's memory: `s0` to `s7` come from the frame's first 64
bytes, MODE from XMODE, the PC of slot 0 from XPC with its low two bits clear, trap mode ends, and the path in slot 0 is the one whose turn it is;
every other register of the group is kept, the exception registers too. (Frames in on-chip, host and fabric windows: log 18.)
Forms that this statement says complete (the answer of `exec` is a next state with their effect): `tret`. -/
def Obligations.TrapReturnRestores : Prop :=
  ∀ (s r : State) (a : Nat) (g : Group) (b : Block) (p : Path) (pa : Nat),
    s.Issues a g b → g.Clear → g.trapMode = true → g.path0 = some p → s.writes = [] → g.cap.role = 0 → s.traced b.ctx = false →
    s.direct b.ctx (s.frameVa b.ctx a) .read true = (.ok pa, r) → (∀ k, r.grp k = s.grp k) → r.isMemory pa = true →
    r.inReach (coreOf a) pa = true → r.poisoned pa 64 = false → r.traced b.ctx = false →
    ∃ t h, exec .tret s = .next t ∧ t.grp a = some h ∧
      (∀ k, k < 8 → h.sreg k = BitVec.ofNat 64 (r.read (pa + 8 * k) 8)) ∧ (∀ k, 8 ≤ k → h.sreg k = g.sreg k) ∧
      h = { g with
            s := h.s, mode := g.xmode, path0 := some { p with pc := g.xpc &&& ~~~3#57 }, trapMode := false, state := .ready, onB := true,
            cob := false, cobRun := false, stopCause := 0, dep := none, exts := [], woke := false, sent := false, going := [],
            runWords := h.runWords, energy := h.energy, readyClk := h.readyClk, promo := h.promo,
            cap := { g.cap with reenter := false, words := h.cap.words } } ∧
      a ∉ t.issue ∧ t.mem = r.mem ∧ ∀ k, k ≠ a → t.grp k = s.grp k

/-- Watchpoints (09 R187, 21 R386) in trap mode: `wpset` copies a legal 32-byte descriptor to the context's table, whose entry the
store then carries, and waits in WAIT_MEM for every core to arm the entry; `wpclr` waits for every core to disarm one; the end of the wait
does that, and the word that issues again completes; neither writes a register. -/
def Sys2Proof.Claims.WatchpointWords : Prop :=
  ∀ (s : State) (a : Nat) (g : Group) (b : Block) (e : Bool) (x y i7 : BitVec 7),
    s.Issues a g b → g.inStep = false → g.trapMode = true →
    let k := rawImm g.exts 7 i7.toNat
    (k ≤ 15 → g.sent = true → Writes (.wpclr e i7) s a g) ∧
    (g.exts = [] → x.toNat < 32 → y.toNat < 32 → g.sent = true → Writes (.wpset e x y) s a g) ∧
    (k ≤ 15 → g.sent = false →
      Waits (.wpclr e i7) s (s.updGrp a fun g => { g with sent := true, waitClk := s.clk.toNat }) a g .waitMem (.arm k none)) ∧
    (15 < k → Traps (.wpclr e i7) s a g cIllegalOperand 0 0) ∧
    (∀ pa pb w v u, g.exts = [] → x.toNat < 32 → y.toNat < 32 → g.sent = false → (g.sreg x.toNat).toNat ≤ 15 → (g.sreg y.toNat).toNat % 32 = 0 →
      s.checkAcc a g b ⟨(g.sreg y.toNat).toNat, 32, .read, 0, 0, true, false, true, none, 0⟩ = .ok (.mem pa) →
      Claims.readAt s a g 0 true 32 (.mem pa) = some (v, u) →
      let entry : Acc := ⟨((s.ctx b.ctx).wptab.toNat + (g.sreg x.toNat).toNat * 32) % 2 ^ 64, 32, .write, 0, 0, false, false, true, some v, 0⟩
      u.ctxs = s.ctxs → u.grp a = some g → wpOf v = some w → u.checkAcc a g b entry = .ok (.mem pb) →
      Waits (.wpset e x y) s
        ((u.storePieces (coreOf a) a b.ctx entry.va pb 32 v).updGrp a fun g => { g with sent := true, waitClk := u.clk.toNat }) a g .waitMem
        (.arm (g.sreg x.toNat).toNat (some w)))

/-- The end of the wait of `wpset` or `wpclr` (09 R187), which comes in a later clock (log 19): entry n of the context is armed, or
disarmed, in every core. -/
def Sys2Proof.Claims.WatchpointsArmed : Prop :=
  ∀ (s : State) (a : Nat) (g : Group) (b : Block) (n : Nat) (w : Option Wp),
    s.grp a = some g → s.blk g.block = some b → g.dep = some (.arm n w) → g.waitClk < s.clk.toNat → g.entry = none → g.cap.reenter = false →
    (s.ctx b.ctx).state ≠ .faulted → g.fate = none →
    ∃ t, exec (.dependenceResolved a) s = .next t ∧ (t.ctx b.ctx).wps = vset (s.ctx b.ctx).wps n w ∧
      ∃ h, t.grp a = some h ∧ h.dep = none ∧ h.sent = g.sent

/-- `trc` (09 R188) emits its marker packet with a tag of 7 bits, and nothing else, and refuses a wider tag; `gget` and `gput` (09 R189), in trap mode, read and write 64 bits of one
lane of a vector register, or the 16 bits of one lane of a scale register, whichever lane is active. -/
def Sys2Proof.Claims.MarkerAndLaneWords : Prop :=
  ∀ (s : State) (a : Nat) (g : Group) (b : Block) (e : Bool) (d x i7 : BitVec 7),
    s.Issues a g b → g.inStep = false →
    let n := rawImm g.exts 7 i7.toNat
    (127 < n → x.toNat < 32 → Traps (.trc e x i7) s a g cIllegalOperand 0 0) ∧
    (n ≤ 127 → x.toNat < 32 → Completes (.trc e x i7) s (Claims.packet s a g b 8 n (some (g.sreg x.toNat))) a (g.moveTo (g.pc + 4))) ∧
    (g.trapMode = true → n < 32 → d.toNat < 32 → x.toNat < g.kregs →
      Writes (.gget e d x i7) s a (g.setS d.toNat (BitVec.ofNat 64 (g.vlane x.toNat (n % 8) / 2 ^ (64 * (n / 8)))))) ∧
    (g.trapMode = true → 32 ≤ n → n < 40 → d.toNat < 32 → x.toNat < g.kregs →
      Writes (.gget e d x i7) s a (g.setS d.toNat (BitVec.ofNat 64 (g.klane x.toNat (n % 8))))) ∧
    (g.trapMode = true → n < 32 → d.toNat < g.kregs → x.toNat < 32 →
      Writes (.gput e d x i7) s a (g.setV d.toNat (n % 8) (patchBytes (g.vlane d.toNat (n % 8)) (8 * (n / 8)) 8 (g.sreg x.toNat).toNat))) ∧
    (g.trapMode = true → 32 ≤ n → n < 40 → d.toNat < g.kregs → x.toNat < 32 → (g.sreg x.toNat).toNat < 2 ^ 16 →
      Writes (.gput e d x i7) s a (g.setK d.toNat (n % 8) (g.sreg x.toNat).toNat)) ∧
    (g.trapMode = true → 40 ≤ n → d.toNat < 32 → x.toNat < 32 → d.toNat < g.kregs → x.toNat < g.kregs →
      Traps (.gget e d x i7) s a g cIllegalOperand 0 0 ∧ Traps (.gput e d x i7) s a g cIllegalOperand 0 0)

/-- Counts and the mailbox (09 R190, R191, 21 R393): `perfrd` reads a counter of the core, `enrd` the energy of the group, of its block or
of its core, and refuses another selector; a `mbox` that has sent its command and finds its reply writes the reply value and acquires at
system scope. -/
def Sys2Proof.Claims.CountAndMailboxWords : Prop :=
  ∀ (s : State) (a : Nat) (g : Group) (b : Block) (e : Bool) (d x y i7 : BitVec 7),
    s.Issues a g b → g.inStep = false → d.toNat < 32 → x.toNat < 32 →
    (rawImm g.exts 7 i7.toNat ≤ 63 → Writes (.perfrd e d i7) s a (g.setS d.toNat (s.counter (coreOf a) (rawImm g.exts 7 i7.toNat)))) ∧
    (g.exts = [] → g.sreg x.toNat = 0 → Writes (.enrd e d x) s a (g.setS d.toNat g.energy)) ∧
    (g.exts = [] → g.sreg x.toNat = 1 → Writes (.enrd e d x) s a (g.setS d.toNat (b.energy + s.liveEnergy g.block))) ∧
    (g.exts = [] → g.sreg x.toNat = 2 → Writes (.enrd e d x) s a (g.setS d.toNat (s.core (coreOf a)).energy)) ∧
    (g.exts = [] → 3 ≤ (g.sreg x.toNat).toNat → Traps (.enrd e d x) s a g cIllegalOperand 0 0) ∧
    (g.exts = [] → g.trapMode = true → y.toNat < 32 → (g.sreg y.toNat).toNat < 2 ^ 8 → g.sent = true →
      s.read64 (s.mailbox a + 0x18) = s.read64 (s.mailbox a) →
      Writes (.mbox e d x y) s a ({ g with acqClk := s.clk.toNat }.setS d.toNat (s.read64 (s.mailbox a + 0x20)))) ∧
    (g.exts = [] → g.trapMode = true → y.toNat < 32 → 2 ^ 8 ≤ (g.sreg y.toNat).toNat → Traps (.mbox e d x y) s a g cIllegalOperand 0 0)

/-- Watchpoints, markers, lanes read and written by number, counters, energy and the mailbox (09 R187 to R191, 21 R393).
Forms that this statement says complete (the answer of `exec` is a next state with their effect): `wpset`, `wpclr`, `trc`, `gget`, `gput`, `mbox`,
`perfrd`, `enrd`. -/
def Obligations.SupervisionWords : Prop :=
  Claims.WatchpointWords ∧ Claims.WatchpointsArmed ∧ Claims.MarkerAndLaneWords ∧ Claims.CountAndMailboxWords

/-! ### Loads, stores, fences and atomics of scalars (12 R248 to R250, R255, R257, R259, R260) -/

namespace Sys2Proof.Claims

/-- The scalar loads: bytes, whether the value is sign-extended, whether an acquire follows, whether the address is a scratchpad's. -/
def loadRows : List ((Bool → BitVec 7 → BitVec 7 → BitVec 7 → Instr) × Nat × Bool × Bool × Bool) :=
  [(.sldB, 1, true, false, false), (.sldH, 2, true, false, false), (.sldW, 4, true, false, false), (.sldD, 8, false, false, false),
   (.slduB, 1, false, false, false), (.slduH, 2, false, false, false), (.slduW, 4, false, false, false),
   (.sldDAcq, 8, false, true, false), (.sldWAcq, 4, true, true, false), (.pldW, 4, true, false, true), (.pldD, 8, false, false, true)]

/-- The scalar stores: bytes, whether a release comes first, whether the address is a scratchpad's. -/
def storeRows : List ((Bool → BitVec 7 → BitVec 7 → BitVec 7 → Instr) × Nat × Bool × Bool) :=
  [(.sstB, 1, false, false), (.sstH, 2, false, false), (.sstW, 4, false, false), (.sstD, 8, false, false), (.sstDRel, 8, true, false),
   (.sstWRel, 4, true, false), (.pstW, 4, false, true), (.pstD, 8, false, true)]

/-- The state after a store of n bytes at a checked place: memory's stores are on their way to their home. -/
def writeAt (s : State) (a : Nat) (b : Block) (va n data : Nat) : Place → State
  | .mem pa => s.storePieces (coreOf a) a b.ctx va pa n data
  | .ext pa => s.storePieces (coreOf a) a b.ctx va pa n data
  | .chip pa => s.chipWrite pa n data
  | .scr core off => s.scrWrite core off n data

/-- No watchpoint that tests the value read is hit (21 R388). -/
def unwatched (s : State) (g : Group) (b : Block) (k : Access) (va n v : Nat) : Prop :=
  g.trapMode = true ∨ (s.ctx b.ctx).wpHit k va n (some v) true = none

/-- The group after an acquire of its MODE.SCOPE, where the word acquires. -/
def acquired (acq : Bool) (clk : BitVec 64) (scope : Nat) (g : Group) : Group := if acq ∧ 2 ≤ scope then { g with acqClk := clk.toNat } else g

/-- A word inside a capsule step with two register fields (17 R331). -/
def inStepOk (g : Group) (e : Bool) (d x : BitVec 7) : Prop :=
  e = false ∧ 16 ≤ d.toNat ∧ 16 ≤ x.toNat ∧ g.cap.words + g.exts.length ≠ 23

end Sys2Proof.Claims

/-- A scalar load (12 R248, R249, R250) whose checks pass writes `sD` with the bytes of its place, sign- or zero-extended, and then
acquires where it is an acquire form; a misaligned address raises MISALIGN, and any check of R248 that fails raises its cause, with the
address in XADDR; a load of memory whose home cannot be reached waits for it (19 R362, R374), and one whose core has too few free miss-status
entries waits for them (11 R226).
Forms that this statement says complete (the answer of `exec` is a next state with their effect): `sldB`, `sldH`, `sldW`, `sldD`, `slduB`, `slduH`,
`slduW`, `sldDAcq`, `sldWAcq`, `pldW`, `pldD`. -/
def Obligations.ScalarLoads : Prop :=
  ∀ row ∈ Claims.loadRows, ∀ (s : State) (a : Nat) (g : Group) (b : Block) (e : Bool) (d x i7 : BitVec 7) (m : BitVec 64),
    s.Issues a g b → g.inStep = false → d.toNat < 32 → x.toNat < 32 → modeScope g.mode ≤ 5 → signedImm g.exts 7 i7.toNat = some m →
    let va := Claims.address g x.toNat m row.2.1
    let acc := Claims.loadAcc va row.2.1 row.2.2.2.2
    (va % row.2.1 ≠ 0 → Traps (row.1 e d x i7) s a g cMisalign (BitVec.ofNat 64 va) 0) ∧
    (∀ cause aux, s.checkAcc a g b acc = .trap cause aux → Traps (row.1 e d x i7) s a g cause (BitVec.ofNat 64 va) aux) ∧
    (∀ p v u h, s.checkAcc a g b acc = .ok p → Claims.readAt s a g (modeScope g.mode) row.2.2.2.1 row.2.1 p = some (v, u) →
      Claims.unwatched u g b .read va row.2.1 v → u.grp a = some h → h.state ≠ .exited →
      Completes (row.1 e d x i7) s u a
        ((Claims.acquired row.2.2.2.1 u.clk (modeScope g.mode)
          (h.setS d.toNat (if row.2.2.1 then BitVec.ofInt 64 (sgOf (8 * row.2.1) v) else BitVec.ofNat 64 v))).moveTo (g.pc + 4))) ∧
    (∀ pa, s.checkAcc a g b acc = .ok (.mem pa) →
      let ks := Claims.misses s a g (modeScope g.mode) row.2.2.2.1 pa row.2.1
      (Claims.reachable s a g (modeScope g.mode) row.2.2.2.1 row.2.1 (.mem pa) = false →
        Waits (row.1 e d x i7) s (s.snoopBack (pa / 256)) a g .waitMem (.home pa)) ∧
      (Claims.reachable s a g (modeScope g.mode) row.2.2.2.1 row.2.1 (.mem pa) = true → s.entriesFree (coreOf a) ks = false →
        Waits (row.1 e d x i7) s s a g .waitMem (.entries ks.length)))

/-- A scalar store (12 R248, R249, R250) whose checks pass sends the low bytes of `sD` to its place and writes no register; the release
forms release first, and go on where the release is satisfied.
Forms that this statement says complete (the answer of `exec` is a next state with their effect): `sstB`, `sstH`, `sstW`, `sstD`, `sstDRel`,
`sstWRel`, `pstW`, `pstD`. -/
def Obligations.ScalarStores : Prop :=
  ∀ row ∈ Claims.storeRows, ∀ (s : State) (a : Nat) (g : Group) (b : Block) (e : Bool) (d x i7 : BitVec 7) (m : BitVec 64),
    s.Issues a g b → g.inStep = false → d.toNat < 32 → x.toNat < 32 → modeScope g.mode ≤ 5 → signedImm g.exts 7 i7.toNat = some m →
    let va := Claims.address g x.toNat m row.2.1
    let data := (g.sreg d.toNat).toNat % 2 ^ (8 * row.2.1)
    let acc := Claims.storeAcc va row.2.1 row.2.2.2 (g.sreg d.toNat)
    (va % row.2.1 ≠ 0 → Traps (row.1 e d x i7) s a g cMisalign (BitVec.ofNat 64 va) 0) ∧
    (∀ cause aux, s.checkAcc a g b acc = .trap cause aux → Traps (row.1 e d x i7) s a g cause (BitVec.ofNat 64 va) aux) ∧
    (∀ p h, row.2.2.1 = false → s.checkAcc a g b acc = .ok p → (Claims.writeAt s a b va row.2.1 data p).grp a = some h → h.state ≠ .exited →
      Completes (row.1 e d x i7) s (Claims.writeAt s a b va row.2.1 data p) a (h.moveTo (g.pc + 4))) ∧
    (∀ p q u h, row.2.2.1 = true → s.checkAcc a g b acc = .ok p → s.release (coreOf a) a (modeScope g.mode) = (u, true) →
      u.checkAcc a g b acc = .ok q → (Claims.writeAt u a b va row.2.1 data q).grp a = some h → h.state ≠ .exited →
      Completes (row.1 e d x i7) s (Claims.writeAt u a b va row.2.1 data q) a (h.moveTo (g.pc + 4)))

/-- Loads and stores inside a capsule step (17 R331, R332): a load reads at the home and is overlaid by the step's own stores, a store is
buffered and writes nothing, its address, size and value kept for the commit; a target outside the HBM and second-tier windows, tested after
poison and watchpoints, or a store to the capsule line, raises CAPSULE_VIOLATION, a fifth store CAPSULE_LIMIT. -/
def Obligations.StepLoadsAndStores : Prop :=
  ∀ (s : State) (a : Nat) (g : Group) (b : Block) (e : Bool) (d x i7 : BitVec 7) (m : BitVec 64) (pa : Nat),
    s.Issues a g b → g.inStep = true → Claims.inStepOk g e d x → d.toNat < 32 → x.toNat < 32 → modeScope g.mode ≤ 5 →
    signedImm g.exts 7 i7.toNat = some m →
    (∀ row ∈ Claims.loadRows.take 7,
      let va := Claims.address g x.toNat m row.2.1
      s.checkAcc a g b (Claims.loadAcc va row.2.1 false) = .ok (.mem pa) →
      ∀ v u, Claims.readAt s a g (modeScope g.mode) true row.2.1 (.mem pa) = some (v, u) →
      let w := overlayStep g.cap.stores pa row.2.1 v
      Claims.unwatched u g b .read va row.2.1 w →
      (u.isHbmOrSecond pa = false → exec (row.1 e d x i7) s =
        .next ((u.uncount s (coreOf a)).takeTrap a cCapsuleViolation (BitVec.ofNat 64 va) 0 g.wordPc g.onB)) ∧
      (∀ h, u.isHbmOrSecond pa = true → u.grp a = some h → h.state ≠ .exited →
        Completes (row.1 e d x i7) s u a
          ((h.setS d.toNat (if row.2.2.1 then BitVec.ofInt 64 (sgOf (8 * row.2.1) w) else BitVec.ofNat 64 w)).moveTo (g.pc + 4)))) ∧
    (∀ row ∈ Claims.storeRows.take 4,
      let va := Claims.address g x.toNat m row.2.1
      let data := (g.sreg d.toNat).toNat % 2 ^ (8 * row.2.1)
      (4 ≤ g.cap.stores.length → Traps (row.1 e d x i7) s a g cCapsuleLimit 0 0) ∧
      (g.cap.stores.length < 4 → s.checkAcc a g b (Claims.storeAcc va row.2.1 false (g.sreg d.toNat)) = .ok (.mem pa) →
        (s.isHbmOrSecond pa = false ∨ pa / 256 = g.cap.line / 256 →
          Traps (row.1 e d x i7) s a g cCapsuleViolation (BitVec.ofNat 64 va) 0) ∧
        (s.isHbmOrSecond pa = true → pa / 256 ≠ g.cap.line / 256 →
          Writes (row.1 e d x i7) s a
            { g with cap := { g.cap with stores := g.cap.stores ++ [⟨pa, va, Nat.log2 row.2.1, BitVec.ofNat 64 data⟩] } })))

/-- What a store of 1, 2, 4 or 8 bytes to memory puts on its way (11 R222, R227, R240): one write of the module's own memory, whole, with
its core, group, context, address and data; no byte of memory changes until it is performed at its home. -/
def Sys2Proof.Claims.StoresAreSentWhole : Prop :=
  ∀ (s : State) (core a ctx va pa n data : Nat), n ∈ [1, 2, 4, 8] → va % n = 0 → s.region pa ≠ .chip →
    (s.storePieces core a ctx va pa n data).writes = s.writes ++ [⟨a, core, ctx, va, pa, n, data % 256 ^ n, none, s.nextId, []⟩] ∧
    (s.storePieces core a ctx va pa n data).mem = s.mem ∧ (s.storePieces core a ctx va pa n data).groups = s.groups ∧
    (s.storePieces core a ctx va pa n data).ctxs = s.ctxs ∧ (s.storePieces core a ctx va pa n data).regs = s.regs ∧
    ∀ c, c ≠ core → (s.storePieces core a ctx va pa n data).core c = s.core c

/-- A load performed at its home (11 R222, R232, R249), with no write of its core on its way, gives the bytes of memory and changes none of
them; so does a load of group or block scope whose 64-byte sector its L1 does not hold. -/
def Sys2Proof.Claims.HomeLoadsReadMemory : Prop :=
  ∀ (s : State) (core a acq scope pa n : Nat) (home : Bool), (∀ w ∈ s.writes, w.core ≠ core) →
    (home = true ∨ scope = 5 → (s.memLoad core a acq scope home pa n).1 = readLE s.mem pa n ∧ (s.memLoad core a acq scope home pa n).2.mem = s.mem) ∧
    (home = false → scope ≤ 1 → 1 ≤ n → pa % 64 + n ≤ 64 → amGet (s.core core).l1 (pa / 64) = none →
      (s.memLoad core a acq scope home pa n).1 = readLE s.mem pa n ∧ (s.memLoad core a acq scope home pa n).2.mem = s.mem) ∧
    (∀ k, (s.memLoad core a acq scope home pa n).2.grp k = s.grp k) ∧ (s.memLoad core a acq scope home pa n).2.mem = s.mem

/-- `fence` (12 R259): an acquire is remembered by the group from cluster scope on; a release, or a full fence, completes where the
release of its scope is satisfied, and else waits as WAIT_MEM; a reserved kind or scope raises ILLEGAL_OPERAND. -/
def Sys2Proof.Claims.Fences : Prop :=
  ∀ (s : State) (a : Nat) (g : Group) (b : Block) (e : Bool) (o : BitVec 14),
    s.Issues a g b → g.inStep = false →
    let v := rawImm g.exts 14 o.toNat
    let scope := v / 4
    (v < 24 → v % 4 = 1 → Writes (.fence e o) s a (Claims.acquired true s.clk scope g)) ∧
    (∀ u h, v < 24 → v % 4 = 2 → s.release (coreOf a) a scope = (u, true) → u.grp a = some h → h.state ≠ .exited →
      Completes (.fence e o) s u a (h.moveTo (g.pc + 4))) ∧
    (∀ u h, v < 24 → v % 4 = 3 → s.release (coreOf a) a scope = (u, true) → u.grp a = some h → h.state ≠ .exited →
      Completes (.fence e o) s u a ((Claims.acquired true u.clk scope h).moveTo (g.pc + 4))) ∧
    (∀ u h, v < 24 → 2 ≤ v % 4 → s.release (coreOf a) a scope = (u, false) → u.grp a = some h → h.state = .issuing →
      ∃ t k, exec (.fence e o) s = .next t ∧ t.grp a = some k ∧ k.state = .waitMem ∧ k.dep = some .acks ∧ k.v = h.v ∧ k.s = h.s ∧ a ∉ t.issue) ∧
    (24 ≤ v ∨ v % 4 = 0 → Traps (.fence e o) s a g cIllegalOperand 0 0)

/-- `waitv` (12 R260) on a word of memory, with no write of its own on its way: a value that differs from `sB`, or a wait that has been
woken, completes, writes `sD` and acquires at die scope or wider; an equal value waits and watches the word. -/
def Sys2Proof.Claims.WaitsForValues : Prop :=
  ∀ (s : State) (a : Nat) (g : Group) (b : Block) (e : Bool) (d x y : BitVec 7) (pa : Nat),
    s.Issues a g b → g.Clear → d.toNat < 32 → x.toNat < 32 → y.toNat < 32 → modeScope g.mode ≤ 5 → (∀ w ∈ s.writes, w.agent ≠ a) →
    s.checkAcc a g b (Claims.loadAcc (g.sreg x.toNat).toNat 8 false) = .ok (.mem pa) →
    ∀ r, Claims.readAt s a g 5 true 8 (.mem pa) = some r →
    Claims.unwatched r.2 g b .read (g.sreg x.toNat).toNat 8 r.1 → ∀ h, r.2.grp a = some h → h.state = .issuing →
    (BitVec.ofNat 64 r.1 ≠ g.sreg y.toNat ∨ (g.sent = true ∧ g.woke = true) →
      Completes (.waitv e d x y) s r.2 a ({ h.setS d.toNat (BitVec.ofNat 64 r.1) with acqClk := r.2.clk.toNat }.moveTo (g.pc + 4))) ∧
    (BitVec.ofNat 64 r.1 = g.sreg y.toNat → g.woke = false →
      ∃ t k, exec (.waitv e d x y) s = .next t ∧ t.grp a = some k ∧ k.state = .waitMem ∧ k.dep = some .watch ∧ k.sent = true ∧
        k.s = h.s ∧ k.v = h.v ∧ a ∉ t.issue ∧ ∃ w ∈ t.watches, w.pa = pa)

/-- Fences and waits for a value (12 R259, R260).
Forms that this statement says complete (the answer of `exec` is a next state with their effect): `fence`, `waitv`. -/
def Obligations.FencesAndWaits : Prop :=
  Claims.Fences ∧ Claims.WaitsForValues

namespace Sys2Proof.Claims

/-- The scalar atomics: the operation, and whether it takes floats and integers. -/
def atomRows : List ((Bool → BitVec 7 → BitVec 7 → BitVec 7 → Instr) × AtomOp × Bool × Bool) :=
  [(.atomAdd, .add, false, true), (.atomAnd, .and, false, true), (.atomOr, .or, false, true), (.atomXor, .xor, false, true),
   (.atomMin, .min, false, true), (.atomMax, .max, false, true), (.atomMinu, .minu, false, true), (.atomMaxu, .maxu, false, true),
   (.atomExch, .exch, true, true), (.atomCas, .cas, true, true), (.atomFadd, .fadd, true, false)]

/-- The element types that an atomic accepts (12 R255): INT32 and INT64, FP32 and FP64. -/
def atomTypes (floats ints : Bool) (et : Nat) : Prop := (ints = true ∧ (et = 2 ∨ et = 3)) ∨ (floats = true ∧ (et = 11 ∨ et = 12))

/-- The new value of a location of n bytes (12 R255), none where nothing is written; of `atom.fadd`, the rounded sum. -/
def newValue (op : AtomOp) (n old b cmp : Nat) : Option Nat :=
  match op with
  | .add => some ((old + b) % 2 ^ (8 * n))
  | .and => some (old &&& b)
  | .or => some (old ||| b)
  | .xor => some (old ^^^ b)
  | .min => some (if sgOf (8 * n) old ≤ sgOf (8 * n) b then old else b)
  | .max => some (if sgOf (8 * n) b ≤ sgOf (8 * n) old then old else b)
  | .minu => some (if old ≤ b then old else b)
  | .maxu => some (if b ≤ old then old else b)
  | .exch => some b
  | .cas => if old = cmp then some b else none
  | _ => none

end Sys2Proof.Claims

/-- A scalar atomic (12 R255, R257) whose checks pass and whose place can be reached, at memory of this module or at scratchpad banks, performs
its read-modify-write and writes the old value to `sD`, sign-extended for the 4-byte integer forms; one that a host or peer performs (11
R242) takes the old value that it has answered; an element type that it does not accept raises ILLEGAL_OPERAND.
Forms that this statement says complete (the answer of `exec` is a next state with their effect): `atomAdd`, `atomAnd`, `atomOr`, `atomXor`,
`atomMin`, `atomMax`, `atomMinu`, `atomMaxu`, `atomExch`, `atomCas`, `atomFadd`. -/
def Obligations.ScalarAtomics : Prop :=
  ∀ row ∈ Claims.atomRows, ∀ (s : State) (a : Nat) (g : Group) (b : Block) (e : Bool) (d x y : BitVec 7),
    s.Issues a g b → g.Clear → d.toNat < 32 → x.toNat < 32 → y.toNat < 32 →
    let et := modeEt g.mode
    let n := etBits et / 8
    let va := (g.sreg x.toNat).toNat
    let new := (g.sreg y.toNat).toNat % 2 ^ (8 * n)
    let own := (g.sreg d.toNat).toNat % 2 ^ (8 * n)
    let acc : Acc := ⟨va, n, .rw, 0, 0, true, decide (2 ^ 63 ≤ va), false, some new, own⟩
    let value := fun old => if n = 4 ∧ row.2.1 ≠ .fadd then BitVec.ofInt 64 (sgOf 32 old) else BitVec.ofNat 64 old
    (modeScope g.mode ≤ 5 → ¬ Claims.atomTypes row.2.2.1 row.2.2.2 et → Traps (row.1 e d x y) s a g cIllegalOperand 0 0) ∧
    (∀ pa h, modeScope g.mode ≤ 5 → Claims.atomTypes row.2.2.1 row.2.2.2 et → g.going = [] → s.checkAcc a g b acc = .ok (.mem pa) →
      s.inReach (coreOf a) pa = true → s.poisoned pa n = false → (∀ r ∈ s.extReqs, r.agent ≠ a) →
      let r := s.memAtomic (coreOf a) a b.ctx g.acqClk (modeScope g.mode) row.2.1 et va pa n new own
      r.2.grp a = some h → h.state ≠ .exited →
      Completes (row.1 e d x y) s r.2 a ((h.setS d.toNat (value r.1)).moveTo (g.pc + 4))) ∧
    (∀ core off, modeScope g.mode ≤ 5 → Claims.atomTypes row.2.2.1 row.2.2.2 et → g.going = [] → s.checkAcc a g b acc = .ok (.scr core off) →
      s.inReach (coreOf a) (Place.addr (.scr core off)) = true → s.scrPoisoned core off n = false → (∀ r ∈ s.extReqs, r.agent ≠ a) →
      let old := s.scrRead core off n
      Completes (row.1 e d x y) s (match row.2.1.apply et n old new own with
        | none => s
        | some v => s.scrWrite core off n v) a ((g.setS d.toNat (value old)).moveTo (g.pc + 4))) ∧
    (∀ pa old r, modeScope g.mode ≤ 5 → Claims.atomTypes row.2.2.1 row.2.2.2 et → g.going = [.ext pa] → (s.extKey pa n).2 ≠ 256 →
      s.refuses pa = false → s.extReqs.filter (fun r => r.agent == a && !r.write) = [r] → r.pa = pa → r.size = n →
      r.reply = some (false, old) →
      Completes (row.1 e d x y) s { s with extReqs := s.extReqs.filter fun q => q.id != r.id } a
        ((g.setS d.toNat (value old)).moveTo (g.pc + 4)))

/-- An atomic of cluster scope or wider performed at the home slice (11 R242, 12 R255), with no write of its core on its way: it gives the
old bytes of memory, the new ones are those of R255, a failed compare writes nothing, and every other byte stays. -/
def Sys2Proof.Claims.AtomicsAtHome : Prop :=
  ∀ (s : State) (core a ctx acq scope et va pa n b cmp : Nat) (op : AtomOp),
    2 ≤ scope → op ∉ [AtomOp.fadd, .cell] → (∀ w ∈ s.writes, w.core ≠ core) → Memory.wf s.mem = true → b < 2 ^ (8 * n) →
    let r := s.memAtomic core a ctx acq scope op et va pa n b cmp
    r.1 = readLE s.mem pa n ∧
    (∀ v, Claims.newValue op n r.1 b cmp = some v → readLE r.2.mem pa n = v) ∧
    (Claims.newValue op n r.1 b cmp = none → r.2.mem = s.mem) ∧
    (∀ k, k < pa ∨ pa + n ≤ k → byteAt r.2.mem k = byteAt s.mem k) ∧ Memory.wf r.2.mem = true ∧ r.2.groups = s.groups

/-- What loads, stores and atomics do to memory at its home slice (11 R225 to R228, R255). -/
def Obligations.MemoryAtHome : Prop :=
  Claims.StoresAreSentWhole ∧ Claims.HomeLoadsReadMemory ∧ Claims.AtomicsAtHome

/-! ### Vector integer words (10 R192 to R201) -/

namespace Sys2Proof.Claims

/-- fix(x) of 10 R194: clamped to w bits under SAT, else wrapped. -/
def fix (w : Nat) (sat : Bool) (x : Int) : Nat := wrapTo w (if sat then clampTo w x else x)

/-- The elementwise words of an integer type: each element of `vD` from those of `vA`, `vB` and the old `vD`, by the width and SAT. -/
noncomputable def vecIntRows : List ((Bool → BitVec 7 → BitVec 7 → BitVec 7 → Instr) × (Nat → Bool → Nat → Nat → Nat → Nat)) :=
  [(.vadd, fun w sat a b _ => fix w sat (sgOf w a + sgOf w b)),
   (.vsub, fun w sat a b _ => fix w sat (sgOf w a - sgOf w b)),
   (.vmul, fun w sat a b _ => fix w sat (sgOf w a * sgOf w b)),
   (.vmulh, fun w _ a b _ => wrapTo w (sgOf w a * sgOf w b / (2 ^ w : Nat))),
   (.vmulhu, fun w _ a b _ => a * b / 2 ^ w),
   (.vmad, fun w sat a b d => fix w sat (sgOf w a * sgOf w b + sgOf w d)),
   (.vmin, fun w _ a b _ => if sgOf w a ≤ sgOf w b then a else b),
   (.vmax, fun w _ a b _ => if sgOf w b ≤ sgOf w a then a else b),
   (.vminu, fun _ _ a b _ => if a ≤ b then a else b),
   (.vmaxu, fun _ _ a b _ => if b ≤ a then a else b),
   (fun e d a _ => .vabs e d a, fun w sat a _ _ => fix w sat (sgOf w a).natAbs),
   (fun e d a _ => .vneg e d a, fun w sat a _ _ => fix w sat (-sgOf w a)),
   (.vshl, fun w _ a b _ => a * 2 ^ (b % w) % 2 ^ w),
   (.vshr, fun w _ a b _ => a / 2 ^ (b % w)),
   (.vsra, fun w _ a b _ => wrapTo w (sgOf w a / (2 ^ (b % w) : Nat))),
   (fun e d a _ => .vclz e d a, fun w _ a _ _ => if a = 0 then w else w - 1 - Nat.log2 a),
   (fun e d a _ => .vpopc e d a, fun w _ a _ _ => (List.range w).countP fun k => a.testBit k)]

/-- The words over all 256 bits of a lane. -/
noncomputable def wholeRows : List ((Bool → BitVec 7 → BitVec 7 → BitVec 7 → Instr) × (Nat → Nat → Nat)) :=
  [(.vand, fun a b => a &&& b), (.vor, fun a b => a ||| b), (.vxor, fun a b => a ^^^ b),
   (fun e d a _ => .vnot e d a, fun a _ => 2 ^ 256 - 1 - a)]

/-- The compares: the element types accepted, and what each tests of two elements of the group's type. -/
noncomputable def compareRows : List ((Bool → BitVec 7 → BitVec 7 → BitVec 7 → Instr) × (Nat → Bool) × (BitVec 32 → Nat → Nat → Bool)) :=
  let w := fun (m : BitVec 32) => etBits (modeEt m)
  let val := fun (m : BitVec 32) (x : Nat) => (etFmt (modeEt m)).decodeFz (modeFz m) x
  [(.vcmpeq, isInt, fun _ a b => a == b),
   (.vcmplt, isInt, fun m a b => decide (sgOf (w m) a < sgOf (w m) b)),
   (.vcmpltu, isInt, fun _ a b => decide (a < b)),
   (.vcmple, isInt, fun m a b => decide (sgOf (w m) a ≤ sgOf (w m) b)),
   (.fcmpeq, isWide, fun m a b => (val m a).eqv (val m b)),
   (.fcmplt, isWide, fun m a b => (val m a).lt (val m b)),
   (.fcmple, isWide, fun m a b => (val m a).lt (val m b) || (val m a).eqv (val m b)),
   (.fcmpun, isWide, fun m a b => (val m a).isNan || (val m b).isNan)]

/-- The shifts by an immediate: an element from its width, itself and the count. -/
noncomputable def vecShiftRows : List ((Bool → BitVec 7 → BitVec 7 → BitVec 7 → Instr) × (Nat → Nat → Nat → Nat)) :=
  [(.vshli, fun w a n => a * 2 ^ n % 2 ^ w), (.vshri, fun _ a n => a / 2 ^ n), (.vsrai, fun w a n => wrapTo w (sgOf w a / (2 ^ n : Nat))),
   (.vrotl, fun w a n => (a * 2 ^ n + a / 2 ^ (w - n)) % 2 ^ w)]

/-- A lane register whose elements are computed one by one. -/
def byElement (et : Nat) (f : Nat → Nat) : Nat := ofElems (etBits et) ((List.range (etCount et)).map f)

end Sys2Proof.Claims

/-- The vector integer words (10 R193, R194, R197) write, in each active lane, every element with the result that its row names; `vsel`
chooses by the old element, under any type; the bitwise words take the 256 bits of a lane. A type that a word does not accept raises
ILLEGAL_OPERAND. -/
def Sys2Proof.Claims.VectorIntegerResults : Prop :=
  ∀ (s : State) (a : Nat) (g : Group) (b : Block) (e : Bool) (d x y : BitVec 7),
    s.Issues a g b → g.Clear → d.toNat < g.kregs → x.toNat < g.kregs → y.toNat < g.kregs →
    let et := modeEt g.mode
    let w := etBits et
    let at' := fun (r : BitVec 7) l k => elem (g.vlane r.toNat l) w k
    (∀ row ∈ Claims.vecIntRows, et ≤ 3 →
      Writes (row.1 e d x y) s a (Claims.putLanes g d.toNat fun l =>
        Claims.byElement et fun k => row.2 w (modeSat g.mode) (at' x l k) (at' y l k) (at' d l k))) ∧
    (∀ row ∈ Claims.vecIntRows, 3 < et → Traps (row.1 e d x y) s a g cIllegalOperand 0 0) ∧
    (et ≤ 12 → Writes (.vsel e d x y) s a (Claims.putLanes g d.toNat fun l =>
      Claims.byElement et fun k => if at' d l k ≠ 0 then at' x l k else at' y l k)) ∧
    (∀ row ∈ Claims.wholeRows,
      Writes (row.1 e d x y) s a (Claims.putLanes g d.toNat fun l => row.2 (g.vlane x.toNat l) (g.vlane y.toNat l)))

/-- Compares (10 R196, R210) write one bit of the predicate for each active lane: whether the condition holds for every element of the
lane; the bits of other lanes are kept. -/
def Sys2Proof.Claims.CompareBits : Prop :=
  ∀ row ∈ Claims.compareRows, ∀ (s : State) (a : Nat) (g : Group) (b : Block) (e : Bool) (d x y : BitVec 7),
    s.Issues a g b → g.Clear → d.toNat < 8 → x.toNat < g.kregs → y.toNat < g.kregs →
    let et := modeEt g.mode
    (row.2.1 et = true → ∃ p : BitVec 8, Writes (row.1 e d x y) s a (g.setP d.toNat p) ∧
      ∀ l, l < 8 → p.getLsbD l = if g.active.getLsbD l then
        (List.range (etCount et)).all fun k => row.2.2 g.mode (elem (g.vlane x.toNat l) (etBits et) k) (elem (g.vlane y.toNat l) (etBits et) k)
        else (g.preg d.toNat).getLsbD l) ∧
    (row.2.1 et = false → Traps (row.1 e d x y) s a g cIllegalOperand 0 0)

/-- The encodings of the compares (10 R196, R210): format A with the opcodes of their tables, the predicate in d. -/
def Sys2Proof.Claims.CompareForms : Prop :=
  ∀ p ∈ [0x115#10, 0x116, 0x117, 0x118, 0x191, 0x192, 0x193, 0x194].zip Claims.compareRows, ∀ (e : Bool) (d a b : BitVec 7),
    decodeWord (Claims.word e p.1 d a b) = p.2.1 e d a b

/-- The compares of integers and of floats (10 R196, R210): their encodings and the predicate that they write.
Forms that this statement says complete (the answer of `exec` is a next state with their effect): `vcmpeq`, `vcmplt`, `vcmpltu`, `vcmple`, `fcmpeq`,
`fcmplt`, `fcmple`, `fcmpun`. -/
def Obligations.CompareResults : Prop :=
  Claims.CompareForms ∧ Claims.CompareBits

/-- The vector words with an immediate (10 R195, R198): `vaddi` adds a signed immediate under SAT, `vandi` takes its low bits, the shifts
and `vrotl` a count below the width; a count of the width or more raises ILLEGAL_OPERAND. -/
def Sys2Proof.Claims.VectorImmediateResults : Prop :=
  ∀ (s : State) (a : Nat) (g : Group) (b : Block) (e : Bool) (d x i7 : BitVec 7) (m : BitVec 64),
    s.Issues a g b → g.inStep = false → d.toNat < g.kregs → x.toNat < g.kregs → modeEt g.mode ≤ 3 →
    let et := modeEt g.mode
    let w := etBits et
    let n := rawImm g.exts 7 i7.toNat
    let at' := fun l k => elem (g.vlane x.toNat l) w k
    (signedImm g.exts 7 i7.toNat = some m →
      Writes (.vaddi e d x i7) s a (Claims.putLanes g d.toNat fun l => Claims.byElement et fun k =>
        Claims.fix w (modeSat g.mode) (sgOf w (at' l k) + m.toInt)) ∧
      Writes (.vandi e d x i7) s a (Claims.putLanes g d.toNat fun l => Claims.byElement et fun k => at' l k &&& m.toNat % 2 ^ w)) ∧
    (∀ row ∈ Claims.vecShiftRows,
      (n < w → Writes (row.1 e d x i7) s a (Claims.putLanes g d.toNat fun l => Claims.byElement et fun k => row.2 w (at' l k) n)) ∧
      (w ≤ n → Traps (row.1 e d x i7) s a g cIllegalOperand 0 0))

/-- The integer words of vectors (10 R193 to R198), of registers and of immediates.
Forms that this statement says complete (the answer of `exec` is a next state with their effect): `vsub`, `vmul`, `vmulh`, `vmulhu`, `vmad`, `vmin`,
`vmax`, `vminu`, `vmaxu`, `vabs`, `vneg`, `vand`, `vor`, `vxor`, `vnot`, `vshl`, `vshr`, `vsra`, `vclz`, `vpopc`, `vsel`, `vaddi`, `vshli`, `vshri`,
`vsrai`, `vandi`, `vrotl`. -/
def Obligations.VectorArithmetic : Prop :=
  Claims.VectorIntegerResults ∧ Claims.VectorImmediateResults

namespace Sys2Proof.Claims

/-- Lanes moved whole with their scale bytes: active lane l takes lane `m l` of a register. -/
def moveLanes (g : Group) (d x : Nat) (m : Nat → Nat) : Group :=
  (lanesOf g.active).foldl (fun h l => (h.setV d l (g.vlane x (m l))).setK d l (g.klane x (m l))) g

/-- Two registers written in the active lanes from a list of twice the elements of one. -/
def putPair (g : Group) (d et : Nat) (f : Nat → List Nat) : Group :=
  (lanesOf g.active).foldl (fun h l => (h.setV d l (ofElems (etBits et) ((f l).take (etCount et)))).setV (d + 1) l
    (ofElems (etBits et) ((f l).drop (etCount et)))) g

end Sys2Proof.Claims

/-- Moves (10 R198): `vmov`, `vshfl` and `vbcast` move whole lanes with their scale bytes; `vsplat`, `vins`, `vperm` and `viota` write
elements of MODE.ET. -/
def Sys2Proof.Claims.VectorMoveResults : Prop :=
  ∀ (s : State) (a : Nat) (g : Group) (b : Block) (e : Bool) (d x y i7 : BitVec 7), s.Issues a g b → g.inStep = false → d.toNat < g.kregs →
    let et := modeEt g.mode
    let w := etBits et
    (g.exts = [] → x.toNat < g.kregs → Writes (.vmov e d x) s a (Claims.moveLanes g d.toNat x.toNat fun l => l)) ∧
    (g.exts = [] → x.toNat < g.kregs → y.toNat < g.kregs →
      Writes (.vshfl e d x y) s a (Claims.moveLanes g d.toNat x.toNat fun l => g.vlane y.toNat l % 8)) ∧
    (x.toNat < g.kregs → rawImm g.exts 7 i7.toNat < 8 →
      Writes (.vbcast e d x i7) s a (Claims.moveLanes g d.toNat x.toNat fun _ => rawImm g.exts 7 i7.toNat)) ∧
    (g.exts = [] → x.toNat < 32 → et ≤ 12 →
      Writes (.vsplat e d x) s a (Claims.putLanes g d.toNat fun _ => Claims.byElement et fun _ => (g.sreg x.toNat).toNat)) ∧
    (g.exts = [] → x.toNat < 32 → y.toNat < 32 → et ≤ 12 → (g.sreg y.toNat).toNat < etCount et →
      Writes (.vins e d x y) s a (Claims.putLanes g d.toNat fun l => Claims.byElement et fun k =>
        if k = (g.sreg y.toNat).toNat then (g.sreg x.toNat).toNat else elem (g.vlane d.toNat l) w k)) ∧
    (g.exts = [] → x.toNat < 32 → y.toNat < 32 → et ≤ 12 → etCount et ≤ (g.sreg y.toNat).toNat →
      Traps (.vins e d x y) s a g cIllegalOperand 0 0) ∧
    (g.exts = [] → x.toNat < g.kregs → y.toNat < g.kregs → et ≤ 12 →
      Writes (.vperm e d x y) s a (Claims.putLanes g d.toNat fun l => Claims.byElement et fun k =>
        elem (g.vlane x.toNat l) w (elem (g.vlane y.toNat l) w k % etCount et))) ∧
    (g.exts = [] → et ≤ 3 → Writes (.viota e d) s a (Claims.putLanes g d.toNat fun l => Claims.byElement et fun k => l * etCount et + k))

/-- Narrowing, widening and interleaving (10 R199, R200): `vpack` narrows two registers of an integer type into one of half the width,
`vunpk` sign-extends one into two, `vzip` and `vunzip` interleave and part two registers; a pair that ends above the register count
raises ILLEGAL_OPERAND. -/
def Sys2Proof.Claims.PackResults : Prop :=
  ∀ (s : State) (a : Nat) (g : Group) (b : Block) (e : Bool) (d x y : BitVec 7),
    s.Issues a g b → g.Clear → d.toNat < g.kregs → x.toNat < g.kregs → y.toNat < g.kregs →
    let et := modeEt g.mode
    let et2 := modeEt2 g.mode
    let list := fun (r : BitVec 7) l => elems et (g.vlane r.toNat l)
    (1 ≤ et → et ≤ 3 → et2 + 1 = et →
      Writes (.vpack e d x y) s a (Claims.putLanes g d.toNat fun l => ofElems (etBits et2)
        ((list x l ++ list y l).map fun v => if modeSat g.mode then Claims.fix (etBits et2) true (sgOf (etBits et) v) else v % 2 ^ etBits et2))) ∧
    (et ≤ 2 → et2 = et + 1 → d.toNat + 2 ≤ g.kregs →
      Writes (.vunpk e d x) s a (Claims.putPair g d.toNat et2 fun l => (list x l).map fun v => wrapTo (etBits et2) (sgOf (etBits et) v))) ∧
    (et ≤ 12 → d.toNat + 2 ≤ g.kregs →
      Writes (.vzip e d x y) s a (Claims.putPair g d.toNat et fun l => (List.zipWith (fun p q => [p, q]) (list x l) (list y l)).flatten) ∧
      Writes (.vunzip e d x y) s a (Claims.putPair g d.toNat et fun l =>
        let c := list x l ++ list y l
        ((List.range (etCount et)).map fun k => c.getD (2 * k) 0) ++ (List.range (etCount et)).map fun k => c.getD (2 * k + 1) 0)) ∧
    (et ≤ 12 → g.kregs < d.toNat + 2 →
      Traps (.vzip e d x y) s a g cIllegalOperand 0 0 ∧ Traps (.vunzip e d x y) s a g cIllegalOperand 0 0 ∧ Traps (.vunpk e d x) s a g cIllegalOperand 0 0)

/-- The words that move and pack lanes (10 R198 to R200).
Forms that this statement says complete (the answer of `exec` is a next state with their effect): `vmov`, `vsplat`, `vins`, `vperm`, `vshfl`,
`vbcast`, `vpack`, `vunpk`, `vzip`, `vunzip`, `viota`. -/
def Obligations.VectorMoves : Prop :=
  Claims.VectorMoveResults ∧ Claims.PackResults

/-- Predicates (10 R201) ignore the guard: bitwise words, a predicate from the low 8 bits of a scalar, whose higher bits must be zero, and
a scalar from a predicate. -/
def Sys2Proof.Claims.PredicateEffects : Prop :=
  ∀ (s : State) (a : Nat) (g : Group) (b : Block) (e : Bool) (d x y : BitVec 7), s.Issues a g b → g.Clear →
    (d.toNat < 8 → x.toNat < 8 → y.toNat < 8 →
      Writes (.pand e d x y) s a (g.setP d.toNat (g.preg x.toNat &&& g.preg y.toNat)) ∧
      Writes (.por e d x y) s a (g.setP d.toNat (g.preg x.toNat ||| g.preg y.toNat)) ∧
      Writes (.pxor e d x y) s a (g.setP d.toNat (g.preg x.toNat ^^^ g.preg y.toNat)) ∧
      Writes (.pnot e d x) s a (g.setP d.toNat (~~~ g.preg x.toNat))) ∧
    (d.toNat < 8 → x.toNat < 32 → (g.sreg x.toNat).toNat < 256 → Writes (.pmov e d x) s a (g.setP d.toNat ((g.sreg x.toNat).truncate 8))) ∧
    (d.toNat < 8 → x.toNat < 32 → 256 ≤ (g.sreg x.toNat).toNat → Traps (.pmov e d x) s a g cIllegalOperand 0 0) ∧
    (d.toNat < 32 → x.toNat < 8 → Writes (.pget e d x) s a (g.setS d.toNat ((g.preg x.toNat).zeroExtend 64)))

/-- The encodings of the predicate words (10 R201): format A with the opcodes of its table; the words of one source have a zero b field. -/
def Sys2Proof.Claims.PredicateForms : Prop :=
  ∀ (e : Bool) (d a b : BitVec 7),
    decodeWord (Claims.word e 0x140 d a b) = .pand e d a b ∧ decodeWord (Claims.word e 0x141 d a b) = .por e d a b ∧
    decodeWord (Claims.word e 0x142 d a b) = .pxor e d a b ∧ decodeWord (Claims.word e 0x143 d a 0) = .pnot e d a ∧
    decodeWord (Claims.word e 0x144 d a 0) = .pmov e d a ∧ decodeWord (Claims.word e 0x145 d a 0) = .pget e d a

/-- The predicate words (10 R201): their encodings and their effects.
Forms that this statement says complete (the answer of `exec` is a next state with their effect): `pand`, `por`, `pxor`, `pnot`, `pmov`, `pget`. -/
def Obligations.PredicateResults : Prop :=
  Claims.PredicateForms ∧ Claims.PredicateEffects

/-! ### Reductions (10 R202 to R205) -/

namespace Sys2Proof.Claims

/-- The elements of a register in the active lanes, lane by lane. -/
def activeElems (g : Group) (x : Nat) : List Nat := ((lanesOf g.active).map fun l => elems (modeEt g.mode) (g.vlane x l)).flatten

/-- The sum of the signed elements. -/
def sumOf (w : Nat) (xs : List Nat) : Int := (xs.map (sgOf w)).sum

/-- A reduction issued: its result lands later in a `y` register (10 R202). -/
def reduced (g : Group) (y : BitVec 7) (v : BitVec 64) : Group := { g with vreds := g.vreds ++ [⟨BitVec.ofNat 2 y.toNat, v, 0, g.active⟩] }

end Sys2Proof.Claims

/-- Reductions of an integer type (10 R202) into `y` registers: the sum under SAT to 64 bits, the greatest and the least signed element,
the AND and the OR of all elements of the active lanes, with the values that the spec gives where no lane is active; a sum of a float type
over no lane is zero, its greatest −∞ and its least +∞ (of every float type); the AND and OR of a float type, and a sum of one that is not
wide, raise ILLEGAL_OPERAND. With 64 results outstanding (08 R155), the accumulator words of the group among them, the group waits. -/
def Sys2Proof.Claims.ReductionResults : Prop :=
  ∀ (s : State) (a : Nat) (g : Group) (b : Block) (e : Bool) (d x : BitVec 7),
    s.Issues a g b → g.Clear → d.toNat < 4 → x.toNat < g.kregs →
    let w := etBits (modeEt g.mode)
    let xs := Claims.activeElems g x.toNat
    let out := g.vreds.length + (s.core (coreOf a)).ownCount a
    (out < 64 → modeEt g.mode ≤ 3 →
      Writes (.vredAdd e d x) s a (Claims.reduced g d (BitVec.ofNat 64 (Claims.fix 64 (modeSat g.mode) (Claims.sumOf w xs)))) ∧
      Writes (.vredMax e d x) s a (Claims.reduced g d (BitVec.ofInt 64 (xs.foldl (fun m v => max m (sgOf w v)) (-(2 ^ 63 : Nat) : Int)))) ∧
      Writes (.vredMin e d x) s a (Claims.reduced g d (BitVec.ofInt 64 (xs.foldl (fun m v => min m (sgOf w v)) ((2 ^ 63 - 1 : Nat) : Int)))) ∧
      (xs ≠ [] → Writes (.vredAnd e d x) s a (Claims.reduced g d (BitVec.ofNat 64 (xs.foldl (· &&& ·) (2 ^ 64 - 1))))) ∧
      (xs = [] → Writes (.vredAnd e d x) s a (Claims.reduced g d (BitVec.allOnes 64))) ∧
      Writes (.vredOr e d x) s a (Claims.reduced g d (BitVec.ofNat 64 (xs.foldl (· ||| ·) 0)))) ∧
    (out < 64 → isWide (modeEt g.mode) = true → modeRm g.mode ≤ 4 → lanesOf g.active = [] →
      Writes (.vredAdd e d x) s a (Claims.reduced g d 0)) ∧
    (out < 64 → isFloat (modeEt g.mode) = true → lanesOf g.active = [] →
      Writes (.vredMax e d x) s a (Claims.reduced g d 0xFFF0000000000000) ∧
      Writes (.vredMin e d x) s a (Claims.reduced g d 0x7FF0000000000000)) ∧
    (isInt (modeEt g.mode) = false →
      Traps (.vredAnd e d x) s a g cIllegalOperand 0 0 ∧ Traps (.vredOr e d x) s a g cIllegalOperand 0 0 ∧
      (isWide (modeEt g.mode) = false → Traps (.vredAdd e d x) s a g cIllegalOperand 0 0)) ∧
    (64 ≤ out → modeEt g.mode ≤ 3 → g.state = .issuing →
      ∃ t k, exec (.vredOr e d x) s = .next t ∧ t.grp a = some k ∧ k.state = .waitMem ∧ k.v = g.v ∧ k.y = g.y ∧ k.vreds = g.vreds)

/-- Sums within lanes and across them (10 R204, R205), of integers, and the words that read `y` (10 R203): `yget` gives the value that has
the sequence number it asks for, waits for one that a reduction under way will set, and raises ILLEGAL_OPERAND with the register's number
in XAUX for any other; `yseq` gives the number that the last reduction issued will have. -/
def Sys2Proof.Claims.LaneSumsAndResultReads : Prop :=
  ∀ (s : State) (a : Nat) (g : Group) (b : Block) (e : Bool) (d x i7 : BitVec 7), s.Issues a g b → g.inStep = false →
    let et := modeEt g.mode
    let w := etBits et
    (g.exts = [] → d.toNat < g.kregs → x.toNat < g.kregs → et ≤ modeEt2 g.mode → modeEt2 g.mode ≤ 3 →
      Writes (.vredlAdd e d x) s a (Claims.putLanes g d.toNat fun l =>
        Claims.fix (etBits (modeEt2 g.mode)) (modeSat g.mode) (Claims.sumOf w (elems et (g.vlane x.toNat l))))) ∧
    (g.exts = [] → d.toNat < g.kregs → x.toNat < g.kregs → et ≤ 3 →
      Writes (.vscanAdd e d x) s a (Claims.putLanes g d.toNat fun l => Claims.byElement et fun k =>
        Claims.fix w (modeSat g.mode) (Claims.sumOf w (((lanesOf g.active).filter fun m => decide (m ≤ l)).map fun m => elem (g.vlane x.toNat m) w k)))) ∧
    (d.toNat < 32 → x.toNat < 4 → rawImm g.exts 7 i7.toNat = (g.yreg x.toNat).seq.toNat →
      Writes (.yget e d x i7) s a (g.setS d.toNat (g.yreg x.toNat).value)) ∧
    (d.toNat < 32 → x.toNat < 4 → rawImm g.exts 7 i7.toNat < 2 ^ 16 → rawImm g.exts 7 i7.toNat ≠ (g.yreg x.toNat).seq.toNat →
      let dist := (BitVec.ofNat 16 (rawImm g.exts 7 i7.toNat) - (g.yreg x.toNat).seq).toNat
      let pending := g.vreds.countP fun p => p.y.toNat == x.toNat
      (dist ≤ pending →
        Waits (.yget e d x i7) s s a g .waitMem (.yseq (BitVec.ofNat 2 x.toNat) (BitVec.ofNat 16 (rawImm g.exts 7 i7.toNat)))) ∧
      (pending < dist → Traps (.yget e d x i7) s a g cIllegalOperand 0 ((g.yreg x.toNat).seq.zeroExtend 64))) ∧
    (g.exts = [] → d.toNat < 32 → x.toNat < 4 →
      Writes (.yseq e d x) s a (g.setS d.toNat
        (((g.yreg x.toNat).seq + BitVec.ofNat 16 (g.vreds.countP fun p => p.y.toNat == x.toNat)).zeroExtend 64)))

/-- The reductions, sums within lanes, and the reading of `y` registers (10 R202 to R205).
Forms that this statement says complete (the answer of `exec` is a next state with their effect): `vredAdd`, `vredMax`, `vredMin`, `vredAnd`,
`vredOr`, `vredlAdd`, `vscanAdd`, `yget`, `yseq`. -/
def Obligations.ReductionWords : Prop :=
  Claims.ReductionResults ∧ Claims.LaneSumsAndResultReads

/-! ### Floating point (10 R207 to R216, 02 R43 to R51) -/

namespace Sys2Proof.Claims

/-- What a word rounds in one lane: the codes, the flags, the generator afterwards. -/
abbrev Rounded := List Nat × FpFlags × BitVec 32

/-- Exact values rounded under MODE, in element order, with the generator of lane l (02 R43, R51). -/
def rounding (g : Group) (et l : Nat) (xs : List (XVal × FpFlags)) : Rounded :=
  roundAll (etFmt et) (modeRm g.mode) (modeSat g.mode) (modeFz g.mode) (vget g.gen l 0) xs

/-- The flags of every active lane. -/
def allFlags (g : Group) (out : Nat → Rounded) : FpFlags := (lanesOf g.active).foldl (fun m l => m ||| (out l).2.1) 0

/-- The flags that lane l would set and FPSTAT enables (02 R48, R49). -/
def raised (g : Group) (out : Nat → Rounded) (l : Nat) : FpFlags := (out l).2.1 &&& g.fpstat.extractLsb' 8 5

/-- Lanes written with what they round to: the register, the lane generators, and the sticky flags of FPSTAT. -/
def putRounded (g : Group) (d w : Nat) (out : Nat → Rounded) : Group :=
  (lanesOf g.active).foldl (fun h l => { h.setV d l (ofElems w (out l).1) with gen := vset h.gen l (out l).2.2 })
    { g with fpstat := g.fpstat ||| (allFlags g out).zeroExtend 32 }

/-- FP_EXCEPTION (02 R49): where an active lane would set an enabled flag, the word traps with the lanes and the flags in XAUX. -/
def FpTraps (i : Instr) (s : State) (a : Nat) (g : Group) (out : Nat → Rounded) : Prop :=
  ∃ aux, Traps i s a g cFpException 0 aux ∧ (∀ l, l < 8 → aux.getLsbD l = (g.active.getLsbD l && raised g out l != 0)) ∧
    ∀ k, k < 5 → aux.getLsbD (8 + k) = (lanesOf g.active).any fun l => (raised g out l).getLsbD k

/-- A word whose active lanes round: it writes h, or traps where FPSTAT enables a flag that a lane raises. -/
def Rounds (i : Instr) (s : State) (a : Nat) (g : Group) (out : Nat → Rounded) (h : Group) : Prop :=
  ((∀ l ∈ lanesOf g.active, raised g out l = 0) → Writes i s a h) ∧
  ((∃ l ∈ lanesOf g.active, raised g out l ≠ 0) → FpTraps i s a g out)

/-- The arithmetic words: the exact result of an element, with the flags of its special cases, from the rounding mode and the elements
of `vA`, `vB` and the old `vD`. -/
noncomputable def floatRows : List ((Bool → BitVec 7 → BitVec 7 → BitVec 7 → Instr) × (Nat → XVal → XVal → XVal → XVal × FpFlags)) :=
  [(.fadd, fun rm x y _ => addX rm x y),
   (.fsub, fun rm x y _ => addX rm x y.negate),
   (.fmul, fun _ x y _ => mulX x y),
   (.ffma, fun rm x y z => exactFma rm x y z false false),
   (.ffms, fun rm x y z => exactFma rm x y z false true),
   (.fnma, fun rm x y z => exactFma rm x y z true false),
   (fun e d a _ => .frcp e d a, fun _ x _ _ => rcpX x),
   (fun e d a _ => .frsq e d a, fun _ x _ _ => rsqX x),
   (fun e d a _ => .fsqrt e d a, fun _ x _ _ => sqrtX x),
   (fun e d a _ => .fexp2 e d a, fun _ x _ _ => exp2X x),
   (fun e d a _ => .flog2 e d a, fun _ x _ _ => log2X x),
   (fun e d a _ => .ftanh e d a, fun _ x _ _ => tanhX x)]

/-- The lesser or the greater of two codes, after FZ (10 R208): of one NaN the other operand, of two the canonical NaN. -/
def floatPick (greater : Bool) (m : BitVec 32) (x y : Nat) : Nat :=
  let F := etFmt (modeEt m)
  let flush := fun c => if modeFz m && F.flushes && F.isSubnormalCode c then F.signCode (c / 2 ^ (F.width - 1) % 2 == 1) else c
  let p := F.decodeFz (modeFz m) x
  let q := F.decodeFz (modeFz m) y
  if p.isNan then (if q.isNan then F.canonicalNan else flush y)
  else if q.isNan then flush x
  else if (if greater then p.ltMin q else q.ltMin p) then flush y
  else flush x

/-- The words on the codes of floats: the types accepted, and an element from those of `vA`, `vB` and the old `vD`. -/
noncomputable def floatCodeRows : List ((Bool → BitVec 7 → BitVec 7 → BitVec 7 → Instr) × (Nat → Bool) × (BitVec 32 → Nat → Nat → Nat → Nat)) :=
  let sign := fun (m : BitVec 32) => 2 ^ (etBits (modeEt m) - 1)
  [(.fmin, isWide, fun m x y _ => floatPick false m x y),
   (.fmax, isWide, fun m x y _ => floatPick true m x y),
   (fun e d a _ => .fabs e d a, isFloat, fun m x _ _ => x % sign m),
   (fun e d a _ => .fneg e d a, isFloat, fun m x _ _ => (x + sign m) % (2 * sign m)),
   (.fcpys, isFloat, fun m x y _ => x % sign m + y / sign m * sign m),
   (.fsel, isFloat, fun m x y z => if ((etFmt (modeEt m)).decode z).isZero then y else x),
   (fun e d a _ => .fclass e d a, isFloat, fun m x _ _ =>
     match (etFmt (modeEt m)).decode x with
     | .nan => 8
     | .inf n => if n then 0 else 7
     | .fin n k _ _ => if k = 0 then (if n then 3 else 4) else if (etFmt (modeEt m)).isSubnormalCode x then (if n then 2 else 5) else if n then 1 else 6)]

end Sys2Proof.Claims

/-- Float arithmetic (10 R207) rounds the exact result of each element of the active lanes once, sets the sticky flags, and keeps the other
lanes; an enabled flag raises FP_EXCEPTION with nothing written; a type other than the four wide floats raises ILLEGAL_OPERAND. -/
def Sys2Proof.Claims.FloatArithmetic : Prop :=
  ∀ row ∈ Claims.floatRows, ∀ (s : State) (a : Nat) (g : Group) (b : Block) (e : Bool) (d x y : BitVec 7),
    s.Issues a g b → g.Clear → d.toNat < g.kregs → x.toNat < g.kregs → y.toNat < g.kregs → modeRm g.mode ≤ 4 →
    let et := modeEt g.mode
    let val := (etFmt et).decodeFz (modeFz g.mode)
    let at' := fun (r : BitVec 7) l k => val (elem (g.vlane r.toNat l) (etBits et) k)
    let out := fun l => Claims.rounding g et l ((List.range (etCount et)).map fun k => row.2 (modeRm g.mode) (at' x l k) (at' y l k) (at' d l k))
    (isWide et = true → Claims.Rounds (row.1 e d x y) s a g out (Claims.putRounded g d.toNat (etBits et) out)) ∧
    (isWide et = false → Traps (row.1 e d x y) s a g cIllegalOperand 0 0)

/-- The words on codes of floats (10 R208, R209, R211) touch no flag; `frnd` (R212) rounds each element to an integral value, with a draw of
the lane's generator for each element under RSR. -/
def Sys2Proof.Claims.FloatCodeWords : Prop :=
  ∀ (s : State) (a : Nat) (g : Group) (b : Block) (e : Bool) (d x y : BitVec 7),
    s.Issues a g b → g.Clear → d.toNat < g.kregs → x.toNat < g.kregs → y.toNat < g.kregs →
    let et := modeEt g.mode
    let at' := fun (r : BitVec 7) l k => elem (g.vlane r.toNat l) (etBits et) k
    (∀ row ∈ Claims.floatCodeRows,
      (row.2.1 et = true → Writes (row.1 e d x y) s a (Claims.putLanes g d.toNat fun l =>
        Claims.byElement et fun k => row.2.2 g.mode (at' x l k) (at' y l k) (at' d l k))) ∧
      (row.2.1 et = false → Traps (row.1 e d x y) s a g cIllegalOperand 0 0)) ∧
    (isWide et = true → modeRm g.mode ≤ 4 →
      let out := fun l => roundElems (etFmt et) (modeRm g.mode) (vget g.gen l 0)
        ((List.range (etCount et)).map fun k => (etFmt et).decodeFz (modeFz g.mode) (at' x l k))
      Writes (.frnd e d x) s a ((lanesOf g.active).foldl
        (fun h l => { h.setV d.toNat l (ofElems (etBits et) (out l).1) with gen := vset h.gen l (out l).2 }) g))

/-- Sums of floats within a lane and across lanes (10 R204, R205): the exact sum of each, of the wide floats for `vredl.add` and of every
float type for `vscan.add`, rounded once, with the flags and the draws of a float word. -/
def Sys2Proof.Claims.FloatLaneSums : Prop :=
  ∀ (s : State) (a : Nat) (g : Group) (b : Block) (e : Bool) (d x : BitVec 7),
    s.Issues a g b → g.Clear → d.toNat < g.kregs → x.toNat < g.kregs → modeRm g.mode ≤ 4 →
    let et := modeEt g.mode
    let et2 := modeEt2 g.mode
    let at' := fun l k => (etFmt et).decodeFz (modeFz g.mode) (elem (g.vlane x.toNat l) (etBits et) k)
    let within := fun l => Claims.rounding g et2 l [sumX ((List.range (etCount et)).map fun k => at' l k)]
    let across := fun l => Claims.rounding g et l ((List.range (etCount et)).map fun k =>
      sumX (((lanesOf g.active).filter fun m => decide (m ≤ l)).map fun m => at' m k))
    (isWide et = true → isWide et2 = true → Claims.Rounds (.vredlAdd e d x) s a g within (Claims.putRounded g d.toNat (etBits et2) within)) ∧
    (isFloat et = true → Claims.Rounds (.vscanAdd e d x) s a g across (Claims.putRounded g d.toNat (etBits et) across))

namespace Sys2Proof.Claims

/-- The exponent of the last place of the grid on which a format rounds a nonzero magnitude mag · 2^exp (02 R43). -/
def gridExp (F : Fmt) (mag : Nat) (exp : Int) : Int := max ((Nat.log2 mag : Int) + exp) (1 - (F.bias : Int)) - F.manBits

/-- The grid point that a mode chooses for V / G, in places of the grid, `r` the draw (02 R43, R51). -/
def gridChoice (rm : Nat) (neg : Bool) (r V G : Nat) : Nat :=
  let t := V / G
  let rem := V % G
  let up := match rm with
    | 0 => decide (G < 2 * rem ∨ (2 * rem = G ∧ t % 2 = 1))
    | 1 => false
    | 2 => neg
    | 3 => !neg
    | _ => decide (r * G < rem * 2 ^ 32)
  if rem ≠ 0 ∧ up = true then t + 1 else t

/-- The greatest finite magnitude of a format (02 R36): a mantissa and an exponent. -/
def greatest : Fmt → Nat × Int
  | .fp64 => (2 ^ 53 - 1, 971) | .fp32 => (2 ^ 24 - 1, 104) | .bf16 => (2 ^ 8 - 1, 120) | .fp16 => (2 ^ 11 - 1, 5) | .e5m2 => (7, 13)
  | .e4m3 => (7, 6) | .e3m2 => (7, 2) | .e2m3 => (15, -1) | .e2m1 => (3, 1)

/-- The result of an overflow (02 R44). -/
def overflowed (F : Fmt) (neg sat : Bool) (rm : Nat) : Nat × FpFlags :=
  let big := F.signCode neg + F.maxCode
  let inf := F.signCode neg + F.infCode
  if sat then (big, flagOF ||| flagNX)
  else if F = .e4m3 then (0x7F, flagOF ||| flagNX ||| flagNV)
  else if F ∈ [Fmt.e3m2, .e2m3, .e2m1] ∨ rm = 1 ∨ (rm = 2 ∧ neg = false) ∨ (rm = 3 ∧ neg = true) then (big, flagOF ||| flagNX)
  else (inf, flagOF ||| flagNX)

end Sys2Proof.Claims

/-- `round` (02 R43 to R46, R51): of a nonzero real, on the grid of its binade, the point that the mode chooses; a result above the greatest
finite one is an overflow, any other is the code of that point with the sign, NX where it is not the value and UF where the value was tiny; FZ
flushes a tiny value of the four formats that it reaches. Zeros, infinities and NaN convert as their tables say, and the example of R51
holds. -/
def Sys2Proof.Claims.RoundingOfValues : Prop :=
  (∀ (F : Fmt) (rm r : Nat) (sat fz neg : Bool) (mag : Nat) (exp : Int), mag ≠ 0 → rm ≤ 4 →
    let g := Claims.gridExp F mag exp
    let u := min exp g
    let V := mag * 2 ^ (exp - u).toNat
    let G := 2 ^ (g - u).toNat
    let q := Claims.gridChoice rm neg r V G
    let tiny := decide ((Nat.log2 mag : Int) + exp < 1 - (F.bias : Int))
    let res := round F rm sat fz r (.fin neg mag exp false)
    let flushed := fz = true ∧ tiny = true ∧ F ∈ [Fmt.fp64, .fp32, .bf16, .fp16]
    (flushed → res = (F.signCode neg, flagUF ||| flagNX)) ∧
    (¬ flushed → magLe q g (Claims.greatest F).1 (Claims.greatest F).2 = false → res = Claims.overflowed F neg sat rm) ∧
    (¬ flushed → magLe q g (Claims.greatest F).1 (Claims.greatest F).2 = true →
      ∃ m e, F.decode res.1 = .fin neg m e false ∧ magLe m e q g = true ∧ magLe q g m e = true ∧ res.1 < 2 ^ F.width ∧
        res.2 = if V % G = 0 then 0 else if tiny then flagNX ||| flagUF else flagNX)) ∧
  (∀ (F : Fmt) (rm r : Nat) (sat fz neg : Bool) (exp : Int),
    round F rm sat fz r (.fin neg 0 exp false) = (F.signCode neg, 0) ∧
    (F ∈ [Fmt.fp64, .fp32, .bf16, .fp16, .e5m2] →
      round F rm sat fz r (.inf neg) = (F.signCode neg + F.infCode, 0) ∧ round F rm sat fz r .nan = (F.canonicalNan, 0)) ∧
    (F = .e4m3 → round F rm sat fz r (.inf neg) = (if sat then (F.signCode neg + F.maxCode, flagOF) else (0x7F, flagNV)) ∧
      round F rm sat fz r .nan = (0x7F, 0)) ∧
    (F ∈ [Fmt.e3m2, .e2m3, .e2m1] →
      round F rm sat fz r (.inf neg) = (F.signCode neg + F.maxCode, flagOF) ∧ round F rm sat fz r .nan = (0, flagNV))) ∧
  (∀ r : Nat, round .fp32 4 false false r (.fin false (2 ^ 25 + 1) (-25) false) =
    (if r < 0x40000000 then 0x3F800001 else 0x3F800000, flagNX)) ∧
  (∀ (F : Fmt) (rm : Nat) (sat fz : Bool) (gen : BitVec 32) (x : XVal) (f : FpFlags) (xs : List (XVal × FpFlags)),
    let next := if rm = 4 then stepGenerator gen else gen
    let c := round F rm sat fz next.toNat x
    let rest := roundAll F rm sat fz next xs
    roundAll F rm sat fz gen ((x, f) :: xs) = (c.1 :: rest.1, f ||| c.2 ||| rest.2.1, rest.2.2))

/-- The floating-point words of vectors (10 R204, R205, R207 to R212), and the rounding that they share (02 R43 to R46, R51).
Forms that this statement says complete (the answer of `exec` is a next state with their effect): `fadd`, `fsub`, `fmul`, `ffma`, `ffms`, `fnma`,
`fmin`, `fmax`, `fabs`, `fneg`, `fcpys`, `frcp`, `frsq`, `fsqrt`, `fexp2`, `flog2`, `ftanh`, `fclass`, `frnd`, `fsel`. -/
def Obligations.FloatWords : Prop :=
  Claims.RoundingOfValues ∧ Claims.FloatArithmetic ∧ Claims.FloatCodeWords ∧ Claims.FloatLaneSums

namespace Sys2Proof.Claims

/-- Elements of one lane converted in order: codes, flags, the generator afterwards. -/
def convertAll (f : Nat → BitVec 32 → Nat → Nat × FpFlags × BitVec 32) : Nat → BitVec 32 → List Nat → Rounded
  | _, gen, [] => ([], 0, gen)
  | k, gen, x :: xs =>
    let r := f k gen x
    let q := convertAll f (k + 1) r.2.2 xs
    (r.1 :: q.1, r.2.1 ||| q.2.1, q.2.2)

/-- The conversions of spans: the types accepted, and one element, number k of lane l, from the generator and its code. -/
noncomputable def convertRows : List ((Bool → BitVec 7 → BitVec 7 → Instr) × (Nat → Nat → Bool) × (Group → Nat → Nat → Nat → BitVec 32 → Nat → Nat × FpFlags × BitVec 32)) :=
  let dst := fun (g : Group) => etFmt (modeEt2 g.mode)
  let src := fun (g : Group) => etFmt (modeEt g.mode)
  [(.fcvt, fun et et2 => isFloat et && isFloat et2, fun g _ _ _ gen c =>
      if holdsAll (modeEt g.mode) (modeEt2 g.mode) then
        let r := roundDraw (dst g) (modeRm g.mode) false false gen ((src g).decodeFz (modeFz g.mode) c)
        (r.1, 0, r.2.2)
      else roundDraw (dst g) (modeRm g.mode) (modeSat g.mode) (modeFz g.mode) gen ((src g).decodeFz (modeFz g.mode) c)),
   (.ftoi, fun et et2 => isFloat et && isInt et2, fun g _ _ _ gen c =>
      let next := if modeRm g.mode = rmRSR then stepGenerator gen else gen
      let r := toInt (etBits (modeEt2 g.mode)) (modeRm g.mode) next.toNat ((src g).decode c)
      (r.1, r.2, next)),
   (.itof, fun et et2 => isInt et && isFloat et2, fun g _ _ _ gen c =>
      roundDraw (dst g) (modeRm g.mode) (modeSat g.mode) false gen (XVal.ofInt (sgOf (etBits (modeEt g.mode)) c))),
   (.mxdq, fun et et2 => isMx et && (et2 == 9 || et2 == 10 || et2 == 11), fun g x l k gen c =>
      roundDraw (dst g) (modeRm g.mode) (modeSat g.mode) (modeFz g.mode) gen (mxValue (src g) (elem (g.klane x l) 8 (k / 32)) c))]

/-- The blocks of `mxq` in one lane: the scale bytes and the elements (02 R57). -/
def mxLanes (g : Group) (x : Nat) (fc : BitVec 64) (l : Nat) : List Nat × List Nat :=
  let n := etCount (modeEt2 g.mode)
  let per := n / etCount (modeEt g.mode)
  quantBlocks (etFmt (modeEt2 g.mode)) (Fmt.decode .fp32 (fc.toNat % 2 ^ 32)) (Fmt.decode .fp32 (fc.toNat / 2 ^ 32)) (n / 32)
    ((((List.range per).map fun k => elems (modeEt g.mode) (g.vlane (x + k) l)).flatten).map (etFmt (modeEt g.mode)).decode)

/-- Scale registers written in the active lanes. -/
def putScales (g : Group) (d : Nat) (f : Nat → Nat) : Group := (lanesOf g.active).foldl (fun h l => h.setK d l (f l)) g

end Sys2Proof.Claims

/-- Conversions (10 R213, R215, 02 R52) of spans whose registers lie below the count: `n` elements a lane, the greater of the two types'
counts, read from the source span and rounded in order into the destination span; other registers and lanes are kept, and an enabled flag
raises FP_EXCEPTION; a span that ends above the count raises ILLEGAL_OPERAND.
Forms that this statement says complete (the answer of `exec` is a next state with their effect): `fcvt`, `ftoi`, `itof`, `mxdq`. -/
def Obligations.ConversionResults : Prop :=
  ∀ row ∈ Claims.convertRows, ∀ (s : State) (a : Nat) (g : Group) (b : Block) (e : Bool) (d x : BitVec 7),
    s.Issues a g b → g.Clear → d.toNat < g.kregs → x.toNat < g.kregs → g.kregs ≤ 128 → modeRm g.mode ≤ 4 →
    row.2.1 (modeEt g.mode) (modeEt2 g.mode) = true →
    let et := modeEt g.mode
    let et2 := modeEt2 g.mode
    let n := max (etCount et) (etCount et2)
    let from' := n / etCount et
    let to' := n / etCount et2
    let xs := fun l => ((List.range from').map fun k => elems et (g.vlane (x.toNat + k) l)).flatten
    let out := fun l => Claims.convertAll (fun k => row.2.2 g x.toNat l k) 0 (vget g.gen l 0) (xs l)
    (x.toNat + from' ≤ g.kregs → d.toNat + to' ≤ g.kregs →
      ∃ h : Group, Claims.Rounds (row.1 e d x) s a g out h ∧
        (∀ l j, l < 8 → j < to' → h.vlane (d.toNat + j) l =
          if g.active.getLsbD l then ofElems (etBits et2) (((out l).1.drop (j * etCount et2)).take (etCount et2)) else g.vlane (d.toNat + j) l) ∧
        (∀ r l, l < 8 → (r < d.toNat ∨ d.toNat + to' ≤ r) → h.vlane r l = g.vlane r l) ∧
        (∀ l, l < 8 → vget h.gen l 0 = if g.active.getLsbD l then (out l).2.2 else vget g.gen l 0) ∧
        h.fpstat = g.fpstat ||| (Claims.allFlags g out).zeroExtend 32 ∧ ∃ v k, h = { g with v := v, gen := k, fpstat := h.fpstat }) ∧
    (g.kregs < x.toNat + from' ∨ g.kregs < d.toNat + to' → Traps (row.1 e d x) s a g cIllegalOperand 0 0)

namespace Sys2Proof.Claims

/-- clip of R57: the sign is kept and the magnitude lowered to that of the clip, where that is finite. -/
def clipped (c y : XVal) : XVal :=
  match c, y with
  | .fin _ m e _, .fin n m' e' k => if magLe m' e' m e then .fin n m' e' k else .fin n m e false
  | .fin _ m e _, .inf n => .fin n m e false
  | _, y => y

/-- emax of the MX formats (02 R57). -/
def emax : Fmt → Int
  | .e4m3 => 8 | .e5m2 => 15 | .e3m2 => 4 | _ => 2

end Sys2Proof.Claims

/-- `quantise_block` (02 R57): the factor is applied exactly and the clip after it; a NaN or an infinity gives the scale 0xFF and zero
elements; a block of zeros the scale 0 and zeros of their signs; else the scale is that of the greatest magnitude, within −127 to 127, and
each element is divided by it and rounded once by RNE with saturation, without a draw. -/
def Sys2Proof.Claims.QuantisedBlocks : Prop :=
  ∀ (F : Fmt) (f c : XVal) (xs : List XVal), F ∈ [Fmt.e5m2, .e4m3, .e3m2, .e2m3, .e2m1] →
    (c = .inf false ∨ ∃ n m e, c = .fin n m e false) →
    let ys := xs.map fun x => Claims.clipped c (mulX f x).1
    ((∃ y ∈ ys, y.isNan = true ∨ y.isInf = true) → quantiseBlock F f c xs = (0xFF, xs.map fun _ => 0)) ∧
    ((∀ y ∈ ys, ∃ n e k, y = .fin n 0 e k) → quantiseBlock F f c xs = (0, ys.map fun y => F.signCode y.neg?)) ∧
    (∀ n m e, XVal.fin n m e false ∈ ys → m ≠ 0 → (∀ y ∈ ys, ∃ n' m' e' k, y = .fin n' m' e' k ∧ magLe m' e' m e = true) →
      let X := max (-127) (min 127 ((Nat.log2 m : Int) + e - Claims.emax F))
      quantiseBlock F f c xs = ((X + 127).toNat, ys.map fun y =>
        match y with
        | .fin n' m' e' k => (round F 0 true false 0 (.fin n' m' (e' - X) k)).1
        | _ => 0))

/-- Exact cells (02 R54, R56): INVALID absorbs; NaN, an infinity and a magnitude of 2^159 or more make it; any other contribution is added, cut
toward zero at 2^-96, modulo 2^256. The value of a cell is rounded once, INVALID is the NaN of the format with NV. -/
def Sys2Proof.Claims.ExactCells : Prop :=
  ∀ (cell mag c rm r : Nat) (neg sat : Bool) (exp : Int) (F : Fmt), cell < 2 ^ 256 →
    (∀ v, cellAdd (2 ^ 255) v = 2 ^ 255) ∧ cellAdd cell .nan = 2 ^ 255 ∧ cellAdd cell (.inf neg) = 2 ^ 255 ∧
    (magLe 1 159 mag exp = true → cellAdd cell (.fin neg mag exp false) = 2 ^ 255) ∧
    (cell ≠ 2 ^ 255 → magLe 1 159 mag exp = false →
      (-96 ≤ exp → c = mag * 2 ^ (exp + 96).toNat) →
      (exp < -96 → c * 2 ^ (-96 - exp).toNat ≤ mag ∧ mag < (c + 1) * 2 ^ (-96 - exp).toNat) →
      cellAdd cell (.fin neg mag exp false) < 2 ^ 256 ∧
      ((cellAdd cell (.fin neg mag exp false) : Int) - (cell + if neg then -(c : Int) else c)) % (2 ^ 256 : Int) = 0) ∧
    (F ∈ [Fmt.fp32, .fp64] → cellToFloat (2 ^ 255) F rm sat r = (F.canonicalNan, flagNV)) ∧
    (cell ≠ 2 ^ 255 → cellToFloat cell F rm sat r =
      round F rm sat false r (.fin (decide (2 ^ 255 ≤ cell)) (if cell < 2 ^ 255 then cell else 2 ^ 256 - cell) (-96) false))

/-- MX quantisation, exact cells and scales (10 R214, R216, R217): `mxq` writes the blocks of its lane and their scale bytes under a factor
and a clip that is no NaN and not negative; `xcvt` rounds the cell of each lane; `kget`, `kset`, `kadd` (limited to 0 and 254, 255 kept, its
addend in −254 to 254) and `kmax` move and combine scale bytes. -/
def Sys2Proof.Claims.QuantisationAndScaleWords : Prop :=
  ∀ (s : State) (a : Nat) (g : Group) (b : Block) (e : Bool) (d x y : BitVec 7),
    s.Issues a g b → g.Clear → d.toNat < g.kregs → x.toNat < g.kregs →
    let et := modeEt g.mode
    let et2 := modeEt2 g.mode
    let clip := Fmt.decode .fp32 ((g.sreg y.toNat).toNat / 2 ^ 32)
    let cell := fun l =>
      let gen := vget g.gen l 0
      let next := if modeRm g.mode = rmRSR ∧ g.vlane x.toNat l ≠ cellInvalid then stepGenerator gen else gen
      let r := cellToFloat (g.vlane x.toNat l) (etFmt et2) (modeRm g.mode) (modeSat g.mode) next.toNat
      (([r.1], r.2, next) : Claims.Rounded)
    (y.toNat < 32 → et ∈ [9, 10, 11] → isMx et2 = true → x.toNat + etCount et2 / etCount et ≤ g.kregs →
      (clip.isNan = false → (clip.neg? = false ∨ clip.isZero = true) →
        Writes (.mxq e d x y) s a ((lanesOf g.active).foldl (fun h l =>
          (h.setV d.toNat l (ofElems (etBits et2) (Claims.mxLanes g x.toNat (g.sreg y.toNat) l).2)).setK d.toNat l
            (ofElems 8 (Claims.mxLanes g x.toNat (g.sreg y.toNat) l).1)) g)) ∧
      ((clip.isNan = true ∨ (clip.neg? = true ∧ clip.isZero = false)) → Traps (.mxq e d x y) s a g cIllegalOperand 0 0)) ∧
    (et2 ∈ [11, 12] → modeRm g.mode ≤ 4 → Claims.Rounds (.xcvt e d x) s a g cell (Claims.putRounded g d.toNat 256 cell)) ∧
    Writes (.kget e d x) s a (Claims.putLanes g d.toNat fun l => g.klane x.toNat l) ∧
    Writes (.kset e d x) s a (Claims.putScales g d.toNat fun l => g.vlane x.toNat l % 2 ^ 16) ∧
    (∀ n : Int, y.toNat < 32 → (g.sreg y.toNat).toInt = n → -254 ≤ n → n ≤ 254 →
      let add := fun (v : Nat) => if v = 255 then 255 else (max 0 (min 254 ((v : Int) + n))).toNat
      Writes (.kadd e d x y) s a (Claims.putScales g d.toNat fun l => add (g.klane x.toNat l % 256) + 256 * add (g.klane x.toNat l / 256))) ∧
    (∀ n : Int, y.toNat < 32 → (g.sreg y.toNat).toInt = n → (n < -254 ∨ 254 < n) → Traps (.kadd e d x y) s a g cIllegalOperand 0 0) ∧
    (y.toNat < g.kregs → Writes (.kmax e d x y) s a (Claims.putScales g d.toNat fun l =>
      max (g.klane x.toNat l % 256) (g.klane y.toNat l % 256) + 256 * max (g.klane x.toNat l / 256) (g.klane y.toNat l / 256)))

/-- MX quantisation, exact cells and scale words (10 R214, R216, R217, 02 R54, R56, R57): what they compute, and what the words write.
Forms that this statement says complete (the answer of `exec` is a next state with their effect): `mxq`, `kget`, `kset`, `kadd`, `kmax`, `xcvt`. -/
def Obligations.QuantisationAndScales : Prop :=
  Claims.QuantisedBlocks ∧ Claims.ExactCells ∧ Claims.QuantisationAndScaleWords

/-! ### Vector memory words (12 R251 to R254, R256, R258) -/

namespace Sys2Proof.Claims

/-- The address of an offset from a scalar, modulo 2^64 (12 R248). -/
def offsetFrom (g : Group) (x : Nat) (off : Int) : Nat := (g.sreg x + BitVec.ofInt 64 off).toNat

/-- The offset of an access of z bytes (12 R251): 4-byte accesses have signed offsets of 32 bits, 8-byte ones of 64, wider ones the low 64
bits of their field. -/
def laneOffset (g : Group) (y z l k : Nat) : Int :=
  if z = 4 then sgOf 32 (elem (g.vlane y l) 32 k) else sgOf 64 (elem (g.vlane y l) (8 * z) k % 2 ^ 64)

/-- The accesses of a vector load or store of z bytes an element, lane by lane. -/
def laneAccs (g : Group) (x y z : Nat) (kind : Access) (scr : Bool) (data : Nat → Nat → Option Nat) : List Acc :=
  ((lanesOf g.active).map fun l => (List.range (32 / z)).map fun k =>
    (⟨offsetFrom g x (laneOffset g y z l k), z, kind, l, k, true, scr, false, data l k, 0⟩ : Acc)).flatten

/-- The accesses of a scratchpad row: 32 bytes a lane (12 R252). -/
def rowAccs (g : Group) (x : Nat) (kind : Access) (data : Nat → Option Nat) : List Acc :=
  (lanesOf g.active).map fun l => ⟨offsetFrom g x ((32 * l : Nat) : Int), 32, kind, l, 0, true, true, false, data l, 0⟩

/-- The accesses of a list with the places that their checks give. -/
def Checked (s : State) (a : Nat) (g : Group) (b : Block) (cs : List Acc) (ps : List (Acc × Place)) : Prop :=
  ps.map Prod.fst = cs ∧ ∀ q ∈ ps, s.checkAcc a g b q.1 = .ok q.2

/-- The first access of a list that fails its checks, with its cause, where none before it waits for a walk or a MIGRATING leaf (12 R248). -/
def FirstFault (s : State) (a : Nat) (g : Group) (b : Block) (cs : List Acc) (c : Acc) (cause : Nat) (aux : BitVec 64) : Prop :=
  ∃ before after', cs = before ++ c :: after' ∧
    (∀ q ∈ before, (s.checkAcc a g b q).faults = false ∧ (s.checkAcc a g b q).waits = false) ∧ s.checkAcc a g b c = .trap cause aux

/-- A register of the active lanes written from values, n of z bytes for each lane in order. -/
def putValues (h : Group) (active : BitVec 8) (d z n : Nat) (vs : List Nat) : Group :=
  ((lanesOf active).zip (List.range 8)).foldl (fun k q => k.setV d q.1 (ofElems (8 * z) ((vs.drop (q.2 * n)).take n))) h

/-- The data of every place at a host or peer is there (11 R224). -/
def DataThere (s : State) (a : Nat) (ps : List (Acc × Place)) : Prop :=
  ∀ q ∈ ps, ∀ pa, q.2 = .ext pa → (s.extValue a pa q.1.n).isSome = true

/-- What a load at places needs from its homes can be reached (19 R362, R374). -/
def Reached (s : State) (a : Nat) (g : Group) (acq : Bool) (ps : List (Acc × Place)) : Prop :=
  ∀ q ∈ s.loadReaches (coreOf a) a g.acqClk (modeScope g.mode) acq ps, s.inReach (coreOf a) q.2.addr = true

/-- The miss-status entries that a vector load takes (11 R226). -/
def missesOf (s : State) (a : Nat) (g : Group) (acq : Bool) (ps : List (Acc × Place)) : List Nat :=
  s.loadMisses (coreOf a) g.acqClk (modeScope g.mode) acq ps

/-- The reads of a load at places within reach whose data is there, with miss-status entries free: the values, and the state after them; none where a
read finds poison or meets a watchpoint that tests its value (21 R388, 22 R406). -/
def Reads (s : State) (a : Nat) (g : Group) (b : Block) (acq : Bool) (ps : List (Acc × Place)) (vs : List Nat) (u : State) : Prop :=
  let ks := missesOf s a g acq ps
  Reached s a g acq ps ∧ DataThere s a ps ∧ s.entriesFree (coreOf a) ks = true ∧
  ∃ rs, (s.takeEntries (coreOf a) ks).readPlaces (coreOf a) a g.acqClk (modeScope g.mode) acq ps = (rs, u) ∧ vs = rs.map (fun r => r.2.val) ∧
    ∀ r ∈ rs, r.2.poison = false ∧ unwatched u g b .read r.1.va r.1.n r.2.val

/-- The vector loads: bytes of an element, whether an acquire follows, whether the addresses are a scratchpad's. -/
noncomputable def vecLoadRows : List ((Bool → BitVec 7 → BitVec 7 → BitVec 7 → Instr) × Nat × Bool × Bool) :=
  [(.vldW, 4, false, false), (.vldD, 8, false, false), (.vldQ, 16, false, false), (.vldO, 32, false, false),
   (.vldsW, 4, false, true), (.vldsD, 8, false, true), (.vldsQ, 16, false, true), (.vldsO, 32, false, true),
   (.vldOAcq, 32, true, false), (.vldQAcq, 16, true, false)]

/-- The vector stores: bytes of an element, whether a release comes first, whether the addresses are a scratchpad's. -/
noncomputable def vecStoreRows : List ((Bool → BitVec 7 → BitVec 7 → BitVec 7 → Instr) × Nat × Bool × Bool) :=
  [(.vstW, 4, false, false), (.vstD, 8, false, false), (.vstQ, 16, false, false), (.vstO, 32, false, false),
   (.vstsW, 4, false, true), (.vstsD, 8, false, true), (.vstsQ, 16, false, true), (.vstsO, 32, false, true),
   (.vstORel, 32, true, false), (.vstQRel, 16, true, false)]

end Sys2Proof.Claims

/-- Vector loads (12 R248, R251, R252): every access is checked before any is performed, the first that fails traps with its address; the
values read fill the active lanes in lane and element order, other lanes and registers are kept, and an acquire form acquires. Where the core
has too few free miss-status entries, the word waits for them (11 R226). -/
def Sys2Proof.Claims.VectorLoads : Prop :=
  ∀ (s : State) (a : Nat) (g : Group) (b : Block) (e : Bool) (d x y : BitVec 7),
    s.Issues a g b → g.Clear → d.toNat < g.kregs → x.toNat < 32 → y.toNat < g.kregs → modeScope g.mode ≤ 5 →
    (∀ row ∈ Claims.vecLoadRows,
      let cs := Claims.laneAccs g x.toNat y.toNat row.2.1 .read row.2.2.2 (fun _ _ => none)
      (∀ c cause aux, Claims.FirstFault s a g b cs c cause aux → Traps (row.1 e d x y) s a g cause (BitVec.ofNat 64 c.va) aux) ∧
      (∀ ps vs u h, Claims.Checked s a g b cs ps → Claims.Reads s a g b row.2.2.1 ps vs u → u.grp a = some h → h.state ≠ .exited →
        Completes (row.1 e d x y) s u a ((Claims.acquired row.2.2.1 u.clk (modeScope g.mode)
          (Claims.putValues h g.active d.toNat row.2.1 (32 / row.2.1) vs)).moveTo (g.pc + 4))) ∧
      (∀ ps, Claims.Checked s a g b cs ps → Claims.Reached s a g row.2.2.1 ps → Claims.DataThere s a ps →
        s.entriesFree (coreOf a) (Claims.missesOf s a g row.2.2.1 ps) = false →
        Waits (row.1 e d x y) s s a g .waitMem (.entries (Claims.missesOf s a g row.2.2.1 ps).length))) ∧
    (let cs := Claims.rowAccs g x.toNat .read (fun _ => none);
      (∀ c cause aux, Claims.FirstFault s a g b cs c cause aux → Traps (.pldO e d x) s a g cause (BitVec.ofNat 64 c.va) aux) ∧
      (∀ ps vs u h, Claims.Checked s a g b cs ps → Claims.Reads s a g b false ps vs u → u.grp a = some h → h.state ≠ .exited →
        Completes (.pldO e d x) s u a ((Claims.putValues h g.active d.toNat 32 1 vs).moveTo (g.pc + 4))))

/-- Vector stores (12 R248, R251, R252): every access is checked before any is performed, the first that fails traps with its address; those
to one sector of memory go together (11 R225), in ascending order, no register changes, and a release form releases first. -/
def Sys2Proof.Claims.VectorStores : Prop :=
  ∀ (s : State) (a : Nat) (g : Group) (b : Block) (e : Bool) (d x y : BitVec 7) (i : Iss),
    s.Issues a g b → g.Clear → d.toNat < g.kregs → x.toNat < 32 → y.toNat < g.kregs → modeScope g.mode ≤ 5 → i.agent = a → i.blk = b →
    (∀ row ∈ Claims.vecStoreRows,
      let cs := Claims.laneAccs g x.toNat y.toNat row.2.1 .write row.2.2.2 (fun l k => some (elem (g.vlane d.toNat l) (8 * row.2.1) k))
      (∀ c cause aux, Claims.FirstFault s a g b cs c cause aux → Traps (row.1 e d x y) s a g cause (BitVec.ofNat 64 c.va) aux) ∧
      (∀ ps h, row.2.2.1 = false → Claims.Checked s a g b cs ps → (s.storeSectors i ps).grp a = some h → h.state ≠ .exited →
        Completes (row.1 e d x y) s (s.storeSectors i ps) a (h.moveTo (g.pc + 4))) ∧
      (∀ ps qs u h, row.2.2.1 = true → Claims.Checked s a g b cs ps → s.release (coreOf a) a (modeScope g.mode) = (u, true) →
        Claims.Checked u a g b cs qs → (u.storeSectors i qs).grp a = some h → h.state ≠ .exited →
        Completes (row.1 e d x y) s (u.storeSectors i qs) a (h.moveTo (g.pc + 4)))) ∧
    (let cs := Claims.rowAccs g x.toNat .write (fun l => some (g.vlane d.toNat l));
      (∀ c cause aux, Claims.FirstFault s a g b cs c cause aux → Traps (.pstO e d x) s a g cause (BitVec.ofNat 64 c.va) aux) ∧
      (∀ ps h, Claims.Checked s a g b cs ps → (s.storeSectors i ps).grp a = some h → h.state ≠ .exited →
        Completes (.pstO e d x) s (s.storeSectors i ps) a (h.moveTo (g.pc + 4))))

/-- The loads and stores of vectors (12 R251, R252).
Forms that this statement says complete (the answer of `exec` is a next state with their effect): `vldW`, `vldD`, `vldQ`, `vldO`, `vstW`, `vstD`,
`vstQ`, `vstO`, `vldsW`, `vldsD`, `vldsQ`, `vldsO`, `vstsW`, `vstsD`, `vstsQ`, `vstsO`, `vldOAcq`, `vstORel`, `vldQAcq`, `vstQRel`, `pldO`, `pstO`. -/
def Obligations.VectorMemory : Prop :=
  Claims.VectorLoads ∧ Claims.VectorStores

namespace Sys2Proof.Claims

/-- Blocks of an MX line, bytes of a block, blocks of a lane (02 R42). -/
def mxShape (et : Nat) : Nat × Nat × Nat := if et = 8 then (15, 16, 2) else if et = 6 ∨ et = 7 then (10, 24, 1) else (7, 32, 1)

/-- The line that lane l names, and its first block there (12 R253). -/
def mxLine (g : Group) (x y l : Nat) : Nat × Nat :=
  (offsetFrom g x (sgOf 64 (g.vlane y l % 2 ^ 64)), g.vlane y l / 2 ^ 64 % 256)

/-- The accesses of lane l of an MX word: for each block its scale byte, then its payload, from register d where it stores. -/
def mxAccs (g : Group) (d x y : Nat) (scr store : Bool) (l : Nat) : List Acc :=
  let at' := mxLine g x y l
  let z := (mxShape (modeEt g.mode)).2.1
  let kind := if store then .write else .read
  ((List.range (mxShape (modeEt g.mode)).2.2).map fun t =>
    [(⟨at'.1 + (at'.2 + t), 1, kind, l, 2 * t, false, scr, false, if store then some (elem (g.klane d l) 8 t) else none, 0⟩ : Acc),
     ⟨at'.1 + 16 + (at'.2 + t) * z, z, kind, l, 2 * t + 1, false, scr, false,
      if store then some (g.vlane d l / 2 ^ (8 * z * t) % 2 ^ (8 * z)) else none, 0⟩]).flatten

/-- A lane of an MX word that R253 admits: its line is aligned and holds its blocks. -/
def mxGood (g : Group) (x y l : Nat) : Prop :=
  (mxLine g x y l).1 % 256 = 0 ∧ (mxLine g x y l).2 + (mxShape (modeEt g.mode)).2.2 ≤ (mxShape (modeEt g.mode)).1

/-- The payloads and the scale bytes of the active lanes from the values read. -/
def putBlocks (h : Group) (active : BitVec 8) (et d : Nat) (vs : List Nat) : Group :=
  let n := 2 * (mxShape et).2.2
  ((lanesOf active).zip (List.range 8)).foldl (fun k q =>
    let v := fun j => if j < n then vs.getD (q.2 * n + j) 0 else 0
    (k.setV d q.1 (v 1 + v 3 * 2 ^ (8 * (mxShape et).2.1))).setK d q.1 (v 0 + v 2 * 256)) h

/-- The stores of MX lines (12 R253): each scale byte an access of its own, and then the payloads, those in one sector of memory made one (11
R225). -/
def mxWrites (s : State) (i : Iss) (b : Block) (ps : List (Acc × Place)) : State :=
  ((ps.filter fun q => q.1.n == 1).foldl (fun t q => writeAt t i.agent b q.1.va q.1.n (q.1.data.getD 0) q.2) s).storeSectors i
    (ps.filter fun q => q.1.n != 1)

/-- A sector brought into L1 ahead of use (12 R254), with a walk begun where the die's TLBs do not hold its leaf: nothing where its address
fails its checks. -/
def prefetched (s : State) (a : Nat) (g : Group) (b : Block) (va : Nat) : State :=
  let fill := fun (s : State) pa => if s.isMemory pa then s.l1Ensure (coreOf a) g.acqClk (pa / 64) else s
  match s.translate (coreOf a) b.ctx va .read g.trapMode with
  | .ok pa => fill s pa
  | .miss pa =>
    if s.missRoom (dieOf (coreOf a)) b.ctx [va] then
      fill (s.addMiss (dieOf (coreOf a)) b.ctx va Config.agents (coreOf a) .read) pa
    else s
  | _ => s

end Sys2Proof.Claims

/-- MX lines (12 R253): `vldmx` and `pldmx` read the blocks that each active lane names, and their scale bytes, `vstmx` and `pstmx` store
them, the payloads in one sector as one store (11 R225); a line address that is no multiple of 256 raises MISALIGN, blocks that the line does not hold raise
ILLEGAL_OPERAND, as does a type that is no MX type; `vprefetch` (R254) changes no register and never traps.
Forms that this statement says complete (the answer of `exec` is a next state with their effect): `vldmx`, `vstmx`, `pldmx`, `pstmx`, `vprefetch`. -/
def Obligations.MxLinesAndPrefetch : Prop :=
  ∀ (s : State) (a : Nat) (g : Group) (b : Block) (e : Bool) (d x y : BitVec 7),
    s.Issues a g b → g.Clear → d.toNat < g.kregs → x.toNat < 32 → y.toNat < g.kregs → modeScope g.mode ≤ 5 →
    (∀ scr, (∀ l ∈ lanesOf g.active, Claims.mxGood g x.toNat y.toNat l) → isMx (modeEt g.mode) = true →
      (∀ ps vs u h, Claims.Checked s a g b ((lanesOf g.active).map (Claims.mxAccs g d.toNat x.toNat y.toNat scr false)).flatten ps →
        Claims.Reads s a g b false ps vs u → u.grp a = some h → h.state ≠ .exited →
        Completes (if scr then .pldmx e d x y else .vldmx e d x y) s u a
          ((Claims.putBlocks h g.active (modeEt g.mode) d.toNat vs).moveTo (g.pc + 4))) ∧
      (∀ (ps : List (Acc × Place)) (h : Group) (i : Iss), i.agent = a → i.blk = b →
        Claims.Checked s a g b ((lanesOf g.active).map (Claims.mxAccs g d.toNat x.toNat y.toNat scr true)).flatten ps →
        (Claims.mxWrites s i b ps).grp a = some h → h.state ≠ .exited →
        Completes (if scr then .pstmx e d x y else .vstmx e d x y) s (Claims.mxWrites s i b ps) a (h.moveTo (g.pc + 4)))) ∧
    (∀ i ∈ [Instr.vldmx e d x y, .pldmx e d x y, .vstmx e d x y, .pstmx e d x y],
      (isMx (modeEt g.mode) = false → Traps i s a g cIllegalOperand 0 0) ∧
      (∀ l ls, isMx (modeEt g.mode) = true → lanesOf g.active = l :: ls →
        ((Claims.mxLine g x.toNat y.toNat l).1 % 256 ≠ 0 → Traps i s a g cMisalign (BitVec.ofNat 64 (Claims.mxLine g x.toNat y.toNat l).1) 0) ∧
        ((Claims.mxLine g x.toNat y.toNat l).1 % 256 = 0 → ¬ Claims.mxGood g x.toNat y.toNat l → Traps i s a g cIllegalOperand 0 0))) ∧
    (∀ u h, u = (lanesOf g.active).foldl (fun t l => Claims.prefetched t a g b (Claims.mxLine g x.toNat y.toNat l).1) s → u.grp a = some h →
      h.state ≠ .exited → Completes (.vprefetch e x y) s u a (h.moveTo (g.pc + 4)))

namespace Sys2Proof.Claims

/-- The accesses of a vector atomic or reduction store (12 R256, R258): one of z bytes for each element, with offsets of 32 bits for types
up to 32 bits and of 64 bits above, in the span from `vB`; an atomic whose address has bit 63 set goes to a scratchpad (R257). -/
def elementAccs (g : Group) (x y z : Nat) (atomic : Bool) (data cmp : Nat → Nat → Nat) : List Acc :=
  let et := modeEt g.mode
  let o := if etBits et ≤ 32 then 32 else 64
  ((lanesOf g.active).map fun l => (List.range (etCount et)).map fun k =>
    let va := offsetFrom g x (sgOf o (elem (g.vlane (y + o * k / 256) l) o (o * k % 256 / o)))
    (⟨va, z, if atomic then .rw else .write, l, k, true, atomic && decide (2 ^ 63 ≤ va), false, some (data l k), cmp l k⟩ : Acc)).flatten

/-- One atomic at a place in memory or in a scratchpad: the old value, and the state after it. -/
def atomicAt (s : State) (a : Nat) (g : Group) (b : Block) (op : AtomOp) (q : Acc × Place) : Nat × State :=
  let v := q.1.data.getD 0
  match q.2 with
  | .mem pa => s.memAtomic (coreOf a) a b.ctx g.acqClk (modeScope g.mode) op (modeEt g.mode) q.1.va pa q.1.n v q.1.cmp
  | .scr core off =>
    let old := s.scrRead core off q.1.n
    (old, match op.apply (modeEt g.mode) q.1.n old v q.1.cmp with
      | none => s
      | some w => s.scrWrite core off q.1.n w)
  | _ => (0, s)

/-- Atomics in order (11 R243): the old values, and the state after them. -/
def atomicsAt (s : State) (a : Nat) (g : Group) (b : Block) (op : AtomOp) : List (Acc × Place) → List Nat × State
  | [] => ([], s)
  | q :: qs =>
    let r := atomicAt s a g b op q
    let t := atomicsAt r.2 a g b op qs
    (r.1 :: t.1, t.2)

/-- A reduction store at a place in memory (11 R244, 12 R258): from die scope on, and for exact cells, a read-modify-write on its way to the
home; below, an atomic whose old value is dropped. A host window takes every scope for system scope (19 R378). -/
def reduceAt (s : State) (a : Nat) (g : Group) (b : Block) (op : AtomOp) (c : Acc) (pa : Nat) : State :=
  if 3 ≤ atomScope pa (modeScope g.mode) ∨ op = .cell then s.memStore (coreOf a) a b.ctx c.va pa c.n (c.data.getD 0) (some (op, modeEt g.mode)) 0
  else (s.memAtomic (coreOf a) a b.ctx g.acqClk (modeScope g.mode) op (modeEt g.mode) c.va pa c.n (c.data.getD 0) 0).2

/-- The vector atomics: the operation, whether it takes floats and integers. -/
noncomputable def vecAtomRows : List ((Bool → BitVec 7 → BitVec 7 → BitVec 7 → Instr) × AtomOp × Bool × Bool) :=
  [(.vatomAdd, .add, false, true), (.vatomMin, .min, false, true), (.vatomMax, .max, false, true), (.vatomExch, .exch, true, true),
   (.vatomCas, .cas, true, true), (.vatomFadd, .fadd, true, false)]

/-- The reduction stores of elements. -/
noncomputable def reduceRows : List ((Bool → BitVec 7 → BitVec 7 → BitVec 7 → Instr) × AtomOp × Bool × Bool) :=
  [(.redstAdd, .add, false, true), (.redstMin, .min, false, true), (.redstMax, .max, false, true), (.redstFadd, .fadd, true, false)]

/-- A group's agent waits for nothing from a host or peer, and every place of a list can be reached and holds no poison. -/
def Ready (s : State) (a : Nat) (ps : List (Acc × Place)) : Prop :=
  (∀ r ∈ s.extReqs, r.agent ≠ a) ∧ (∀ q ∈ ps, s.inReach (coreOf a) q.2.addr = true) ∧
  ∀ q ∈ ps, (∃ pa, q.2 = .mem pa ∧ s.poisoned pa q.1.n = false) ∨ ∃ core off, q.2 = .scr core off ∧ s.scrPoisoned core off q.1.n = false

end Sys2Proof.Claims

/-- Vector atomics and reduction stores (12 R256, R258, 11 R243, R244): each element of the active lanes is one read-modify-write, in lane and
element order; an atomic writes the old values to `vD` (`vatom.cas` compares with `vD` and stores `vD+1`), a reduction store writes no
register; `redst.x` adds each element to the 32-byte exact cell at its address. A type that is not accepted raises ILLEGAL_OPERAND.
Forms that this statement says complete (the answer of `exec` is a next state with their effect): `vatomAdd`, `vatomMin`, `vatomMax`, `vatomExch`,
`vatomCas`, `vatomFadd`, `redstAdd`, `redstMin`, `redstMax`, `redstFadd`, `redstX`. -/
def Obligations.VectorAtomics : Prop :=
  ∀ (s : State) (a : Nat) (g : Group) (b : Block) (e : Bool) (d x y : BitVec 7),
    s.Issues a g b → g.Clear → d.toNat < g.kregs → x.toNat < 32 → y.toNat < g.kregs → modeScope g.mode ≤ 5 →
    let et := modeEt g.mode
    let n := etBits et / 8
    let own := fun (r l k : Nat) => elem (g.vlane r l) (etBits et) k
    (∀ row ∈ Claims.vecAtomRows, (row.2.1 = .cas → d.toNat + 2 ≤ g.kregs) →
      let cs := if row.2.1 = .cas then Claims.elementAccs g x.toNat y.toNat n true (own (d.toNat + 1)) (own d.toNat)
        else Claims.elementAccs g x.toNat y.toNat n true (own d.toNat) (fun _ _ => 0)
      (¬ Claims.atomTypes row.2.2.1 row.2.2.2 et → Traps (row.1 e d x y) s a g cIllegalOperand 0 0) ∧
      (∀ ps h, Claims.atomTypes row.2.2.1 row.2.2.2 et → g.going = [] → Claims.Checked s a g b cs ps → Claims.Ready s a ps →
        let r := Claims.atomicsAt s a g b row.2.1 ps
        r.2.grp a = some h → h.state ≠ .exited →
        Completes (row.1 e d x y) s r.2 a ((Claims.putValues h g.active d.toNat n (etCount et) r.1).moveTo (g.pc + 4)))) ∧
    (∀ row ∈ Claims.reduceRows,
      let cs := Claims.elementAccs g x.toNat y.toNat n false (own d.toNat) (fun _ _ => 0)
      (¬ Claims.atomTypes row.2.2.1 row.2.2.2 et → Traps (row.1 e d x y) s a g cIllegalOperand 0 0) ∧
      (∀ (ps : List (Acc × Nat)) (h : Group), Claims.atomTypes row.2.2.1 row.2.2.2 et → Claims.Checked s a g b cs (ps.map fun q => (q.1, .mem q.2)) →
        (modeScope g.mode < 3 → ∀ q ∈ ps, s.inReach (coreOf a) q.2 = true) →
        let u := ps.foldl (fun t q => Claims.reduceAt t a g b row.2.1 q.1 q.2) s
        u.grp a = some h → h.state ≠ .exited → Completes (row.1 e d x y) s u a (h.moveTo (g.pc + 4)))) ∧
    (∀ (ps : List (Acc × Nat)) (h : Group), et ∈ [9, 11, 12] → y.toNat + (if et = 9 then 2 else 1) ≤ g.kregs →
      Claims.Checked s a g b (Claims.elementAccs g x.toNat y.toNat 32 false (own d.toNat) fun _ _ => 0) (ps.map fun q => (q.1, .mem q.2)) →
      let u := ps.foldl (fun t q => Claims.reduceAt t a g b .cell q.1 q.2) s
      u.grp a = some h → h.state ≠ .exited → Completes (.redstX e d x y) s u a (h.moveTo (g.pc + 4)))

/-! ### Accumulator tiles (14 R280 to R295) -/

namespace Sys2Proof.Claims

/-- The array of the issuing core has room (14 R289), and the group fewer than 64 variable-latency results outstanding (08 R155). -/
def arrayRoom (s : State) (a : Nat) (g : Group) : Prop :=
  (s.core (coreOf a)).accQ.length < Config.accQueue ∧ g.vreds.length + (s.core (coreOf a)).ownCount a < Config.groupResults

/-- The state after the array has accepted work on a tile. -/
def accepted (s : State) (a cls first : Nat) (w : AccWork) : State :=
  s.updCore (coreOf a) fun c => { c with accQ := c.accQ ++ [⟨a, cls, first, w⟩] }

/-- The tile that an instruction writes through handle f for a class, 0 for none (14 R283, R284): the bound one, or a new one of the block
within its quota, to which the handle is then bound. -/
def TileFor (s : State) (a : Nat) (g : Group) (b : Block) (f cls : Nat) (u : State) (h : Group) (k first : Nat) : Prop :=
  (bindClass (g.hreg f) ≠ 0 ∧ (cls = 0 ∨ cls = bindClass (g.hreg f)) ∧ k = bindClass (g.hreg f) ∧ first = bindFirst (g.hreg f) ∧ u = s ∧ h = g) ∨
  (bindClass (g.hreg f) = 0 ∧ cls ≠ 0 ∧ (s.core (coreOf a)).heldSlots g.block + classSlots cls ≤ b.desc.acc ∧ k = cls ∧
    h = g.setH f (bindingWord cls first) ∧ ∃ c, (s.core (coreOf a)).createTile g.block cls = some (first, c) ∧ u = s.setCore (coreOf a) c)

/-- The traps of such an instruction (14 R284): a class that is not the bound tile's, no tile and no class, a tile over the quota. -/
def TileTraps (s : State) (a : Nat) (g : Group) (b : Block) (f cls : Nat) (i : Instr) : Prop :=
  (bindClass (g.hreg f) ≠ 0 → cls ≠ 0 → cls ≠ bindClass (g.hreg f) → Traps i s a g cShapeMismatch 0 ((g.hreg f).zeroExtend 64)) ∧
  (bindClass (g.hreg f) = 0 → cls = 0 → Traps i s a g cAccUnallocated 0 0) ∧
  (bindClass (g.hreg f) = 0 → cls ≠ 0 → b.desc.acc < (s.core (coreOf a)).heldSlots g.block + classSlots cls →
    Traps i s a g cAccQuota 0 (BitVec.ofNat 64 ((s.core (coreOf a)).heldSlots g.block + b.desc.acc * 2 ^ 8)))

/-- An element of a class: its index word has no other bit (14 R294). -/
def elementOf (x : BitVec 64) (cls i j : Nat) : Prop := x.toNat = i + 256 * j ∧ i < classRows cls ∧ j < classCols cls ∧ i < 128

/-- A strip inside a class (14 R292). -/
def stripIn (cls g h : Nat) : Prop := 8 * g + 8 ≤ classRows cls ∧ 64 * h + 64 ≤ classCols cls

/-- Shapes of `mma` by code (14 R286): rows, columns, K over the smaller operand's elements of a register, class. -/
def mmaShapes : List (Nat × Nat × Nat × Nat) :=
  [(32, 32, 1, 1), (64, 64, 1, 1), (64, 64, 2, 1), (64, 64, 4, 1), (128, 64, 1, 2), (64, 128, 1, 3), (128, 128, 1, 4), (128, 128, 2, 4)]

end Sys2Proof.Claims

/-- Words that give the array its work (14 R285, R289, R291, R292, R294): `azero`, `ald` and `apatch` on a tile with room in the array are
accepted with what they read at their issue and write no register but a handle of a new tile; a class that does not fit, a missing tile and
a quota raise their causes; `apatch` never creates a tile. -/
def Sys2Proof.Claims.TileWrites : Prop :=
  ∀ (s : State) (a : Nat) (g : Group) (b : Block) (e : Bool) (d x y : BitVec 7), s.Issues a g b → g.Clear → d.toNat < 16 →
    (∀ cls, x.toNat < 32 → (g.sreg x.toNat).toNat = cls → cls < 5 → Claims.TileTraps s a g b d.toNat cls (.azero e d x) ∧
      ∀ u h k first, Claims.arrayRoom s a g → Claims.TileFor s a g b d.toNat cls u h k first →
        Completes (.azero e d x) s (Claims.accepted u a k first .azero) a (h.moveTo (g.pc + 4))) ∧
    (x.toNat < 32 → 5 ≤ (g.sreg x.toNat).toNat → Traps (.azero e d x) s a g cIllegalOperand 0 0) ∧
    (∀ row half cls, y.toNat < 32 → x.toNat + 8 ≤ g.kregs → row < 16 → half < 2 → cls < 5 → (g.sreg y.toNat).toNat = row + 16 * half + 32 * cls →
      ∀ u h k first, Claims.arrayRoom s a g → Claims.TileFor s a g b d.toNat cls u h k first →
        let vals := (List.range 8).map fun l => ((List.range 8).map fun c => (List.range 8).map fun t => elem (g.vlane (x.toNat + c) l) 32 t).flatten
        (Claims.stripIn k row half → Completes (.ald e d x y) s (Claims.accepted u a k first (.ald (8 * row) (64 * half) vals)) a (h.moveTo (g.pc + 4))) ∧
        (¬ Claims.stripIn k row half → Traps (.ald e d x y) s a g cIllegalOperand 0 0)) ∧
    (∀ i j, g.trapMode = true → x.toNat < 32 → y.toNat < 32 → bindClass (g.hreg d.toNat) ≠ 0 → Claims.arrayRoom s a g →
      Claims.elementOf (g.sreg x.toNat) (bindClass (g.hreg d.toNat)) i j → (g.sreg y.toNat).toNat < 2 ^ 32 →
      Completes (.apatch e d x y) s (Claims.accepted s a (bindClass (g.hreg d.toNat)) (bindFirst (g.hreg d.toNat))
        (.apatch i j (g.sreg y.toNat).toNat)) a (g.moveTo (g.pc + 4))) ∧
    (g.trapMode = true → x.toNat < 32 → y.toNat < 32 → bindClass (g.hreg d.toNat) = 0 → Traps (.apatch e d x y) s a g cAccUnallocated 0 0)

/-- `mma` (14 R286 to R288): with operand spans below the register count, two operands of BF16 or FP16 of one type or two MX operands, and
room in the array, the product of the rows read at its issue is accepted for a tile of the shape's class, under NBV; else its causes.
Forms that this statement says complete (the answer of `exec` is a next state with their effect): `mma`. -/
def Obligations.MatrixProducts : Prop :=
  ∀ (s : State) (a : Nat) (g : Group) (b : Block) (e z n : Bool) (sh : BitVec 3) (f : BitVec 4) (x y : BitVec 7),
    s.Issues a g b → g.Clear → x.toNat < g.kregs → y.toNat < g.kregs → modeTa g.mode ≤ 6 → modeTb g.mode ≤ 6 →
    ∀ rows cols k cls, Claims.mmaShapes[sh.toNat]? = some (rows, cols, k, cls) →
    let ta := taType (modeTa g.mode)
    let tb := taType (modeTb g.mode)
    let depth := k * min (kpr ta) (kpr tb)
    let spanA := rows / 8 * ((depth + kpr ta - 1) / kpr ta)
    let spanB := cols / 8 * ((depth + kpr tb - 1) / kpr tb)
    ((ta = 9 ∨ ta = 10 ∨ tb = 9 ∨ tb = 10) → ta ≠ tb → Traps (.mma e sh f z n x y) s a g cIllegalOperand 0 0) ∧
    ((ta = tb ∨ (isMx ta = true ∧ isMx tb = true)) → (g.kregs < x.toNat + spanA ∨ g.kregs < y.toNat + spanB) →
      Traps (.mma e sh f z n x y) s a g cIllegalOperand 0 0) ∧
    ((ta = tb ∨ (isMx ta = true ∧ isMx tb = true)) → x.toNat + spanA ≤ g.kregs → y.toNat + spanB ≤ g.kregs →
      Claims.TileTraps s a g b f.toNat cls (.mma e sh f z n x y) ∧
      ∀ u h c first, Claims.arrayRoom s a g → Claims.TileFor s a g b f.toNat cls u h c first →
        Completes (.mma e sh f z n x y) s
          (Claims.accepted u a c first (.mma rows cols z n (s.ctx b.ctx).nbv ((List.range rows).map (g.fragment x.toNat ta depth))
            ((List.range cols).map (g.fragment y.toNat tb depth)))) a (h.moveTo (g.pc + 4)))

/-- Words that read or give up a tile (14 R285, R289, R290, R292 to R295): with room in the array and no write of the group on the tile
left, `aget` of one element, `ast` of a strip, `rqnt` and `rqntt` of rows and columns with their factor and clip are accepted, take a place
of the array's queue and write no register yet (`ArrayWork` says what they write as they complete); with such a write left, or no place,
they wait. `arel` unbinds the handle, and `ahnd` reads, binds and unbinds it. -/
def Sys2Proof.Claims.TileReads : Prop :=
  ∀ (s : State) (a : Nat) (g : Group) (b : Block) (e : Bool) (d x y : BitVec 7), s.Issues a g b → g.Clear → x.toNat < 16 → y.toNat < 32 →
    let c := s.core (coreOf a)
    let cls := bindClass (g.hreg x.toNat)
    let first := bindFirst (g.hreg x.toNat)
    let sb := g.sreg y.toNat
    let u := Claims.accepted s a cls first
    let free := c.ownWrites a first = false ∧ Claims.arrayRoom s a g
    (∀ i j, d.toNat < 32 → cls ≠ 0 → Claims.elementOf sb cls i j →
      (free → Completes (.aget e d x y) s (u (.aget i j d.toNat)) a (g.moveTo (g.pc + 4))) ∧
      (c.ownWrites a first = true → Waits (.aget e d x y) s s a g .waitMem (.tileWritten first)) ∧
      (c.ownWrites a first = false → Config.accQueue ≤ c.accQ.length → Waits (.aget e d x y) s s a g .waitMem .arrayRoom)) ∧
    (d.toNat < 32 → cls = 0 → Traps (.aget e d x y) s a g cAccUnallocated 0 0) ∧
    (∀ row half, d.toNat + 8 ≤ g.kregs → cls ≠ 0 → row < 16 → half < 2 → sb.toNat = row + 16 * half → Claims.stripIn cls row half → free →
      Completes (.ast e d x y) s (u (.ast (8 * row) (64 * half) d.toNat)) a (g.moveTo (g.pc + 4))) ∧
    (∀ cols lanes nb, d.toNat < g.kregs → cls ≠ 0 → isMx (modeEt2 g.mode) = true → sb.toNat / 2 ^ 54 = 0 → lanes = bitsOf sb 51 48 →
      nb = bitsOf sb 53 52 + 1 → free →
      let clip := Fmt.decode .bf16 (bitsOf sb 47 32)
      let scale := Fmt.decode .fp32 (bitsOf sb 31 0)
      let per := if modeEt2 g.mode = 8 then 2 else 1
      let regs := (nb + per - 1) / per
      clip.isNan = false → (clip.neg? = false ∨ clip.isZero = true) → d.toNat + regs ≤ g.kregs →
      8 * lanes + 8 ≤ (if cols then classCols cls else classRows cls) → 32 * nb ≤ (if cols then classRows cls else classCols cls) →
      Completes (if cols then .rqntt e d x y else .rqnt e d x y) s
        (u (.requant cols (modeEt2 g.mode) scale clip (8 * lanes) nb d.toNat)) a (g.moveTo (g.pc + 4))) ∧
    (cls = 0 → Writes (.arel e x) s a g) ∧
    (cls ≠ 0 → c.ownWork a first = false →
      Completes (.arel e x) s (s.updCore (coreOf a) fun k => k.unbind first) a ((g.setH x.toNat 0).moveTo (g.pc + 4))) ∧
    (cls ≠ 0 → c.ownWork a first = true → Waits (.arel e x) s s a g .waitMem (.tileIdle first)) ∧
    (d.toNat < 32 → sb = BitVec.allOnes 64 → Writes (.ahnd e d x y) s a (g.setS d.toNat ((g.hreg x.toNat).zeroExtend 64))) ∧
    (d.toNat < 32 → sb = 0 → cls ≠ 0 → c.ownWork a first = false →
      Completes (.ahnd e d x y) s (s.updCore (coreOf a) fun k => k.unbind first) a
        (((g.setH x.toNat 0).setS d.toNat ((g.hreg x.toNat).zeroExtend 64)).moveTo (g.pc + 4))) ∧
    (∀ w : BitVec 16, d.toNat < 32 → cls = 0 → bindClass w ≠ 0 → sb = w.zeroExtend 64 → w.toNat < 256 → c.tileNamed g.block w = true →
      Completes (.ahnd e d x y) s (s.updCore (coreOf a) fun k => k.setBinds (bindFirst w) ((vget k.slots (bindFirst w) AccSlot.reset).binds + 1)) a
        (((g.setH x.toNat w).setS d.toNat ((g.hreg x.toNat).zeroExtend 64)).moveTo (g.pc + 4))) ∧
    (∀ w : BitVec 16, d.toNat < 32 → bindClass w ≠ 0 → sb = w.zeroExtend 64 → w.toNat < 256 → c.tileNamed g.block w = false →
      Traps (.ahnd e d x y) s a g cIllegalOperand 0 0)

/-- A word that names a register which an accepted accumulator word of its group is still to write splits its run before it and waits
(14 R285, 03 R64): the scalar words of registers, of a scalar that `aget` writes, and `vadd`, of the vector registers that `ast`, `rqnt` or `rqntt`
writes. -/
def Sys2Proof.Claims.ResultsAreAwaited : Prop :=
  ∀ (s : State) (a : Nat) (g : Group) (b : Block) (e : Bool) (d x y : BitVec 7) (r n : Nat),
    s.issue.head? = some a → s.grp a = some g → s.blk g.block = some b → g.state ≠ .exited → g.Clear →
    (∀ row ∈ Claims.scalarRows, d.toNat < 32 → x.toNat < 32 → y.toNat < 32 → (RegKind.scalar, r, 1) ∈ (s.core (coreOf a)).resultsDue a →
      r ∈ [d.toNat, x.toNat] → Waits (row.1 e d x y) s s a g .waitMem .results) ∧
    (modeEt g.mode ≤ 3 → d.toNat < g.kregs → x.toNat < g.kregs → y.toNat < g.kregs → (RegKind.vector, r, n) ∈ (s.core (coreOf a)).resultsDue a →
      (∃ k ∈ [d.toNat, x.toNat, y.toNat], r ≤ k ∧ k < r + n) → Waits (.vadd e d x y) s s a g .waitMem .results)

/-- The words that write tiles and read them (14 R284 to R295). That a word which names a register still to be written waits at a split point,
where the spec holds its scoreboard, is the model's reading (log 20).
Forms that this statement says complete (the answer of `exec` is a next state with their effect): `arel`, `rqnt`, `rqntt`, `ald`, `ast`, `azero`,
`apatch`, `aget`, `ahnd`. -/
def Obligations.TileMoves : Prop :=
  Claims.TileWrites ∧ Claims.TileReads ∧ Claims.ResultsAreAwaited

namespace Sys2Proof.Claims

/-- A value as a signed number of units of 2^e0; no finite exponent lies below e0. -/
def units (e0 : Int) : XVal → Int
  | .fin n m e _ => if n then -((m * 2 ^ (e - e0).toNat : Nat) : Int) else ((m * 2 ^ (e - e0).toNat : Nat) : Int)
  | _ => 0

/-- A list of finite values, none with an exponent below e0. -/
def finiteFrom (e0 : Int) (xs : List XVal) : Prop := ∀ x ∈ xs, ∃ n m e, x = .fin n m e false ∧ e0 ≤ e

/-- A value is v · 2^e0, v nonzero. -/
def isReal (x : XVal) (v e0 : Int) : Prop :=
  ∃ m e, x = .fin (decide (v < 0)) m e false ∧ magLe m e v.natAbs e0 = true ∧ magLe v.natAbs e0 m e = true

/-- round32 of 02 R60. -/
def toFp32 (x : XVal) : Nat := (round .fp32 0 false false 0 x).1

end Sys2Proof.Claims

/-- The products, exact sums and additions of `mma` (02 R59, R60): NaN where an operand is one, for a zero times an infinity and for infinities
of both signs; an infinity where there are infinities of one sign; else the exact product or sum, an exact zero sum of products being +0; the
sum of two zeros of one sign keeps it. -/
def Sys2Proof.Claims.ExactSums : Prop :=
  (∀ (x : XVal) (n k : Bool) (m m' : Nat) (e e' : Int), (mulX .nan x).1 = .nan ∧ (mulX x .nan).1 = .nan ∧
    (mulX (.inf n) (.inf k)).1 = .inf (n != k) ∧
    (mulX (.inf n) (.fin k m e false)).1 = (if m = 0 then .nan else .inf (n != k)) ∧
    (mulX (.fin k m e false) (.inf n)).1 = (if m = 0 then .nan else .inf (n != k)) ∧
    (mulX (.fin n m e false) (.fin k m' e' false)).1 = .fin (n != k) (m * m') (e + e') false) ∧
  (∀ (xs : List XVal) (e0 : Int) (n : Bool),
    (.nan ∈ xs → (sumX xs).1 = .nan) ∧ (.inf false ∈ xs → .inf true ∈ xs → (sumX xs).1 = .nan) ∧
    (.nan ∉ xs → .inf n ∈ xs → .inf (!n) ∉ xs → (sumX xs).1 = .inf n) ∧
    (Claims.finiteFrom e0 xs →
      let v := (xs.map (Claims.units e0)).sum
      (v = 0 → (sumX xs).1 = .zero false) ∧ (v ≠ 0 → Claims.isReal (sumX xs).1 v e0))) ∧
  (∀ (x y : XVal) (e0 : Int) (n : Bool), (addX 0 .nan x).1 = .nan ∧ (addX 0 x .nan).1 = .nan ∧ (addX 0 (.inf n) (.inf (!n))).1 = .nan ∧
    (addX 0 (.inf n) (.inf n)).1 = .inf n ∧ (addX 0 (.zero n) (.zero n)).1 = .zero n ∧
    (Claims.finiteFrom e0 [x] → (addX 0 (.inf n) x).1 = .inf n ∧ (addX 0 x (.inf n)).1 = .inf n) ∧
    (Claims.finiteFrom e0 [x, y] →
      let v := Claims.units e0 x + Claims.units e0 y
      (v = 0 → (addX 0 x y).1 = .zero (x.neg? && y.neg?)) ∧ (v ≠ 0 → Claims.isReal (addX 0 x y).1 v e0)))

/-- `mma_element` (02 R60): under NBV 1 each block's exact sum is rounded and added in turn; under NBV 2 the exact sum of all products is added
once; the products are cut into blocks of 32 (R59); and the example of R60. -/
def Sys2Proof.Claims.MatrixElements : Prop :=
  (∀ (acc : Nat) (p : List XVal) (ps : List (List XVal)),
    mmaElement 1 acc [] = acc ∧
    mmaElement 1 acc (p :: ps) =
      mmaElement 1 (Claims.toFp32 (addX 0 (Fmt.decode .fp32 acc) (Fmt.decode .fp32 (Claims.toFp32 (sumX p).1))).1) ps ∧
    mmaElement 2 acc ps = Claims.toFp32 (addX 0 (Fmt.decode .fp32 acc) (sumX ps.flatten).1).1) ∧
  (∀ (neg : Bool) (xs ys : List XVal) (n k : Nat), xs.length = ys.length → xs.length ≤ 32 * n → 32 * k < xs.length →
    (productBlocks neg xs ys n)[k]? =
      some (((List.zipWith (fun x y => if neg then (mulX x y).1.negate else (mulX x y).1) xs ys).drop (32 * k)).take 32)) ∧
  (∀ nbv ∈ [1, 2],
    let first := mmaElement nbv 0 [[.fin false 1 24 false, .fin false 1 0 false], [.fin false 1 0 false]]
    first = (if nbv = 1 then 0x4B800000 else 0x4B800001) ∧
    mmaElement nbv first [[.fin true 1 24 false]] = if nbv = 1 then 0 else 0x40000000)

/-- The array's oldest work (14 R285, R288, R289, R291, R292, R294): when it completes it leaves the queue; `azero` leaves every element of its
tile +0, `apatch` the one element, `ald` the strip, and `mma` every element of the product: the old value, or +0 under Z, and the products
block by block; a word that reads leaves the tile as it is. -/
def Sys2Proof.Claims.TilesWritten : Prop :=
  ∀ (c : Core) (op : AccOp), amSorted c.acc = true →
    (∀ i j v, op.work = .apatch i j v → (c.applyWork op).tileGet op.cls op.first i j = v ∧
      (c.applyWork op).slots = c.slots ∧ ∀ k, k ≠ c.tileAt op.cls op.first i j → amGet (c.applyWork op).acc k = amGet c.acc k) ∧
    (op.work = .azero → (∀ k, k / 4096 ∈ c.tileSlots op.first → amGet (c.applyWork op).acc k = none) ∧
      ∀ k, k / 4096 ∉ c.tileSlots op.first → amGet (c.applyWork op).acc k = amGet c.acc k) ∧
    ((∀ p q, p < classSlots op.cls → q < classSlots op.cls → c.partSlot op.first p = c.partSlot op.first q → p = q) →
      (∀ m n z neg nbv xs ys, op.work = .mma m n z neg nbv xs ys → m ≤ classRows op.cls → n ≤ classCols op.cls →
        ∀ i j, i < m → j < n → (c.applyWork op).tileGet op.cls op.first i j =
          mmaElement nbv (if z then 0 else c.tileGet op.cls op.first i j) (productBlocks neg (xs.getD i []) (ys.getD j []) 8)) ∧
      (∀ row col vals, op.work = .ald row col vals → row + 8 ≤ classRows op.cls → col + 64 ≤ classCols op.cls →
        ∀ i j, i < classRows op.cls → j < classCols op.cls → (c.applyWork op).tileGet op.cls op.first i j =
          if row ≤ i ∧ i < row + 8 ∧ col ≤ j ∧ j < col + 64 then (vals.getD (i - row) []).getD (j - col) 0
          else c.tileGet op.cls op.first i j)) ∧
    (op.work.writes ≠ none → c.applyWork op = c) ∧
    (∀ rest, c.accQ = op :: rest → c.accStep.accQ = rest)

/-- The registers that a word writes from its tile as it completes (14 R289, R292 to R294): `aget` the element's bits; `ast`, in lane l of register
j, the eight elements of row l from column 8 j of the strip on; `rqnt` and `rqntt`, in lane l, the blocks of 32 elements of row or column n + l
quantised (02 R57), the elements packed and their scale bytes; no other register of the group. A register that takes a poisoned element is
poisoned (22 R405). -/
def Sys2Proof.Claims.TilesRead : Prop :=
  ∀ (c : Core) (op : AccOp) (g : Group),
    let h := c.results op g
    (op.work.writes = none → h = g) ∧
    (c.accPoison = [] → ∀ r ∈ h.poison, r ∈ g.poison) ∧
    (∀ i j d, op.work = .aget i j d → h = { g with s := vset g.s d (BitVec.ofNat 64 (c.tileGet op.cls op.first i j)), poison := h.poison } ∧
      (⟨.scalar, d, 0⟩ ∈ h.poison ↔ c.tileAt op.cls op.first i j ∈ c.accPoison)) ∧
    (∀ row col d, op.work = .ast row col d → d + 8 ≤ 128 → (∃ v, h = { g with v := v, poison := h.poison }) ∧ ∀ l, l < 8 →
      (∀ j, j < 8 → h.vlane (d + j) l = ofElems 32 ((List.range 8).map fun t => c.tileGet op.cls op.first (row + l) (col + 8 * j + t))) ∧
      ∀ r, (r < d ∨ d + 8 ≤ r) → h.vlane r l = g.vlane r l) ∧
    (∀ cols et f clip n nb d, op.work = .requant cols et f clip n nb d → isMx et = true →
      let per := if et = 8 then 2 else 1
      let regs := (nb + per - 1) / per
      let at' := fun i j => Fmt.decode .fp32 (c.tileGet op.cls op.first i j)
      let xs := fun l k => (List.range 32).map fun t => if cols then at' (32 * k + t) (n + l) else at' (n + l) (32 * k + t)
      let q := fun l k => quantiseBlock (etFmt et) f clip (xs l k)
      d + regs ≤ 128 → (∃ v k, h = { g with v := v, k := k, poison := h.poison }) ∧ ∀ l, l < 8 →
        (∀ r, r < regs → ∀ u, u < per →
          (∀ t, t < 32 → elem (h.vlane (d + r) l) (etBits et) (32 * u + t) =
            if r * per + u < nb then ((q l (r * per + u)).2.getD t 0) % 2 ^ etBits et else 0) ∧
          elem (h.klane (d + r) l) 8 u = if r * per + u < nb then (q l (r * per + u)).1 % 256 else 0) ∧
        ∀ r, (r < d ∨ d + regs ≤ r) → h.vlane r l = g.vlane r l ∧ h.klane r l = g.klane r l)

/-- The matrix array completes its oldest word (14 R289): its group takes the registers that the word writes, every other group is kept, and
the tile takes its change. -/
def Sys2Proof.Claims.WorkCompletes : Prop :=
  ∀ (s : State) (core : Nat) (op : AccOp) (rest : List AccOp) (g : Group), (s.core core).accQ = op :: rest → s.grp op.agent = some g →
    (s.accStep core).grp op.agent = some ((s.core core).results op g) ∧ (∀ k, k ≠ op.agent → (s.accStep core).grp k = s.grp k) ∧
    (s.accStep core).core core = (s.core core).accStep ∧ (s.accStep core).mem = s.mem

/-- The matrix array of a core (14 R285, R288, R289, R291 to R294, 02 R59, R60): what its oldest word does to its tile and to the registers of its
group, and the arithmetic of `mma`. -/
def Obligations.ArrayWork : Prop :=
  Claims.ExactSums ∧ Claims.MatrixElements ∧ Claims.TilesWritten ∧ Claims.TilesRead ∧ Claims.WorkCompletes

/-! ### Capsules (17 R326 to R341) -/

namespace Sys2Proof.Claims

/-- A checked object or line of n bytes in the HBM or second-tier windows of this module (16 R305, 17 R336), which no watchpoint takes. -/
def ObjectAt (s : State) (a : Nat) (g : Group) (b : Block) (va n : Nat) (kind : Access) (pa : Nat) : Prop :=
  s.checkAcc a g b ⟨va, n, kind, 0, 0, true, false, false, none, 0⟩ = .ok (.mem pa) ∧ s.isHbmOrSecond pa = true

/-- As `ObjectAt`, with its home in reach (19 R362) and no sector of it poisoned (22 R406). -/
def CleanObjectAt (s : State) (a : Nat) (g : Group) (b : Block) (va n : Nat) (kind : Access) (pa : Nat) : Prop :=
  ObjectAt s a g b va n kind pa ∧ s.inReach (coreOf a) pa = true ∧ s.poisoned pa n = false

/-- The state in which a line's home slice performs a group's operation: the group's earlier writes and markings have come first. -/
def atLine (s : State) (a : Nat) : State := (s.drainCore (coreOf a)).drainMarks a

/-- A trap with a state in which part of the word has taken place, its core's counters put back. -/
def TrapsFrom (i : Instr) (s u : State) (a : Nat) (g : Group) (cause : Nat) (addr aux : BitVec 64) : Prop :=
  exec i s = .next ((u.uncount s (coreOf a)).takeTrap a cause addr aux g.wordPc g.onB)

/-- The commits, markings and re-entries of the clock have come, so that a line takes the requests of the clock (17 R336). -/
def lineTakes (s : State) (a : Nat) : Prop :=
  a ∈ s.putOff ∨ ((∀ k ∈ s.issue, k = a ∨ s.unused k = false) ∧ s.markings = [] ∧ (∀ k ∈ s.groups, k.2.cap.reenter = false) ∧
    ∀ i ∈ s.regWrites ++ s.agenda, resumes i = false)

/-- A group after an acquire of cluster scope or wider at a clock (11 R232). -/
def afterAcquire (h : Group) (clk : BitVec 64) : Group := { h with acqClk := clk.toNat }

end Sys2Proof.Claims

/-- The capsule words (17 R336 to R338, R341). `capb`: a free line is taken, the sequence number goes to `sD` and a step begins; a parked one is
adopted, with the checkpoint in `s16` to `s31` and the path at ENTRY; a busy one is waited for; a second capsule, another context's line and a
malformed line trap. `caps` and `cape` commit the step's stores, and wait for their apply; that of `cape` releases at device scope; outside
a step they raise CAPSULE_VIOLATION. `capr` reports the line. A `capb` or `capr` issued before the other events of its clock at lines have
come is put off within the clock.
Forms that this statement says complete (the answer of `exec` is a next state with their effect): `capb`, `caps`, `cape`, `capr`. -/
def Obligations.CapsuleWords : Prop :=
  (∀ (s : State) (a : Nat) (g : Group) (b : Block) (e : Bool) (d x : BitVec 7),
    s.Issues a g b → g.Clear → d.toNat < 32 → x.toNat < 32 → ¬ Claims.lineTakes s a →
    exec (.capb e d x) s = .next (s.putOffWord a) ∧ exec (.capr e d x) s = .next (s.putOffWord a)) ∧
  (∀ (s : State) (a : Nat) (g h : Group) (b : Block) (e : Bool) (d x : BitVec 7) (line : Nat),
    s.Issues a g b → g.Clear → d.toNat < 32 → x.toNat < 32 → Claims.lineTakes s a →
    let u := Claims.atLine s a
    let va := (g.sreg x.toNat).toNat
    (Claims.ObjectAt s a g b va 256 .rw line → u.inReach (coreOf a) line = false →
      Waits (.capb e d x) s (u.snoopBack (line / 256)) a g .waitMem (.home line)) ∧
    (Claims.ObjectAt s a g b va 256 .rw line → u.inReach (coreOf a) line = true → u.poisoned line 256 = false → g.cap.role ≠ 0 → Claims.TrapsFrom (.capb e d x) s u a g cCapsuleViolation 0 0) ∧
    (Claims.ObjectAt s a g b va 256 .rw line → u.inReach (coreOf a) line = true → u.poisoned line 256 = false → g.cap.role = 0 →
      let r := u.capAcquire line b.ctx a (g.pc + 4) ((List.range 16).map fun k => g.sreg (16 + k))
      r.2.grp a = some h → h.state ≠ .exited →
      (∀ seq, r.1 = .acquired seq →
        Completes (.capb e d x) s r.2 a ((((Claims.afterAcquire h r.2.clk).openCap line seq 1).setS d.toNat (BitVec.ofNat 64 seq)).moveTo (g.pc + 4))) ∧
      (∀ ckpt entry seq, r.1 = .adopt ckpt entry seq →
        let k := (Claims.afterAcquire h r.2.clk).openCap line seq 2
        Completes (.capb e d x) s r.2 a
          ((({ k with cap := { k.cap with shadow := Vector.ofFn fun n => k.sreg (16 + n.val), ownpc := g.wordPc } } : Group).setUpper ckpt).moveTo entry)) ∧
      (r.1 = .wait → Waits (.capb e d x) s (r.2.arm (.group a) line 8) a g .waitCapsule .watch) ∧
      (r.1 = .prot → Claims.TrapsFrom (.capb e d x) s r.2 a g cProtection (g.sreg x.toNat) 0) ∧
      (r.1 = .violation → Claims.TrapsFrom (.capb e d x) s r.2 a g cCapsuleViolation (g.sreg x.toNat) 0)) ∧
    (Claims.ObjectAt s a g b va 256 .read line → u.inReach (coreOf a) line = true → u.poisoned line 256 = false → u.lineMalformed line = true →
      Claims.TrapsFrom (.capr e d x) s u a g cCapsuleViolation (g.sreg x.toNat) 0) ∧
    (Claims.ObjectAt s a g b va 256 .read line → u.inReach (coreOf a) line = true → u.poisoned line 256 = false → u.lineMalformed line = false →
      let t := u.settleLine line
      (t.lineState line ≠ 0 → t.lineCtx line ≠ b.ctx → Claims.TrapsFrom (.capr e d x) s t a g cProtection (g.sreg x.toNat) 0) ∧
      ((t.lineState line = 0 ∨ t.lineCtx line = b.ctx) → t.grp a = some h → h.state ≠ .exited →
        Completes (.capr e d x) s t a (((Claims.afterAcquire h t.clk).setS d.toNat (t.capReport line)).moveTo (g.pc + 4))))) ∧
  (∀ (s : State) (a : Nat) (g h : Group) (b : Block), s.Issues a g b → g.exts = [] →
    (g.inStep = false → Traps .caps s a g cCapsuleViolation 0 0 ∧ Traps .cape s a g cCapsuleViolation 0 0) ∧
    (g.inStep = true →
      let w := (s.release (coreOf a) a 4).1
      s.lineMalformed g.cap.line = false → w.lineMalformed g.cap.line = false →
      let t := s.settleLine g.cap.line
      let commit := fun (last : Bool) => ((if last then w else s).settleLine g.cap.line).capCommit g.cap.line a g.cap.cseq g.cap.stores
        ((List.range 16).map fun k => g.sreg (16 + k)) (g.pc + 4) last
      let closed := fun (k : Group) => ({ k with cap := { k.cap with stores := [], words := 0 } } : Group)
      (t.lineStep g.cap.line = 15 → Claims.TrapsFrom .caps s t a g cCapsuleLimit 0 0) ∧
      (t.lineStep g.cap.line ≠ 15 → (commit false).1 = true → (commit false).2.grp a = some h → h.state ≠ .exited →
        Completes .caps s (commit false).2 a (((closed h).awaitApply h.cap.line).moveTo (g.pc + 4))) ∧
      (t.lineStep g.cap.line ≠ 15 → (commit false).1 = false → Claims.TrapsFrom .caps s (commit false).2 a g cCapsuleViolation 0 0) ∧
      ((commit true).1 = false → Claims.TrapsFrom .cape s (commit true).2 a g cCapsuleViolation 0 0) ∧
      ((commit true).1 = true → (commit true).2.grp a = some h → h.state ≠ .exited →
        let k := ({ closed h with cap := { (closed h).cap with role := 0 } } : Group).awaitApply h.cap.line
        (g.cap.role = 1 → Completes .cape s (commit true).2 a (k.moveTo (g.pc + 4))) ∧
        (g.cap.role ≠ 1 → Completes .cape s (commit true).2 a ((k.setUpper g.cap.shadow).moveTo g.cap.ownpc)))))

/-- A capsule line at its home slice (17 R327, R335 to R337), where no apply is in progress: a free line that a group takes names it, with the
next sequence number, step 0, no log, the entry and the checkpoint of its `s16` to `s31`; a line in use by its context makes another wait and
stays; a parked one is adopted; a commit by its holder writes the next step and the checkpoint with its log pending, one of a stale sequence
number is refused and writes nothing; a stopping holder parks it. -/
def Obligations.CapsuleLines : Prop :=
  ∀ (s : State) (line ctx me : Nat) (entry : BitVec 57) (regs : List (BitVec 64)),
    Memory.wf s.mem = true → s.lineMalformed line = false → s.lineLog line ≠ 1 → (∀ c ∈ s.capLogs, c.line ≠ line) →
    ctx < 256 → me < 2 ^ 17 → regs.length = 16 →
    let u := (s.capAcquire line ctx me entry regs).2
    (s.lineState line = 0 → (s.capAcquire line ctx me entry regs).1 = .acquired ((s.lineSeq line + 1) % 2 ^ 16) ∧
      u.lineState line = 1 ∧ u.lineCtx line = ctx ∧ u.lineHolder line = me ∧ u.lineAdopter line = 0 ∧ u.lineStep line = 0 ∧ u.lineLog line = 0 ∧
      u.lineNlog line = 0 ∧ u.lineSeq line = (s.lineSeq line + 1) % 2 ^ 16 ∧ u.lineEntry line = entry ∧ u.lineExit line = 0 ∧
      (∀ k, k < 16 → vget (u.lineCkpt line) k 0 = regs.getD k 0) ∧ ∀ k, k < line ∨ line + 256 ≤ k → byteAt u.mem k = byteAt s.mem k) ∧
    (s.lineState line ≠ 0 → s.lineCtx line ≠ ctx → s.capAcquire line ctx me entry regs = (.prot, s)) ∧
    ((s.lineState line = 1 ∨ s.lineState line = 3) → s.lineCtx line = ctx → s.capAcquire line ctx me entry regs = (.wait, s)) ∧
    (s.lineState line = 2 → s.lineCtx line = ctx →
      (s.capAcquire line ctx me entry regs).1 = .adopt (s.lineCkpt line) (s.lineEntry line) (s.lineSeq line) ∧
      u.lineState line = 3 ∧ u.lineHolder line = s.lineHolder line ∧ u.lineAdopter line = me ∧ u.lineCkpt line = s.lineCkpt line) ∧
    (∀ (cseq : BitVec 16) (stores : List CapStore) (last : Bool), stores.length ≤ 4 → s.lineStep line < 16 →
      let r := s.capCommit line me cseq stores regs entry last
      (s.lineSeq line ≠ cseq.toNat → r = (false, s)) ∧
      (s.lineState line = 1 → s.lineHolder line = me → s.lineSeq line = cseq.toNat →
        r.1 = true ∧ r.2.lineStep line = s.lineStep line + 1 ∧ r.2.lineLog line = 1 ∧ r.2.lineNlog line = stores.length ∧
        r.2.lineEntry line = entry ∧ r.2.lineState line = 1 ∧ (∀ k, k < 16 → vget (r.2.lineCkpt line) k 0 = regs.getD k 0))) ∧
    (s.lineState line = 1 → s.lineHolder line = me →
      (s.capMark me line).lineState line = 2 ∧ (s.capMark me line).lineHolder line = me ∧ (s.capMark me line).lineCkpt line = s.lineCkpt line)

/-! ### Barriers (16 R302 to R313) -/

namespace Sys2Proof.Claims

/-- The barrier that an immediate below 24 names (16 R311), and the scope of its kind (R302). -/
def barrierOf (s : State) (g : Group) (b : Block) (n : Nat) : BarId × Nat :=
  if n < 16 then (.block g.block n, 1)
  else (.cluster b.cluster (match amGet s.clusters b.cluster with | some c => c.halfOf b.rank | none => 0) (n - 16), 2)

/-- An arrival record is one of an arrival at a barrier, made in the mode that the group runs in: index, kind and mode agree, and of an object
the virtual address (16 R310, log 35). -/
def recordOf (h : Group) (x : BarId) (va : BitVec 64) (r : Arrived) : Bool :=
  r.index == x.index && r.kind == x.kind && r.trap == h.trapMode && r.va.all fun k => k == va.toNat

/-- A group whose arrival has its token: where the word names a register, the record is used up and the token goes there. -/
def withToken (h : Group) (x : BarId) (va : BitVec 64) (d : Option Nat) (t : BitVec 32) : Group :=
  match d with
  | some r => { h with arrivals := h.arrivals.filter fun k => !(recordOf h x va k), fate := none, s := vset h.s r (t.zeroExtend 64) }
  | none => { h with fate := none }

/-- XAUX of BARRIER_STALL (16 R309). -/
def stallAux (x : BarId) (t : BitVec 32) : BitVec 64 := BitVec.ofNat 64 (t.toNat + x.index * 2 ^ 32 + x.kind * 2 ^ 36)

/-- What an arrival by a word does in its first issue: its release, and its place among what reaches the barrier in the clock (16 R302, R306). -/
def arrives (s : State) (a : Nat) (x : BarId) (scope : Nat) (act : BarAct) (dest : Option Nat) : State :=
  (s.release (coreOf a) a scope).1.reach x a act dest

/-- The arrival that a group's records hold for a barrier (16 R310). -/
def arrivalAt (g : Group) (x : BarId) (va : BitVec 64) : Option Arrived := g.arrivals.find? (recordOf g x va)

/-- What a group waits for in a wait on a token (16 R307): by a word of opcode op, for register d, at an object's address. -/
def waitOn (g : Group) (x : BarId) (t : BitVec 32) (op : Nat) (d : Option Nat) (va : BitVec 64) (scope : Nat) : Dep :=
  .phase x t ⟨d, va, scope, g.pc + 4, energyClass op⟩

/-- What a group waits for until its arrival has its token: with the wait on that token that follows, for register d, of `baraw` or `barmaw`. -/
def heldThen (g : Group) (op d : Nat) (va : BitVec 64) (scope : Nat) : Option PhaseWait := some ⟨some d, va, scope, g.pc + 4, energyClass op⟩

end Sys2Proof.Claims

/-- Block and cluster barrier words (16 R302, R307, R309, R311, R312). `bara` and `bard` arrive: at a block barrier they go on, the token reaching
`sD` within the clock, at a cluster barrier they wait for it; `baraw` arrives and waits for the end of its phase, `barw` for that of its
token's phase; a wait that ends acquires at the barrier's scope; an arrival whose release is not satisfied waits for it. `barx` sets the count,
`barq` reads the barrier. That the record of an arrival at another barrier, or in the other mode, is no arrival at this one is the model's choice
(log 35). -/
def Sys2Proof.Claims.BarrierWords : Prop :=
  ∀ (s : State) (a : Nat) (g : Group) (b : Block) (e : Bool) (d x : BitVec 7) (i : BitVec 5) (n : Nat),
    s.Issues a g b → g.inStep = false → rawImm g.exts 7 i.toNat = n → n < 24 →
    let bar := (Claims.barrierOf s g b n).1
    let scope := (Claims.barrierOf s g b n).2
    let acq := fun (h : Group) => Claims.acquired true s.clk scope h
    (d.toNat < 32 → n < 16 → ∀ h, (s.release (coreOf a) a scope).1.grp a = some h → h.state ≠ .exited →
      Completes (.bara e d i) s (Claims.arrives s a bar scope .arrive (some d.toNat)) a (h.moveTo (g.pc + 4)) ∧
      Completes (.bard e d i) s (Claims.arrives s a bar scope .drop (some d.toNat)) a (h.moveTo (g.pc + 4))) ∧
    (d.toNat < 32 → 16 ≤ n → ∀ r, Claims.arrivalAt g bar 0 = some r →
      Writes (.bara e d i) s a (Claims.withToken g bar 0 (some d.toNat) r.token) ∧
      Writes (.bard e d i) s a (Claims.withToken g bar 0 (some d.toNat) r.token)) ∧
    (d.toNat < 32 → Claims.arrivalAt g bar 0 = none → (∀ k ∈ s.arrivals, k.agent ≠ a) → (s.release (coreOf a) a scope).2 = true →
      (16 ≤ n → Waits (.bara e d i) s (Claims.arrives s a bar scope .arrive none) a g .waitBarrier (.held none none)) ∧
      Waits (.baraw e d i) s (Claims.arrives s a bar scope .arrive none) a g .waitBarrier
        (.held none (Claims.heldThen g 0x281 d.toNat 0 scope))) ∧
    (d.toNat < 32 → Claims.arrivalAt g bar 0 = none → (∀ k ∈ s.arrivals, k.agent ≠ a) → (s.release (coreOf a) a scope).2 = false →
      Waits (.baraw e d i) s (s.release (coreOf a) a scope).1 a g .waitMem .acks) ∧
    (∀ r, d.toNat < 32 → Claims.arrivalAt g bar 0 = some r →
      (s.phaseOver bar r.token = true → Writes (.baraw e d i) s a (acq (Claims.withToken g bar 0 (some d.toNat) r.token))) ∧
      (s.phaseOver bar r.token = false →
        Waits (.baraw e d i) s s a g .waitBarrier (Claims.waitOn g bar r.token 0x281 (some d.toNat) 0 scope))) ∧
    (x.toNat < 32 → (g.sreg x.toNat).toNat < 2 ^ 16 →
      (s.phaseOver bar ((g.sreg x.toNat).truncate 32) = true → Writes (.barw e x i) s a (acq (Claims.withToken g bar 0 none 0))) ∧
      (s.phaseOver bar ((g.sreg x.toNat).truncate 32) = false →
        Waits (.barw e x i) s s a g .waitBarrier (Claims.waitOn g bar ((g.sreg x.toNat).truncate 32) 0x282 none 0 scope))) ∧
    (x.toNat < 32 → 2 ^ 16 ≤ (g.sreg x.toNat).toNat → Traps (.barw e x i) s a g cIllegalOperand 0 0) ∧
    (x.toNat < 32 → 1 ≤ (g.sreg x.toNat).toNat → (g.sreg x.toNat).toNat ≤ 2047 →
      Completes (.barx e x i) s (s.reach bar a (.expect (g.sreg x.toNat).toNat b.ctx) none) a (g.moveTo (g.pc + 4))) ∧
    (x.toNat < 32 → ((g.sreg x.toNat).toNat = 0 ∨ 2047 < (g.sreg x.toNat).toNat) → Traps (.barx e x i) s a g cIllegalOperand 0 0) ∧
    (∀ k, d.toNat < 32 → s.bar bar = some k → Writes (.barq e d i) s a (g.setS d.toNat
      (BitVec.ofNat 64 (k.phase.toNat + k.pend * 2 ^ 16 + k.exp * 2 ^ 27 + k.drops * 2 ^ 38 + k.next * 2 ^ 49))))

/-- A group whose wait on a token ends in the wait itself (16 R309, R320): the token reaches the register that the word names, of BALANCE
the acquire of its scope is performed, and the path that waits takes BARRIER_STALL or BALANCE at the next word (in trap mode at the word that
waits, 08 R165); memory, the contexts and every other group are as before up to the trap. -/
def Sys2Proof.Claims.BarrierWaitsEndInTraps : Prop :=
  ∀ (s : State) (a : Nat) (g : Group) (b : Block) (x : BarId) (t : BitVec 32) (w : PhaseWait),
    s.grp a = some g → s.blk g.block = some b → g.dep = some (.phase x t w) → g.entry = none → g.cap.reenter = false →
    (s.ctx b.ctx).state ≠ .faulted → (∀ r, w.dest = some r → r < 32) →
    let here := match (if g.nextOnB then g.path1 else g.path0) with | some p => p.pc | none => 0
    let next := if g.trapMode then here else w.next
    let ends := fun (u : State) (q : Nat) => (∀ k, k ≠ a → u.grp k = s.grp k) ∧ u.mem = s.mem ∧ u.ctxs = s.ctxs ∧
      ∃ h, u.grp a = some h ∧ h.dep = none ∧ h.fate = none ∧ h.v = g.v ∧ h.k = g.k ∧ h.p = g.p ∧ h.acqClk = q ∧
        h.arrivals = (Claims.withToken g x w.va w.dest t).arrivals ∧ h.s = (Claims.withToken g x w.va w.dest t).s
    (g.fate = some .stall → ∃ u : State, ends u g.acqClk ∧
      exec (.dependenceResolved a) s = .next (u.takeTrap a cBarrierStall w.va (Claims.stallAux x t) next g.nextOnB)) ∧
    (∀ aux, g.fate = some (.balance aux) → 2 ≤ w.scope → ∃ u : State, ends u s.clk.toNat ∧
      exec (.dependenceResolved a) s = .next (u.takeTrap a cBalance w.va aux next g.nextOnB))

/-- The words on memory barrier objects (16 R305, R313) at an aligned object of the group's context: `barma` and `barmd` arrive and wait for their
token, `barmaw` then for its phase, `barmw` for its token's phase; a wait that finds the phase over and its failure recorded takes BALANCE at
the next word (R320), and one that goes on starts the watchdog of an object that has none (R309); `barmx` sets the count, and takes an object without one; `barmq` reads PHASE and PEND. An object of another context
raises PROTECTION. -/
def Sys2Proof.Claims.ObjectBarrierWords : Prop :=
  ∀ (s : State) (a : Nat) (g : Group) (b : Block) (e : Bool) (d x y : BitVec 7) (pa : Nat),
    s.Issues a g b → g.Clear → d.toNat < 32 → x.toNat < 32 → y.toNat < 32 → s.drainCore (coreOf a) = s →
    let va := (g.sreg x.toNat).toNat
    let code := if s.objChecking pa then GState.waitMonitor else .waitBarrier
    let bar := BarId.object pa
    let balanced := fun (i : Instr) (h : Group) (aux : BitVec 64) =>
      ∃ u : State, (∀ k, k ≠ a → u.grp k = s.grp k) ∧ u.mem = s.mem ∧ u.ctxs = s.ctxs ∧ (∃ n, u.grp a = some { h with energy := n }) ∧
        exec i s = .next (u.takeTrap a cBalance (g.sreg x.toNat) aux (if g.trapMode then g.wordPc else g.pc + 4) g.onB)
    (Claims.CleanObjectAt s a g b va 64 .rw pa → s.objCtx pa ≠ b.ctx →
      Traps (.barma e d x) s a g cProtection (g.sreg x.toNat) 0 ∧ Traps (.barmaw e d x) s a g cProtection (g.sreg x.toNat) 0 ∧
      Traps (.barmd e d x) s a g cProtection (g.sreg x.toNat) 0 ∧
      (s.objExp pa ≠ 0 → Traps (.barmx e x y) s a g cProtection (g.sreg x.toNat) 0)) ∧
    (Claims.CleanObjectAt s a g b va 64 .rw pa → s.objCtx pa = b.ctx →
      (∀ u, Claims.arrivalAt g bar (g.sreg x.toNat) = none → (∀ k ∈ s.arrivals, k.agent ≠ a) → s.release (coreOf a) a 4 = (u, true) →
        Waits (.barma e d x) s (u.reach (.object pa) a .arrive none) a g code (.held (some va) none) ∧
        Waits (.barmaw e d x) s (u.reach (.object pa) a .arrive none) a g code
          (.held (some va) (Claims.heldThen g 0x289 d.toNat (g.sreg x.toNat) 4)) ∧
        Waits (.barmd e d x) s (u.reach (.object pa) a .drop none) a g code (.held (some va) none)) ∧
      (∀ r, Claims.arrivalAt g bar (g.sreg x.toNat) = some r →
        Writes (.barma e d x) s a (Claims.withToken g bar (g.sreg x.toNat) (some d.toNat) r.token) ∧
        Writes (.barmd e d x) s a (Claims.withToken g bar (g.sreg x.toNat) (some d.toNat) r.token) ∧
        (s.phaseOver bar r.token = true → s.balance pa r.token = none →
          Writes (.barmaw e d x) s a (Claims.afterAcquire (Claims.withToken g bar (g.sreg x.toNat) (some d.toNat) r.token) s.clk)) ∧
        (∀ aux, s.phaseOver bar r.token = true → s.balance pa r.token = some aux →
          balanced (.barmaw e d x) (Claims.afterAcquire (Claims.withToken g bar (g.sreg x.toNat) (some d.toNat) r.token) s.clk) aux) ∧
        (s.phaseOver bar r.token = false →
          Waits (.barmaw e d x) s (s.objDog bar) a g code (Claims.waitOn g bar r.token 0x289 (some d.toNat) (g.sreg x.toNat) 4)))) ∧
    (Claims.CleanObjectAt s a g b va 64 .read pa → s.objCtx pa = b.ctx →
      ((g.sreg y.toNat).toNat < 2 ^ 32 → s.phaseOver bar ((g.sreg y.toNat).truncate 32) = true →
        (s.balance pa ((g.sreg y.toNat).truncate 32) = none →
          Writes (.barmw e x y) s a (Claims.afterAcquire (Claims.withToken g bar (g.sreg x.toNat) none 0) s.clk)) ∧
        (∀ aux, s.balance pa ((g.sreg y.toNat).truncate 32) = some aux →
          balanced (.barmw e x y) (Claims.afterAcquire (Claims.withToken g bar (g.sreg x.toNat) none 0) s.clk) aux)) ∧
      ((g.sreg y.toNat).toNat < 2 ^ 32 → s.phaseOver bar ((g.sreg y.toNat).truncate 32) = false →
        Waits (.barmw e x y) s (s.objDog bar) a g code (Claims.waitOn g bar ((g.sreg y.toNat).truncate 32) 0x28A none (g.sreg x.toNat) 4)) ∧
      (2 ^ 32 ≤ (g.sreg y.toNat).toNat → Traps (.barmw e x y) s a g cIllegalOperand 0 0) ∧
      Writes (.barmq e d x) s a ((Claims.afterAcquire g s.clk).setS d.toNat (BitVec.ofNat 64 (s.objPhase pa + s.objPend pa * 2 ^ 32)))) ∧
    (Claims.CleanObjectAt s a g b va 64 .rw pa → (s.objCtx pa = b.ctx ∨ s.objExp pa = 0) →
      (1 ≤ (g.sreg y.toNat).toNat → (g.sreg y.toNat).toNat < 2 ^ 32 →
        Completes (.barmx e x y) s (s.reach (.object pa) a (.expect (g.sreg y.toNat).toNat b.ctx) none) a (g.moveTo (g.pc + 4))) ∧
      (((g.sreg y.toNat).toNat = 0 ∨ 2 ^ 32 ≤ (g.sreg y.toNat).toNat) → Traps (.barmx e x y) s a g cIllegalOperand 0 0))

/-- The barrier words, on barriers of a block and of a cluster and on barrier objects (16 R311 to R313).
Forms that this statement says complete (the answer of `exec` is a next state with their effect): `bara`, `baraw`, `barw`, `bard`, `barx`, `barq`,
`barma`, `barmaw`, `barmw`, `barmd`, `barmx`, `barmq`. -/
def Obligations.BarriersByWords : Prop :=
  Claims.BarrierWords ∧ Claims.BarrierWaitsEndInTraps ∧ Claims.ObjectBarrierWords

/-- What an arrival does at a block barrier (16 R303, R306): it takes the phase as its token; PEND falls by one, a drop counts among DROPS, and
the arrival that makes PEND zero ends the phase: PHASE rises by one, and the count starts again from NEXT, or EXP, less the drops. -/
def Obligations.BarrierPhases : Prop :=
  ∀ (s : State) (blk i : Nat) (b : Bar) (drop : Bool), s.bar (.block blk i) = some b → i < 16 → b.exp ≠ 0 → 1 ≤ b.pend →
    let r := s.arriveAt (.block blk i) drop
    let drops := b.drops + drop.toNat
    let base := (if b.next ≠ 0 then b.next else b.exp) - drops
    r.1 = some (b.phase.zeroExtend 32) ∧
    (1 < b.pend → r.2.bar (.block blk i) = some { b with pend := b.pend - 1, drops := drops }) ∧
    (b.pend = 1 → r.2.bar (.block blk i) = some ⟨b.phase + 1, base, base, 0, 0, 0⟩) ∧
    (∀ k, k ≠ i → k < 16 → r.2.bar (.block blk k) = s.bar (.block blk k)) ∧ r.2.mem = s.mem ∧ r.2.groups = s.groups

/-! ### Balance monitors (16 R315, R322 to R325) -/

/-- The monitor words (16 R323 to R325). `bmset` latches a descriptor that it admits, zeroes the monitor's partials and writes its entry of MONTAB;
`bmclr` zeroes STATUS, LAST and the partials; `bmref` sets a finite reference; `bmbind` binds the monitor to a free place of an object and
`bmunbind` frees its place; `bmrd` reads STATUS, LAST, REF, or, after a wait in WAIT_MONITOR, the running total. A bad descriptor, or a reference that is not finite, raises
ILLEGAL_OPERAND.
Forms that this statement says complete (the answer of `exec` is a next state with their effect): `bmset`, `bmref`, `bmbind`, `bmunbind`, `bmrd`,
`bmclr`. -/
def Obligations.MonitorWords : Prop :=
  ∀ (s : State) (a : Nat) (g : Group) (b : Block) (e : Bool) (d x : BitVec 7) (sel : BitVec 2) (i : BitVec 4) (pa : Nat),
    s.Issues a g b → g.inStep = false → x.toNat < 32 → d.toNat < 32 → rawImm g.exts 7 i.toNat = i.toNat →
    let m := i.toNat
    let mon := vget (s.ctx b.ctx).mons m Mon.reset
    let put := fun (u : State) (k : Mon) => u.updCtx b.ctx fun c => { c with mons := vset c.mons m k }
    (s.checkAcc a g b ⟨(g.sreg x.toNat).toNat, 64, .read, 0, 0, true, false, false, none, 0⟩ = .ok (.mem pa) →
      ∀ r, Claims.readAt s a g 0 true 64 (.mem pa) = some r →
      Claims.unwatched r.2 g b .read (g.sreg x.toNat).toNat 64 r.1 →
      (monBad r.1 = true → Claims.TrapsFrom (.bmset e x i) s r.2 a g cIllegalOperand 0 0) ∧
      (monBad r.1 = false → r.2.checkOf b.ctx m = false →
        let u := (r.2.montabWrite b.ctx m 0 64 (r.1 % 2 ^ 384)).zeroPartials b.ctx m
        ∀ h, u.grp a = some h → h.state ≠ .exited →
        Completes (.bmset e x i) s (put u { Mon.ofCode r.1 with bound := (vget (u.ctx b.ctx).mons m Mon.reset).bound }) a (h.moveTo (g.pc + 4)))) ∧
    (s.checkOf b.ctx m = false →
      let u := (s.montabWrite b.ctx m 0x30 16 0).zeroPartials b.ctx m
      ∀ h, u.grp a = some h → h.state ≠ .exited →
      Completes (.bmclr e i) s (put u { vget (u.ctx b.ctx).mons m Mon.reset with status := 0, last := 0 }) a (h.moveTo (g.pc + 4))) ∧
    (s.checkOf b.ctx m = true → Waits (.bmclr e i) s s a g .waitMonitor (.monitor m)) ∧
    (finite64 (g.sreg x.toNat) = true →
      let u := s.montabWrite b.ctx m 0x18 8 (g.sreg x.toNat).toNat
      ∀ h, u.grp a = some h → h.state ≠ .exited →
      Completes (.bmref e x i) s (put u { vget (u.ctx b.ctx).mons m Mon.reset with ref := g.sreg x.toNat }) a (h.moveTo (g.pc + 4))) ∧
    (finite64 (g.sreg x.toNat) = false → Traps (.bmref e x i) s a g cIllegalOperand 0 0) ∧
    (Claims.CleanObjectAt s a g b (g.sreg x.toNat).toNat 64 .rw pa → s.drainCore (coreOf a) = s → s.objCtx pa = b.ctx → s.objChecking pa = false →
      (∀ k, (s.objBound pa).all (fun q => q.2 != m) = true → s.boundElsewhere b.ctx m = false → s.bindComing b.ctx m (fun _ => true) = false →
        (List.range 4).find? (fun j => (s.objBinding pa j).isNone && !(s.bindDue pa j)) = some k →
        Completes (.bmbind e x i) s ((s.reach (.object pa) a (.bind k m) none).setBound b.ctx m (some pa)) a (g.moveTo (g.pc + 4))) ∧
      ((s.objBound pa).any (fun q => q.2 == m) = true → Writes (.bmbind e x i) s a g)) ∧
    (rawImm g.exts 7 (64 + m) = 64 + m → Claims.CleanObjectAt s a g b (g.sreg x.toNat).toNat 64 .rw pa → s.drainCore (coreOf a) = s →
      s.objCtx pa = b.ctx → s.objChecking pa = false →
      (∀ q, (s.objBound pa).find? (fun q => q.2 == m) = some q →
        Completes (.bmunbind e x i) s ((s.reach (.object pa) a (.unbind q.1) none).setBound b.ctx m none) a (g.moveTo (g.pc + 4))) ∧
      ((s.objBound pa).find? (fun q => q.2 == m) = none → Writes (.bmunbind e x i) s a g)) ∧
    (rawImm g.exts 7 (sel.toNat * 16 + m) = sel.toNat * 16 + m →
      (sel = 0 → Writes (.bmrd e d sel i) s a (g.setS d.toNat mon.status)) ∧
      (sel = 1 → Writes (.bmrd e d sel i) s a (g.setS d.toNat mon.last)) ∧
      (sel = 2 → Writes (.bmrd e d sel i) s a (g.setS d.toNat mon.ref)) ∧
      (sel = 3 → g.sent = true → Writes (.bmrd e d sel i) s a (g.setS d.toNat (s.runningTotal b.ctx m))) ∧
      (sel = 3 → g.sent = false →
        Waits (.bmrd e d sel i) s ((s.drainCore (coreOf a)).updGrp a fun h => { h with sent := true }) a g .waitMonitor .again))

/-! ### Lacers and rings (12 R267, R270 to R276) -/

namespace Sys2Proof.Claims

/-- The state after a Lacer has accepted an entry for the issuing block as its command of a ticket (12 R271): with a fault record held the
command has ended at once (R267), else it is in the Lacer's queue and holds the tiles that it reaches. -/
def laced (s : State) (a : Nat) (g : Group) (b : Block) (l ticket : Nat) (e : LEntry) : State :=
  let u := (s.release (coreOf a) a 1).1.updBlk g.block fun k => { k with tickets := vset k.tickets l ticket }
  if (vget b.lfault l none).isSome then u
  else
    let tiles := u.tilesTaken b e
    (({ u with nextId := u.nextId + 1 } : State).updBlk g.block fun k => k.hold tiles true).updCore (coreOf a) fun c =>
      c.setLacer l (c.lacer l ++ [(⟨u.nextId, g.block, ticket, a, !g.trapMode, e, 0, tiles, 0, [], none, 0, false, none⟩ : LCmd)])

/-- The code, the Lacer and the ticket of a record (12 R272). -/
def recordAux (r : LRec) (l : Nat) : BitVec 64 := BitVec.ofNat 64 (r.code + l * 2 ^ 8 + r.ticket % 2 ^ 48 * 2 ^ 16)

/-- A ticket that the block has been given. -/
def ticketOf (b : Block) (l t : Nat) : Prop := t ≠ 0 ∧ t ≤ vget b.tickets l 0

end Sys2Proof.Claims

/-- The Lacer words (12 R263, R271 to R274). `lace` reads the 64 bytes of an entry: an entry that R263 admits is accepted by a Lacer with room and
its ticket goes to `sD`, one that it refuses raises LACE_FAULT with its code; a full queue waits. `lacew` completes once the ticket has ended,
acquires, and reports the block's record; `laceq` reads the highest ended ticket; `lacek` cancels; a ticket never given raises ILLEGAL_OPERAND.
`town` reads, or waits for, the owner of a tile.
Forms that this statement says complete (the answer of `exec` is a next state with their effect): `lace`, `lacew`, `laceq`, `lacek`, `town`. -/
def Obligations.LacerWords : Prop :=
  ∀ (s : State) (a : Nat) (g : Group) (b : Block) (e : Bool) (d x : BitVec 7) (i : BitVec 2) (o : BitVec 1),
    s.Issues a g b → g.inStep = false → d.toNat < 32 → x.toNat < 32 → rawImm g.exts 7 i.toNat = i.toNat → rawImm g.exts 7 o.toNat = o.toNat →
    let l := i.toNat
    let va := (g.sreg x.toNat).toNat
    (∀ p v u, s.checkAcc a g b ⟨va, 64, .read, 0, 0, true, false, false, none, 0⟩ = .ok p → Claims.readAt s a g 0 false 64 p = some (v, u) →
      Claims.unwatched u g b .read va 64 v →
      let entry := LEntry.ofCode v
      let ticket := vget b.tickets l 0 + 1
      (u.laceCheck b entry ≠ 0 → Claims.TrapsFrom (.lace e d x i) s u a g cLaceFault (g.sreg x.toNat) (BitVec.ofNat 64 (u.laceCheck b entry))) ∧
      (u.laceCheck b entry = 0 → Config.lacerQueue ≤ ((u.core (coreOf a)).lacer l).length → Waits (.lace e d x i) s u a g .waitMem (.room l)) ∧
      (u.laceCheck b entry = 0 → ((u.core (coreOf a)).lacer l).length < Config.lacerQueue → ∀ h,
        (Claims.laced u a g b l ticket entry).grp a = some h → h.state ≠ .exited →
        Completes (.lace e d x i) s (Claims.laced u a g b l ticket entry) a ((h.setS d.toNat (BitVec.ofNat 64 ticket)).moveTo (g.pc + 4)))) ∧
    (Claims.ticketOf b l va → (∀ r, vget b.lwatch l none = some r → va < r.ticket) →
      ((s.core (coreOf a)).laceEnded l g.block va = false → Waits (.lacew e x i) s s a g .waitMem (.ended l va)) ∧
      ((s.core (coreOf a)).laceEnded l g.block va = true →
        ((∀ r, vget b.lfault l none = some r → va < r.ticket) →
          Writes (.lacew e x i) s a (Claims.acquired true s.clk ((amGet (vget b.lscope l []) va).getD 1) g)) ∧
        (∀ r, vget b.lfault l none = some r → r.ticket ≤ va →
          Claims.TrapsFrom (.lacew e x i) s (s.updBlk g.block fun k => { k with lfault := vset k.lfault l none }) a g cLaceFault r.addr
            (Claims.recordAux r l)))) ∧
    (¬ Claims.ticketOf b l va → Traps (.lacew e x i) s a g cIllegalOperand 0 0 ∧ Traps (.lacek e x i) s a g cIllegalOperand 0 0) ∧
    Writes (.laceq e d i) s a (g.setS d.toNat (BitVec.ofNat 64 ((s.core (coreOf a)).lastEnded l g.block (vget b.tickets l 0)))) ∧
    (Claims.ticketOf b l va →
      let u := if g.sent then s else s.cancelCmds (coreOf a) l g.block va
      ∀ h, u.grp a = some h → h.state ≠ .exited → (u.core (coreOf a)).cancelling l g.block va = false →
        Completes (.lacek e x i) s u a (h.moveTo (g.pc + 4))) ∧
    (s.tileEngine b va = none → Traps (.town e d x o) s a g cProtection (g.sreg x.toNat) 0) ∧
    (∀ engine, s.tileEngine b va = some engine →
      (o = 0 → Writes (.town e d x o) s a (g.setS d.toNat (BitVec.ofNat 64 engine.toNat))) ∧
      (o = 1 → engine = false → Writes (.town e d x o) s a (g.setS d.toNat 0)) ∧
      (o = 1 → engine = true → Waits (.town e d x o) s s a g .waitMem (.tile va)))

/-- The ring words (12 R275, R276) on a ring of the block: `rngget` claims a free slot and `rngacq` takes a filled one, their addresses to `sD`, each
waiting where there is none; `rngput` publishes the oldest claim and `rngrel` returns the oldest take. A ring that is not there, one that a Lacer
feeds, and a claim or take that is not outstanding raise RING_ERROR. `rngput` with INIT sets an idle ring up, or takes it down.
Forms that this statement says complete (the answer of `exec` is a next state with their effect): `rngget`, `rngput`, `rngputInit`, `rngacq`,
`rngrel`. -/
def Obligations.RingWords : Prop :=
  ∀ (s : State) (a : Nat) (g : Group) (b : Block) (e : Bool) (d x : BitVec 7) (i : BitVec 4),
    s.Issues a g b → g.inStep = false → d.toNat < 32 → x.toNat < 32 → rawImm g.exts 7 i.toNat = i.toNat →
    let put := fun (u : State) (r : Ring) => u.updBlk g.block fun k => k.setRing i.toNat r
    let own := (s.release (coreOf a) a 1).1
    (amGet b.rings i.toNat = none → Traps (.rngget e d i) s a g cRingError 0 0 ∧ Traps (.rngput e i) s a g cRingError 0 0 ∧
      Traps (.rngacq e d i) s a g cRingError 0 0 ∧ Traps (.rngrel e i) s a g cRingError 0 0) ∧
    (∀ r, amGet b.rings i.toNat = some r →
      (r.lfed = true → Traps (.rngget e d i) s a g cRingError 0 0 ∧ Traps (.rngput e i) s a g cRingError 0 0) ∧
      (r.lfed = false → r.free = 0 → Waits (.rngget e d i) s s a g .waitMem (.ringFree i.toNat)) ∧
      (r.lfed = false → r.free ≠ 0 → Completes (.rngget e d i) s (put s { r with free := r.free - 1, pidx := (r.pidx + 1) % r.n, outp := r.outp + 1 }) a
        ((g.setS d.toNat (BitVec.ofNat 64 (s.slotAddr b r r.pidx))).moveTo (g.pc + 4))) ∧
      (r.lfed = false → r.outp = 0 → Traps (.rngput e i) s a g cRingError 0 0) ∧
      (∀ h, r.lfed = false → r.outp ≠ 0 → own.grp a = some h → h.state ≠ .exited →
        Completes (.rngput e i) s (put own { r with filled := r.filled + 1, outp := r.outp - 1 }) a (h.moveTo (g.pc + 4))) ∧
      (r.filled = 0 → Waits (.rngacq e d i) s s a g .waitMem (.ringFilled i.toNat)) ∧
      (r.filled ≠ 0 → Completes (.rngacq e d i) s (put s { r with filled := r.filled - 1, cidx := (r.cidx + 1) % r.n, outc := r.outc + 1 }) a
        ((g.setS d.toNat (BitVec.ofNat 64 (s.slotAddr b r r.cidx))).moveTo (g.pc + 4))) ∧
      (r.outc = 0 → Traps (.rngrel e i) s a g cRingError 0 0) ∧
      (∀ h, r.outc ≠ 0 → own.grp a = some h → h.state ≠ .exited →
        Completes (.rngrel e i) s (put own { r with free := r.free + 1, outc := r.outc - 1 }) a (h.moveTo (g.pc + 4)))) ∧
    (rawImm g.exts 7 (64 + i.toNat) = 64 + i.toNat →
      (∀ r ∈ amGet b.rings i.toNat, r.free = r.n ∧ r.filled = 0 ∧ r.outp = 0 ∧ r.outc = 0) → bitsOf (g.sreg x.toNat) 63 43 = 0 →
      (bitsOf (g.sreg x.toNat) 41 36 = 0 →
        Completes (.rngputInit e x i) s (s.updBlk g.block fun k => { k with rings := amDel k.rings i.toNat }) a (g.moveTo (g.pc + 4))) ∧
      (∀ base slot n, base = bitsOf (g.sreg x.toNat) 19 0 → slot = bitsOf (g.sreg x.toNat) 35 20 → n = bitsOf (g.sreg x.toNat) 41 36 → 2 ≤ n →
        (base % 256 = 0 ∧ slot % 256 = 0 ∧ slot ≠ 0 ∧ n ≤ 32 ∧ base + n * slot ≤ b.desc.scr * 65536 →
          Completes (.rngputInit e x i) s (put s ⟨base, slot, n, (g.sreg x.toNat).getLsbD 42, n, 0, 0, 0, 0, 0⟩) a (g.moveTo (g.pc + 4))) ∧
        (base % 256 ≠ 0 ∨ slot % 256 ≠ 0 ∨ slot = 0 ∨ 32 < n ∨ b.desc.scr * 65536 < base + n * slot →
          Traps (.rngputInit e x i) s a g cRingError 0 0)))

/-! ### Graph words (06 R131 to R135) -/

namespace Sys2Proof.Claims

/-- The node whose grid the issuing group belongs to. -/
def nodeOf (s : State) (b : Block) (k n : Nat) (x : Node) : Prop :=
  ∃ grid, amGet s.grids b.grid = some grid ∧ grid.graph = k ∧ grid.node = n ∧ s.node k n = some x

/-- The group belongs to no node. -/
def noNode (s : State) (b : Block) : Prop := ∀ k n x, ¬ nodeOf s b k n x

/-- Words of a record read with a device-scope acquire (06 R133), with miss-status entries free (11 R226): the values, and the state after
them. -/
def RecordReads (s : State) (a : Nat) (g : Group) (b : Block) (vas : List Nat) (vs : List Nat) (u : State) : Prop :=
  ∃ ps rs, Checked s a g b (vas.map fun va => ⟨va % 2 ^ 64, 8, .read, 0, 0, true, false, false, none, 0⟩) ps ∧ DataThere s a ps ∧
    (∀ q ∈ s.loadReaches (coreOf a) a g.acqClk 4 true ps, s.inReach (coreOf a) q.2.addr = true) ∧ s.entriesFree (coreOf a) (s.loadMisses (coreOf a) g.acqClk 4 true ps) = true ∧
    (s.takeEntries (coreOf a) (s.loadMisses (coreOf a) g.acqClk 4 true ps)).readPlaces (coreOf a) a g.acqClk 4 true ps = (rs, u) ∧
    vs = rs.map (fun r => r.2.val) ∧
    ∀ r ∈ rs, r.2.poison = false ∧ unwatched u g b .read r.1.va r.1.n r.2.val

/-- A running graph of a context whose header is reached by an address: the graph's own, or one that translates to the same place (06 R134). -/
def reachedBy (s : State) (ctx : Nat) (va : BitVec 64) (q : Nat × Graph) : Bool :=
  q.2.ctx == ctx && (q.2.va == va || ((s.placeOf ctx q.2.va.toNat).isSome && s.placeOf ctx q.2.va.toNat == s.placeOf ctx va.toNat))

/-- The other words of the clock, and the visits and HALT_GRAPH actions of the walks in progress, have come (06 R124). -/
def visitsOver (s : State) (a : Nat) : Prop :=
  a ∈ s.putOff ∨ ((∀ k ∈ s.issue, k = a ∨ s.unused k = false) ∧ ∀ q ∈ s.graphs, q.2.wact = false ∧ q.2.halts = [])

/-- The 32 bytes of a LAUNCH entry (05 R105). -/
def launchBytes (graph : BitVec 64) (n : Nat) : Nat := graph.toNat + (n % 2 ^ 32 + 2 ^ 32) * 2 ^ 64

end Sys2Proof.Claims

/-- The graph words (06 R131 to R135) where no page of the graph migrates. `gtok` sends the tokens of its node, once, and raises GRAPH_ERROR where its
node is not EARLY; `glaunch` gives −2 for a queue that is not the context's or not open, −1 for a full one, and else appends an entry and gives
its number; `gstat` reads a header or a node record; `gcancel`, put off within its clock until the clock's other words and the visits of walks in progress have come (R124), cancels a graph or a cone of a running graph of the context and gives 0, 1, 2 or 3; `gfail` fails
the attempt of its node with a status up to 0x1B.
Forms that this statement says complete (the answer of `exec` is a next state with their effect): `gtok`, `glaunch`, `gstat`, `gcancel`, `gfail`. -/
def Obligations.GraphWords : Prop :=
  ∀ (s : State) (a : Nat) (g h : Group) (b : Block) (e : Bool) (d x y : BitVec 7),
    s.Issues a g b → g.Clear → d.toNat < 32 → x.toNat < 32 → y.toNat < 32 →
    let sa := g.sreg x.toNat
    let sb := g.sreg y.toNat
    (Claims.noNode s b → Traps (.gtok e) s a g cGraphError 0 0) ∧
    (∀ k n nd, Claims.nodeOf s b k n nd →
      (nd.early = false → Traps (.gtok e) s a g cGraphError 0 0) ∧
      (nd.early = true → s.graphStuck k = false → (s.release (coreOf a) a 4).2 = true →
        let u := (s.release (coreOf a) a 4).1
        let t := if nd.toksent = false ∧ nd.state = nRunning then u.sendTokens k n else u
        t.grp a = some h → h.state ≠ .exited → Completes (.gtok e) s t a (h.moveTo (g.pc + 4)))) ∧
    (∀ u, s.release (coreOf a) a 5 = (u, true) → u.grp a = some h → h.state ≠ .exited →
      let q := sa.toNat
      let pa := u.tailPa q
      ((1023 < q ∨ (u.queue q).state = .closed ∨ (u.queue q).state = .faulted ∨ (u.queue q).ctx ≠ b.ctx) →
        Completes (.glaunch e d x y) s u a ((h.setS d.toNat (-2)).moveTo (g.pc + 4))) ∧
      (q ≤ 1023 → (u.queue q).state ≠ .closed → (u.queue q).state ≠ .faulted → (u.queue q).ctx = b.ctx → u.isMemory pa = true →
        u.poisoned pa 8 = false → u.poisoned (u.queueHdr q) 64 = false →
        let n := u.read pa 8
        ((u.queue q).done.toNat + 2 ^ (u.queue q).log2n ≤ n → Completes (.glaunch e d x y) s u a ((h.setS d.toNat (BitVec.allOnes 64)).moveTo (g.pc + 4))) ∧
        (∀ p k, n < (u.queue q).done.toNat + 2 ^ (u.queue q).log2n →
          let acc : Acc := ⟨((u.queue q).ring.toNat + n % 2 ^ (u.queue q).log2n * 32) % 2 ^ 64, 32, .write, 0, 0, true, false, false,
            some (Claims.launchBytes sb n), 0⟩
          u.checkAcc a g b acc = .ok p →
          let v := (Claims.writeAt u a b acc.va 32 (Claims.launchBytes sb n) p).drainCore (coreOf a)
          let t := (v.dropGuest (dieOf (coreOf a)) (pa / 256)).performBytes none pa 8 ((n + 1) % 2 ^ 64)
          v.isMemory pa = true → t.grp a = some k → k.state ≠ .exited →
          Completes (.glaunch e d x y) s t a ((k.setS d.toNat (BitVec.ofNat 64 n)).moveTo (g.pc + 4))))) ∧
    (∀ vs u, Claims.RecordReads s a g b [sa.toNat, sa.toNat + 8, sa.toNat + 16, sa.toNat + 24] vs u → u.grp a = some h → h.state ≠ .exited →
      let head := vs.getD 0 0
      let put := fun (v : BitVec 64) => ((Claims.afterAcquire h u.clk).setS d.toNat v).moveTo (g.pc + 4)
      (head / 2 ^ 16 % 256 ≠ b.ctx → Completes (.gstat e d x y) s u a (put (BitVec.allOnes 64))) ∧
      (head / 2 ^ 16 % 256 = b.ctx → sb = BitVec.allOnes 64 →
        Completes (.gstat e d x y) s u a (put (BitVec.ofNat 64 (head % 256 + head / 2 ^ 32 % 2 ^ 16 * 2 ^ 16 + vs.getD 3 0 % 2 ^ 32 * 2 ^ 32)))) ∧
      (head / 2 ^ 16 % 256 = b.ctx → sb ≠ BitVec.allOnes 64 → vs.getD 2 0 % 2 ^ 16 ≤ sb.toNat →
        Completes (.gstat e d x y) s u a (put (BitVec.allOnes 64))) ∧
      (∀ ws t k, head / 2 ^ 16 % 256 = b.ctx → sb ≠ BitVec.allOnes 64 → sb.toNat < vs.getD 2 0 % 2 ^ 16 →
        Claims.RecordReads (u.acquire a 4) a g b [vs.getD 1 0 + sb.toNat * 128, vs.getD 1 0 + sb.toNat * 128 + 8] ws t →
        t.grp a = some k → k.state ≠ .exited →
        Completes (.gstat e d x y) s t a (((Claims.afterAcquire k t.clk).setS d.toNat (BitVec.ofNat 64
          (ws.getD 0 0 / 2 ^ 4 % 16 + ws.getD 0 0 / 2 ^ 24 % 256 * 2 ^ 8 + ws.getD 0 0 / 2 ^ 20 % 16 * 2 ^ 16 +
            ws.getD 1 0 / 2 ^ 16 % 2 ^ 16 * 2 ^ 32))).moveTo (g.pc + 4)))) ∧
    (¬ Claims.visitsOver s a → exec (.gcancel e d x y) s = .next (s.putOffWord a)) ∧
    (∀ vs r, Claims.visitsOver s a → Claims.RecordReads s a g b [sa.toNat] vs r → vs.getD 0 0 / 2 ^ 16 % 256 = b.ctx →
      let u := r.acquire a 4
      (u.graphs.find? (Claims.reachedBy u b.ctx sa) = none → ∀ k, u.grp a = some k → k.state ≠ .exited →
        Completes (.gcancel e d x y) s u a ((k.setS d.toNat 1).moveTo (g.pc + 4))) ∧
      (∀ n gr, u.graphs.find? (Claims.reachedBy u b.ctx sa) = some (n, gr) → gr.state ≠ 1 ∨ gr.halts ≠ [] → ∀ k, u.grp a = some k →
        k.state ≠ .exited → Completes (.gcancel e d x y) s u a ((k.setS d.toNat 1).moveTo (g.pc + 4))) ∧
      (∀ n gr, u.graphs.find? (Claims.reachedBy u b.ctx sa) = some (n, gr) → gr.state = 1 → gr.halts = [] → u.graphStuck n = false →
        (sb = BitVec.allOnes 64 → ∀ k, (u.cancelChildren 0x43 9 n).grp a = some k → k.state ≠ .exited →
          Completes (.gcancel e d x y) s (u.cancelChildren 0x43 9 n) a ((k.setS d.toNat 0).moveTo (g.pc + 4))) ∧
        (sb ≠ BitVec.allOnes 64 → gr.nodes[sb.toNat]? = none → ∀ k, u.grp a = some k → k.state ≠ .exited →
          Completes (.gcancel e d x y) s u a ((k.setS d.toNat 2).moveTo (g.pc + 4))) ∧
        (∀ nd, sb ≠ BitVec.allOnes 64 → gr.nodes[sb.toNat]? = some nd → nFailed ≤ nd.state → ∀ k, u.grp a = some k → k.state ≠ .exited →
          Completes (.gcancel e d x y) s u a ((k.setS d.toNat 3).moveTo (g.pc + 4))) ∧
        (∀ nd, sb ≠ BitVec.allOnes 64 → gr.nodes[sb.toNat]? = some nd → nd.state < nFailed →
          let t := ((u.coneVisit n sb.toNat 0x43).startWalk n sb.toNat).markRoot n sb.toNat
          ∀ k, t.grp a = some k → k.state ≠ .exited → Completes (.gcancel e d x y) s t a ((k.setS d.toNat 0).moveTo (g.pc + 4))))) ∧
    (0x1B < sa.toNat → Traps (.gfail e x) s a g cIllegalOperand 0 0) ∧
    (sa.toNat ≤ 0x1B → Claims.noNode s b → Writes (.gfail e x) s a g) ∧
    (∀ k n nd, sa.toNat ≤ 0x1B → Claims.nodeOf s b k n nd → s.graphStuck k = false →
      let t := s.nodeFault k n (if sa.toNat = 0 then 0x46 else sa.toNat)
      t.grp a = some h → h.state ≠ .exited → Completes (.gfail e x) s t a (h.moveTo (g.pc + 4)))

/-! ### Events: contexts (04) and queues (05) -/

namespace Sys2Proof.Claims

/-- Instruction i, executed in s, answers a next state of which P holds. -/
def Does (i : Instr) (s : State) (P : State → Prop) : Prop := ∃ t, exec i s = .next t ∧ P t

/-- A command on context c moves it to a state and ends with RESULT 0; every other context stays. -/
def Moves (i : Instr) (s : State) (c : Nat) (new : CState) : Prop :=
  Does i s fun t => (t.ctx c).state = new ∧ (∀ d, d ≠ c → t.ctx d = s.ctx d) ∧
    t.ctxSts = (s.ctxSts &&& 16#64) ||| BitVec.ofNat 64 (c % 256 * 2 ^ 8)

/-- A command on context c changes nothing but CTXSTS, whose RESULT is a code (04 R89): BUSY is 0, OVR stays, the context is named. -/
def CtxRefused (i : Instr) (s : State) (c code : Nat) : Prop :=
  exec i s = .next { s with ctxSts := (s.ctxSts &&& 16#64) ||| BitVec.ofNat 64 (code * 2 + c % 256 * 2 ^ 8) }

/-- Node n of graph g is one of which p holds. -/
def NodeIs (t : State) (g n : Nat) (p : Node → Prop) : Prop := ∃ y, t.node g n = some y ∧ p y

/-- A fault of a RUNNING kernel node that has blocks (06 R127, R128): its grid has ended, its blocks are discarded, and the cause is kept until they
have left their cores. -/
def FaultWaits (t : State) (g n k cause : Nat) : Prop :=
  NodeIs t g n (fun y => y.state = 2 ∧ y.ending = some cause) ∧ (∀ id b, t.blk id = some b → b.grid = k → b.discarding = true) ∧
    ∀ gr, amGet t.grids k = some gr → gr.state = .ended

/-- A reset of context c begins (04 R92, R97): RESETTING; its save is abandoned; every block of it is discarded; its monitor partials are zero; and each
kernel node with a block resident or saved, or whose grid has not ended, takes the fault RESET, 0x42. -/
def ResetBegins (s t : State) (c : Nat) : Prop :=
  (t.ctx c).state = .resetting ∧ (t.ctx c).saved = [] ∧ (t.ctx c).restoring = false ∧ (t.ctx c).active = (s.ctx c).active ∧
  (∀ id b, s.blk id = some b → b.ctx = c → t.blk id = some { b with discarding := true }) ∧
  (∀ x ∈ t.partials, x.1 / 4096 ≠ c) ∧
  ∀ k gr nd, amGet s.grids k = some gr →
    (∃ id b, s.blk id = some b ∧ b.ctx = c ∧ b.grid = k) ∨ (∃ y ∈ (s.ctx c).saved, y.block.grid = k) ∨ (gr.ctx = c ∧ gr.state ≠ .ended) →
    s.node gr.graph gr.node = some nd → nd.state = 2 → nd.grid = some k → nd.ending = none → FaultWaits t gr.graph gr.node k 0x42

/-- Blocks that a restore loses (04 R101): those with a bad page, with their clusters and what else their grids have saved; their nodes fault with
RESTORE_CORRUPT. -/
def BlocksLost (r t : State) (c : Nat) : Prop :=
  let saved := (r.ctx c).saved
  let hit := fun (y : SavedBlock) => saved.any fun z => r.pagesBad c z && z.block.cluster == y.block.cluster
  (t.ctx c).saved = saved.filter (fun y => !(saved.any fun z => hit z && z.block.grid == y.block.grid)) ∧
  ∀ z ∈ saved, hit z = true → ∀ gr nd, amGet r.grids z.block.grid = some gr → r.node gr.graph gr.node = some nd → nd.state = 2 →
    nd.grid = some z.block.grid → nd.ending = none → FaultWaits t gr.graph gr.node z.block.grid cRestoreCorrupt

/-- A command on queue q moves it to a state and ends with RESULT 0; every other queue stays. -/
def QueueMoves (i : Instr) (s : State) (q : Nat) (new : QState) : Prop :=
  Does i s fun t => (t.queue q).state = new ∧ (∀ p, p ≠ q → t.queue p = s.queue p) ∧
    t.qSts = (s.qSts &&& 16#64) ||| BitVec.ofNat 64 (q % 1024 * 2 ^ 16)

/-- A command on queue q changes nothing but QSTS, whose RESULT is a code (05 R103). -/
def QueueRefused (i : Instr) (s : State) (q code : Nat) : Prop :=
  exec i s = .next { s with qSts := (s.qSts &&& 16#64) ||| BitVec.ofNat 64 (code * 2 + q % 1024 * 2 ^ 16) }

end Sys2Proof.Claims

/-- The commands on contexts (04 R89, R91, R92, R95 to R97): each moves a context from the states of R92 that accept it, and is refused with RESULT 1
(BAD_STATE) in every other; LOAD refuses a bad descriptor with 2, and RUN with 3 where no slot is free. -/
def Sys2Proof.Claims.ContextCommands : Prop :=
  ∀ (s : State) (c : Nat), c < 256 →
    let st := (s.ctx c).state
    (st = .destroyed → Claims.Moves (.ctxCreate c) s c .created ∧
      Claims.Does (.ctxCreate c) s fun t => (t.ctx c).gen = (s.ctx c).gen ∧ (t.ctx c).active = false) ∧
    (st ≠ .destroyed → Claims.CtxRefused (.ctxCreate c) s c 1) ∧
    (st = .created → s.loadBad (s.latched (s.ctx c) (s.ctxDesc c)) = true → Claims.CtxRefused (.ctxLoad c) s c 2) ∧
    (st = .created → s.loadBad (s.latched (s.ctx c) (s.ctxDesc c)) = false → Claims.Moves (.ctxLoad c) s c .loaded ∧
      Claims.Does (.ctxLoad c) s fun t => (t.ctx c).tvec = s.read64 (s.ctxDesc c + 0x20) ∧ (t.ctx c).cvec = s.read64 (s.ctxDesc c + 0x28) ∧
        (t.ctx c).ptroot = bitsOf (s.read64 (s.ctxDesc c + 8)) 51 12 * 2 ^ 12 ∧ (t.ctx c).seed0 = s.read64 (s.ctxDesc c + 0x58)) ∧
    (st ≠ .created → Claims.CtxRefused (.ctxLoad c) s c 1) ∧
    (st = .loaded ∨ st = .parked → 16 ≤ s.activeCount → Claims.CtxRefused (.ctxRun c) s c 3) ∧
    (st = .loaded → s.activeCount < 16 → Claims.Moves (.ctxRun c) s c .running ∧ Claims.Does (.ctxRun c) s fun t => (t.ctx c).active = true) ∧
    (st = .parked → s.activeCount < 16 → s.pageOk (s.ctx c).savepa c 0 (s.ctx c).gen = true →
      let r := ((s.updCtx c fun x => { x with sealed := false, active := true, restoring := true }).loadMonitors c).setCtxState c .running
      Claims.Does (.ctxRun c) s fun t => (t.ctx c).active = true ∧ (t.ctx c).restoring = true ∧
        Claims.BlocksLost r t c ∧
        ∀ k, k < 4096 → s.pageOk (s.ctx c).savepa c (1 + k * 40 / 4096) (s.ctx c).gen = false →
          amGet r.partials (partialKey c (k % 16) (k / 16)) = some ⟨cellInvalid, 0⟩) ∧
    (st = .parked → s.activeCount < 16 → s.pageOk (s.ctx c).savepa c 0 (s.ctx c).gen = false → Claims.Moves (.ctxRun c) s c .faulted ∧
      Claims.Does (.ctxRun c) s fun t => (t.ctx c).fcause = 0x19) ∧
    (st ≠ .loaded → st ≠ .parked → Claims.CtxRefused (.ctxRun c) s c 1) ∧
    (st = .running → s.hasBlocks c = true → Claims.Moves (.ctxDrain c) s c .draining) ∧
    (st = .running → s.hasBlocks c = false → Claims.Moves (.ctxDrain c) s c .parking) ∧
    (st ≠ .running → Claims.CtxRefused (.ctxDrain c) s c 1) ∧
    (st = .running ∨ st = .draining → Claims.Moves (.ctxPark c) s c .parking) ∧
    (st ≠ .running → st ≠ .draining → Claims.CtxRefused (.ctxPark c) s c 1) ∧
    (st = .running ∨ st = .draining ∨ st = .parking ∨ st = .parked ∨ st = .faulted →
      Claims.Does (.ctxReset c) s fun t => Claims.ResetBegins s t c ∧ t.ctxSts = (s.ctxSts &&& 16#64) ||| BitVec.ofNat 64 (c % 256 * 2 ^ 8)) ∧
    (st = .destroyed ∨ st = .created ∨ st = .loaded ∨ st = .resetting → Claims.CtxRefused (.ctxReset c) s c 1) ∧
    (st = .created ∨ st = .loaded ∨ st = .parked → Claims.Does (.ctxDestroy c) s fun t =>
      (t.ctx c).state = .destroyed ∧ (∀ g ∈ t.graphs, g.2.ctx ≠ c) ∧ (∀ k ∈ t.grids, k.2.ctx ≠ c) ∧ ∀ w ∈ t.recWrites, w.1 ≠ c) ∧
    (st ≠ .created → st ≠ .loaded → st ≠ .parked → Claims.CtxRefused (.ctxDestroy c) s c 1)

/-- What happens to contexts by themselves (04 R92, R96, R97, R100, R101): the deadlines, the end of a reset, a group that is parked at a run boundary, the
end of a save and the return of a saved block. (A block whose core's die has gone out of service since the park never returns: the model's choice,
log 40.) -/
def Sys2Proof.Claims.ContextEvents : Prop :=
  ∀ (s : State) (c : Nat),
    let x := s.ctx c
    (x.state = .draining → x.d1 ≠ 0 → x.d1 ≤ x.dcnt → Claims.Does (.d1Expire c) s fun t => (t.ctx c).state = .parking ∧ (t.ctx c).dcnt = 0) ∧
    (x.state = .parking → x.d2 ≤ x.dcnt → Claims.Does (.d2Expire c) s fun t => Claims.ResetBegins s t c) ∧
    (x.state = .resetting → s.hasBlocks c = false →
      Claims.Does (.resetComplete c) s fun t => (t.ctx c).state = .loaded ∧ (t.ctx c).active = false ∧
        ∀ x ∈ t.partials, x.1 / 4096 ≠ c) ∧
    (∀ a g b, s.grp a = some g → s.blk g.block = some b → s.canPark a = true →
      Claims.Does (.groupParkStop a) s fun t => ∃ h, t.grp a = some h ∧ h.state = .parked ∧ h.dep = none ∧ h.vreds = [] ∧ a ∉ t.issue) ∧
    (s.canSave c = true → Claims.Does (.saveComplete c) s fun t => (t.ctx c).state = .parked ∧ (t.ctx c).active = false ∧
      (t.ctx c).restoring = false ∧ (t.ctx c).gen = x.gen + 1 ∧ (∀ y ∈ t.partials, y.1 / 4096 ≠ c) ∧
      (∀ id b, s.blk id = some b → b.ctx = c → ∃ y ∈ (t.ctx c).saved, y.id = id ∧ y.block.core = b.core) ∧
      (amSorted s.blocks = true → ∀ id b, t.blk id = some b → b.ctx ≠ c)) ∧
    (s.canReload c = true → ∀ k, x.saved.find? (s.canReturnTo c) = some k → s.pagesBad c k = false →
      Claims.Does (.restoreReload c) s fun t => t.blk k.id = some k.block ∧ ∀ y ∈ (t.ctx c).saved, y.id ≠ k.id) ∧
    (s.canReload c = true → ∀ k, x.saved.find? (s.canReturnTo c) = some k → s.pagesBad c k = true →
      Claims.Does (.restoreReload c) s fun t => Claims.BlocksLost s t c) ∧
    (s.canReload c = true → x.saved = [] → Claims.Does (.restoreReload c) s fun t => (t.ctx c).restoring = false)

/-- Contexts (04): their commands, and what happens to them by themselves.
Forms that this statement says complete (the answer of `exec` is a next state with their effect): `ctxCreate`, `ctxLoad`, `ctxRun`, `restoreReload`,
`ctxDrain`, `ctxPark`, `ctxReset`, `ctxDestroy`, `d1Expire`, `d2Expire`, `saveComplete`, `resetComplete`, `groupParkStop`. -/
def Obligations.Contexts : Prop :=
  Claims.ContextCommands ∧ Claims.ContextEvents

/-- The commands on queues (05 R103, R108, R112; that a DRAIN which finds TAIL out of order ends with RESULT 0 is the model's choice, log 32): OPEN latches a header that R112 admits and refuses another with RESULT 2; DRAIN takes TAIL as it can be read
now for DLIMIT, FAULTED with code 2 where it is out of order, and is busy until the host's answer where TAIL must be asked for; every command is
refused with RESULT 1 in the states that R112 does not list for it. -/
def Sys2Proof.Claims.QueueCommands : Prop :=
  ∀ (s : State) (q : Nat), q < 1024 →
    let st := (s.queue q).state
    (st = .closed → s.headerBad (s.headerQueue q) = true → Claims.QueueRefused (.queueOpen q) s q 2) ∧
    (st = .closed → s.headerBad (s.headerQueue q) = false → Claims.QueueMoves (.queueOpen q) s q .idle ∧
      Claims.Does (.queueOpen q) s fun t => (t.queue q).head = 0 ∧ (t.queue q).done = 0 ∧ (t.queue q).fcode = 0 ∧
        (t.queue q).ctx = bitsOf (s.read64 (s.queueHdr q)) 23 16 ∧ (t.queue q).ring = s.read64 (s.queueHdr q + 8)) ∧
    (st ≠ .closed → Claims.QueueRefused (.queueOpen q) s q 1) ∧
    (st = .idle ∨ st = .watching ∨ st = .active → Claims.QueueMoves (.queuePause q) s q .paused) ∧
    (st = .closed ∨ st = .draining ∨ st = .paused ∨ st = .faulted → Claims.QueueRefused (.queuePause q) s q 1) ∧
    (st = .paused → Claims.QueueMoves (.queueResume q) s q .idle) ∧
    (st ≠ .paused → Claims.QueueRefused (.queueResume q) s q 1) ∧
    (s.isMemory (s.tailPa q) = true → s.tailNow q = some (s.read64 (s.tailPa q))) ∧
    (st = .idle ∨ st = .watching ∨ st = .active ∨ st = .paused →
      (∀ tail, s.tailNow q = some tail →
        (tail < (s.queue q).head ∨ (s.queue q).done.toNat + 2 ^ (s.queue q).log2n < tail.toNat → Claims.QueueMoves (.queueDrain q) s q .faulted ∧
          Claims.Does (.queueDrain q) s fun t => (t.queue q).fcode = 2) ∧
        (¬ (tail < (s.queue q).head ∨ (s.queue q).done.toNat + 2 ^ (s.queue q).log2n < tail.toNat) →
          Claims.QueueMoves (.queueDrain q) s q .draining ∧ Claims.Does (.queueDrain q) s fun t => (t.queue q).dlimit = tail.truncate 56)) ∧
      (s.tailNow q = none → Claims.Does (.queueDrain q) s fun t => t.queue q = { s.queue q with drainDue := true } ∧ t.qSts = s.qSts)) ∧
    (st = .closed ∨ st = .draining ∨ st = .faulted → Claims.QueueRefused (.queueDrain q) s q 1) ∧
    (st = .idle ∨ st = .watching ∨ st = .paused ∨ st = .faulted → Claims.QueueMoves (.queueClose q) s q .closed) ∧
    (st = .closed ∨ st = .active ∨ st = .draining → Claims.QueueRefused (.queueClose q) s q 1) ∧
    (st = .faulted → Claims.QueueMoves (.queueClear q) s q .paused ∧ Claims.Does (.queueClear q) s fun t => (t.queue q).fcode = 0) ∧
    (st ≠ .faulted → Claims.QueueRefused (.queueClear q) s q 1)

/-- What queues do by themselves (05 R107 to R112, 06 R110): a queue WATCHING or ACTIVE whose context is not RUNNING is IDLE; one that observes TAIL
is FAULTED with code 2 where TAIL lies before HEAD or more than its entries beyond DONE, is ACTIVE where something is pending and WATCHING else; a
drained queue closes; an entry of the ring is taken with HEAD past it, or faults the queue; a launch that wins is admitted, with `flying` its
graph, and one that is refused faults its queue; an entry that waits raises its queue's priority. The model's choices here, all of log 32: a drained
queue closes whatever its context's state; a queue armed anew with a launch in flight is ACTIVE; a queue closed since it took a launch drops one
that is refused; a taken entry ages in every state of its queue and context. -/
def Sys2Proof.Claims.QueueEvents : Prop :=
  ∀ (s : State) (q die : Nat) (host : BitVec 64),
    let x := s.queue q
    let running := (s.ctx x.ctx).state = .running
    (s.launchBad x = false → x.drainDue = false →
      (x.state = .watching ∨ x.state = .active → ¬ running → s.queueFired q = false → Claims.Does (.tailObservation q host) s fun t => (t.queue q).state = .idle) ∧
      (x.state = .idle ∨ ((x.state = .watching ∨ x.state = .active) ∧ s.queueFired q = true) → running → ∀ tail, s.tailNow q = some tail →
        (tail < x.head ∨ x.done.toNat + 2 ^ x.log2n < tail.toNat →
          Claims.Does (.tailObservation q host) s fun t => (t.queue q).state = .faulted ∧ (t.queue q).fcode = 2) ∧
        (¬ (tail < x.head ∨ x.done.toNat + 2 ^ x.log2n < tail.toNat) →
          Claims.Does (.tailObservation q host) s fun t => (t.queue q).tail = tail ∧
            (t.queue q).state = if tail ≠ x.head ∨ x.done ≠ x.head then .active else .watching)) ∧
      (x.state = .draining → x.head.truncate 56 = x.dlimit → x.done = x.head →
        Claims.Does (.tailObservation q host) s fun t => (t.queue q).state = .closed)) ∧
    (s.launchBad x = true → x.state ≠ .closed → Claims.Does (.tailObservation q host) s fun t =>
      (t.queue q).state = .faulted ∧ (t.queue q).fcode = 4 ∧ (t.queue q).head = x.head - 1 ∧ (t.queue q).entry = none) ∧
    (s.launchBad x = true → x.state = .closed → Claims.Does (.tailObservation q host) s fun t => t.queue q = { x with entry := none }) ∧
    (∀ v u, s.canObserve q = false → s.mayTake x = true →
      s.ctxRead x.ctx ((x.ring.toNat + x.head.toNat % 2 ^ x.log2n * 32) % 2 ^ 64) 32 = .ok v u →
      let kind := v / 2 ^ 96 % 2 ^ 8
      (v / 2 ^ 64 % 2 ^ 32 ≠ x.head.toNat % 2 ^ 32 ∨ kind = 0 ∨ 3 < kind →
        Claims.Does (.tailObservation q host) s fun t => (t.queue q).state = .faulted ∧ (t.queue q).fcode = 1) ∧
      (∀ d, v / 2 ^ 64 % 2 ^ 32 = x.head.toNat % 2 ^ 32 → kind = 1 → u.partDone.graphDie x.ctx (v % 2 ^ 64) = some (some d) →
        Claims.Does (.tailObservation q host) s fun t => (t.queue q).head = x.head + 1 ∧
          (t.queue q).entry = some (BitVec.ofNat 64 v, BitVec.ofNat 64 (v / 2 ^ 128), BitVec.ofNat 64 (v / 2 ^ 192)))) ∧
    (∀ y va compl cval, s.canAdmit die = true → s.winner die = some (q, y) → y.entry = some (va, compl, cval) →
      (∀ g t, s.admitGraph y.ctx va.toNat die (some q) none = .ok g t →
        Claims.Does (.queueAdmit die) s fun v => (v.queue q).flying = some g ∧ (v.queue q).eff = y.prio ∧ (v.die die).lastQueue = q ∧
          (v.die die).admitClk = s.clk.toNat + 16) ∧
      (∀ t, s.admitGraph y.ctx va.toNat die (some q) none = .refused t → (s.queue q).state ≠ .closed →
        Claims.Does (.queueAdmit die) s fun v => (v.queue q).state = .faulted ∧ (v.queue q).fcode = 4)) ∧
    (x.entry.isSome = true → x.flying = none → x.eff < 7 → x.waitClk + 4096 ≤ s.clk.toNat →
      exec (.queuePriorityAging q) s = .next (s.setQueue q { x with eff := x.eff + 1, waitClk := x.waitClk + 4096 }))

/-- Queues (05): their commands, and what they do by themselves.
Forms that this statement says complete (the answer of `exec` is a next state with their effect): `queueOpen`, `queuePause`, `queueResume`,
`queueDrain`, `queueClose`, `queueClear`, `tailObservation`, `queueAdmit`, `queuePriorityAging`. -/
def Obligations.Queues : Prop :=
  Claims.QueueCommands ∧ Claims.QueueEvents

/-! ### Events: graphs (06), launches (07), Lacers and engines (12) -/

namespace Sys2Proof.Claims

/-- One token reaches a node (06 R122, R125): HAVE goes up, and at NEED the node is READY; a node that is not WAITING drops it. -/
def tokenOnce (now : Nat) (y : Node) : Node :=
  if y.state = 0 then
    if y.haveTok + 1 = y.need then { y with haveTok := y.haveTok + 1, state := 1, readyClk := now, raised := 0 }
    else { y with haveTok := y.haveTok + 1 }
  else y

/-- The other nodes of graph g are as they were, but for what f makes of each. -/
def OthersTo (s t : State) (g n : Nat) (f : Nat → Node → Node) : Prop :=
  ∀ m y, m ≠ n → s.node g m = some y → t.node g m = some (f m y)

/-- RUNNING, work done (06 R122, R125): the node is DONE with STATUS 0x40, or 0x41 after a retry, and its tokens have been sent, one for each
of its links, unless they had been before; nothing of its attempt remains. -/
def NodeDone (s t : State) (g n : Nat) (nd : Node) : Prop :=
  NodeIs t g n (fun y => y.state = 4 ∧ y.status = (if nd.rused = 0 then 0x40 else 0x41) ∧ y.toksent = true ∧ y.rused = nd.rused ∧
    y.grid = none ∧ y.child = none ∧ y.engine = none ∧ y.ending = none) ∧
  OthersTo s t g n fun m y => Nat.repeat (tokenOnce s.clk.toNat) (if nd.toksent then 0 else nd.succs.count m) y

/-- CANCELLING, work over (06 R125): the node is CANCELLED, with STATUS 0x43, or the 0x48 of the halt that reached it; no token is sent. -/
def NodeCancelled (s t : State) (g n : Nat) (nd : Node) : Prop :=
  NodeIs t g n (fun y => y.state = 6 ∧ y.status = nd.ending.getD 0x43 ∧ y.toksent = nd.toksent ∧ y.grid = none ∧ y.child = none ∧
    y.engine = none) ∧
  OthersTo s t g n fun _ y => y

/-- RUNNING, fault (06 R125, R127, R129, R130): where POLICY, IDEMPOTENT and the budget allow a retry the node is READY again with RUSED one
more; else it is FAILED and its policy follows: a HALT_GRAPH action is due, or FAILED takes the index where it holds none and a cone walk has
appended every successor that had not been. STATUS is the cause, and no token is sent. -/
def NodeFaulted (s t : State) (g n : Nat) (x : Graph) (nd : Node) (cause : Nat) : Prop :=
  if nd.policy = 1 ∧ nd.idem = true ∧ nd.rused < nd.rbudget then
    NodeIs t g n (fun y => y.state = 1 ∧ y.status = cause ∧ y.rused = nd.rused + 1 ∧ y.readyClk = s.clk.toNat ∧ y.raised = 0 ∧
      y.grid = none ∧ y.child = none ∧ y.engine = none ∧ y.toksent = nd.toksent) ∧ OthersTo s t g n fun _ y => y
  else
    NodeIs t g n (fun y => y.state = 5 ∧ y.status = cause ∧ y.rused = nd.rused ∧ y.grid = none ∧ y.child = none ∧ y.engine = none ∧
      y.toksent = nd.toksent) ∧
    (nd.policy = 3 → (∃ z, amGet t.graphs g = some z ∧ z.halts = x.halts ++ [n] ∧ z.failed = x.failed ∧ z.wact = x.wact) ∧
      OthersTo s t g n fun _ y => y) ∧
    (nd.policy ≠ 3 → ∃ z, amGet t.graphs g = some z ∧ z.failed = (if x.failed = 0xFFFF then n else x.failed) ∧ z.halts = x.halts ∧
      (∀ m ∈ nd.succs, ∀ y, t.node g m = some y → y.walked = true) ∧
      ((∃ m ∈ nd.succs, NodeIs s g m fun y => y.walked = false) → z.wact = true) ∧
      ∀ m y, m ≠ n → s.node g m = some y → NodeIs t g m fun z => z.state = y.state ∧ z.status = y.status ∧ z.haveTok = y.haveTok)

/-- The row of R125 for a visit, a `gcancel` or a halt: the state and STATUS that a node takes. One that is to fail for good, and only waits
for its blocks to leave, is cancelled no more (the model's choice, log 33). -/
def Visited (nd y : Node) (status : Nat) : Prop :=
  if nd.state = 0 ∨ nd.state = 1 then y.state = 6 ∧ y.status = status
  else if nd.state = 2 ∧ nd.failing = false then y.state = 3 ∧ y.status = nd.status ∧ y.ending = some status
  else if nd.state = 4 then y.state = 7 ∧ y.status = nd.status
  else y.state = nd.state ∧ y.status = nd.status

/-- The key that R123 orders the firings of a Marionette by: the priority raised by aging, up to 7; the clock at which the node became
READY; the clock of the graph's admission; then graph and index. -/
def fireKey (z : Nat × Nat × Graph × Node) : List Nat :=
  [7 - min 7 ((if z.2.2.2.povr then z.2.2.2.prio else z.2.2.1.prio) + z.2.2.2.raised), z.2.2.2.readyClk, z.2.2.1.admitted, z.1, z.2.1]

/-- The node as a firing leaves it, before its work is started (06 R115, R123, R126, R412): RUNNING, with its LSEQ, T_FIRE, the variant, the
words read and the limit of a WAIT or HOST node. -/
def firedNode (s : State) (x : Graph) (nd : Node) (vals : List Nat) : Node :=
  let w := fun (k : Nat) => BitVec.ofNat 64 (vals.getD k 0)
  { nd with
    state := 2, lseq := s.lseq, tFire := s.clk.toNat, waited := 0, ending := none, starting := some vals,
    vsel := if nd.kind = 1 then nd.variant (s.ctx x.ctx).pinVariant else nd.vsel,
    work := #v[w 0, w 1, w 2, w 3],
    limit := if nd.kind = 5 then vals.getD 3 0 else if nd.kind = 7 then vals.getD 1 0 else 0 }

/-- A firing's writes to the record, in order, after the reads that left u: LSEQ, T_FIRE, of a kernel VSEL, then STATE; the device's launch
counter goes on. -/
def firedRecord (s u : State) (g n : Nat) (x : Graph) (nd : Node) (vals : List Nat) : State :=
  let va := (x.nodesVa.toNat + n * 128) % 2 ^ 64
  let a := ({ u.partDone with lseq := s.lseq + 1 }).marWrite x.ctx (va + 0x60) (BitVec.allOnes 64) s.lseq
  let b := a.marWrite x.ctx (va + 0x68) (BitVec.allOnes 64) s.clk
  let c := if nd.kind = 1 then
      b.marWrite x.ctx va 0xFFFFC0000000C000 (BitVec.ofNat 64 (nd.variant (s.ctx x.ctx).pinVariant * 2 ^ 14))
    else b
  c.putNode g n (firedNode s x nd vals)

/-- The work of R121 has begun in t, from z, where the node's record says RUNNING: a kernel's grid is with the distributor, with the descriptor
and phases read; an engine of the die's row with the least work has the node, the lowest on ties; a FILL of length 0 is done at once; a WAIT
node's word is watched; a HOST node has written LSEQ to its mailbox and watches the word after it; a subgraph node's child is admitted. -/
def Began (z : State) (g n : Nat) (x : Graph) (nd : Node) (vals : List Nat) (t : State) : Prop :=
  let watched := fun (pa : Nat) => NodeIs t g n (fun y => y.state = 2 ∧ y.starting = none ∧ y.watchPa = pa) ∧
    ∃ w ∈ t.watches, w.kind = .node g n ∧ w.pa = pa ∧ w.size = 8 ∧ w.fired = false
  (nd.kind = 1 → ∃ k gr, NodeIs t g n (fun y => y.state = 2 ∧ y.starting = none ∧ y.grid = some k) ∧ amGet t.grids k = some gr ∧
    gr.graph = g ∧ gr.node = n ∧ gr.lseq = nd.lseq ∧ gr.ctx = x.ctx ∧ gr.die = x.die ∧ gr.desc = KDesc.ofCode (vals.headD 0) ∧
    gr.phases = vals.drop 1 ∧ gr.state = .dispatching ∧ gr.nextCluster = 0 ∧ gr.prio = (if nd.povr then nd.prio else x.prio)) ∧
  (nd.kind = 2 ∨ (nd.kind = 3 ∧ vals.getD 1 0 ≠ 0) ∨ nd.kind = 4 → ∃ e, x.die / 2 * 16 ≤ e ∧ e < x.die / 2 * 16 + 16 ∧
    (let load := fun (f : Nat) => (z.engine f).work.length + (z.engine f).descs.length
     ∀ f, x.die / 2 * 16 ≤ f → f < x.die / 2 * 16 + 16 → load e ≤ load f ∧ (f < e → load e < load f)) ∧
    NodeIs t g n (fun y => y.state = 2 ∧ y.starting = none ∧ y.engine = some e) ∧ (t.engine e).work = (z.engine e).work ++ [(g, n)]) ∧
  (nd.kind = 3 → vals.getD 1 0 = 0 → NodeDone z t g n nd) ∧
  (nd.kind = 5 → ∀ pa, z.walkCheck x.ctx (vals.getD 0 0) .read true = .ok pa → watched pa) ∧
  (nd.kind = 6 → x.depth < 8 → ∀ d c u, z.graphDie x.ctx nd.payload.toNat = some (some d) →
    z.admitGraph x.ctx nd.payload.toNat d none (some (g, n)) = .ok c u → c ≠ g →
    NodeIs t g n (fun y => y.state = 2 ∧ y.child = some c) ∧ ∃ w, amGet t.graphs c = some w ∧ w.parent = some (g, n) ∧ w.state = 1 ∧
      w.die = d ∧ w.ctx = x.ctx) ∧
  (nd.kind = 7 → ∀ u pa, z.ctxWrite x.ctx (vals.getD 0 0) 8 nd.lseq.toNat true = .ok 0 u →
    u.walkCheck x.ctx ((vals.getD 0 0 + 8) % 2 ^ 64) .read true = .ok pa → watched pa ∧ t.mem = u.mem)

/-- GSTATUS of a completed launch: the first row of R120 that applies. (Of nodes DONE and TAINTED only, which no row names, the model gives
OK: log 33.) -/
def gstatus (x : Graph) : Nat :=
  if x.nodes.any (fun y => y.state == 0) then 5
  else if x.halted then 3
  else if x.cancelled then 4
  else if x.nodes.any (fun y => y.state == 5 || y.state == 6) then 2
  else 1

/-- The words of a completed header, in the order of R120: T_END, FAILED where a node is still WAITING, GSTATUS, STATE. -/
def endWords (s : State) (x : Graph) : State :=
  let h := x.va.toNat
  let a := s.marWrite x.ctx (h + 0x38) (BitVec.allOnes 64) s.clk
  let b := match x.nodes.findIdx? fun y => y.state == 0 with
    | some n => a.marWrite x.ctx h (headerRsv ||| 0xFFFF00000000) (BitVec.ofNat 64 (n * 2 ^ 32))
    | none => a
  (b.marWrite x.ctx h (headerRsv ||| 0xF0) (BitVec.ofNat 64 (gstatus x * 16))).marWrite x.ctx h (headerRsv ||| 0xF) 3

/-- Nothing of a graph's launch remains (R120): no node is READY, RUNNING or CANCELLING, no walk or halt is due, and no block, engine work or
child graph of it is there. -/
def LaunchOver (s : State) (g : Nat) (x : Graph) : Prop :=
  (∀ y ∈ x.nodes, y.state ≠ 1 ∧ y.state ≠ 2 ∧ y.state ≠ 3) ∧ x.wact = false ∧ x.halts = [] ∧
  (∀ b ∈ s.blocks, ∀ k, amGet s.grids b.2.grid = some k → k.graph ≠ g) ∧
  (∀ e ∈ s.engines, ∀ w ∈ e.2.work, w.1 ≠ g) ∧ ∀ y ∈ s.graphs, ∀ p, y.2.parent = some p → p.1 ≠ g

/-- A launch ends: the graph is gone; the entry of its queue completes, with COMPL written where it is given (05 R109); of a child its node is
DONE where GSTATUS is OK, CANCELLED where it was being cancelled, and fails with CHILD_FAILED, 0x44, else (R121). -/
def LaunchEnds (v t : State) (g : Nat) (x : Graph) : Prop :=
  let w := { v with graphs := amDel v.graphs g }
  (amSorted v.graphs = true → amGet t.graphs g = none) ∧
  (∀ q, x.parent = none → x.queue = some q → (v.queue q).flying = some g →
    let z := { v.queue q with entry := none, flying := none, eff := (v.queue q).prio }
    (x.compl = 0 → t.queue q = { z with done := (v.queue q).done + 1 }) ∧
    (x.compl ≠ 0 → x.compl.toNat % 8 = 0 → ∀ u, (w.putQueue q z).ctxWrite x.ctx x.compl.toNat 8 x.cval.toNat false = .ok 0 u →
      t.queue q = { z with done := (v.queue q).done + 1 })) ∧
  ∀ p n px y, x.parent = some (p, n) → amGet w.graphs p = some px → w.node p n = some y →
    (y.state = 2 → gstatus x = 1 → NodeDone w t p n y) ∧ (y.state = 3 → NodeCancelled w t p n y) ∧
    (y.state = 2 → gstatus x ≠ 1 → y.grid = none → y.ending = none → NodeFaulted w t p n px y 0x44)

/-- A write of the Marionette to a word of a record in the HBM, where none waits before it: the bits of the mask are written, the word's other
bits and every other byte stay. -/
def RecordWord : Prop :=
  ∀ (s : State) (c va pa : Nat) (mask val : BitVec 64),
    s.recWaits c = false → s.direct c va .read true = (.ok pa, s) →
    (let u := (s.touchHome Config.computeDies pa).partUsed c va
     u.direct c va .write true = (.ok pa, u)) →
    s.isHbm pa = true → s.poisoned pa 8 = false → Memory.wf s.mem = true →
    let t := s.marWrite c va mask val
    t.read64 pa = (s.read64 pa &&& ~~~mask) ||| (val &&& mask) ∧ (∀ k, k < pa ∨ pa + 8 ≤ k → byteAt t.mem k = byteAt s.mem k) ∧
      t.recWrites = s.recWrites

/-- R126: the variant that a firing chooses. -/
def VariantChosen : Prop :=
  ∀ (nd : Node) (pin : Bool), nd.nvar < 4 →
    let time := fun (v : Nat) => vget nd.times v 0
    let v := nd.variant pin
    (pin = true ∨ nd.rused ≠ 0 → v = nd.vsel) ∧
    (pin = false → nd.rused = 0 → v ≤ nd.nvar ∧
      (∀ w, w ≤ nd.nvar → time w = 0 → time v = 0 ∧ v ≤ w) ∧
      ((∀ w, w ≤ nd.nvar → time w ≠ 0) → ∀ w, w ≤ nd.nvar → time v ≤ time w ∧ (w < v → time v < time w)))

/-- `graphComplete` (R120): once nothing of the launch remains and the writes of its context are performed, T_END, GSTATUS and STATE are written;
once those are performed, COMPLETION + 1; once that one is and the entry's word can be written, the launch ends. -/
def GraphCompletes : Prop :=
  ∀ (s : State) (g : Nat) (x : Graph), amGet s.graphs g = some x → s.graphStuck g = false → s.ctxWrites x.ctx = false →
    let finish := fun (u : State) =>
      let v := (u.marWrite x.ctx (x.va.toNat + 0x18) (BitVec.allOnes 64) (x.completion + 1)).updGraph g fun y => { y with told := true }
      let go := v.graphStuck g = false ∧ v.ctxWrites x.ctx = false ∧ v.complReady x.ctx x.compl.toNat = true
      (¬ go → exec (.graphComplete g) s = .next v) ∧ (go → Does (.graphComplete g) s fun t => LaunchEnds v t g x)
    (x.told = true → s.complReady x.ctx x.compl.toNat = true → x.state = 3 → Does (.graphComplete g) s fun t => LaunchEnds s t g x) ∧
    (x.told = false → x.state = 3 → finish s) ∧
    (x.told = false → x.state ≠ 3 → LaunchOver s g x →
      let u := (endWords s x).updGraph g fun y => { y with state := 3 }
      (u.graphStuck g = true ∨ u.ctxWrites x.ctx = true → exec (.graphComplete g) s = .next u) ∧
      (u.graphStuck g = false → u.ctxWrites x.ctx = false → finish u))

/-- `nodeFire` (R121, R123, R126, R412): of the nodes that may fire the one that R123 puts first; its record says RUNNING before its work begins;
a fault of what the firing reads fails it. -/
def NodeFires : Prop :=
  ∀ (s : State) (die g n : Nat) (x : Graph) (nd : Node), amGet s.graphs g = some x → s.node g n = some nd →
    s.canFire die = true → (g, n, x, nd) ∈ s.fireable die → (∀ z ∈ s.fireable die, z ≠ (g, n, x, nd) → fireKey (g, n, x, nd) < fireKey z) →
    nd.grid = none →
    let r := s.setDie die { s.die die with fireClk := s.clk.toNat + 8 }
    (∀ u, r.askChild x nd = some u → exec (.nodeFire die) s = .next u) ∧
    (r.askChild x nd = none →
      (∀ u, r.fireReads x nd = .wait u → exec (.nodeFire die) s = .next u) ∧
      (∀ vals u, r.fireReads x nd = .ok vals u →
        let new := firedNode s x nd vals
        let z := firedRecord s u g n x nd vals
        z.node g n = some new ∧ z.lseq = s.lseq + 1 ∧ (z.die die).fireClk = s.clk.toNat + 8 ∧
        (z.canStartWork x new vals = false → exec (.nodeFire die) s = .next z) ∧
        (z.canStartWork x new vals = true →
          Does (.nodeFire die) s (Began (z.updNode g n fun y => { y with starting := none }) g n x new vals))) ∧
      (∀ c u, r.fireReads x nd = .fault c u →
        Does (.nodeFire die) s fun t => NodeFaulted s t g n x nd c ∧ (t.die die).fireClk = s.clk.toNat + 8))

/-- `nodeWorkDone` and `nodeTimeout` (R121, R125, R127, R412): a node whose record says RUNNING starts its work; a kernel is done with the last block of
its grid, or takes the fault that discarded it; a WAIT node is done where its comparison holds and a HOST node where word 1 is its LSEQ; a fault of
that read, and a timeout, fail the node; a CANCELLING node with nothing left is CANCELLED. -/
def NodesEnd : Prop :=
  ∀ (s : State) (g n : Nat) (x : Graph) (nd : Node), amGet s.graphs g = some x → s.node g n = some nd → s.graphStuck g = false →
    let event : Instr := .nodeWorkDone g n
    ((s.ctx x.ctx).state = .running ∨ (s.ctx x.ctx).state = .draining ∨ (s.ctx x.ctx).state = .parking → (s.ctx x.ctx).restoring = false →
      (∀ vals, nd.state = 2 → nd.starting = some vals → s.canStartWork x nd vals = true →
        Does event s (Began (s.updNode g n fun y => { y with starting := none }) g n x nd vals)) ∧
      (∀ k gr, nd.state = 2 → nd.starting = none → nd.grid = some k → nd.ending = none → amGet s.grids k = some gr →
        gr.state = .resident → s.gridEmpty k = true →
        Does event s fun t => NodeDone s t g n nd ∧ (amSorted s.grids = true → amGet t.grids k = none) ∧
          ((s.ctx gr.ctx).pinVariant = false → NodeIs t g n fun y => y.times = vset nd.times nd.vsel (min gr.clocks (2 ^ 32 - 1)))) ∧
      (∀ k c, nd.state = 2 → nd.starting = none → nd.grid = some k → nd.ending = some c → s.gridEmpty k = true →
        Does event s fun t => NodeFaulted s t g n x nd c ∧ (amSorted s.grids = true → amGet t.grids k = none)) ∧
      (nd.state = 2 → nd.starting = none → nd.grid = none → nd.ending = none → nd.kind = 5 ∨ nd.kind = 7 →
        let va := if nd.kind = 5 then (vget nd.work 0 0).toNat else ((vget nd.work 0 0).toNat + 8) % 2 ^ 64
        let b := (vget nd.work 1 0).toNat
        let op := (vget nd.work 2 0).toNat
        (∀ v u, s.ctxRead x.ctx va 8 = .ok v u →
          (nd.kind = 5 ∧ ((op = 0 ∧ v = b) ∨ (op = 1 ∧ b ≤ v) ∨ (op = 2 ∧ v ≠ b))) ∨ (nd.kind = 7 ∧ v = nd.lseq.toNat) →
          Does event s fun t => NodeDone s t g n nd ∧ ∀ w ∈ t.watches, w.kind ≠ .node g n) ∧
        (∀ c u, s.ctxRead x.ctx va 8 = .fault c u →
          Does event s fun t => NodeFaulted s t g n x nd c ∧ ∀ w ∈ t.watches, w.kind ≠ .node g n)) ∧
      (nd.state = 3 → (∃ k, nd.grid = some k ∧ s.gridEmpty k = true) ∨ (nd.grid = none ∧ nd.child = none ∧ nd.engine = none) →
        Does event s fun t => NodeCancelled s t g n nd ∧ ∀ w ∈ t.watches, w.kind ≠ .node g n)) ∧
    (nd.state = 2 → nd.kind = 5 ∨ nd.kind = 7 → nd.limit ≠ 0 → nd.limit ≤ nd.waited → nd.grid = none → nd.ending = none →
      Does (.nodeTimeout g n) s fun t => NodeFaulted s t g n x nd 0x47 ∧ ∀ w ∈ t.watches, w.kind ≠ .node g n)

/-- `coneVisit` (R124, R125, R129, R130): a walk that is due visits the node at WHEAD, which takes the row of R125, and appends those of its successors
that had not been; the next visit of the Marionette comes 4 clocks later. Where no visit is due, the HALT_GRAPH action that is due for longest
halts the nodes of the failed node's fault domain. -/
def ConeVisits : Prop :=
  ∀ (s : State) (g n : Nat) (x : Graph) (nd : Node), amGet s.graphs g = some x → s.node g n = some nd → s.graphStuck g = false →
    x.nodes.length < 0xFFFF →
    let due := x.wact = true ∧ (s.ctx x.ctx).state = .running ∧ (s.ctx x.ctx).restoring = false ∧ x.visitClk ≤ s.clk.toNat ∧
      (s.die x.die).visitClk ≤ s.clk.toNat
    let fresh := nd.succs.filter fun m => (s.node g m).any fun y => !y.walked
    (due → x.whead = n → Does (.coneVisit g) s fun t =>
      NodeIs t g n (fun y => Visited nd y 0x43) ∧ (t.die x.die).visitClk = s.clk.toNat + 4 ∧
      (∀ m ∈ nd.succs, ∀ y, t.node g m = some y → y.walked = true) ∧
      ∃ z, amGet t.graphs g = some z ∧ z.whead = (if nd.wlink ≠ 0xFFFF then nd.wlink else fresh.headD 0xFFFF) ∧
        z.wact = decide (z.whead ≠ 0xFFFF)) ∧
    (∀ rest, ¬ due → x.halts = n :: rest → (∀ y ∈ x.nodes, y.state = 2 → y.child = none) → Does (.coneVisit g) s fun t =>
      (∃ z, amGet t.graphs g = some z ∧ z.halts = rest ∧ z.halted = true ∧ z.state = 2 ∧ z.failed = n) ∧
      (∀ m ∈ nd.succs, ∀ y, t.node g m = some y → y.walked = true) ∧
      ∀ m md, m ≠ n → s.node g m = some md → NodeIs t g m fun y =>
        if md.state ≤ 2 ∧ x.nodeFdom md = x.nodeFdom nd then
          Visited md y 0x48 ∧ ∀ j ∈ md.succs, ∀ w, t.node g j = some w → w.walked = true
        else y.state = md.state ∧ y.status = md.status)

end Sys2Proof.Claims

/-- What the Marionettes do (06 R114, R115, R120 to R130, R412): graphs complete, nodes fire, age, end their work, time out and are visited by cone walks,
each with the states, attempts and records that those rules give.
Forms that this statement says complete (the answer of `exec` is a next state with their effect): `graphComplete`, `nodeFire`, `nodeAging`,
`nodeWorkDone`, `coneVisit`, `nodeTimeout`. -/
def Obligations.GraphEvents : Prop :=
  Claims.RecordWord ∧ Claims.VariantChosen ∧ Claims.GraphCompletes ∧ Claims.NodeFires ∧ Claims.NodesEnd ∧ Claims.ConeVisits ∧
  ∀ (s : State) (g n : Nat) (nd : Node), s.node g n = some nd → nd.state = 1 → nd.raised < 7 → 4096 < s.clk.toNat - nd.readyClk →
    nd.raised < (s.clk.toNat - nd.readyClk) / 4096 → Claims.Does (.nodeAging g n) s fun t => t.node g n = some { nd with raised := nd.raised + 1 }

namespace Sys2Proof.Claims

/-- What R141 allows of the cores of a cluster, by rank: they are of one die, or, where the grid may straddle, of a permitted pair with the lower
half of the ranks on its first die; each is live and holds blocks of no other context; and the region's slot budgets admit the cluster. -/
def PlacementAllowed (s : State) (k : Grid) (cores : List Nat) : Prop :=
  cores.length = k.desc.cldim ∧ s.accsOk k = true ∧
  ((∃ d, d < 4 ∧ ∀ c ∈ cores, dieOf c = d) ∨
    (k.desc.straddle = true ∧ ∃ p ∈ [(0, 1), (2, 3), (0, 2), (1, 3)], ∀ i c, cores[i]? = some c →
      dieOf c = if i < (k.desc.cldim + 1) / 2 then p.1 else p.2)) ∧
  ∀ c ∈ cores, s.liveCd.getLsbD (dieOf c) = true ∧ ∀ b ∈ s.coreBlocks c, b.ctx = k.ctx

/-- A cluster admitted on cores of which no two are the same (07 R139, R140, R146): its blocks by rank, each launching on its core, in ascending number;
the cluster itself, which straddles where its cores are of two dies; and the grid, which goes on to its next cluster and is resident with its
last. -/
def ClusterAdmitted (s t : State) (grid : Nat) (k : Grid) (cores : List Nat) : Prop :=
  (∃ cl c, amGet t.clusters cl = some c ∧ c.blocks.length = cores.length ∧
    (c.split = true ↔ ∃ x ∈ cores, ∃ y ∈ cores, dieOf x ≠ dieOf y) ∧
    ∀ i core id, cores[i]? = some core → c.blocks[i]? = some id → ∃ b, t.blk id = some b ∧ b.core = core ∧ b.ctx = k.ctx ∧ b.grid = grid ∧
      b.bid = k.nextCluster * k.desc.cldim + i ∧ b.rank = i ∧ b.cluster = cl ∧ b.launching = true ∧ b.discarding = false) ∧
  (amGet s.grids grid = some k → ∃ j, amGet t.grids grid = some j ∧ j.nextCluster = k.nextCluster + 1 ∧ j.tried = false ∧ j.waited = 0 ∧
    j.reserved = [] ∧ j.started = true ∧
    j.state = if (k.nextCluster + 1) * k.desc.cldim = k.desc.gdim then .resident else .dispatching)

/-- The part with every resident block and every reservation absent, on which R140 chooses the cores that it reserves. -/
def bare (s : State) : State :=
  { s with blocks := [], groups := [],
           ctxs := amMap (fun _ (c : Ctx) => { c with restoring := false }) s.ctxs,
           grids := amMap (fun _ (g : Grid) => { g with reserved := [] }) s.grids,
           cores := amMap (fun _ (c : Core) => { c with recut := [] }) s.cores }

/-- A block has left its core (07 R148, 04 R92): its groups' slots are free, its Lacer commands, its spans and what is saved of it are gone, and the last block
of a DRAINING context takes it to PARKING. -/
def BlockGone (s t : State) (block : Nat) (b : Block) : Prop :=
  (amSorted s.blocks = true → t.blk block = none) ∧
  (amSorted s.groups = true → ∀ a g, s.grp a = some g → g.block = block → t.grp a = none) ∧
  (∀ l, ∀ k ∈ (t.core b.core).lacer l, k.block ≠ block) ∧
  (∀ y ∈ (t.ctx b.ctx).saved, y.id ≠ block) ∧
  (amSorted s.blocks = true → (s.ctx b.ctx).state = .draining → (∀ id c, s.blk id = some c → id ≠ block → c.ctx ≠ b.ctx) →
    (t.ctx b.ctx).state = .parking)

end Sys2Proof.Claims

/-- The distributors and the blocks (07 R139 to R141, R145, R146, R148): a placement is one that R141 allows; a cluster that finds its cores is admitted
on them, and one that finds none passes the turn; after 4,096 clocks it reserves the cores that it would be placed on with nothing resident; a re-cut sets
the pool of its core; a launch ends with the groups READY; a block whose groups have exited leaves. (Where the cursor of R139 stands as grids come and
go is the model's choice, log 6; so is that a cluster with no placement to reserve starts its 4,096 clocks anew, log 39.)
Forms that this statement says complete (the answer of `exec` is a next state with their effect): `clusterOffer`, `clusterReserve`, `recut`,
`blockLaunchDone`, `blockExit`. -/
def Obligations.LaunchEvents : Prop :=
  (∀ (s : State) (grid : Nat) (k : Grid) (cores : List Nat), (∀ b ∈ s.blocks, b.1 < s.nextId) → s.placement grid k = some cores →
    Claims.PlacementAllowed s k cores) ∧
  ∀ (s : State) (die grid core block a : Nat) (k : Grid) (b : Block) (g : Group),
    (s.canOffer die = true →
      let at' := cursorAt ((s.offerOrder die).map (·.1)) (s.die die).cursor
      (s.offerOrder die)[at']? = some (grid, k) →
      (∀ cores, s.placement grid k = some cores → Claims.Does (.clusterOffer die) s fun t => (t.die die).cursor = [] ∧
        (t.die die).offerClk = (s.clk.toNat / 8 + 1) * 8 ∧
        (cores.Nodup → (∀ c ∈ cores, (s.fit c k.desc).isSome = true) → (∀ b ∈ s.blocks, b.1 < s.nextId) →
          Claims.ClusterAdmitted s t grid k cores)) ∧
      (s.placement grid k = none → Claims.Does (.clusterOffer die) s fun t => t.blocks = s.blocks ∧
        (t.die die).cursor = ((s.offerOrder die).drop at').map (·.1) ∧ (t.die die).offerClk = (s.clk.toNat / 8 + 1) * 8)) ∧
    (amGet s.grids grid = some k → s.canReserve grid = true →
      Claims.Does (.clusterReserve grid) s fun t => t.blocks = s.blocks ∧
        (∀ cores, (Claims.bare s).placement grid k = some cores →
          amGet t.grids grid = some { k with reserved := cores.eraseDups, resClk := s.clk.toNat }) ∧
        ((Claims.bare s).placement grid k = none → amGet t.grids grid = some { k with waited := 0 })) ∧
    (s.canRecut core = true → ∀ p rest, ((s.drainCore core).core core).recut = p :: rest →
      Claims.Does (.recut core) s fun t => (t.core core).rb = p.1 ∧ (t.core core).sb = p.2.1 ∧ (t.core core).lb = 32 ∧
        (t.core core).recut = rest ∧ ∀ x ∈ (t.core core).l1, p.2.1 * 256 ≤ x.2.line) ∧
    (s.blk block = some b → s.canLaunch block = true → s.grp a = some g → g.block = block →
      Claims.Does (.blockLaunchDone block) s fun t => (∃ c, t.blk block = some c ∧ c.launching = false) ∧
        ∃ h, t.grp a = some h ∧ h.state = (if g.state = .launching then .ready else g.state)) ∧
    (s.blk block = some b →
      (b.discarding = false → b.launching = false → (∀ x ∈ s.groups, x.2.block = block → x.2.state = .exited) →
        (∀ l, l < 4 → ∀ k ∈ (s.core b.core).lacer l, k.block ≠ block) →
        Claims.Does (.blockExit block) s fun t => Claims.BlockGone s t block b) ∧
      (b.discarding = true → s.blockStoppable block = true →
        Claims.Does (.blockExit block) s fun t => Claims.BlockGone s t block b))

namespace Sys2Proof.Claims

/-- The address of a unit's row, or of an element of it (12 R264): the base with the displacements of its indices, modulo 2^64. -/
def rowAt (base : BitVec 64) (ds : List (Int × Int)) : Nat := (base + BitVec.ofInt 64 ((ds.map fun d => d.1 * d.2).sum)).toNat

/-- Indices of the unit that a walk makes in place u, dimension 1 innermost (R264). -/
def unitIndex (e : LEntry) (u : Nat) : Nat × Nat × Nat := (u % e.sz 1, u / e.sz 1 % e.sz 2, u / (e.sz 1 * e.sz 2))

/-- The addresses of R264, as runs of bytes: the source row of a COPY, a TCOPY or a GATHER, whose index of dimension 1 is the one read; the
destination row of a COPY, FILL or GATHER; the destination of each element of a TCOPY and of a Z-order walk; where a GATHER reads its index; and the
bits of the Z-order number. -/
def WalkAddresses : Prop :=
  (∀ (e : LEntry) (u i1 row : Nat), e.conv = 0 → e.ringen = false →
    let x := unitIndex e u
    let n := e.sz 0 * etBits e.et / 8
    let w := etBits e.et / 8
    (e.kind ≠ 2 → (e.reads u i1).map (fun r => (r.addr, r.n, r.scr)) =
      [(rowAt e.src [(i1, e.ss 1), (x.2.1, e.ss 2), (x.2.2, e.ss 3)], n, e.srcsp)]) ∧
    (e.kind = 2 → e.reads u i1 = []) ∧
    (e.kind = 3 → (e.indexRun u).map (fun r => (r.addr, r.n, r.scr)) = [(rowAt e.aux [(4, (x.1 : Int))], 4, false)]) ∧
    (e.kind ≠ 1 → e.zord = false → (e.writes u row).map (fun r => (r.addr, r.n, r.scr, r.data)) =
      [(rowAt e.dst [(x.1, e.ds 1), (x.2.1, e.ds 2), (x.2.2, e.ds 3)], n, e.dstsp, row)]) ∧
    (e.kind = 1 → e.zord = false → (e.writes u row).map (fun r => (r.addr, r.n, r.scr, r.data)) = (List.range (e.sz 0)).map fun (i0 : Nat) =>
      (rowAt e.dst [(i0, e.ds 1), (x.2.1, e.ds 2), (x.2.2, e.ds 3), (((x.1 * etBits e.et / 8 : Nat) : Int), 1)], w, e.dstsp,
        elem row (etBits e.et) i0)) ∧
    (e.zord = true → (e.writes u row).map (fun r => (r.addr, r.n, r.scr, r.data)) = (List.range (e.sz 0)).map fun (i0 : Nat) =>
      let z := if e.tr then zOrder i0 x.1 e.zlog else zOrder x.1 i0 e.zlog
      (rowAt e.dst [(x.2.1, e.ds 2), (x.2.2, e.ds 3), (((z * etBits e.et / 8 : Nat) : Int), 1)], w, e.dstsp, elem row (etBits e.et) i0))) ∧
  ∀ r c k i : Nat, (zOrder r c k).testBit (2 * i) = (decide (i < k) && c.testBit i) ∧
    (zOrder r c k).testBit (2 * i + 1) = (decide (i < k) && r.testBit i)

/-- No watchpoint observes a walker's accesses. -/
def Unwatched (s : State) (w : Walker) : Prop := w.watched = false ∨ ∀ c k, w.ctx = some c → vget (s.ctx c).wps k none = none

/-- Every byte of a run lies in a core's scratchpad, from an offset on. -/
def LiesAt (s : State) (b : Option Block) (r : Run) (c off : Nat) : Prop :=
  ∀ i, i < r.n → s.runTarget b { r with addr := r.addr + i, n := 1 } = some (c, off + i)

/-- A run of bytes can be read by a walker now, and holds v: scratchpad of its block, or HBM that every byte translates to, clean and in
reach. -/
def RunHolds (s : State) (w : Walker) (b : Option Block) (r : Run) (v : Nat) : Prop :=
  r.addr % r.al = 0 ∧
  if r.scr then ∃ c off, LiesAt s b r c off ∧ v = s.scrRead c off r.n ∧ s.scrPoisoned c off r.n = false ∧ s.walkOpen w (.scr c off) = true
  else ∃ pa, v = s.read pa r.n ∧ ∀ i, i < r.n → s.isHbm (pa + i) = true ∧ s.poisoned (pa + i) 1 = false ∧ s.walkOpen w (.mem (pa + i)) = true ∧
    match w.ctx with
    | none => pa = r.addr
    | some c => s.direct c (r.addr + i) .read (!w.user) = (.ok (pa + i), s)

/-- What a unit of a plain COPY moves (12 R261, R264): of a Lacer whose core has no write on its way, or of an engine at a privileged descriptor, where
the source row can be read and the destination row written, the row's bytes stand at the destination and every other byte of the memory that is
written stays: a row of scratchpad, or, for an engine, of the HBM. A FILL writes the low w bits of SRC to each element. -/
def UnitMoves : Prop :=
  ∀ (s : State) (w : Walker) (b : Option Block) (e : LEntry) (u v : Nat),
    e.conv = 0 → e.mcast = 0 → e.ringen = false → e.zord = false → e.kind = 0 ∨ e.kind = 2 → e.sz 0 * etBits e.et % 8 = 0 →
    Unwatched s w → (∀ c, w.core = some c → ∀ x ∈ s.writes, x.core ≠ c) →
    let x := unitIndex e u
    let n := e.sz 0 * etBits e.et / 8
    let src : Run := ⟨rowAt e.src [(x.1, e.ss 1), (x.2.1, e.ss 2), (x.2.2, e.ss 3)], n, max 1 (etBits e.et / 8), e.srcsp, none, 0⟩
    let dst : Run := ⟨rowAt e.dst [(x.1, e.ds 1), (x.2.1, e.ds 2), (x.2.2, e.ds 3)], n, max 1 (etBits e.et / 8), e.dstsp, none, v⟩
    (if e.kind = 0 then RunHolds s w b src v else v = ofElems (etBits e.et) (List.replicate (e.sz 0) e.src.toNat)) →
    dst.addr % dst.al = 0 →
    (∀ c off, e.dstsp = true → LiesAt s b dst c off → s.walkOpen w (.scr c off) = true → Memory.wf (s.core c).scr = true →
      ∃ t, s.unitRun w b e u = .done t v n ∧ t.scrRead c off n = v % 256 ^ n ∧ t.mem = s.mem ∧
        (∀ k, k < off ∨ off + n ≤ k → byteAt (t.core c).scr k = byteAt (s.core c).scr k) ∧ ∀ d, d ≠ c → (t.core d).scr = (s.core d).scr) ∧
    (e.dstsp = false → w.ctx = none → w.core = none → Memory.wf s.mem = true →
      (∀ i, i < n → s.isHbm (dst.addr + i) = true ∧ s.walkOpen w (.mem (dst.addr + i)) = true) →
      ∃ t, s.unitRun w b e u = .done t v n ∧ t.read dst.addr n = v % 256 ^ n ∧
        ∀ k, k < dst.addr ∨ dst.addr + n ≤ k → byteAt t.mem k = byteAt s.mem k)

/-- The walker of a Lacer's command (R261): it acts in the block's context, unprivileged and observed where user code gave it the command. -/
def lacerWalker (k : LCmd) (core l ctx : Nat) : Walker := ⟨some ctx, k.user, k.user, some core, lacerAgent core l, k.pass⟩

/-- `lacerUnit` (R261, R267): a Lacer takes the unit that its current command stands at; performed, the command goes on by one; a fault is kept to
be recorded with code 0x10 and the cause once the command's writes are released; a watchpoint stops it at the boundary before. -/
def LacerWalks : Prop :=
  ∀ (s : State) (core l : Nat) (k : LCmd) (b : Block),
    l < 4 → s.liveCd.getLsbD (dieOf core) = true → s.lacerCmd core l = some k → s.blk k.block = some b →
    k.cancelled = false → k.failed = none → k.packed = [] → k.entry.ringen = false → k.unit ≠ k.entry.sz 1 * k.entry.sz 2 * k.entry.sz 3 →
    k.nextClk ≤ s.clk.toNat →
    let w := lacerWalker k core l b.ctx
    let queue := fun (t : State) => (t.core core).lacer l
    let becomes := fun (u t : State) (k' : LCmd) =>
      queue t = (queue u).map fun x => if x.block = k.block ∧ x.ticket = k.ticket then k' else x
    (∀ u row moved, s.unitRun w (some b) k.entry k.unit = .done u row moved → Does (.lacerUnit core l) s fun t =>
      becomes u t { k with unit := k.unit + 1, moved := k.moved + moved, pass := none, nextClk := s.clk.toNat + 1 } ∧
      t.mem = u.mem ∧ ∀ c, (t.core c).scr = (u.core c).scr) ∧
    (∀ u cause addr hole, s.unitRun w (some b) k.entry k.unit = .fault u cause addr hole → Does (.lacerUnit core l) s fun t =>
      becomes u t { k with failed := some (0x10 + cause, addr) } ∧ t.mem = u.mem) ∧
    (∀ u i kind addr, s.unitRun w (some b) k.entry k.unit = .watch u i kind addr → Does (.lacerUnit core l) s fun t =>
      queue t = queue u ∧ ∀ c, u.blk k.block = some c → ∃ d, t.blk k.block = some d ∧
        vget d.lwatch l none = some ⟨k.ticket, BitVec.ofNat 64 addr, i + kind.code * 16⟩)

/-- `lacerCommandEnd` (R267, R271, R272): a command with every unit done, or stopped, leaves its queue once its global writes are released at its SCOPE;
each tile that it holds has its count lowered, and its SCOPE is kept for `lacew`. One that has met a fault leaves the record, and takes every
later command of its block on that Lacer with it. -/
def LacerEnds : Prop :=
  ∀ (s : State) (core l : Nat) (k : LCmd) (b : Block),
    l < 4 → s.liveCd.getLsbD (dieOf core) = true → s.lacerCmd core l = some k → s.blk k.block = some b → amSorted b.holders = true →
    k.entry.scope < 5 ∨ (∀ r ∈ s.extReqs, r.agent = lacerAgent core l → r.write = true → r.reply.isSome = true) →
    (k.failed = none → k.cancelled = true ∨ (k.unit = k.entry.sz 1 * k.entry.sz 2 * k.entry.sz 3 ∧ k.packed = []) →
      Does (.lacerCommandEnd core l) s fun t => t.mem = s.mem ∧
        (t.core core).lacer l = ((s.core core).lacer l).filter (fun x => !(x.block == k.block && x.ticket == k.ticket)) ∧
        ∃ c, t.blk k.block = some c ∧
          (∀ tile, (amGet c.holders tile).getD 0 = (amGet b.holders tile).getD 0 - k.tiles.count tile) ∧
          (2 ≤ k.entry.scope → amGet (vget c.lscope l []) k.ticket = some k.entry.scope)) ∧
    (∀ f, k.failed = some f → Does (.lacerCommandEnd core l) s fun t => t.mem = s.mem ∧
      (t.core core).lacer l = ((s.core core).lacer l).filter (fun x => x.block != k.block) ∧
      ∃ c, t.blk k.block = some c ∧ vget c.lfault l none = some ⟨k.ticket, BitVec.ofNat 64 f.2, f.1⟩ ∧
        ∀ tile, (amGet c.holders tile).getD 0 = (amGet b.holders tile).getD 0 -
          ((((s.core core).lacer l).filter fun x => x.block == k.block).map fun x => x.tiles.count tile).sum)

/-- A descriptor completes in t, from w, where its walk has ended (R269): STATUS with CODE, and FADDR, are written; then, once the engine's writes
are acknowledged, CVAL to a COMPL in the HBM that can be reached, and the engine goes on to its next descriptor. -/
def DescriptorEnds (w t : State) (e pa status code faddr : Nat) : Prop :=
  let x := w.engine e
  let u := (w.write64 (pa + 0x50) (BitVec.ofNat 64 (status + code * 2 ^ 8))).write64 (pa + 0x58) (BitVec.ofNat 64 faddr)
  let next := { x with current := none, unit := 0, entry := none, held := false, lastPriv := true, ending := false }
  (w.engineWaits e = true → t.mem = u.mem ∧ t.engine e = { x with ending := true }) ∧
  (w.engineWaits e = false → x.compl = 0 → t.mem = u.mem ∧ t.engine e = next) ∧
  (w.engineWaits e = false → x.compl ≠ 0 → u.isHbm x.compl = true → u.walkOpen (privWalker e) (.mem x.compl) = true →
    t.mem = writeLE u.mem x.compl 8 x.cval ∧ t.engine e = next)

/-- An engine's access to a hole freezes it (R269, 22 R408): its bit of FRZDMA is set, FRZADDR is the address, and it holds what it was at. -/
def EngineFreezes (u t : State) (e addr : Nat) : Prop :=
  t.mem = u.mem ∧ t.frzDma.getLsbD e = true ∧ t.frzAddr = BitVec.ofNat 64 addr ∧ t.engine e = { u.engine e with held := true, faddr := addr }

/-- `dmasub` and `dmaDescriptorStart` (R263, R268, R269). -/
def DescriptorsStart : Prop :=
  ∀ (s : State) (e : Nat) (v : BitVec 64),
    (∀ x, x = s.engine (bitsOf v 4 0) → ∀ full, full = (16 ≤ x.descs.length + x.current.isSome.toNat) →
      (bitsOf v 6 5 = 0 → bitsOf v 63 52 = 0 → ¬ full →
        exec (.dmasub v) s = .next (s.setEngine (bitsOf v 4 0) { x with descs := x.descs ++ [bitsOf v 51 7 * 128] })) ∧
      (bitsOf v 6 5 ≠ 0 ∨ bitsOf v 63 52 ≠ 0 ∨ full →
        Does (.dmasub v) s fun u => u.dmaOvr = true ∧ u.dmaEngine.toNat = bitsOf v 4 0 ∧ u.engines = s.engines)) ∧
    ∀ pa rest, s.canStart e = true → (s.engine e).descs = pa :: rest →
      let d := s.read pa 128
      let ent := LEntry.ofCode d
      let code := LEntry.engineCheck { ent with scope := 0 }
      let x := { s.engine e with descs := rest, current := some pa, unit := 0, entry := some ent,
                                 compl := d / 2 ^ 512 % 2 ^ 52, cval := d / 2 ^ 576 % 2 ^ 64 }
      (s.region pa = .hole → Does (.dmaDescriptorStart e) s fun t => EngineFreezes (s.setEngine e { x with compl := 0 }) t e pa) ∧
      (s.region pa ≠ .hole → s.poisoned pa 128 = true →
        Does (.dmaDescriptorStart e) s fun t => DescriptorEnds (s.setEngine e x) t e pa 3 0x17 pa) ∧
      (s.region pa ≠ .hole → s.poisoned pa 128 = false → code ≠ 0 →
        Does (.dmaDescriptorStart e) s fun t => DescriptorEnds (s.setEngine e x) t e pa 2 code 0) ∧
      (s.region pa ≠ .hole → s.poisoned pa 128 = false → code = 0 →
        Does (.dmaDescriptorStart e) s fun t => t.engine e = x ∧ t.mem = s.mem)

/-- `dmaDescriptorComplete` (R267, R269): the walk of the descriptor in hand performed, it completes with STATUS 1; a unit that meets a fault ends it
with STATUS 3, CODE 0x10 and the cause, and the address; a hole freezes the engine. Each is said of the descriptor's next unit, u of them done. -/
def DescriptorsEnd : Prop :=
  ∀ (s : State) (e pa : Nat) (ent : LEntry),
    let x := s.engine e
    let last := ent.sz 1 * ent.sz 2 * ent.sz 3
    e < 32 → s.stage = 6 → x.held = false → x.current = some pa → x.entry = some ent → x.ending = false → x.unit < last →
    let unit := s.unitRun (privWalker e) none ent x.unit
    (∀ u row moved, unit = .done u row moved → x.unit + 1 = last → u.engine e = x →
      Does (.dmaDescriptorComplete e) s fun t => DescriptorEnds (u.setEngine e { x with unit := last }) t e pa 1 0 0) ∧
    (∀ u cause addr, unit = .fault u cause addr false → u.engine e = x →
      Does (.dmaDescriptorComplete e) s fun t => DescriptorEnds u t e pa 3 (0x10 + cause) addr) ∧
    (∀ u cause addr, unit = .fault u cause addr true → Does (.dmaDescriptorComplete e) s fun t => EngineFreezes u t e addr)

/-- A node's work has left its engine. -/
def WorkLeft (t : State) (e g n : Nat) : Prop := (g, n) ∉ (t.engine e).work ∧ (t.engine e).unit = 0 ∧ (t.engine e).entry = none

/-- `nodeEngineDone` (06 R121, R122, R125, R412): the node that an engine serves is done with the last of its writes performed and acknowledged; it fails
with the cause of a fault, or of a watchpoint that observes it; a hole freezes the engine; a CANCELLING node of which nothing has begun is
CANCELLED. A SIGNAL node stores its value, or adds it, with one system-scope write; a FILL node writes its pattern to a word at a time. -/
def EnginesEnd : Prop :=
  ∀ (s : State) (e g n : Nat) (x : Graph) (nd : Node),
    e < 32 → s.stage = 6 → (s.engine e).held = false → s.privNext e = false → s.engineWork e = some (g, n) →
    amGet s.graphs g = some x → s.node g n = some nd →
    let r := s.chooseWork e (g, n)
    let w : Walker := ⟨some x.ctx, true, true, none, engineAgent e, none⟩
    (nd.state = 3 → (s.engine e).unit = 0 → Does (.nodeEngineDone e) s fun t => NodeCancelled s t g n nd ∧ WorkLeft t e g n) ∧
    (nd.state = 2 →
      (∀ u, r.nodeWork e x nd = .done u → u.engineWaits e = false → u.node g n = some nd →
        Does (.nodeEngineDone e) s fun t => NodeDone u t g n nd ∧ WorkLeft t e g n) ∧
      (∀ u c addr, r.nodeWork e x nd = .fault u c addr false → u.node g n = some nd → amGet u.graphs g = some x → nd.grid = none →
        nd.ending = none → Does (.nodeEngineDone e) s fun t => NodeFaulted u t g n x nd c ∧ WorkLeft t e g n) ∧
      (∀ u c addr, r.nodeWork e x nd = .fault u c addr true → Does (.nodeEngineDone e) s fun t => EngineFreezes u t e addr) ∧
      (∀ u, r.nodeWork e x nd = .watch u → u.node g n = some nd → amGet u.graphs g = some x → nd.grid = none → nd.ending = none →
        Does (.nodeEngineDone e) s fun t => NodeFaulted u t g n x nd cWatchpoint ∧ WorkLeft t e g n)) ∧
    (∀ pa, nd.kind = 4 ∨ nd.kind = 3 → Unwatched r w → (r.engine e).unit = 0 → r.ctxWrites x.ctx = false → Memory.wf r.mem = true →
      let va := (vget nd.work 0 0).toNat
      va % 8 = 0 → r.isHbm pa = true → r.poisoned pa 8 = false → r.walkOpen w (.mem pa) = true →
      (nd.kind = 4 → vget nd.work 2 0 = 0 → r.direct x.ctx va .write false = (.ok pa, r) →
        ∃ u, r.nodeWork e x nd = .done u ∧ u.read64 pa = vget nd.work 1 0 ∧ ∀ k, k < pa ∨ pa + 8 ≤ k → byteAt u.mem k = byteAt r.mem k) ∧
      (nd.kind = 4 → vget nd.work 2 0 ≠ 0 → r.direct x.ctx va .rw false = (.ok pa, r) →
        ∃ u, r.nodeWork e x nd = .done u ∧ u.read64 pa = r.read64 pa + vget nd.work 1 0 ∧
          ∀ k, k < pa ∨ pa + 8 ≤ k → byteAt u.mem k = byteAt r.mem k) ∧
      (nd.kind = 3 → vget nd.work 1 0 = 8 → r.direct x.ctx va .write false = (.ok pa, r) →
        ∃ u, r.nodeWork e x nd = .done u ∧ u.read64 pa = vget nd.work 2 0 ∧ ∀ k, k < pa ∨ pa + 8 ≤ k → byteAt u.mem k = byteAt r.mem k))

end Sys2Proof.Claims

/-- The Lacers and the engines at work (06 R121, 12 R261 to R272, 22 R408): where a walk reads and writes and what a unit moves; how a command goes on and
ends; how descriptors are submitted, read and completed; and how the engine work of nodes ends.
Forms that this statement says complete (the answer of `exec` is a next state with their effect): `nodeEngineDone`, `lacerUnit`, `lacerCommandEnd`,
`dmasub`, `dmaDescriptorStart`, `dmaDescriptorComplete`. -/
def Obligations.EngineEvents : Prop :=
  Claims.WalkAddresses ∧ Claims.UnitMoves ∧ Claims.LacerWalks ∧ Claims.LacerEnds ∧ Claims.DescriptorsStart ∧ Claims.DescriptorsEnd ∧
  Claims.EnginesEnd

/-! ### Events: groups (08, 10, 11, 16, 17) -/

namespace Sys2Proof.Claims

/-- Group a of s becomes h, and every other group stays. -/
def GroupTo (i : Instr) (s : State) (a : Nat) (h : Group) : Prop :=
  Does i s fun t => t.grp a = some h ∧ ∀ b, b ≠ a → t.grp b = s.grp b

/-- A group whose wait is over (08 R152): READY, or in its own code in trap mode. -/
def resumedAt (g : Group) (now : Nat) : Group :=
  { g with dep := none, state := if g.state.waits then .ready else g.state, readyClk := now, promo := 0 }

end Sys2Proof.Claims

/-- What happens to groups between words (08 R152, R154, R166, R167, 10 R202, 11 R247, R260, 21 R394): a free slot goes to the group that wins; a group that waits
long is promoted; a dependence that has come about, a watch that fires, a limit that passes and a poll end a wait; a reduction lands with its
sequence number; a phase over its bound makes PHASE_OVERRUN pending; what is pending is delivered; a broadcast or the context's fault halts a group.
Forms that this statement says complete (the answer of `exec` is a next state with their effect): `issueArbitration`, `issuePromotion`,
`dependenceResolved`, `phaseOverrun`, `asyncTrapDelivery`, `vredLand`, `watchFire`, `vwaitExpire`, `hostWindowPoll`, `reentry`, `groupBroadcastStop`. -/
def Obligations.GroupEvents : Prop :=
  ∀ (s : State) (a : Nat) (g : Group), s.grp a = some g →
    let now := s.clk.toNat
    (∀ core quad w, s.canArbitrate core quad = true → s.issueWinner (core * 4 + quad) = some (a, w) →
      Claims.Does (.issueArbitration core quad) s fun t => t.issue = s.issue ++ [a] ∧ ∃ h, t.grp a = some h ∧
        h.state = (if g.state = .ready then .issuing else g.state) ∧ h.promo = 0 ∧ h.runWords = 0 ∧ h.exts = [] ∧ h.onB = g.nextOnB) ∧
    (g.eligible = true → a ∉ s.issue → g.promo < 7 → g.readyClk + 4096 * (g.promo + 1) ≤ now →
      Claims.GroupTo (.issuePromotion a) s a { g with promo := g.promo + 1 }) ∧
    (∀ b d, s.blk g.block = some b → g.dep = some d → g.entry = none → g.cap.reenter = false → (s.ctx b.ctx).state ≠ .faulted →
      s.depMet a g b d = true → g.fate = none → (∀ y n, d ≠ .yseq y n) →
      Claims.GroupTo (.dependenceResolved a) s a (Claims.resumedAt g now)) ∧
    (∀ b y n, s.blk g.block = some b → g.dep = some (.yseq y n) → g.entry = none → g.cap.reenter = false → (s.ctx b.ctx).state ≠ .faulted →
      (g.yreg y.toNat).seq = n → Claims.GroupTo (.dependenceResolved a) s a { Claims.resumedAt g now with woke := true }) ∧
    (∀ b, s.blk g.block = some b → g.phOver = false → b.phaseBound g ≠ 0 → b.phaseBound g ≤ g.phTimer →
      Claims.GroupTo (.phaseOverrun a) s a { g with pendPhase := true, phOver := true }) ∧
    (s.canDeliver a = true → ∀ p, (if g.nextOnB then g.path1 else g.path0) = some p →
      (∀ aux, g.pendFp = some aux → exec (.asyncTrapDelivery a) s =
        .next ((s.updGrp a fun g => { g with pendFp := none }).takeBetween a cFpException 0 aux p.pc g.nextOnB)) ∧
      (g.pendFp = none → exec (.asyncTrapDelivery a) s =
        .next ((s.updGrp a fun g => { g with pendPhase := false }).takeBetween a cPhaseOverrun 0 0 p.pc g.nextOnB))) ∧
    (∀ r rest, g.vreds = r :: rest → s.canLand a = true → r.flags &&& fpEnables g.fpstat = 0 →
      Claims.GroupTo (.vredLand a) s a { g with vreds := rest, y := vset g.y r.y.toNat ⟨r.value, (g.yreg r.y.toNat).seq + 1⟩,
                                                fpstat := addFlags g.fpstat r.flags, poison := g.cleaned .yreg r.y.toNat 0 }) ∧
    (∀ i w, s.watches[i]? = some w → w.fired = true → w.kind = .group a → g.entry = none → g.cap.reenter = false → g.dep = some .watch →
      Claims.GroupTo (.watchFire i) s a { Claims.resumedAt g now with woke := true }) ∧
    (∀ i w m k, s.watches[i]? = some w → w.fired = true → w.kind = .node m k →
      exec (.watchFire i) s = .next { s with watches := s.watches.set i { w with fired := false } }) ∧
    (g.dep = some .watch → g.sent = true → g.entry = none → g.cap.reenter = false → s.vwaitOver (s.groupCtx g) g.waitClk = true →
      Claims.GroupTo (.vwaitExpire a) s a { Claims.resumedAt g now with woke := true }) ∧
    (∀ pa value, s.polledPa a = some pa → s.canPoll a = true → exec (.hostWindowPoll a value) s = .next (s.extAsk a (s.groupCtx g) pa 8)) ∧
    (s.canStop a = true → g.state = .parked → Claims.Does (.groupBroadcastStop a) s fun t => ∃ h, t.grp a = some h ∧ h.state = .halted) ∧
    (s.canStop a = true → g.state ≠ .parked → Claims.Does (.groupBroadcastStop a) s fun t => ∃ h, t.grp a = some h ∧ h.state = .halted ∧ h.dep = none ∧
      h.stopCause = (if (s.ctx (s.groupCtx g)).state = .faulted then 0x22 else 0x21)) ∧
    (s.canReenter a = true →
      let r := s.capReenter g.cap.line (s.groupCtx g) a g.cap.role g.cap.cseq
      let go := fun (role : Nat) (regs : Vector (BitVec 64) 16) (pc : BitVec 57) =>
        (r.2.updGrp a fun g => g.reentered role now regs pc).acquire a 4
      (∀ ckpt pc, r.1 = .resume ckpt pc → exec (.reentry a) s = .next (go g.cap.role ckpt pc)) ∧
      (∀ regs pc, r.1 = .taken regs pc → exec (.reentry a) s = .next (go 0 regs pc)) ∧
      (r.1 = .abandon → exec (.reentry a) s = .next (go 0 g.cap.shadow g.cap.ownpc)) ∧
      (r.1 = .wait → exec (.reentry a) s = .next (r.2.arm (.group a) g.cap.line 8)))

namespace Sys2Proof.Claims

/-- `complete()` of R306: the phase goes on, and EXP and PEND are NEXT where one is set, else EXP, less the drops. -/
def completed (b : Bar) : Bar :=
  let e := (if b.next ≠ 0 then b.next else b.exp) - b.drops
  { phase := b.phase + 1, exp := e, pend := e, drops := 0, next := 0, wdog := 0 }

/-- An arrival at a block barrier (R306): PEND falls, a drop is counted, and with the last one the phase completes; an inactive barrier ignores it. -/
def counted (b : Bar) (drop : Bool) : Bar :=
  let x := { b with pend := b.pend - 1, drops := b.drops + drop.toNat }
  if b.exp = 0 then b else if x.pend = 0 then completed x else x

/-- What reaches a barrier, applied (16 R304, R306, R307, R312, R319): at a block barrier an arrival, its token, and a new count; at an object an
arrival, which may end the phase, with T_DONE, or begin the check of its enabled monitors; an object that checks holds it. -/
def HeldApplied : Prop :=
  ∀ (s : State) (h : Arrival) (g : Group), s.grp h.agent = some g →
    let t := s.applyHeld h
    let drop := h.act == .drop
    (∀ blk idx b, h.bar = .block blk idx → s.bar h.bar = some b →
      (h.act = .arrive ∨ h.act = .drop → t.bar h.bar = some (counted b drop) ∧ h ∉ t.arrivals ∧
        (∀ d, h.dest = some d → t.grp h.agent = some (g.setS d (b.phase.zeroExtend 64))) ∧
        (∀ va, h.dest = none → g.dep = some (.held va none) →
          t.grp h.agent = some { g with arrivals := ⟨b.phase.zeroExtend 32, idx, 0, va, g.trapMode⟩ :: g.arrivals })) ∧
      (∀ n ctx, idx < 16 → h.act = .expect n ctx → h ∉ t.arrivals ∧
        t.bar h.bar = some (if b.exp = 0 then { b with exp := n, pend := n, drops := 0, next := 0 } else { b with next := n }))) ∧
    (∀ pa, h.bar = .object pa → Memory.wf s.mem = true → h.act = .arrive ∨ h.act = .drop →
      (s.objChecking pa = true → t = s) ∧
      (s.objChecking pa = false → s.objExp pa ≠ 0 →
        let p := (s.objPend pa + (2 ^ 32 - 1)) % 2 ^ 32
        let d := (s.objDrops pa + drop.toNat) % 2 ^ 32
        let e := (if s.objNext pa ≠ 0 then s.objNext pa else s.objExp pa) - d
        let on := (s.objBound pa).filter fun x => (vget (s.ctx (s.objCtx pa)).mons x.2 Mon.reset).en
        h ∉ t.arrivals ∧
        (p ≠ 0 → t.objPend pa = p ∧ t.objExp pa = s.objExp pa ∧ t.objDrops pa = d ∧ t.objNext pa = s.objNext pa ∧
          t.objPhase pa = s.objPhase pa) ∧
        (p = 0 → t.objPend pa = e ∧ t.objExp pa = e ∧ t.objDrops pa = 0 ∧ t.objNext pa = 0) ∧
        (p = 0 → on = [] → t.objPhase pa = (s.objPhase pa + 1) % 2 ^ 32 ∧ t.read64 (pa + 0x28) = s.clk ∧ t.objFailed pa = false ∧
          t.checks = s.checks) ∧
        (p = 0 → on ≠ [] → t.objPhase pa = s.objPhase pa ∧ t.objChecking pa = true ∧
          t.checks = s.checks ++ [⟨pa, s.objCtx pa, on, s.liveSlices, []⟩])))

/-- The end of a check (16 R319, R320), after the monitors' totals have been written to MONTAB in r: a monitor fails by `Mon.fails` on the partials' exact
sum, rounded once; LAST is that total. The object's phase ends, with FAILED, FAILMASK and, where some failed, FAILPH; under the action TRAP every group
that waits on the phase takes BALANCE, and under HALT the context is FAULTED. -/
def CheckEnds : Prop :=
  ∀ (s : State) (n a : Nat) (k : Check) (g : Group), s.checks[n]? = some k → k.slices = [] → s.grp a = some g → (∀ x ∈ k.mons, x.2 < 16) →
    let mon := fun (m : Nat) => vget (s.ctx k.ctx).mons m Mon.reset
    let sum := fun (m : Nat) => (amGet k.sums m).getD (some 0, 0)
    let bad := k.mons.filter fun x => (mon x.2).fails (checkTotal (sum x.2).1) (sum x.2).2
    let act := bad.foldl (fun m x => max m (mon x.2).action) 0
    let r := (s.evalAll k k.mons).2
    let aux := BitVec.ofNat 64 (failMask bad + (bad.foldl (fun m x => min m x.2) 15) * 2 ^ 4 + r.objPhase k.pa * 2 ^ 32)
    Does (.monitorCheckDone n) s fun t =>
      (∀ x ∈ k.mons, (vget (t.ctx k.ctx).mons x.2 Mon.reset).last = BitVec.ofNat 64 (checkTotal (sum x.2).1)) ∧
      (act ≠ 2 → Memory.wf r.mem = true → t.objPhase k.pa = (r.objPhase k.pa + 1) % 2 ^ 32 ∧ t.read64 (k.pa + 0x28) = s.clk ∧
        t.objChecking k.pa = false ∧ (t.objFailed k.pa = true ↔ bad ≠ []) ∧ t.objFailmask k.pa = failMask bad % 16 ∧
        (bad ≠ [] → t.objFailph k.pa = r.objPhase k.pa)) ∧
      t.grp a = some (if act = 1 ∧ g.waitsOn (.object k.pa) (BitVec.ofNat 32 (r.objPhase k.pa)) = true then { g with fate := some (.balance aux) } else g) ∧
      (act = 2 → (s.ctx k.ctx).state = .running → (t.ctx k.ctx).state = .faulted ∧ (t.ctx k.ctx).fcause = BitVec.ofNat 8 cBalance)

/-- Stop markings and logs at a capsule line in memory, with no apply in progress for a marking (17 R329, R335, R338, R339): the marking of the group that
holds the line, or that has adopted it, makes it PARKED_HELD; the entry of a log is written, and LOG is APPLIED; a `cape` then frees the line, and,
adopted, delivers EXIT, SEQ and the valid byte to the holder's record first. -/
def LinesMove : Prop :=
  ∀ (s : State) (i a line : Nat), Memory.wf s.mem = true →
    (s.markings[i]? = some (a, line) → (∀ x ∈ s.markings.take i, x.1 ≠ a) → (∀ c ∈ s.capLogs, c.line ≠ line) → s.lineLog line ≠ 1 →
      Does (.stopMarking i) s fun t => t.markings = s.markings.eraseIdx i ∧
        (∀ k, k < line ∨ line + 8 ≤ k → byteAt t.mem k = byteAt s.mem k) ∧
        (if s.lineState line = 1 ∧ s.lineHolder line = a then
          t.lineState line = 2 ∧ t.lineHolder line = a ∧ t.lineAdopter line = 0 ∧ t.lineCtx line = s.lineCtx line
        else if s.lineState line = 3 ∧ s.lineAdopter line = a then
          t.lineState line = 2 ∧ t.lineHolder line = s.lineHolder line ∧ t.lineAdopter line = 0 ∧ t.lineCtx line = s.lineCtx line
        else t.mem = s.mem)) ∧
    ∀ c, s.capLogs[i]? = some c → c.line = line →
      let e := s.lineWord line 0xA0
      let at' := bitsOf e 51 0
      let n := 2 ^ bitsOf e 63 60
      (s.lineNlog line = 1 → c.last = false → at' + n ≤ line ∨ line + 256 ≤ at' → Does (.logApplied i) s fun t =>
        (∀ d ∈ t.capLogs, d.line ≠ line) ∧ t.read at' n = s.read (line + 0xA8) n ∧ t.lineLog line = 2 ∧
        t.lineStep line = s.lineStep line ∧ t.lineNlog line = 1 ∧ t.lineSeq line = s.lineSeq line ∧
        ∀ k, (k < at' ∨ at' + n ≤ k) → (k < line + 8 ∨ line + 16 ≤ k) → byteAt t.mem k = byteAt s.mem k) ∧
      (s.lineNlog line = 0 → c.last = true → s.lineState line ≠ 3 → Does (.logApplied i) s fun t =>
        (∀ d ∈ t.capLogs, d.line ≠ line) ∧ t.lineState line = 0 ∧ t.lineHolder line = 0 ∧ t.lineLog line = 2) ∧
      (s.lineNlog line = 0 → c.last = true → s.lineState line = 3 →
        let d := (s.ctx (s.lineCtx line)).savepa + 0x13000000 + s.lineHolder line * 0x9000 + 0x200
        line < 2 ^ 52 → d + 192 ≤ line ∨ line + 256 ≤ d → Does (.logApplied i) s fun t =>
          t.lineState line = 0 ∧ t.lineHolder line = 0 ∧ t.lineAdopter line = 0 ∧ t.read d 128 = s.read (line + 0x20) 128 ∧
          t.read (d + 0x80) 8 = line % 2 ^ 64 ∧ t.read (d + 0x88) 8 = (s.lineExit line).toNat ∧ t.read (d + 0x90) 2 = s.lineSeq line ∧
          t.read (d + 0x92) 1 = 1)

end Sys2Proof.Claims

/-- What happens at barriers, monitors, capsules and the matrix array between words (14 R289, 16 R303, R306, R309, R319, R320, 17 R329, R335, R338, R339):
the batch of one clock and what each arrival of it does, the halves of a cluster, a watchdog that stalls the waiters of its phase, a slice that delivers
and zeroes its partials, a check that ends, and the steps of the array, of stop markings and of logs. (That an arrival's record names the
object, by its virtual address, is the model's choice, log 35.)
Forms that this statement says complete (the answer of `exec` is a next state with their effect): `accComplete`, `barrierBatch`, `monitorCollect`,
`monitorCheckDone`, `barrierWatchdog`, `clusterBarrierExchange`, `stopMarking`, `logApplied`. -/
def Obligations.ObjectEvents : Prop :=
  Claims.HeldApplied ∧ Claims.CheckEnds ∧ Claims.LinesMove ∧
  ∀ (s : State) (n a core : Nat) (g : Group),
    (s.canBatch (BarId.ofCode n) = true →
      Claims.Does (.barrierBatch n) s fun t => t = (s.heldBatch (BarId.ofCode n)).foldl State.applyHeld s ∧
        ∀ h, h ∈ s.heldBatch (BarId.ofCode n) → h.bar = BarId.ofCode n ∧ h ∈ s.arrivals) ∧
    (∀ cl h idx c, BarId.ofCode n = .cluster cl h idx → amGet s.clusters cl = some c → c.split = true → c.barDone idx = true →
      Claims.Does (.clusterBarrierExchange n) s fun t => ∃ d, amGet t.clusters cl = some d ∧ d = { c with bars := d.bars } ∧
        ∀ i, i < 16 → vget d.bars i (Bar.launch 0) =
          (let b := vget c.bars i (Bar.launch 0)
           if i = idx ∨ i = idx + 8 then Claims.completed b else b)) ∧
    (s.dogLimit (BarId.ofCode n) ≠ 0 → s.dogLimit (BarId.ofCode n) ≤ s.dogCount (BarId.ofCode n) → s.grp a = some g →
      Claims.Does (.barrierWatchdog n) s fun t => t.grp a = some
        (if g.waitsOn (BarId.ofCode n) (s.barPhase (BarId.ofCode n)) then { g with fate := some .stall } else g)) ∧
    (∀ k slice, s.checks[n]? = some k → slice ∈ k.slices → Claims.Does (.monitorCollect n slice) s fun t => (∃ j, t.checks[n]? = some j ∧
      j.slices = k.slices.filter (· != slice) ∧
      j.sums = k.mons.foldl (fun a x => collectInto a x.2 (s.monPartial k.ctx x.2 slice)) k.sums) ∧
      (amSorted s.partials = true → ∀ key, amGet t.partials key =
        if ∃ x ∈ k.mons, key = partialKey k.ctx x.2 slice then none else amGet s.partials key)) ∧
    (core < 192 → ∀ op rest, (s.core core).accQ = op :: rest → Claims.Does (.accComplete core) s fun t => t.core core = (s.core core).accStep ∧
      (t.core core).accQ = rest ∧ (s.grp op.agent = some g → t.grp op.agent =
        some (if op.work.writes.isSome then (s.core core).results op g else g)))

/-! ### Events: pages, leases, links, debug (18, 19, 21) -/

namespace Sys2Proof.Claims

/-- Some TLB of a core or die holds an entry of which p holds. -/
def TlbHolds (t : State) (p : TlbEntry → Bool) : Prop :=
  (∃ k, ∃ e ∈ (t.core k).tlb, p e = true) ∨ ∃ k ts, amGet t.dieTlb k = some ts ∧ ∃ e ∈ ts, p e = true

/-- No pointer cache holds a pointer of context c. -/
def NoPointers (t : State) (c : Nat) : Prop := ∀ k ps, amGet t.ptrCache k = some ps → ∀ x ∈ ps, x.1 / 2 ^ 67 ≠ c

/-- The end of a walk (18 R349, R352, R356): the miss leaves its table; a leaf that may be cached takes A, and D for a write that it grants, and is then in
the die TLB and in every core TLB whose miss joined, with the walk's pointers in the die's pointer cache; a walk that ends in a fault, or at a leaf that
no cache may hold, fills nothing. -/
def WalkEnds : Prop :=
  ∀ (s : State) (i : Nat) (m : Miss), s.misses[i]? = some m → s.canWalk i = true →
    Does (.pageWalkDone i) s fun t => t.misses = s.misses.eraseIdx i ∧
      (∀ cause lv st reason, s.walk m.ctx m.va = .fault cause lv st reason → t.cores = s.cores ∧ t.dieTlb = s.dieTlb ∧ t.ptrCache = s.ptrCache) ∧
      ∀ e lv at', s.walk m.ctx m.va = .leaf e lv at' →
        (s.cacheable e = false → t.cores = s.cores ∧ t.dieTlb = s.dieTlb ∧ t.ptrCache = s.ptrCache ∧ t.mem = s.mem) ∧
        (s.cacheable e = true → Memory.wf s.mem = true → s.read64 at' = e →
          let f := e ||| (if m.write && e.getLsbD 7 then 0xC00 else 0x400)
          let x : TlbEntry := ⟨m.ctx, m.va, lv, f⟩
          t.read64 at' = f ∧
          (∀ j ∈ m.joined, x ∈ (t.core j.2).tlb ∧ ∃ ts, amGet t.dieTlb (dieOf j.2) = some ts ∧ x ∈ ts) ∧
          ((s.ctx m.ctx).levels ≤ 5 → m.va < 2 ^ 57 → ∃ ps, amGet t.ptrCache m.die = some ps ∧
            ∀ p ∈ t.walkPointers m.va (s.ctx m.ctx).levels (s.ctx m.ctx).ptroot, (pointerKey m.ctx p.1 m.va, p.2) ∈ ps))

/-- The end of a lease at its borrower (18 R355, R360): the entry is REVOKED, no TLB holds a leaf of the lease, and once no access through it is under way
the lender is told. -/
def BorrowEnds (s t : State) (l : Nat) : Prop :=
  let u := (s.setLease l 3).invalidateLease l
  ¬ TlbHolds t (fun e => pteTier e.leaf == 3 && pteLease e.leaf == l) ∧ l ∉ t.revoking ∧
  (s.writes = [] → s.capLogs = [] → Memory.wf s.mem = true → t.leaseState l = 3) ∧
  (u.writes = [] → u.unanswered (fun r => s.inLease l r.pa) = [] →
    t.outbox.head? = some (.acknowledge (t.leasePeer l) (t.leasePlease l)))

end Sys2Proof.Claims

/-- Walks, invalidations, leases and retired frames (18 R352, R354, R355, R359, R360, 22 R407): what a walk fills; after an invalidation no TLB of a core or die
holds what it names, and no pointer cache a pointer of the context; a lender that revokes sets STATE and DEADLINE, tells its peer and awaits that clock; the
borrower's entry ends at the deadline with an acknowledgement; the lender's entry ends with that, or 2,400,000 clocks after the deadline; a frame is retired at
16 corrected errors or one that a rewrite does not clear. (That an invalidation with nothing under way is done, and BUSY clear, or its acknowledgement sent, in
the same step is the model's choice, log 17.)
Forms that this statement says complete (the answer of `exec` is a next state with their effect): `frameRetire`, `pageWalkDone`, `tlbInvalidatePage`,
`tlbInvalidateContext`, `tlbInvalidateLease`, `leaseRevoke`, `leaseReturn`, `revocationMessage`, `leaseDeadline`, `leaseAcknowledge`,
`leaseAckTimeout`. -/
def Obligations.PageEvents : Prop :=
  Claims.WalkEnds ∧
  ∀ (s : State) (c va l pa n : Nat) (hard : Bool),
    let deadline := (s.clk.toNat + s.leaseNotice l) % 2 ^ 64
    (Claims.Does (.tlbInvalidatePage c va) s fun t => ¬ Claims.TlbHolds t (fun e => e.maps c va) ∧ Claims.NoPointers t c ∧
      ((s.invalidatePage c va).writes = [] → (s.invalidatePage c va).unanswered (fun r => r.ctx == c) = [] → t.tlbSts.getLsbD 0 = false)) ∧
    (Claims.Does (.tlbInvalidateContext c) s fun t => ¬ Claims.TlbHolds t (fun e => e.ctx == c) ∧ Claims.NoPointers t c ∧
      ((s.invalidateContext c).writes = [] → (s.invalidateContext c).unanswered (fun r => r.ctx == c) = [] → t.tlbSts.getLsbD 0 = false)) ∧
    (Claims.Does (.tlbInvalidateLease l) s fun t => ¬ Claims.TlbHolds t (fun e => pteTier e.leaf == 3 && pteLease e.leaf == l) ∧
      ((s.invalidateLease l).writes = [] → (s.invalidateLease l).unanswered (fun r => s.inLease l r.pa) = [] → t.tlbSts.getLsbD 0 = false)) ∧
    (l < 4096 → s.leaseLender l = true → s.leaseState l = 1 → Claims.Does (.leaseRevoke l) s fun t =>
      t.outbox.head? = some (.revoke (s.leasePeer l) (s.leasePlease l)) ∧ l ∈ t.revoking ∧ t.regs = s.regs ∧
      (Memory.wf s.mem = true → t.leaseState l = 2 ∧ t.leaseDeadline l = deadline ∧ t.leaseLender l = true)) ∧
    (l < 4096 → s.leaseLender l = false → s.leaseState l = 1 ∨ s.leaseState l = 2 →
      Claims.Does (.leaseReturn l) s fun t => Claims.BorrowEnds s t l) ∧
    (l < 4096 → s.leaseLender l = false → s.leaseState l = 1 → Claims.Does (.revocationMessage l) s fun t => l ∈ t.revoking ∧
      t.outbox.head? = some (.informed l) ∧ (Memory.wf s.mem = true → t.leaseState l = 2 ∧ t.leaseDeadline l = deadline)) ∧
    (l < 4096 → s.leaseLender l = false → s.leaseState l = 2 → s.leaseDeadline l ≤ s.clk.toNat →
      Claims.Does (.leaseDeadline l) s fun t => Claims.BorrowEnds s t l) ∧
    (l < 4096 → s.leaseLender l = true → s.leaseState l = 1 ∨ s.leaseState l = 2 → Memory.wf s.mem = true →
      Claims.Does (.leaseAcknowledge l) s fun t => t.leaseState l = 0 ∧ t.leaseLender l = true ∧ l ∉ t.revoking) ∧
    (l < 4096 → s.leaseLender l = true → s.leaseState l = 2 → s.leaseDeadline l + 2400000 ≤ s.clk.toNat → Memory.wf s.mem = true →
      Claims.Does (.leaseAckTimeout l) s fun t => t.leaseState l = 0 ∧ t.leaseLender l = true ∧ l ∉ t.revoking) ∧
    (s.isHbm pa = true → pa % 8 = 0 → pteState (s.read64 pa) ≠ 0 → pteLeaf (s.read64 pa) = true → Memory.wf s.mem = true →
      (16 ≤ n ∨ hard = true → Claims.Does (.frameRetire (pa, n, hard)) s fun t => pteState (t.read64 pa) = 7 ∧
        ¬ Claims.TlbHolds t (fun e => pteAddr e.leaf == pteAddr (s.read64 pa)))) ∧
    (n < 16 → exec (.frameRetire (pa, n, false)) s = .next s)

/-- The states of a link that the part has (19 R361, R362, 22 R405), the two routes of the examples of 19 R366, and the commands of DBGCMD (21 R394 to
R396, R400).
Forms that this statement says complete (the answer of `exec` is a next state with their effect): `linkEnable`, `linkDisable`, `retrain`,
`linkTrained`, `linkTrainFailed`, `replayFailure`, `dbgHalt`, `dbgResume`, `dbgDump`, `dumpDone`, `broadcastComplete`, `snapshotTick`,
`linkLevelReplay`. -/
def Obligations.LinkAndDebugEvents : Prop :=
  ∀ (s : State) (l c : Nat) (half fast cache : Bool) (hdm : Nat),
    let x := s.link l
    (((s.link 1).state ≠ .down → (s.link 1).state ≠ .disabled →
        (s.route ⟨1, 5⟩ ⟨2, 60⟩).hops = [⟨1, false⟩, ⟨7, false⟩]) ∧
      ((s.link 1).state = .down → (s.route ⟨1, 5⟩ ⟨2, 60⟩).hops = [⟨2, true⟩, ⟨0, true⟩, ⟨7, true⟩])) ∧
    (linkListed l = true →
      (x.state = .disabled ∨ x.state = .down → Claims.Does (.linkEnable l) s fun t => t.link l = { x with en := true, state := .training }) ∧
      (x.state = .disabled → Claims.Does (.linkDisable l) s fun t => t.link l = { x with en := false }) ∧
      (x.state ≠ .disabled → exec (.linkDisable l) s = .next ((s.setLink l { x with en := false }).loseLink l .disabled)) ∧
      (x.state = .active → Claims.Does (.retrain l) s (fun t => t.link l = { x with state := .retraining }) ∧
        Claims.Does (.replayFailure l) s (fun t => t.link l = { x with state := .retraining }) ∧
        Claims.Does (.linkLevelReplay l) s fun t => t.link l = { x with replays := x.replays + 1 }) ∧
      (x.state = .training → Claims.Does (.linkTrained l half fast hdm cache) s fun t =>
        (t.link l).state = .active ∧ (t.link l).replays = 0 ∧ (l < 9 → (t.link l).half = half) ∧
        (16 ≤ l → l < 18 → (t.link l).trained = some x.role) ∧ (32 ≤ l → (t.link l).fastOn = (fast && x.fast))) ∧
      (x.state = .retraining → Claims.Does (.linkTrained l half fast hdm cache) s fun t =>
        t.link l = { x with state := .active, retrains := x.retrains + 1 }) ∧
      (x.state = .training ∨ x.state = .retraining → exec (.linkTrainFailed l) s = .next (s.loseLink l .down))) ∧
    (256 ≤ c ∨ (s.ctx c).active = false →
      exec (.dbgHalt c) s = .next { s with dbgSts := (s.dbgSts &&& 16#64) ||| BitVec.ofNat 64 (2 + c % 256 * 2 ^ 8) }) ∧
    (c < 256 → (s.ctx c).active = true →
      Claims.Does (.dbgHalt c) s (fun t => (t.ctx c).bcast = true ∧ (t.ctx c).noFire = true) ∧
      ((s.ctx c).bcast = true → Claims.Does (.dbgResume c) s fun t => (t.ctx c).resumeDue = true) ∧
      ((s.ctx c).bcast = false → Claims.Does (.dbgResume c) s fun t => (t.ctx c).noFire = false ∧ t.dbgSts.getLsbD 0 = false ∧
        ∀ a g, s.grp a = some g → s.groupCtx g = c → t.grp a = some (g.resumed s.clk.toNat)) ∧
      (s.inOneStack s.dumpBase = true → Claims.Does (.dbgDump c) s fun t =>
        (t.ctx c).bcast = true ∧ (t.ctx c).dumping = some (s.dumpBase, s.clk)) ∧
      (s.inOneStack s.dumpBase = false → Claims.Does (.dbgDump c) s fun t => t.ctxs = s.ctxs ∧ bitsOf t.dbgSts 3 1 = 1)) ∧
    (s.canBroadcastEnd c = true → Claims.Does (.broadcastComplete c) s fun t => (t.ctx c).bcast = false) ∧
    (s.canDump c = true → Claims.Does (.dumpDone c) s fun t => (t.ctx c).dumping = none ∧ t.heldCmd = none ∧ t.dbgSts.getLsbD 0 = false) ∧
    (s.canSnapshot = true → Claims.Does .snapshotTick s fun t => t.snapClk = s.clk.toNat + 1)

/-! ### Events: the device, hosts and peers (00, 01, 11, 19, 22) -/

namespace Sys2Proof.Claims

/-- Part reset and recovery (22 R402, R403, R409, 19 R362, R375, 01 R15). -/
def BringUps : Prop :=
  ∀ (s : State) (n : Nat) (cd absent : BitVec 4) (xd : BitVec 2) (link : Bool) (half : BitVec 9),
    let live := (0xF &&& ~~~absent) &&& cd
    (xd.getLsbD 0 = true → live ≠ 0 → Does (.partReset true (cd, absent) xd (link, half)) s fun t =>
      t.ready = true ∧ t.stage = 6 ∧ t.recovery = false ∧ t.clk = 0 ∧ t.liveCd = live ∧ t.liveXd = xd ∧
      t.calfail = decide (live ≠ 0xF &&& ~~~absent ∨ xd ≠ 3) ∧
      t.mem = s.mem.filter (fun c => farAway c.1) ∧ (∀ pa, farAway pa = false → readLE t.mem pa 1 = 0) ∧
      (∀ l, l < 9 → (t.link l).state = (if t.endsLive l then .active else .down) ∧ (t.endsLive l = true → (t.link l).half = half.getLsbD l)) ∧
      t.image = s.image ∧ t.attKey = s.attKey ∧ t.lmsIndex = s.lmsIndex ∧ t.devIndex = s.devIndex) ∧
    (xd.getLsbD 0 = false ∨ live = 0 → Does (.partReset true (cd, absent) xd (link, half)) s fun t =>
      t.ready = false ∧ t.stage = 2 ∧ t.recovery = false ∧ t.calfail = decide (live ≠ 0xF &&& ~~~absent ∨ xd ≠ 3)) ∧
    (Does (.partReset false (cd, absent) xd (link, half)) s fun t => t.ready = false ∧ t.recovery = true ∧ t.clk = 0 ∧ t.image = s.image) ∧
    (n < 4 → Does (.dieOutOfService n) s fun t => t.liveCd.getLsbD n = false ∧ ∀ a ∈ t.issue, a ∈ s.issue ∧ dieOf (coreOf a) ≠ n) ∧
    (s.recovery = true → s.rcvBusy = false →
      (s.rcvLen = 0 ∨ 2 ^ 28 < s.rcvLen.toNat → Does .rcvcmdCommit s fun t => t.rcvResult = 2 ∧ t.rcvBusy = false) ∧
      (s.rcvLen ≠ 0 → s.rcvLen.toNat ≤ 2 ^ 28 → exec .rcvcmdCommit s = .next { s with rcvBusy := true })) ∧
    (s.recovery = true → s.rcvBusy = true →
      exec (.recoveryCheckDone false (cd, xd)) s = .next { s with rcvBusy := false, rcvResult := 2 } ∧
      Does (.recoveryCheckDone true (cd, xd)) s fun t => t.recovery = false ∧ t.rcvBusy = false ∧ t.rcvResult = 1 ∧
        t.image = some (s.rcvLen.toNat, s.mem.filter fun c => decide (c.1 < s.rcvLen.toNat)))

/-- Power and scrubbing (22 R404, R405). That a step is due in the clock that ends 2^20 clocks, once, and that a scrub pass has no other effect,
are the model's readings (logs 27 and 15). -/
def PowerAndScrub : Prop :=
  ∀ (s : State) (n : Nat) (v : BitVec 64),
    (s.clk.toNat % 2 ^ 20 ≠ 0 ∨ s.powerClk = s.clk.toNat → exec (.powerTick n) s = .next s) ∧
    (s.clk.toNat % 2 ^ 20 = 0 → s.powerClk ≠ s.clk.toNat → Does (.powerTick n) s fun t => t.mem = s.mem ∧ t.powerClk = s.clk.toNat ∧
      t.watts.toNat = min n 4095 ∧
      t.mhz10 = BitVec.ofNat 8 (if s.powerLimit < n then max 120 (s.mhz10.toNat - 10)
        else if n * 100 < s.powerLimit * 95 then min 240 (s.mhz10.toNat + 10) else s.mhz10.toNat)) ∧
    (Does (.pwrlimWrite v) s fun t => 600 ≤ t.powerLimit ∧ t.powerLimit ≤ 2000 ∧
      (600 ≤ bitsOf v 11 0 → bitsOf v 11 0 ≤ 2000 → t.powerLimit = bitsOf v 11 0)) ∧
    exec .scrub s = .next s

/-- Frozen masters (22 R408): a 1 written to a bit of FRZHOST or FRZPORT releases the function or the port; one written to a bit of FRZDMA
releases the engine, whose descriptor completes with STATUS 3, CODE 0x16 and the address that it was frozen at, or whose node fails with
PROTECTION. -/
def MastersReleased : Prop :=
  ∀ (s : State) (e : Nat) (v : BitVec 64),
    (exec (.masterRelease 0x0308 v) s = .next { s with frzHost := s.frzHost &&& ~~~(v.truncate 4) }) ∧
    (exec (.masterRelease 0x0310 v) s = .next { s with frzPort := s.frzPort &&& ~~~v }) ∧
    (exec (.masterRelease 0x0300 v) s = .next (((List.range 32).filter fun e => (s.frzDma &&& v.truncate 32).getLsbD e).foldl
      State.releaseEngine { s with frzDma := s.frzDma &&& ~~~(v.truncate 32) })) ∧
    (e < 32 → v.truncate 32 = 1#32 <<< e → s.frzDma.getLsbD e = true → (s.engine e).held = true →
      let x := s.engine e
      let r : State := { s with frzDma := s.frzDma &&& ~~~(1#32 <<< e) }
      (∀ pa, x.current = some pa → Does (.masterRelease 0x0300 v) s fun t => t.frzDma.getLsbD e = false ∧
        DescriptorEnds (r.setEngine e { x with held := false, compl := if x.ending then 0 else x.compl }) t e pa 3 0x16 x.faddr) ∧
      (∀ g n rest y nd, x.current = none → x.work = (g, n) :: rest → (g, n) ∉ rest → amGet s.graphs g = some y → s.node g n = some nd →
        nd.state = 2 → nd.grid = none → nd.ending = none →
        Does (.masterRelease 0x0300 v) s fun t => t.frzDma.getLsbD e = false ∧ NodeFaulted s t g n y nd cProtection))

/-- Attestation (22 R410): a report holds the SHA-256 of the running image, DEVCFG, the nonce and the leaf index, which advances before it is
signed; an exhausted key refuses; a new attestation key is certified by a leaf of the device key. How a report lays its parts out, the
signatures, and the certificate are the model's (log 5). -/
def Attestation : Prop :=
  ∀ (s : State) (n digest : Nat),
    (s.image = none → digest = Config.shippedDigest) →
    (∀ len cells, s.image = some (len, cells) → digest = sha256 len fun i => BitVec.ofNat 8 (readLE cells i 1)) →
    (s.lmsIndex < Config.lmsLeaves → Does (.attestationReport n) s fun t => t.lmsIndex = s.lmsIndex + 1 ∧ t.mem = s.mem ∧
      let m := digest % 2 ^ 256 + s.controlRead 0 * 2 ^ 256 + n % 2 ^ 256 * 2 ^ 320 + s.lmsIndex * 2 ^ 576
      t.outbox = .report m (Config.lmsSignature m (s.attKey * 2 ^ 64 + s.lmsIndex)) :: s.outbox) ∧
    (Config.lmsLeaves ≤ s.lmsIndex → exec (.attestationReport n) s = .next { s with outbox := .reportRefused :: s.outbox }) ∧
    (s.devIndex < Config.lmsLeaves → Does .attestationKeyCertify s fun t => t.attKey = s.attKey + 1 ∧ t.lmsIndex = 0 ∧
      t.devIndex = s.devIndex + 1 ∧ t.mem = s.mem ∧
      t.outbox = .certificate (s.attKey + 1) (Config.deviceSignature (s.attKey + 1) s.devIndex) :: s.outbox) ∧
    (Config.lmsLeaves ≤ s.devIndex → exec .attestationKeyCertify s = .next s)

end Sys2Proof.Claims

/-- The life of the device (22 R402 to R410, 19 R375, 01 R15): part reset with a good image leaves the part READY with HBM and the second tier zero
and the links of live dies ACTIVE, at the width that they trained to, and with a bad one in recovery; a die taken out; the recovery image; power, with the clock
one step at a time between 120 and 240; frozen masters released; attestation, which needs a leaf.
The model's choices here: what lies behind host ports and at peers stays (log 38); events carry the outcomes of the image check, of calibration and of training,
and the power measured (log 24); a scrub pass finds nothing (log 15); a power tick away from its clock does nothing (log 27); and the parts of an attestation (log 5).
Forms that this statement says complete (the answer of `exec` is a next state with their effect): `partReset`, `dieOutOfService`, `rcvcmdCommit`,
`recoveryCheckDone`, `powerTick`, `pwrlimWrite`, `scrub`, `masterRelease`, `attestationReport`, `attestationKeyCertify`. -/
def Obligations.DeviceEvents : Prop :=
  Claims.BringUps ∧ Claims.PowerAndScrub ∧ Claims.MastersReleased ∧ Claims.Attestation

/-- Writes of the control page (00 R6, R7, 01 R411, 04 R88, R89, 05 R102, R103): a misaligned one writes nothing; CTXTAB is dropped unless every context is DESTROYED, and QTAB
unless every queue is CLOSED; a command written while its register is BUSY, and a dropped write, set OVR; a command else starts, with BUSY; OVR is cleared by a
1. That a command starts as the very next event, put first in the agenda, is the model's choice (log 25).
Forms that this statement says complete (the answer of `exec` is a next state with their effect): `registerWrite`, `commandWriteDropped`,
`ctxtabWrite`, `qtabWrite`. -/
def Obligations.RegisterWrites : Prop :=
  ∀ (s : State) (off : Nat) (v : BitVec 64),
    (off % 8 ≠ 0 → exec (.registerWrite off v) s = .next s) ∧
    (Claims.Does (.registerWrite 0x0038 v) s fun t => (t.reg 0x0038).toNat = bitsOf v 10 0) ∧
    (Claims.Does (.registerWrite 0x0148 v) s fun t => (t.reg 0x0148).toNat = bitsOf v 56 0) ∧
    (Claims.Does (.registerWrite 0x0170 v) s fun t => (t.reg 0x0170).toNat = bitsOf v 51 21 * 2 ^ 21) ∧
    (exec (.registerWrite 0x0108 v) s = .next { s with ctxSts := s.ctxSts &&& ~~~(v &&& 16#64) }) ∧
    (s.ctxSts.getLsbD 0 = true → exec (.registerWrite 0x0100 v) s = .next { s with ctxSts := s.ctxSts ||| 16#64 }) ∧
    (s.ctxSts.getLsbD 0 = false → bitsOf v 11 8 = 3 → (s.ctx (bitsOf v 7 0)).dumping = none →
      Claims.Does (.registerWrite 0x0100 v) s fun t => t.ctxSts.getLsbD 0 = true ∧ t.agenda = .ctxRun (bitsOf v 7 0) :: s.agenda) ∧
    (s.qSts.getLsbD 0 = false → bitsOf v 13 10 = 1 →
      Claims.Does (.registerWrite 0x0120 v) s fun t => t.qSts.getLsbD 0 = true ∧ t.agenda = .queueOpen (bitsOf v 9 0) :: s.agenda) ∧
    ((∀ x ∈ s.ctxs, x.2.state = .destroyed) → Claims.Does (.ctxtabWrite v) s fun t => (t.reg 0x0010).toNat = bitsOf v 51 16 * 2 ^ 16) ∧
    ((∃ x ∈ s.ctxs, x.2.state ≠ .destroyed) → exec (.ctxtabWrite v) s = .next s) ∧
    ((∀ x ∈ s.queues, x.2.state = .closed) → Claims.Does (.qtabWrite v) s fun t => (t.reg 0x0018).toNat = bitsOf v 51 19 * 2 ^ 19) ∧
    ((∃ x ∈ s.queues, x.2.state ≠ .closed) → exec (.qtabWrite v) s = .next s) ∧
    (exec (.commandWriteDropped 0x0100) s = .next { s with ctxSts := s.ctxSts ||| 16#64 }) ∧
    (exec (.commandWriteDropped 0x0120) s = .next { s with qSts := s.qSts ||| 16#64 }) ∧
    (exec (.commandWriteDropped 0x0140) s = .next { s with tlbSts := s.tlbSts ||| 16#64 }) ∧
    (exec (.commandWriteDropped 0x0160) s = .next { s with dbgSts := s.dbgSts ||| 16#64 }) ∧
    (exec (.commandWriteDropped 0x0240) s = .next { s with dmaOvr := true })

namespace Sys2Proof.Claims

/-- Messages between the slices (11 R223, R225, R227, 19 R365, R368, R369): a store's bytes reach memory at its home, and every other byte stays; a
reduction store leaves what its operation makes of the bytes there; the writes of one instruction to one sector are performed together; a fill installs its line
unless an invalidation marked it; an invalidation drops the line and marks its fills. -/
def Messages : Prop :=
  ∀ (s : State) (i : Nat),
    (∀ w, s.writes[i]? = some w → s.canReq i = true →
      (w.tie = 0 → exec (.homeReq i) s = .next ({ s with writes := s.writes.eraseIdx i }.performWrite w)) ∧
      (w.tie = 0 → s.isHbm w.pa = true → Memory.wf s.mem = true →
        ∀ v, (w.red = none → v = w.data) →
        (∀ op et, w.red = some (op, et) → op ≠ .fadd → op ≠ .cell → v = (newValue op w.size (s.read w.pa w.size) w.data 0).getD 0) →
        (∀ et, w.red ≠ some (.fadd, et)) → (∀ et, w.red ≠ some (.cell, et)) →
        Does (.homeReq i) s fun t => t.writes = s.writes.eraseIdx i ∧ t.groups = s.groups ∧ t.cores = s.cores ∧ t.blocks = s.blocks ∧
          readLE t.mem w.pa w.size = v % 256 ^ w.size ∧ ∀ k, k < w.pa ∨ w.pa + w.size ≤ k → byteAt t.mem k = byteAt s.mem k) ∧
      (w.tie ≠ 0 → (∀ e ∈ s.writes, w.tied e = true → s.isHbm e.pa = true) → Memory.wf s.mem = true →
        Does (.homeReq i) s fun t => t.writes = s.writes.filter (fun e => !(w.tied e)) ∧
          ∀ k, (∀ e ∈ s.writes, w.tied e = true → k < e.pa ∨ e.pa + e.size ≤ k) → byteAt t.mem k = byteAt s.mem k)) ∧
    (s.canReq i = false → exec (.homeReq i) s = .next s) ∧
    (∀ f, s.fills[i]? = some f →
      (s.canRsp i = true → f.marked = true → exec (.homeRsp i) s = .next { s with fills := s.fills.eraseIdx i }) ∧
      (s.canRsp i = true → f.marked = false → Does (.homeRsp i) s fun t => t.fills = s.fills.eraseIdx i ∧ t.mem = s.mem ∧
        ∃ m, amGet t.guests f.die = some m ∧ amGet m (guestKey f.line f.sector) = some ⟨f.data, f.clk⟩)) ∧
    (∀ d line, s.invs[i]? = some (d, line) → s.canInv i = true → Does (.homeInv i) s fun t => t.invs = s.invs.eraseIdx i ∧
      t.mem = s.mem ∧ (∀ f ∈ t.fills, f.die = d → f.line = line → f.marked = true) ∧
      ∀ m sector, amGet s.guests d = some m → sector < 4 → ∃ m', amGet t.guests d = some m' ∧ amGet m' (guestKey line sector) = none)

/-- A reply to function fn of host link 16 + n. -/
def Replies (s t : State) (n fn : Nat) (refused : Bool) (data : Nat) : Prop :=
  t.outbox.head? = some (.hostReply n fn refused data) ∧ (refused = true → (t.link (16 + n)).refused = true)

/-- Host accesses (19 R370, R372, R373, R375, 22 R402, R408). -/
def HostAccesses : Prop :=
  ∀ (s : State) (n off size data : Nat),
    n < 2 → (s.hostLink n).state = .active → (s.hostLink n).trained = some false →
    (∀ fn bar kind, barHolds fn bar off size = true → s.frzHost.getLsbD (2 * n + fn) = true →
      Does (.hostAccess n fn bar off kind size data) s fun t => Replies s t n fn true 0 ∧ t.mem = s.mem) ∧
    (s.frzHost.getLsbD (2 * n) = false → s.ready = false → ∀ kind, barHolds 0 4 off size = true →
      Does (.hostAccess n 0 4 off kind size data) s fun t => Replies s t n 0 true 0 ∧ t.mem = s.mem) ∧
    (s.frzHost.getLsbD (2 * n) = false → s.ready = true →
      (off % 8 = 0 → off < 0x1000 → Does (.hostAccess n 0 0 off 1 8 data) s fun t => Replies s t n 0 false 0 ∧
        t.regWrites = s.regWrites ++ [.registerWrite off (BitVec.ofNat 64 data)] ∧ t.mem = s.mem) ∧
      (barHolds 0 4 off size = true →
        (s.region off = .hole → ∀ kind, Does (.hostAccess n 0 4 off kind size data) s fun t => Replies s t n 0 true 0 ∧
          t.frzHost = s.frzHost ||| (1#4 <<< (2 * n)) ∧ t.frzAddr = BitVec.ofNat 64 off ∧ t.mem = s.mem) ∧
        (s.isHbm off = true → s.isHbm (off + size - 1) = true →
          Does (.hostAccess n 0 4 off 1 size data) s (fun t => Replies s t n 0 false 0 ∧ t.mem = writeLE s.mem off size data) ∧
          (s.poisoned off size = true → ∀ kind, kind ≠ 1 → Does (.hostAccess n 0 4 off kind size data) s fun t =>
            t.outbox.head? = some (.hostReply n 0 true 0) ∧ t.mem = s.mem) ∧
          (s.poisoned off size = false →
            Does (.hostAccess n 0 4 off 0 size data) s (fun t => Replies s t n 0 false (readLE s.mem off size) ∧ t.mem = s.mem) ∧
            (size = 4 ∨ size = 8 → off % size = 0 →
              Does (.hostAccess n 0 4 off 2 size data) s (fun t => Replies s t n 0 false (readLE s.mem off size) ∧
                t.mem = writeLE s.mem off size ((readLE s.mem off size + data) % 2 ^ (8 * size))) ∧
              Does (.hostAccess n 0 4 off 3 size data) s (fun t => Replies s t n 0 false (readLE s.mem off size) ∧
                t.mem = writeLE s.mem off size data) ∧
              Does (.hostAccess n 0 4 off 4 size data) s fun t => Replies s t n 0 false (readLE s.mem off size) ∧
                t.mem = if readLE s.mem off size = data % 2 ^ (8 * size) then writeLE s.mem off size (data / 2 ^ (8 * size)) else s.mem))))) ∧
    (s.frzHost.getLsbD (2 * n + 1) = false → s.ready = true → barHolds 1 2 off size = true →
      let w := s.reg (0x0A00 + n * 256 + off / 2 ^ 35 % 16 * 16)
      let pa := bitsOf w 51 16 * 2 ^ 16 + off % 2 ^ 35
      (w.getLsbD 0 = false ∨ w.getLsbD 1 = true → Does (.hostAccess n 1 2 off 1 size data) s fun t => Replies s t n 1 true 0 ∧
        t.mem = s.mem) ∧
      (w.getLsbD 0 = true → w.getLsbD 1 = false → s.isHbm pa = true → s.isHbm (pa + size - 1) = true →
        Does (.hostAccess n 1 2 off 1 size data) s fun t => Replies s t n 1 false 0 ∧ t.mem = writeLE s.mem pa size data) ∧
      (w.getLsbD 0 = true → s.isHbmOrSecond pa = false → Does (.hostAccess n 1 2 off 0 size data) s fun t => Replies s t n 1 true 0 ∧
        t.frzHost = s.frzHost ||| (1#4 <<< (2 * n + 1)) ∧ t.frzAddr = BitVec.ofNat 64 pa ∧ t.mem = s.mem)) ∧
    (n = 0 → s.recovery = true → s.frzHost.getLsbD 0 = false → barHolds 0 2 off size = true →
      Does (.hostAccess 0 0 2 off 1 size data) s (fun t => Replies s t 0 0 false 0 ∧ t.mem = writeLE s.mem off size data) ∧
      (s.poisoned off size = false →
        Does (.hostAccess 0 0 2 off 0 size data) s fun t => Replies s t 0 0 false (readLE s.mem off size) ∧ t.mem = s.mem))

/-- The host's view of device memory and of the lines that the part has cached (11 R224, 19 R374, 22 R402, R406). -/
def CxlAccesses : Prop :=
  ∀ (s : State) (n off data : Nat),
    (∀ base len, (s.hostLink n).hdm = some (base, len) → (s.hostLink n).state = .active → off % 64 = 0 → off + 64 ≤ len →
      (s.ready = true →
        Does (.cxlMemAccess n off true data) s (fun t => t.mem = writeLE s.mem (base + off) 64 data) ∧
        Does (.cxlMemAccess n off false data) s fun t => t.mem = s.mem ∧ (base + off) / 256 ∈ t.hdmHeld ∧
          t.outbox = .cxlReply n (s.poisoned (base + off) 64) (if s.poisoned (base + off) 64 then 0 else readLE s.mem (base + off) 64) :: s.outbox) ∧
      (s.ready = false → exec (.cxlMemAccess n off true data) s = .next s ∧
        exec (.cxlMemAccess n off false data) s = .next { s with outbox := .cxlReply n true 0 :: s.outbox })) ∧
    (∀ v, amGet s.hostLines n = some v → Does (.cxlCacheSnoop n) s fun t =>
      t.hostLines = amDel s.hostLines n ∧ t.outbox = .snoopReply n v :: s.outbox)

/-- Requests of peers at a port (19 R377, 22 R408). -/
def PeerRequests : Prop :=
  ∀ (s : State) (n peer op et pa size data cmp : Nat), n < 64 → size ≠ 0 → (s.link (32 + n)).state = .active →
    (s.frzPort.getLsbD n = true ∨ s.ready = false ∨ 2048 ≤ peer ∨ s.leaseCovers peer pa size = false → ∀ kind,
      Does (.fabricRequest n peer kind op et pa size data cmp) s fun t => t.mem = s.mem ∧ t.outbox = .fabricReply n true 0 :: s.outbox ∧
        (t.link (32 + n)).refused = true) ∧
    (s.frzPort.getLsbD n = false → s.ready = true → peer < 2048 → s.leaseCovers peer pa size = true →
      (s.isHbm pa = false → ∀ kind, Does (.fabricRequest n peer kind op et pa size data cmp) s fun t => t.mem = s.mem ∧
        t.frzPort = s.frzPort ||| (1#64 <<< n) ∧ t.frzAddr = BitVec.ofNat 64 pa ∧ t.outbox = .fabricReply n true 0 :: s.outbox) ∧
      (s.isHbm pa = true → s.isHbm (pa + size - 1) = true →
        Does (.fabricRequest n peer 1 op et pa size data cmp) s (fun t => t.mem = writeLE s.mem pa size data) ∧
        (s.poisoned pa size = false → Does (.fabricRequest n peer 0 op et pa size data cmp) s fun t => t.mem = s.mem ∧
          t.outbox.head? = some (.fabricReply n false (readLE s.mem pa size)))))

/-- What a completion does to the request that it answers (11 R231, 18 R355, 19 R374), while no invalidation waits for it. -/
def Completions : Prop :=
  ∀ (s : State) (n data : Nat) (r : ExtReq), (s.extReqs.find? fun r => r.id == n && r.reply.isNone) = some r →
    (r.agent = snoopAgent → Does (.hostOrPeerCompletion n false data) s fun t => t.extReqs = s.extReqs.filter (fun q => q.id != n) ∧
      r.pa / 256 ∉ t.hdmHeld ∧ t.mem = s.mem) ∧
    (r.agent ≠ snoopAgent → s.settling = [] →
      (r.write = true → Does (.hostOrPeerCompletion n false data) s fun t => t.extReqs = s.extReqs.filter (fun q => q.id != n) ∧
        t.mem = s.mem) ∧
      (r.write = false → Does (.hostOrPeerCompletion n false data) s fun t => t.mem = s.mem ∧ ∃ q ∈ t.extReqs, q.id = n ∧
        q.agent = r.agent ∧ q.reply = some (false, data % 256 ^ r.size)))

/-- Accesses of Walolmest to the on-chip windows (01 R31, R32). -/
def WindowAccesses : Prop :=
  ∀ (s : State) (pa size data : Nat), s.region pa = .chip → size ≠ 0 → s.chipHole pa size = false → pa % size = 0 →
    exec (.windowAccess true pa size data) s = .next (s.chipWrite pa size data) ∧
    Does (.windowAccess false pa size data) s fun t => t.outbox.head? = some (.windowReply (s.chipRead pa size).1)

end Sys2Proof.Claims

/-- Messages, hosts and peers (11 R223 to R227, R231, 19 R365 to R377, 22 R402, R408): a request is performed at its home, where its bytes reach memory and
every other byte stays; a fill installs its line unless an invalidation marked it, an invalidation drops the line and marks its fills; a host or peer request is
served, refused, or frozen at its function or port, with the AtomicOps FetchAdd, Swap and CAS; a completion reaches the request that waits for it. (Which
requests travel as messages is the model's choice, log 34.)
Forms that this statement says complete (the answer of `exec` is a next state with their effect): `windowAccess`, `homeReq`, `homeRsp`, `homeInv`,
`hostAccess`, `cxlMemAccess`, `cxlCacheSnoop`, `fabricRequest`, `hostOrPeerCompletion`. -/
def Obligations.TrafficEvents : Prop :=
  Claims.Messages ∧ Claims.HostAccesses ∧ Claims.CxlAccesses ∧ Claims.PeerRequests ∧ Claims.Completions ∧ Claims.WindowAccesses

namespace Sys2Proof.Claims

/-- Words of the opcode table, with a value in each field, and the instructions they stand for: part 1. -/
noncomputable def opcodeWords1 : List (Word × Instr) :=
  [(0x80205657, .sadd true 1 44 87), (0x80405657, .ssub true 1 44 87), (0x80605657, .smul true 1 44 87),
   (0x80805657, .smulh true 1 44 87), (0x80A05657, .smulhu true 1 44 87), (0x80C05657, .sdiv true 1 44 87),
   (0x80E05657, .sdivu true 1 44 87), (0x81005657, .srem true 1 44 87), (0x81205657, .sremu true 1 44 87),
   (0x81405657, .sand true 1 44 87), (0x81605657, .sor true 1 44 87), (0x81805657, .sxor true 1 44 87), (0x81A05657, .sshl true 1 44 87),
   (0x81C05657, .sshr true 1 44 87), (0x81E05657, .ssra true 1 44 87), (0x82005657, .smin true 1 44 87), (0x82205657, .smax true 1 44 87),
   (0x82405657, .sminu true 1 44 87), (0x82605657, .smaxu true 1 44 87), (0x82805657, .sseq true 1 44 87),
   (0x82A05657, .sslt true 1 44 87), (0x82C05657, .ssltu true 1 44 87), (0x82E05657, .ssel true 1 44 87), (0x83005600, .sclz true 1 44),
   (0x83205600, .spopc true 1 44), (0x83405600, .sbrev true 1 44), (0x83605657, .sext true 1 44 87), (0x83805657, .slea true 1 44 87),
   (0x84005657, .saddi true 1 44 87), (0x84205657, .sandi true 1 44 87), (0x84405657, .sori true 1 44 87),
   (0x84605657, .sxori true 1 44 87), (0x84805657, .sshli true 1 44 87), (0x84A05657, .sshri true 1 44 87),
   (0x84C05657, .ssrai true 1 44 87)]

/-- Words of the opcode table, with a value in each field, and the instructions they stand for: part 2. -/
noncomputable def opcodeWords2 : List (Word × Instr) :=
  [(0x84E040AC, .sli true 1 172), (0x88000056, .br 86), (0x88358081, .brz 86 129), (0x88558081, .brnz 86 129),
   (0x88758081, .brany 86 129), (0x88958081, .brall 86 129), (0x88A00056, .call 86), (0x88C00000, .ret), (0x88F58081, .jmp 86 129),
   (0x89158081, .vbr 86 129), (0x89200000, .vjoin), (0x89400000, .exit), (0x89600000, .nop true), (0x89800081, .phase true 129),
   (0x8A000080, .setmode true 1), (0x8A2040AC, .modei true 1 172), (0x8A404000, .getmode true 1), (0x8A6040AC, .srd true 1 172),
   (0x8A8040AC, .swr true 1 172), (0x8C000081, .trap true 129), (0x8C200000, .tret), (0x8C400081, .bkpt true 129),
   (0x8C600000, .haltInsn true), (0x8C8000AC, .wpset true 1 44), (0x8CA00001, .wpclr true 1), (0x8CC000AC, .trc true 1 44),
   (0x8CE05657, .gget true 1 44 87), (0x8D005657, .gput true 1 44 87), (0x8D205657, .mbox true 1 44 87), (0x8D40402C, .perfrd true 1 44),
   (0x8D605600, .enrd true 1 44), (0x90005657, .sldB true 1 44 87), (0x90205657, .sldH true 1 44 87), (0x90405657, .sldW true 1 44 87),
   (0x90605657, .sldD true 1 44 87)]

/-- Words of the opcode table, with a value in each field, and the instructions they stand for: part 3. -/
noncomputable def opcodeWords3 : List (Word × Instr) :=
  [(0x90805657, .slduB true 1 44 87), (0x90A05657, .slduH true 1 44 87), (0x90C05657, .slduW true 1 44 87),
   (0x91005657, .sstB true 1 44 87), (0x91205657, .sstH true 1 44 87), (0x91405657, .sstW true 1 44 87), (0x91605657, .sstD true 1 44 87),
   (0x91805657, .sldDAcq true 1 44 87), (0x91A05657, .sstDRel true 1 44 87), (0x91C05657, .sldWAcq true 1 44 87),
   (0x91E05657, .sstWRel true 1 44 87), (0x92000081, .fence true 129), (0x92205657, .waitv true 1 44 87),
   (0x94005657, .atomAdd true 1 44 87), (0x94205657, .atomAnd true 1 44 87), (0x94405657, .atomOr true 1 44 87),
   (0x94605657, .atomXor true 1 44 87), (0x94805657, .atomMin true 1 44 87), (0x94A05657, .atomMax true 1 44 87),
   (0x94C05657, .atomMinu true 1 44 87), (0x94E05657, .atomMaxu true 1 44 87), (0x95005657, .atomExch true 1 44 87),
   (0x95205657, .atomCas true 1 44 87), (0x95405657, .atomFadd true 1 44 87), (0x96005657, .pldW true 1 44 87),
   (0x96205657, .pldD true 1 44 87), (0x96405657, .pstW true 1 44 87), (0x96605657, .pstD true 1 44 87), (0xA0005657, .vadd true 1 44 87),
   (0xA0205657, .vsub true 1 44 87), (0xA0405657, .vmul true 1 44 87), (0xA0605657, .vmulh true 1 44 87),
   (0xA0805657, .vmulhu true 1 44 87), (0xA0A05657, .vmad true 1 44 87), (0xA0C05657, .vmin true 1 44 87)]

/-- Words of the opcode table, with a value in each field, and the instructions they stand for: part 4. -/
noncomputable def opcodeWords4 : List (Word × Instr) :=
  [(0xA0E05657, .vmax true 1 44 87), (0xA1005657, .vminu true 1 44 87), (0xA1205657, .vmaxu true 1 44 87), (0xA1405600, .vabs true 1 44),
   (0xA1605600, .vneg true 1 44), (0xA1805657, .vand true 1 44 87), (0xA1A05657, .vor true 1 44 87), (0xA1C05657, .vxor true 1 44 87),
   (0xA1E05600, .vnot true 1 44), (0xA2005657, .vshl true 1 44 87), (0xA2205657, .vshr true 1 44 87), (0xA2405657, .vsra true 1 44 87),
   (0xA2605600, .vclz true 1 44), (0xA2805600, .vpopc true 1 44), (0xA2A05657, .vcmpeq true 1 44 87), (0xA2C05657, .vcmplt true 1 44 87),
   (0xA2E05657, .vcmpltu true 1 44 87), (0xA3005657, .vcmple true 1 44 87), (0xA3205657, .vsel true 1 44 87),
   (0xA4005657, .vaddi true 1 44 87), (0xA4205657, .vshli true 1 44 87), (0xA4405657, .vshri true 1 44 87),
   (0xA4605657, .vsrai true 1 44 87), (0xA4805657, .vandi true 1 44 87), (0xA6005600, .vmov true 1 44), (0xA6205600, .vsplat true 1 44),
   (0xA6405657, .vins true 1 44 87), (0xA6605657, .vperm true 1 44 87), (0xA6805657, .vshfl true 1 44 87),
   (0xA6A05657, .vbcast true 1 44 87), (0xA6C05657, .vrotl true 1 44 87), (0xA6E05657, .vpack true 1 44 87),
   (0xA7005600, .vunpk true 1 44), (0xA7205657, .vzip true 1 44 87), (0xA7405657, .vunzip true 1 44 87)]

/-- Words of the opcode table, with a value in each field, and the instructions they stand for: part 5. -/
noncomputable def opcodeWords5 : List (Word × Instr) :=
  [(0xA7604000, .viota true 1), (0xA8005657, .pand true 1 44 87), (0xA8205657, .por true 1 44 87), (0xA8405657, .pxor true 1 44 87),
   (0xA8605600, .pnot true 1 44), (0xA8805600, .pmov true 1 44), (0xA8A05600, .pget true 1 44), (0xAA005600, .vredAdd true 1 44),
   (0xAA205600, .vredMax true 1 44), (0xAA405600, .vredMin true 1 44), (0xAA605600, .vredAnd true 1 44), (0xAA805600, .vredOr true 1 44),
   (0xAAA05600, .vredlAdd true 1 44), (0xAAC05600, .vscanAdd true 1 44), (0xAAE05657, .yget true 1 44 87), (0xAB005600, .yseq true 1 44),
   (0xAC0040AC, .vsrd true 1 172), (0xB0005657, .fadd true 1 44 87), (0xB0205657, .fsub true 1 44 87), (0xB0405657, .fmul true 1 44 87),
   (0xB0605657, .ffma true 1 44 87), (0xB0805657, .ffms true 1 44 87), (0xB0A05657, .fnma true 1 44 87), (0xB0C05657, .fmin true 1 44 87),
   (0xB0E05657, .fmax true 1 44 87), (0xB1005600, .fabs true 1 44), (0xB1205600, .fneg true 1 44), (0xB1405657, .fcpys true 1 44 87),
   (0xB1605600, .frcp true 1 44), (0xB1805600, .frsq true 1 44), (0xB1A05600, .fsqrt true 1 44), (0xB1C05600, .fexp2 true 1 44),
   (0xB1E05600, .flog2 true 1 44), (0xB2005600, .ftanh true 1 44), (0xB2205657, .fcmpeq true 1 44 87)]

/-- Words of the opcode table, with a value in each field, and the instructions they stand for: part 6. -/
noncomputable def opcodeWords6 : List (Word × Instr) :=
  [(0xB2405657, .fcmplt true 1 44 87), (0xB2605657, .fcmple true 1 44 87), (0xB2805657, .fcmpun true 1 44 87),
   (0xB2A05600, .fclass true 1 44), (0xB2C05600, .frnd true 1 44), (0xB2E05657, .fsel true 1 44 87), (0xB4005600, .fcvt true 1 44),
   (0xB4205600, .ftoi true 1 44), (0xB4405600, .itof true 1 44), (0xB4605657, .mxq true 1 44 87), (0xB4805600, .mxdq true 1 44),
   (0xB4A05600, .kget true 1 44), (0xB4C05600, .kset true 1 44), (0xB4E05657, .kadd true 1 44 87), (0xB5005657, .kmax true 1 44 87),
   (0xB5205600, .xcvt true 1 44), (0xC0005657, .vldW true 1 44 87), (0xC0205657, .vldD true 1 44 87), (0xC0405657, .vldQ true 1 44 87),
   (0xC0605657, .vldO true 1 44 87), (0xC0805657, .vstW true 1 44 87), (0xC0A05657, .vstD true 1 44 87), (0xC0C05657, .vstQ true 1 44 87),
   (0xC0E05657, .vstO true 1 44 87), (0xC1005657, .vldsW true 1 44 87), (0xC1205657, .vldsD true 1 44 87),
   (0xC1405657, .vldsQ true 1 44 87), (0xC1605657, .vldsO true 1 44 87), (0xC1805657, .vstsW true 1 44 87),
   (0xC1A05657, .vstsD true 1 44 87), (0xC1C05657, .vstsQ true 1 44 87), (0xC1E05657, .vstsO true 1 44 87),
   (0xC2005657, .vldOAcq true 1 44 87), (0xC2205657, .vstORel true 1 44 87), (0xC2405657, .vldQAcq true 1 44 87)]

/-- Words of the opcode table, with a value in each field, and the instructions they stand for: part 7. -/
noncomputable def opcodeWords7 : List (Word × Instr) :=
  [(0xC2605657, .vstQRel true 1 44 87), (0xC2805657, .vldmx true 1 44 87), (0xC2A05657, .vstmx true 1 44 87),
   (0xC3005600, .pldO true 1 44), (0xC3205600, .pstO true 1 44), (0xC3405657, .pldmx true 1 44 87), (0xC3605657, .pstmx true 1 44 87),
   (0xC4005657, .vatomAdd true 1 44 87), (0xC4205657, .vatomMin true 1 44 87), (0xC4405657, .vatomMax true 1 44 87),
   (0xC4605657, .vatomExch true 1 44 87), (0xC4805657, .vatomCas true 1 44 87), (0xC4A05657, .vatomFadd true 1 44 87),
   (0xC5005657, .redstAdd true 1 44 87), (0xC5205657, .redstMin true 1 44 87), (0xC5405657, .redstMax true 1 44 87),
   (0xC5605657, .redstFadd true 1 44 87), (0xC5805657, .redstX true 1 44 87), (0xC60000AC, .vprefetch true 1 44),
   (0xC8005603, .lace true 1 44 3), (0xC8200080, .lacew true 1 0), (0xC8404000, .laceq true 1 0), (0xC8600080, .lacek true 1 0),
   (0xC880400C, .rngget true 1 12), (0xC8A00001, .rngput true 1), (0xC8A000CC, .rngputInit true 1 12), (0xC8C0400C, .rngacq true 1 12),
   (0xC8E00001, .rngrel true 1), (0xC9005600, .town true 1 44 0), (0xD000400C, .bara true 1 12), (0xD020400C, .baraw true 1 12),
   (0xD040008C, .barw true 1 12), (0xD060400C, .bard true 1 12), (0xD080008C, .barx true 1 12), (0xD0A0400C, .barq true 1 12)]

/-- Words of the opcode table, with a value in each field, and the instructions they stand for: part 8. -/
noncomputable def opcodeWords8 : List (Word × Instr) :=
  [(0xD1005600, .barma true 1 44), (0xD1205600, .barmaw true 1 44), (0xD14000AC, .barmw true 1 44), (0xD1605600, .barmd true 1 44),
   (0xD18000AC, .barmx true 1 44), (0xD1A05600, .barmq true 1 44), (0xD2005600, .capb true 1 44), (0xD2200000, .caps),
   (0xD2400000, .cape), (0xD2605600, .capr true 1 44), (0xD300008C, .bmset true 1 12), (0xD320008C, .bmref true 1 12),
   (0xD340008C, .bmbind true 1 12), (0xD34000CC, .bmunbind true 1 12), (0xD3604007, .bmrd true 1 0 7), (0xD3800001, .bmclr true 1),
   (0xD4000000, .gtok true), (0xD4205657, .glaunch true 1 44 87), (0xD4405657, .gstat true 1 44 87), (0xD4605657, .gcancel true 1 44 87),
   (0xD4800080, .gfail true 1), (0xD6000000, .yield), (0xF0000080, .arel true 1), (0xF0205657, .rqnt true 1 44 87),
   (0xF0405657, .rqntt true 1 44 87), (0xF0605657, .ald true 1 44 87), (0xF0805657, .ast true 1 44 87), (0xF0A05600, .azero true 1 44),
   (0xF0C05657, .apatch true 1 44 87), (0xF0E05657, .aget true 1 44 87), (0xF1005657, .ahnd true 1 44 87),
   (0xF83896D8, .mma true 1 12 false true 45 88), (0x7FE00056, .ext 86)]

end Sys2Proof.Claims

/-- The opcode table (03 R61, R79): a word of each of its 278 rows with an opcode, a value in each field where the table places it, decodes to that
row's instruction with those values. -/
def Obligations.OpcodesOfTheTable : Prop :=
  ∀ x ∈ Claims.opcodeWords1 ++ Claims.opcodeWords2 ++ Claims.opcodeWords3 ++ Claims.opcodeWords4 ++ Claims.opcodeWords5 ++ Claims.opcodeWords6 ++ Claims.opcodeWords7 ++ Claims.opcodeWords8, decodeWord x.1 = x.2
end

