-- ==== Sys2Proof/Laws/Group.lean ====
section
/-!
SUPPORT. Sys2Proof/Laws/Group.lean: the fields of a group after each write of a register: those it leaves alone, and the poison left.
-/

namespace Sys2Proof.Machine

/-- What is poisoned after a register is written: what was, but for that register. -/
@[simp] theorem Group.mem_cleaned (g : Group) (f : RegFile) (n l : Nat) (r : RegAt) :
    r ∈ g.cleaned f n l ↔ r ∈ g.poison ∧ r ≠ ⟨f, n, l⟩ := by
  simp [Group.cleaned]

/-- A group without poison has none after a write. -/
theorem Group.cleaned_nil {g : Group} (h : g.poison = []) (f : RegFile) (n l : Nat) : g.cleaned f n l = [] := by
  simp [Group.cleaned, h]

@[simp] theorem Group.setS_poison (g : Group) (n : Nat) (v : BitVec 64) : (g.setS n v).poison = g.cleaned .scalar n 0 := rfl
@[simp] theorem Group.setS_block (g : Group) (n : Nat) (v : BitVec 64) : (g.setS n v).block = g.block := rfl
@[simp] theorem Group.setS_gid (g : Group) (n : Nat) (v : BitVec 64) : (g.setS n v).gid = g.gid := rfl
@[simp] theorem Group.setS_kregs (g : Group) (n : Nat) (v : BitVec 64) : (g.setS n v).kregs = g.kregs := rfl
@[simp] theorem Group.setS_state (g : Group) (n : Nat) (v : BitVec 64) : (g.setS n v).state = g.state := rfl
@[simp] theorem Group.setS_v (g : Group) (n : Nat) (v : BitVec 64) : (g.setS n v).v = g.v := rfl
@[simp] theorem Group.setS_k (g : Group) (n : Nat) (v : BitVec 64) : (g.setS n v).k = g.k := rfl
@[simp] theorem Group.setS_p (g : Group) (n : Nat) (v : BitVec 64) : (g.setS n v).p = g.p := rfl
@[simp] theorem Group.setS_h (g : Group) (n : Nat) (v : BitVec 64) : (g.setS n v).h = g.h := rfl
@[simp] theorem Group.setS_y (g : Group) (n : Nat) (v : BitVec 64) : (g.setS n v).y = g.y := rfl
@[simp] theorem Group.setS_vreds (g : Group) (n : Nat) (v : BitVec 64) : (g.setS n v).vreds = g.vreds := rfl
@[simp] theorem Group.setS_mode (g : Group) (n : Nat) (v : BitVec 64) : (g.setS n v).mode = g.mode := rfl
@[simp] theorem Group.setS_fpstat (g : Group) (n : Nat) (v : BitVec 64) : (g.setS n v).fpstat = g.fpstat := rfl
@[simp] theorem Group.setS_seed (g : Group) (n : Nat) (v : BitVec 64) : (g.setS n v).seed = g.seed := rfl
@[simp] theorem Group.setS_gen (g : Group) (n : Nat) (v : BitVec 64) : (g.setS n v).gen = g.gen := rfl
@[simp] theorem Group.setS_path0 (g : Group) (n : Nat) (v : BitVec 64) : (g.setS n v).path0 = g.path0 := rfl
@[simp] theorem Group.setS_path1 (g : Group) (n : Nat) (v : BitVec 64) : (g.setS n v).path1 = g.path1 := rfl
@[simp] theorem Group.setS_onB (g : Group) (n : Nat) (v : BitVec 64) : (g.setS n v).onB = g.onB := rfl
@[simp] theorem Group.setS_depth (g : Group) (n : Nat) (v : BitVec 64) : (g.setS n v).depth = g.depth := rfl
@[simp] theorem Group.setS_splitC (g : Group) (n : Nat) (v : BitVec 64) : (g.setS n v).splitC = g.splitC := rfl
@[simp] theorem Group.setS_phase (g : Group) (n : Nat) (v : BitVec 64) : (g.setS n v).phase = g.phase := rfl
@[simp] theorem Group.setS_phTimer (g : Group) (n : Nat) (v : BitVec 64) : (g.setS n v).phTimer = g.phTimer := rfl
@[simp] theorem Group.setS_pendPhase (g : Group) (n : Nat) (v : BitVec 64) : (g.setS n v).pendPhase = g.pendPhase := rfl
@[simp] theorem Group.setS_phOver (g : Group) (n : Nat) (v : BitVec 64) : (g.setS n v).phOver = g.phOver := rfl
@[simp] theorem Group.setS_pendFp (g : Group) (n : Nat) (v : BitVec 64) : (g.setS n v).pendFp = g.pendFp := rfl
@[simp] theorem Group.setS_xpc (g : Group) (n : Nat) (v : BitVec 64) : (g.setS n v).xpc = g.xpc := rfl
@[simp] theorem Group.setS_xmode (g : Group) (n : Nat) (v : BitVec 64) : (g.setS n v).xmode = g.xmode := rfl
@[simp] theorem Group.setS_xcause (g : Group) (n : Nat) (v : BitVec 64) : (g.setS n v).xcause = g.xcause := rfl
@[simp] theorem Group.setS_xaddr (g : Group) (n : Nat) (v : BitVec 64) : (g.setS n v).xaddr = g.xaddr := rfl
@[simp] theorem Group.setS_xaux (g : Group) (n : Nat) (v : BitVec 64) : (g.setS n v).xaux = g.xaux := rfl
@[simp] theorem Group.setS_trapMode (g : Group) (n : Nat) (v : BitVec 64) : (g.setS n v).trapMode = g.trapMode := rfl
@[simp] theorem Group.setS_cob (g : Group) (n : Nat) (v : BitVec 64) : (g.setS n v).cob = g.cob := rfl
@[simp] theorem Group.setS_cobRun (g : Group) (n : Nat) (v : BitVec 64) : (g.setS n v).cobRun = g.cobRun := rfl
@[simp] theorem Group.setS_stopCause (g : Group) (n : Nat) (v : BitVec 64) : (g.setS n v).stopCause = g.stopCause := rfl
@[simp] theorem Group.setS_energy (g : Group) (n : Nat) (v : BitVec 64) : (g.setS n v).energy = g.energy := rfl
@[simp] theorem Group.setS_arrivals (g : Group) (n : Nat) (v : BitVec 64) : (g.setS n v).arrivals = g.arrivals := rfl
@[simp] theorem Group.setS_fate (g : Group) (n : Nat) (v : BitVec 64) : (g.setS n v).fate = g.fate := rfl
@[simp] theorem Group.setS_cap (g : Group) (n : Nat) (v : BitVec 64) : (g.setS n v).cap = g.cap := rfl
@[simp] theorem Group.setS_promo (g : Group) (n : Nat) (v : BitVec 64) : (g.setS n v).promo = g.promo := rfl
@[simp] theorem Group.setS_readyClk (g : Group) (n : Nat) (v : BitVec 64) : (g.setS n v).readyClk = g.readyClk := rfl
@[simp] theorem Group.setS_yielded (g : Group) (n : Nat) (v : BitVec 64) : (g.setS n v).yielded = g.yielded := rfl
@[simp] theorem Group.setS_dep (g : Group) (n : Nat) (v : BitVec 64) : (g.setS n v).dep = g.dep := rfl
@[simp] theorem Group.setS_woke (g : Group) (n : Nat) (v : BitVec 64) : (g.setS n v).woke = g.woke := rfl
@[simp] theorem Group.setS_sent (g : Group) (n : Nat) (v : BitVec 64) : (g.setS n v).sent = g.sent := rfl
@[simp] theorem Group.setS_waitClk (g : Group) (n : Nat) (v : BitVec 64) : (g.setS n v).waitClk = g.waitClk := rfl
@[simp] theorem Group.setS_exts (g : Group) (n : Nat) (v : BitVec 64) : (g.setS n v).exts = g.exts := rfl
@[simp] theorem Group.setS_runWords (g : Group) (n : Nat) (v : BitVec 64) : (g.setS n v).runWords = g.runWords := rfl
@[simp] theorem Group.setS_acqClk (g : Group) (n : Nat) (v : BitVec 64) : (g.setS n v).acqClk = g.acqClk := rfl
@[simp] theorem Group.setS_going (g : Group) (n : Nat) (v : BitVec 64) : (g.setS n v).going = g.going := rfl
@[simp] theorem Group.setS_entry (g : Group) (n : Nat) (v : BitVec 64) : (g.setS n v).entry = g.entry := rfl

@[simp] theorem Group.setP_poison (g : Group) (n : Nat) (v : BitVec 8) : (g.setP n v).poison = g.cleaned .pred n 0 := rfl
@[simp] theorem Group.setP_block (g : Group) (n : Nat) (v : BitVec 8) : (g.setP n v).block = g.block := rfl
@[simp] theorem Group.setP_gid (g : Group) (n : Nat) (v : BitVec 8) : (g.setP n v).gid = g.gid := rfl
@[simp] theorem Group.setP_kregs (g : Group) (n : Nat) (v : BitVec 8) : (g.setP n v).kregs = g.kregs := rfl
@[simp] theorem Group.setP_state (g : Group) (n : Nat) (v : BitVec 8) : (g.setP n v).state = g.state := rfl
@[simp] theorem Group.setP_v (g : Group) (n : Nat) (v : BitVec 8) : (g.setP n v).v = g.v := rfl
@[simp] theorem Group.setP_k (g : Group) (n : Nat) (v : BitVec 8) : (g.setP n v).k = g.k := rfl
@[simp] theorem Group.setP_s (g : Group) (n : Nat) (v : BitVec 8) : (g.setP n v).s = g.s := rfl
@[simp] theorem Group.setP_h (g : Group) (n : Nat) (v : BitVec 8) : (g.setP n v).h = g.h := rfl
@[simp] theorem Group.setP_y (g : Group) (n : Nat) (v : BitVec 8) : (g.setP n v).y = g.y := rfl
@[simp] theorem Group.setP_vreds (g : Group) (n : Nat) (v : BitVec 8) : (g.setP n v).vreds = g.vreds := rfl
@[simp] theorem Group.setP_mode (g : Group) (n : Nat) (v : BitVec 8) : (g.setP n v).mode = g.mode := rfl
@[simp] theorem Group.setP_fpstat (g : Group) (n : Nat) (v : BitVec 8) : (g.setP n v).fpstat = g.fpstat := rfl
@[simp] theorem Group.setP_seed (g : Group) (n : Nat) (v : BitVec 8) : (g.setP n v).seed = g.seed := rfl
@[simp] theorem Group.setP_gen (g : Group) (n : Nat) (v : BitVec 8) : (g.setP n v).gen = g.gen := rfl
@[simp] theorem Group.setP_path0 (g : Group) (n : Nat) (v : BitVec 8) : (g.setP n v).path0 = g.path0 := rfl
@[simp] theorem Group.setP_path1 (g : Group) (n : Nat) (v : BitVec 8) : (g.setP n v).path1 = g.path1 := rfl
@[simp] theorem Group.setP_onB (g : Group) (n : Nat) (v : BitVec 8) : (g.setP n v).onB = g.onB := rfl
@[simp] theorem Group.setP_depth (g : Group) (n : Nat) (v : BitVec 8) : (g.setP n v).depth = g.depth := rfl
@[simp] theorem Group.setP_splitC (g : Group) (n : Nat) (v : BitVec 8) : (g.setP n v).splitC = g.splitC := rfl
@[simp] theorem Group.setP_phase (g : Group) (n : Nat) (v : BitVec 8) : (g.setP n v).phase = g.phase := rfl
@[simp] theorem Group.setP_phTimer (g : Group) (n : Nat) (v : BitVec 8) : (g.setP n v).phTimer = g.phTimer := rfl
@[simp] theorem Group.setP_pendPhase (g : Group) (n : Nat) (v : BitVec 8) : (g.setP n v).pendPhase = g.pendPhase := rfl
@[simp] theorem Group.setP_phOver (g : Group) (n : Nat) (v : BitVec 8) : (g.setP n v).phOver = g.phOver := rfl
@[simp] theorem Group.setP_pendFp (g : Group) (n : Nat) (v : BitVec 8) : (g.setP n v).pendFp = g.pendFp := rfl
@[simp] theorem Group.setP_xpc (g : Group) (n : Nat) (v : BitVec 8) : (g.setP n v).xpc = g.xpc := rfl
@[simp] theorem Group.setP_xmode (g : Group) (n : Nat) (v : BitVec 8) : (g.setP n v).xmode = g.xmode := rfl
@[simp] theorem Group.setP_xcause (g : Group) (n : Nat) (v : BitVec 8) : (g.setP n v).xcause = g.xcause := rfl
@[simp] theorem Group.setP_xaddr (g : Group) (n : Nat) (v : BitVec 8) : (g.setP n v).xaddr = g.xaddr := rfl
@[simp] theorem Group.setP_xaux (g : Group) (n : Nat) (v : BitVec 8) : (g.setP n v).xaux = g.xaux := rfl
@[simp] theorem Group.setP_trapMode (g : Group) (n : Nat) (v : BitVec 8) : (g.setP n v).trapMode = g.trapMode := rfl
@[simp] theorem Group.setP_cob (g : Group) (n : Nat) (v : BitVec 8) : (g.setP n v).cob = g.cob := rfl
@[simp] theorem Group.setP_cobRun (g : Group) (n : Nat) (v : BitVec 8) : (g.setP n v).cobRun = g.cobRun := rfl
@[simp] theorem Group.setP_stopCause (g : Group) (n : Nat) (v : BitVec 8) : (g.setP n v).stopCause = g.stopCause := rfl
@[simp] theorem Group.setP_energy (g : Group) (n : Nat) (v : BitVec 8) : (g.setP n v).energy = g.energy := rfl
@[simp] theorem Group.setP_arrivals (g : Group) (n : Nat) (v : BitVec 8) : (g.setP n v).arrivals = g.arrivals := rfl
@[simp] theorem Group.setP_fate (g : Group) (n : Nat) (v : BitVec 8) : (g.setP n v).fate = g.fate := rfl
@[simp] theorem Group.setP_cap (g : Group) (n : Nat) (v : BitVec 8) : (g.setP n v).cap = g.cap := rfl
@[simp] theorem Group.setP_promo (g : Group) (n : Nat) (v : BitVec 8) : (g.setP n v).promo = g.promo := rfl
@[simp] theorem Group.setP_readyClk (g : Group) (n : Nat) (v : BitVec 8) : (g.setP n v).readyClk = g.readyClk := rfl
@[simp] theorem Group.setP_yielded (g : Group) (n : Nat) (v : BitVec 8) : (g.setP n v).yielded = g.yielded := rfl
@[simp] theorem Group.setP_dep (g : Group) (n : Nat) (v : BitVec 8) : (g.setP n v).dep = g.dep := rfl
@[simp] theorem Group.setP_woke (g : Group) (n : Nat) (v : BitVec 8) : (g.setP n v).woke = g.woke := rfl
@[simp] theorem Group.setP_sent (g : Group) (n : Nat) (v : BitVec 8) : (g.setP n v).sent = g.sent := rfl
@[simp] theorem Group.setP_waitClk (g : Group) (n : Nat) (v : BitVec 8) : (g.setP n v).waitClk = g.waitClk := rfl
@[simp] theorem Group.setP_exts (g : Group) (n : Nat) (v : BitVec 8) : (g.setP n v).exts = g.exts := rfl
@[simp] theorem Group.setP_runWords (g : Group) (n : Nat) (v : BitVec 8) : (g.setP n v).runWords = g.runWords := rfl
@[simp] theorem Group.setP_acqClk (g : Group) (n : Nat) (v : BitVec 8) : (g.setP n v).acqClk = g.acqClk := rfl
@[simp] theorem Group.setP_going (g : Group) (n : Nat) (v : BitVec 8) : (g.setP n v).going = g.going := rfl
@[simp] theorem Group.setP_entry (g : Group) (n : Nat) (v : BitVec 8) : (g.setP n v).entry = g.entry := rfl

@[simp] theorem Group.setH_poison (g : Group) (n : Nat) (v : BitVec 16) : (g.setH n v).poison = g.cleaned .handle n 0 := rfl
@[simp] theorem Group.setH_block (g : Group) (n : Nat) (v : BitVec 16) : (g.setH n v).block = g.block := rfl
@[simp] theorem Group.setH_gid (g : Group) (n : Nat) (v : BitVec 16) : (g.setH n v).gid = g.gid := rfl
@[simp] theorem Group.setH_kregs (g : Group) (n : Nat) (v : BitVec 16) : (g.setH n v).kregs = g.kregs := rfl
@[simp] theorem Group.setH_state (g : Group) (n : Nat) (v : BitVec 16) : (g.setH n v).state = g.state := rfl
@[simp] theorem Group.setH_v (g : Group) (n : Nat) (v : BitVec 16) : (g.setH n v).v = g.v := rfl
@[simp] theorem Group.setH_k (g : Group) (n : Nat) (v : BitVec 16) : (g.setH n v).k = g.k := rfl
@[simp] theorem Group.setH_s (g : Group) (n : Nat) (v : BitVec 16) : (g.setH n v).s = g.s := rfl
@[simp] theorem Group.setH_p (g : Group) (n : Nat) (v : BitVec 16) : (g.setH n v).p = g.p := rfl
@[simp] theorem Group.setH_y (g : Group) (n : Nat) (v : BitVec 16) : (g.setH n v).y = g.y := rfl
@[simp] theorem Group.setH_vreds (g : Group) (n : Nat) (v : BitVec 16) : (g.setH n v).vreds = g.vreds := rfl
@[simp] theorem Group.setH_mode (g : Group) (n : Nat) (v : BitVec 16) : (g.setH n v).mode = g.mode := rfl
@[simp] theorem Group.setH_fpstat (g : Group) (n : Nat) (v : BitVec 16) : (g.setH n v).fpstat = g.fpstat := rfl
@[simp] theorem Group.setH_seed (g : Group) (n : Nat) (v : BitVec 16) : (g.setH n v).seed = g.seed := rfl
@[simp] theorem Group.setH_gen (g : Group) (n : Nat) (v : BitVec 16) : (g.setH n v).gen = g.gen := rfl
@[simp] theorem Group.setH_path0 (g : Group) (n : Nat) (v : BitVec 16) : (g.setH n v).path0 = g.path0 := rfl
@[simp] theorem Group.setH_path1 (g : Group) (n : Nat) (v : BitVec 16) : (g.setH n v).path1 = g.path1 := rfl
@[simp] theorem Group.setH_onB (g : Group) (n : Nat) (v : BitVec 16) : (g.setH n v).onB = g.onB := rfl
@[simp] theorem Group.setH_depth (g : Group) (n : Nat) (v : BitVec 16) : (g.setH n v).depth = g.depth := rfl
@[simp] theorem Group.setH_splitC (g : Group) (n : Nat) (v : BitVec 16) : (g.setH n v).splitC = g.splitC := rfl
@[simp] theorem Group.setH_phase (g : Group) (n : Nat) (v : BitVec 16) : (g.setH n v).phase = g.phase := rfl
@[simp] theorem Group.setH_phTimer (g : Group) (n : Nat) (v : BitVec 16) : (g.setH n v).phTimer = g.phTimer := rfl
@[simp] theorem Group.setH_pendPhase (g : Group) (n : Nat) (v : BitVec 16) : (g.setH n v).pendPhase = g.pendPhase := rfl
@[simp] theorem Group.setH_phOver (g : Group) (n : Nat) (v : BitVec 16) : (g.setH n v).phOver = g.phOver := rfl
@[simp] theorem Group.setH_pendFp (g : Group) (n : Nat) (v : BitVec 16) : (g.setH n v).pendFp = g.pendFp := rfl
@[simp] theorem Group.setH_xpc (g : Group) (n : Nat) (v : BitVec 16) : (g.setH n v).xpc = g.xpc := rfl
@[simp] theorem Group.setH_xmode (g : Group) (n : Nat) (v : BitVec 16) : (g.setH n v).xmode = g.xmode := rfl
@[simp] theorem Group.setH_xcause (g : Group) (n : Nat) (v : BitVec 16) : (g.setH n v).xcause = g.xcause := rfl
@[simp] theorem Group.setH_xaddr (g : Group) (n : Nat) (v : BitVec 16) : (g.setH n v).xaddr = g.xaddr := rfl
@[simp] theorem Group.setH_xaux (g : Group) (n : Nat) (v : BitVec 16) : (g.setH n v).xaux = g.xaux := rfl
@[simp] theorem Group.setH_trapMode (g : Group) (n : Nat) (v : BitVec 16) : (g.setH n v).trapMode = g.trapMode := rfl
@[simp] theorem Group.setH_cob (g : Group) (n : Nat) (v : BitVec 16) : (g.setH n v).cob = g.cob := rfl
@[simp] theorem Group.setH_cobRun (g : Group) (n : Nat) (v : BitVec 16) : (g.setH n v).cobRun = g.cobRun := rfl
@[simp] theorem Group.setH_stopCause (g : Group) (n : Nat) (v : BitVec 16) : (g.setH n v).stopCause = g.stopCause := rfl
@[simp] theorem Group.setH_energy (g : Group) (n : Nat) (v : BitVec 16) : (g.setH n v).energy = g.energy := rfl
@[simp] theorem Group.setH_arrivals (g : Group) (n : Nat) (v : BitVec 16) : (g.setH n v).arrivals = g.arrivals := rfl
@[simp] theorem Group.setH_fate (g : Group) (n : Nat) (v : BitVec 16) : (g.setH n v).fate = g.fate := rfl
@[simp] theorem Group.setH_cap (g : Group) (n : Nat) (v : BitVec 16) : (g.setH n v).cap = g.cap := rfl
@[simp] theorem Group.setH_promo (g : Group) (n : Nat) (v : BitVec 16) : (g.setH n v).promo = g.promo := rfl
@[simp] theorem Group.setH_readyClk (g : Group) (n : Nat) (v : BitVec 16) : (g.setH n v).readyClk = g.readyClk := rfl
@[simp] theorem Group.setH_yielded (g : Group) (n : Nat) (v : BitVec 16) : (g.setH n v).yielded = g.yielded := rfl
@[simp] theorem Group.setH_dep (g : Group) (n : Nat) (v : BitVec 16) : (g.setH n v).dep = g.dep := rfl
@[simp] theorem Group.setH_woke (g : Group) (n : Nat) (v : BitVec 16) : (g.setH n v).woke = g.woke := rfl
@[simp] theorem Group.setH_sent (g : Group) (n : Nat) (v : BitVec 16) : (g.setH n v).sent = g.sent := rfl
@[simp] theorem Group.setH_waitClk (g : Group) (n : Nat) (v : BitVec 16) : (g.setH n v).waitClk = g.waitClk := rfl
@[simp] theorem Group.setH_exts (g : Group) (n : Nat) (v : BitVec 16) : (g.setH n v).exts = g.exts := rfl
@[simp] theorem Group.setH_runWords (g : Group) (n : Nat) (v : BitVec 16) : (g.setH n v).runWords = g.runWords := rfl
@[simp] theorem Group.setH_acqClk (g : Group) (n : Nat) (v : BitVec 16) : (g.setH n v).acqClk = g.acqClk := rfl
@[simp] theorem Group.setH_going (g : Group) (n : Nat) (v : BitVec 16) : (g.setH n v).going = g.going := rfl
@[simp] theorem Group.setH_entry (g : Group) (n : Nat) (v : BitVec 16) : (g.setH n v).entry = g.entry := rfl

@[simp] theorem Group.setV_poison (g : Group) (n l v : Nat) : (g.setV n l v).poison = g.cleaned .vector n l := rfl
@[simp] theorem Group.setV_block (g : Group) (n l v : Nat) : (g.setV n l v).block = g.block := rfl
@[simp] theorem Group.setV_gid (g : Group) (n l v : Nat) : (g.setV n l v).gid = g.gid := rfl
@[simp] theorem Group.setV_kregs (g : Group) (n l v : Nat) : (g.setV n l v).kregs = g.kregs := rfl
@[simp] theorem Group.setV_state (g : Group) (n l v : Nat) : (g.setV n l v).state = g.state := rfl
@[simp] theorem Group.setV_k (g : Group) (n l v : Nat) : (g.setV n l v).k = g.k := rfl
@[simp] theorem Group.setV_s (g : Group) (n l v : Nat) : (g.setV n l v).s = g.s := rfl
@[simp] theorem Group.setV_p (g : Group) (n l v : Nat) : (g.setV n l v).p = g.p := rfl
@[simp] theorem Group.setV_h (g : Group) (n l v : Nat) : (g.setV n l v).h = g.h := rfl
@[simp] theorem Group.setV_y (g : Group) (n l v : Nat) : (g.setV n l v).y = g.y := rfl
@[simp] theorem Group.setV_vreds (g : Group) (n l v : Nat) : (g.setV n l v).vreds = g.vreds := rfl
@[simp] theorem Group.setV_mode (g : Group) (n l v : Nat) : (g.setV n l v).mode = g.mode := rfl
@[simp] theorem Group.setV_fpstat (g : Group) (n l v : Nat) : (g.setV n l v).fpstat = g.fpstat := rfl
@[simp] theorem Group.setV_seed (g : Group) (n l v : Nat) : (g.setV n l v).seed = g.seed := rfl
@[simp] theorem Group.setV_gen (g : Group) (n l v : Nat) : (g.setV n l v).gen = g.gen := rfl
@[simp] theorem Group.setV_path0 (g : Group) (n l v : Nat) : (g.setV n l v).path0 = g.path0 := rfl
@[simp] theorem Group.setV_path1 (g : Group) (n l v : Nat) : (g.setV n l v).path1 = g.path1 := rfl
@[simp] theorem Group.setV_onB (g : Group) (n l v : Nat) : (g.setV n l v).onB = g.onB := rfl
@[simp] theorem Group.setV_depth (g : Group) (n l v : Nat) : (g.setV n l v).depth = g.depth := rfl
@[simp] theorem Group.setV_splitC (g : Group) (n l v : Nat) : (g.setV n l v).splitC = g.splitC := rfl
@[simp] theorem Group.setV_phase (g : Group) (n l v : Nat) : (g.setV n l v).phase = g.phase := rfl
@[simp] theorem Group.setV_phTimer (g : Group) (n l v : Nat) : (g.setV n l v).phTimer = g.phTimer := rfl
@[simp] theorem Group.setV_pendPhase (g : Group) (n l v : Nat) : (g.setV n l v).pendPhase = g.pendPhase := rfl
@[simp] theorem Group.setV_phOver (g : Group) (n l v : Nat) : (g.setV n l v).phOver = g.phOver := rfl
@[simp] theorem Group.setV_pendFp (g : Group) (n l v : Nat) : (g.setV n l v).pendFp = g.pendFp := rfl
@[simp] theorem Group.setV_xpc (g : Group) (n l v : Nat) : (g.setV n l v).xpc = g.xpc := rfl
@[simp] theorem Group.setV_xmode (g : Group) (n l v : Nat) : (g.setV n l v).xmode = g.xmode := rfl
@[simp] theorem Group.setV_xcause (g : Group) (n l v : Nat) : (g.setV n l v).xcause = g.xcause := rfl
@[simp] theorem Group.setV_xaddr (g : Group) (n l v : Nat) : (g.setV n l v).xaddr = g.xaddr := rfl
@[simp] theorem Group.setV_xaux (g : Group) (n l v : Nat) : (g.setV n l v).xaux = g.xaux := rfl
@[simp] theorem Group.setV_trapMode (g : Group) (n l v : Nat) : (g.setV n l v).trapMode = g.trapMode := rfl
@[simp] theorem Group.setV_cob (g : Group) (n l v : Nat) : (g.setV n l v).cob = g.cob := rfl
@[simp] theorem Group.setV_cobRun (g : Group) (n l v : Nat) : (g.setV n l v).cobRun = g.cobRun := rfl
@[simp] theorem Group.setV_stopCause (g : Group) (n l v : Nat) : (g.setV n l v).stopCause = g.stopCause := rfl
@[simp] theorem Group.setV_energy (g : Group) (n l v : Nat) : (g.setV n l v).energy = g.energy := rfl
@[simp] theorem Group.setV_arrivals (g : Group) (n l v : Nat) : (g.setV n l v).arrivals = g.arrivals := rfl
@[simp] theorem Group.setV_fate (g : Group) (n l v : Nat) : (g.setV n l v).fate = g.fate := rfl
@[simp] theorem Group.setV_cap (g : Group) (n l v : Nat) : (g.setV n l v).cap = g.cap := rfl
@[simp] theorem Group.setV_promo (g : Group) (n l v : Nat) : (g.setV n l v).promo = g.promo := rfl
@[simp] theorem Group.setV_readyClk (g : Group) (n l v : Nat) : (g.setV n l v).readyClk = g.readyClk := rfl
@[simp] theorem Group.setV_yielded (g : Group) (n l v : Nat) : (g.setV n l v).yielded = g.yielded := rfl
@[simp] theorem Group.setV_dep (g : Group) (n l v : Nat) : (g.setV n l v).dep = g.dep := rfl
@[simp] theorem Group.setV_woke (g : Group) (n l v : Nat) : (g.setV n l v).woke = g.woke := rfl
@[simp] theorem Group.setV_sent (g : Group) (n l v : Nat) : (g.setV n l v).sent = g.sent := rfl
@[simp] theorem Group.setV_waitClk (g : Group) (n l v : Nat) : (g.setV n l v).waitClk = g.waitClk := rfl
@[simp] theorem Group.setV_exts (g : Group) (n l v : Nat) : (g.setV n l v).exts = g.exts := rfl
@[simp] theorem Group.setV_runWords (g : Group) (n l v : Nat) : (g.setV n l v).runWords = g.runWords := rfl
@[simp] theorem Group.setV_acqClk (g : Group) (n l v : Nat) : (g.setV n l v).acqClk = g.acqClk := rfl
@[simp] theorem Group.setV_going (g : Group) (n l v : Nat) : (g.setV n l v).going = g.going := rfl
@[simp] theorem Group.setV_entry (g : Group) (n l v : Nat) : (g.setV n l v).entry = g.entry := rfl

@[simp] theorem Group.setK_poison (g : Group) (n l v : Nat) : (g.setK n l v).poison = g.cleaned .scale n l := rfl
@[simp] theorem Group.setK_block (g : Group) (n l v : Nat) : (g.setK n l v).block = g.block := rfl
@[simp] theorem Group.setK_gid (g : Group) (n l v : Nat) : (g.setK n l v).gid = g.gid := rfl
@[simp] theorem Group.setK_kregs (g : Group) (n l v : Nat) : (g.setK n l v).kregs = g.kregs := rfl
@[simp] theorem Group.setK_state (g : Group) (n l v : Nat) : (g.setK n l v).state = g.state := rfl
@[simp] theorem Group.setK_v (g : Group) (n l v : Nat) : (g.setK n l v).v = g.v := rfl
@[simp] theorem Group.setK_s (g : Group) (n l v : Nat) : (g.setK n l v).s = g.s := rfl
@[simp] theorem Group.setK_p (g : Group) (n l v : Nat) : (g.setK n l v).p = g.p := rfl
@[simp] theorem Group.setK_h (g : Group) (n l v : Nat) : (g.setK n l v).h = g.h := rfl
@[simp] theorem Group.setK_y (g : Group) (n l v : Nat) : (g.setK n l v).y = g.y := rfl
@[simp] theorem Group.setK_vreds (g : Group) (n l v : Nat) : (g.setK n l v).vreds = g.vreds := rfl
@[simp] theorem Group.setK_mode (g : Group) (n l v : Nat) : (g.setK n l v).mode = g.mode := rfl
@[simp] theorem Group.setK_fpstat (g : Group) (n l v : Nat) : (g.setK n l v).fpstat = g.fpstat := rfl
@[simp] theorem Group.setK_seed (g : Group) (n l v : Nat) : (g.setK n l v).seed = g.seed := rfl
@[simp] theorem Group.setK_gen (g : Group) (n l v : Nat) : (g.setK n l v).gen = g.gen := rfl
@[simp] theorem Group.setK_path0 (g : Group) (n l v : Nat) : (g.setK n l v).path0 = g.path0 := rfl
@[simp] theorem Group.setK_path1 (g : Group) (n l v : Nat) : (g.setK n l v).path1 = g.path1 := rfl
@[simp] theorem Group.setK_onB (g : Group) (n l v : Nat) : (g.setK n l v).onB = g.onB := rfl
@[simp] theorem Group.setK_depth (g : Group) (n l v : Nat) : (g.setK n l v).depth = g.depth := rfl
@[simp] theorem Group.setK_splitC (g : Group) (n l v : Nat) : (g.setK n l v).splitC = g.splitC := rfl
@[simp] theorem Group.setK_phase (g : Group) (n l v : Nat) : (g.setK n l v).phase = g.phase := rfl
@[simp] theorem Group.setK_phTimer (g : Group) (n l v : Nat) : (g.setK n l v).phTimer = g.phTimer := rfl
@[simp] theorem Group.setK_pendPhase (g : Group) (n l v : Nat) : (g.setK n l v).pendPhase = g.pendPhase := rfl
@[simp] theorem Group.setK_phOver (g : Group) (n l v : Nat) : (g.setK n l v).phOver = g.phOver := rfl
@[simp] theorem Group.setK_pendFp (g : Group) (n l v : Nat) : (g.setK n l v).pendFp = g.pendFp := rfl
@[simp] theorem Group.setK_xpc (g : Group) (n l v : Nat) : (g.setK n l v).xpc = g.xpc := rfl
@[simp] theorem Group.setK_xmode (g : Group) (n l v : Nat) : (g.setK n l v).xmode = g.xmode := rfl
@[simp] theorem Group.setK_xcause (g : Group) (n l v : Nat) : (g.setK n l v).xcause = g.xcause := rfl
@[simp] theorem Group.setK_xaddr (g : Group) (n l v : Nat) : (g.setK n l v).xaddr = g.xaddr := rfl
@[simp] theorem Group.setK_xaux (g : Group) (n l v : Nat) : (g.setK n l v).xaux = g.xaux := rfl
@[simp] theorem Group.setK_trapMode (g : Group) (n l v : Nat) : (g.setK n l v).trapMode = g.trapMode := rfl
@[simp] theorem Group.setK_cob (g : Group) (n l v : Nat) : (g.setK n l v).cob = g.cob := rfl
@[simp] theorem Group.setK_cobRun (g : Group) (n l v : Nat) : (g.setK n l v).cobRun = g.cobRun := rfl
@[simp] theorem Group.setK_stopCause (g : Group) (n l v : Nat) : (g.setK n l v).stopCause = g.stopCause := rfl
@[simp] theorem Group.setK_energy (g : Group) (n l v : Nat) : (g.setK n l v).energy = g.energy := rfl
@[simp] theorem Group.setK_arrivals (g : Group) (n l v : Nat) : (g.setK n l v).arrivals = g.arrivals := rfl
@[simp] theorem Group.setK_fate (g : Group) (n l v : Nat) : (g.setK n l v).fate = g.fate := rfl
@[simp] theorem Group.setK_cap (g : Group) (n l v : Nat) : (g.setK n l v).cap = g.cap := rfl
@[simp] theorem Group.setK_promo (g : Group) (n l v : Nat) : (g.setK n l v).promo = g.promo := rfl
@[simp] theorem Group.setK_readyClk (g : Group) (n l v : Nat) : (g.setK n l v).readyClk = g.readyClk := rfl
@[simp] theorem Group.setK_yielded (g : Group) (n l v : Nat) : (g.setK n l v).yielded = g.yielded := rfl
@[simp] theorem Group.setK_dep (g : Group) (n l v : Nat) : (g.setK n l v).dep = g.dep := rfl
@[simp] theorem Group.setK_woke (g : Group) (n l v : Nat) : (g.setK n l v).woke = g.woke := rfl
@[simp] theorem Group.setK_sent (g : Group) (n l v : Nat) : (g.setK n l v).sent = g.sent := rfl
@[simp] theorem Group.setK_waitClk (g : Group) (n l v : Nat) : (g.setK n l v).waitClk = g.waitClk := rfl
@[simp] theorem Group.setK_exts (g : Group) (n l v : Nat) : (g.setK n l v).exts = g.exts := rfl
@[simp] theorem Group.setK_runWords (g : Group) (n l v : Nat) : (g.setK n l v).runWords = g.runWords := rfl
@[simp] theorem Group.setK_acqClk (g : Group) (n l v : Nat) : (g.setK n l v).acqClk = g.acqClk := rfl
@[simp] theorem Group.setK_going (g : Group) (n l v : Nat) : (g.setK n l v).going = g.going := rfl
@[simp] theorem Group.setK_entry (g : Group) (n l v : Nat) : (g.setK n l v).entry = g.entry := rfl

end Sys2Proof.Machine
end

