-- ==== Sys2Proof/Laws/Store.lean ====
section
/-!
SUPPORT. Sys2Proof/Laws/Store.lean: data by number read after it is written, and memory: a byte read after a write, and the
canonical form that every write keeps.
-/

namespace Sys2Proof.Machine

@[simp] theorem amGet_nil {α : Type} (k : Nat) : amGet ([] : AMap α) k = none := rfl

@[simp] theorem amGet_amSet_self {α : Type} (m : AMap α) (k : Nat) (v : α) : amGet (amSet m k v) k = some v := by
  induction m with
  | nil => simp [amSet, amGet]
  | cons x r ih =>
    obtain ⟨k', v'⟩ := x
    simp only [amSet]
    split
    · simp [amGet]
    · split
      · simp [amGet]
      · next h h' => simp [amGet, ih, h]; omega

theorem amGet_amSet_ne {α : Type} (m : AMap α) {k j : Nat} (v : α) (h : j ≠ k) : amGet (amSet m k v) j = amGet m j := by
  induction m with
  | nil => simp [amSet, amGet]; omega
  | cons x r ih =>
    obtain ⟨k', v'⟩ := x
    simp only [amSet]
    split
    · next hk =>
      simp only [amGet]
      split
      · omega
      · split
        · rw [if_neg (by omega), if_pos (by omega)]
        · rfl
    · split
      · next hk => subst hk; simp [amGet, Ne.symm h]
      · simp [amGet, ih]

@[simp] theorem amGet_amUpd_self {α : Type} (m : AMap α) (k : Nat) (f : α → α) : amGet (amUpd m k f) k = (amGet m k).map f := by
  unfold amUpd
  cases h : amGet m k <;> simp [h]

theorem amGet_amUpd_ne {α : Type} (m : AMap α) {k j : Nat} (f : α → α) (h : j ≠ k) : amGet (amUpd m k f) j = amGet m j := by
  unfold amUpd
  cases amGet m k <;> simp [amGet_amSet_ne, h]

/-- Every key of a list that rises after k is above k. -/
theorem amSorted_cons {α : Type} {k : Nat} {v : α} {r : AMap α} (h : amSorted ((k, v) :: r) = true) :
    amSorted r = true ∧ ∀ x ∈ r, k < x.1 := by
  induction r generalizing k v with
  | nil => simp [amSorted]
  | cons x r ih =>
    obtain ⟨k', v'⟩ := x
    simp only [amSorted, Bool.and_eq_true, decide_eq_true_eq] at h
    refine ⟨h.2, ?_⟩
    intro y hy
    rcases List.mem_cons.1 hy with rfl | hy
    · exact h.1
    · have := (ih h.2).2 y hy; omega

theorem amSorted_of {α : Type} {k : Nat} {v : α} {r : AMap α} (h : amSorted r = true) (hk : ∀ x ∈ r, k < x.1) :
    amSorted ((k, v) :: r) = true := by
  cases r with
  | nil => rfl
  | cons x r => obtain ⟨k', v'⟩ := x; simp only [amSorted, Bool.and_eq_true, decide_eq_true_eq]; exact ⟨hk (k', v') (List.mem_cons_self), h⟩

theorem amGet_none {α : Type} {m : AMap α} {k : Nat} (h : ∀ x ∈ m, k < x.1) : amGet m k = none := by
  cases m with
  | nil => rfl
  | cons x r => obtain ⟨k', v'⟩ := x; have := h _ (List.mem_cons_self); simp at this; simp [amGet, this]; omega

theorem mem_amSet {α : Type} {m : AMap α} {k : Nat} {v : α} {x : Nat × α} (h : x ∈ amSet m k v) : x = (k, v) ∨ x ∈ m := by
  induction m with
  | nil => simpa [amSet] using h
  | cons y r ih =>
    obtain ⟨k', v'⟩ := y
    simp only [amSet] at h
    split at h
    · simpa using h
    · split at h
      · rcases List.mem_cons.1 h with rfl | h <;> simp [*]
      · rcases List.mem_cons.1 h with rfl | h
        · simp
        · rcases ih h with h | h <;> simp [h]

theorem mem_amDel {α : Type} {m : AMap α} {k : Nat} {x : Nat × α} (h : x ∈ amDel m k) : x ∈ m := by
  induction m with
  | nil => simp [amDel] at h
  | cons y r ih =>
    obtain ⟨k', v'⟩ := y
    simp only [amDel] at h
    split at h
    · simp [h]
    · split at h
      · exact h
      · rcases List.mem_cons.1 h with rfl | h
        · simp
        · simp [ih h]

theorem amSorted_amSet {α : Type} {m : AMap α} (k : Nat) (v : α) (h : amSorted m = true) : amSorted (amSet m k v) = true := by
  induction m with
  | nil => rfl
  | cons y r ih =>
    obtain ⟨k', v'⟩ := y
    obtain ⟨hr, hk⟩ := amSorted_cons h
    simp only [amSet]
    split
    · next hlt => exact amSorted_of h (by intro x hx; rcases List.mem_cons.1 hx with rfl | hx; exacts [hlt, Nat.lt_trans hlt (hk x hx)])
    · split
      · next he => subst he; exact amSorted_of hr hk
      · next h1 h2 =>
        refine amSorted_of (ih hr) ?_
        intro x hx
        rcases mem_amSet hx with rfl | hx
        · simp only; omega
        · exact hk x hx

theorem amSorted_amDel {α : Type} {m : AMap α} (k : Nat) (h : amSorted m = true) : amSorted (amDel m k) = true := by
  induction m with
  | nil => rfl
  | cons y r ih =>
    obtain ⟨k', v'⟩ := y
    obtain ⟨hr, hk⟩ := amSorted_cons h
    simp only [amDel]
    split
    · exact hr
    · split
      · exact h
      · exact amSorted_of (ih hr) fun x hx => hk x (mem_amDel hx)

theorem amGet_amDel_self {α : Type} {m : AMap α} (k : Nat) (h : amSorted m = true) : amGet (amDel m k) k = none := by
  induction m with
  | nil => rfl
  | cons y r ih =>
    obtain ⟨k', v'⟩ := y
    obtain ⟨hr, hk⟩ := amSorted_cons h
    simp only [amDel]
    split
    · next he => subst he; exact amGet_none hk
    · split
      · next h1 h2 => exact amGet_none (by intro x hx; rcases List.mem_cons.1 hx with rfl | hx; exacts [h2, Nat.lt_trans h2 (hk x hx)])
      · next h1 h2 => simp [amGet, h1, h2, ih hr]

theorem amGet_amDel_ne {α : Type} {m : AMap α} {k j : Nat} (h : amSorted m = true) (hj : j ≠ k) : amGet (amDel m k) j = amGet m j := by
  induction m with
  | nil => rfl
  | cons y r ih =>
    obtain ⟨k', v'⟩ := y
    obtain ⟨hr, hk⟩ := amSorted_cons h
    simp only [amDel]
    split
    · next he =>
      subst he
      simp only [amGet, if_neg (Ne.symm hj)]
      split
      · next hlt => exact amGet_none fun x hx => Nat.lt_trans hlt (hk x hx)
      · rfl
    · split
      · rfl
      · simp [amGet, ih hr]

/-! ### Memory -/

theorem Memory.wf_iff (m : List Host.Cell) : Memory.wf m = true ↔ amSorted m = true ∧ ∀ c ∈ m, c.2 ≠ 0 := by
  simp [Memory.wf]

/-- A byte written keeps the canonical form. -/
theorem setByte_wf {m : List Host.Cell} (a : Nat) (b : BitVec 8) (h : Memory.wf m = true) : Memory.wf (setByte m a b) = true := by
  rw [Memory.wf_iff] at *
  unfold setByte
  split
  · exact ⟨amSorted_amDel a h.1, fun c hc => h.2 c (mem_amDel hc)⟩
  · next hb =>
    refine ⟨amSorted_amSet a b h.1, fun c hc => ?_⟩
    rcases mem_amSet hc with rfl | hc
    · exact hb
    · exact h.2 c hc

/-- The byte read after it is written. -/
theorem byteAt_setByte_self {m : List Host.Cell} (a : Nat) (b : BitVec 8) (h : Memory.wf m = true) : byteAt (setByte m a b) a = b := by
  rw [Memory.wf_iff] at h
  unfold byteAt setByte
  split
  · next hb => simp [amGet_amDel_self a h.1, hb]
  · simp

/-- Every other byte is left alone. -/
theorem byteAt_setByte_ne {m : List Host.Cell} {a j : Nat} (b : BitVec 8) (h : Memory.wf m = true) (hj : j ≠ a) :
    byteAt (setByte m a b) j = byteAt m j := by
  rw [Memory.wf_iff] at h
  unfold byteAt setByte
  split
  · rw [amGet_amDel_ne h.1 hj]
  · rw [amGet_amSet_ne _ _ hj]

/-- A number written keeps the canonical form. -/
theorem writeLE_wf {m : List Host.Cell} (a n v : Nat) (h : Memory.wf m = true) : Memory.wf (writeLE m a n v) = true := by
  induction n generalizing m a v with
  | zero => exact h
  | succ n ih => exact ih (a + 1) (v / 256) (setByte_wf a _ h)

/-- Bytes outside those of a number written are left alone. -/
theorem byteAt_writeLE_out {m : List Host.Cell} {a j : Nat} (n v : Nat) (h : Memory.wf m = true) (hj : j < a ∨ a + n ≤ j) :
    byteAt (writeLE m a n v) j = byteAt m j := by
  induction n generalizing m a v with
  | zero => rfl
  | succ n ih =>
    rw [writeLE, ih (a := a + 1) _ (setByte_wf a _ h) (by omega), byteAt_setByte_ne _ h (by omega)]

/-- The bytes of a number written. -/
theorem byteAt_writeLE_in {m : List Host.Cell} (a n v k : Nat) (h : Memory.wf m = true) (hk : k < n) :
    byteAt (writeLE m a n v) (a + k) = BitVec.ofNat 8 (v / 256 ^ k) := by
  induction n generalizing m a v k with
  | zero => omega
  | succ n ih =>
    rw [writeLE]
    cases k with
    | zero => rw [byteAt_writeLE_out _ _ (setByte_wf a _ h) (by omega), Nat.add_zero, byteAt_setByte_self a _ h]; simp
    | succ k =>
      rw [show a + (k + 1) = a + 1 + k by omega, ih (a + 1) (v / 256) k (setByte_wf a _ h) (by omega), Nat.div_div_eq_div_mul,
        Nat.pow_succ']

/-- The value of bytes written is what was written. -/
theorem readLE_writeLE {m : List Host.Cell} (a n v : Nat) (h : Memory.wf m = true) : readLE (writeLE m a n v) a n = v % 256 ^ n := by
  suffices H : ∀ (n a v : Nat) (w : List Host.Cell), (∀ k, k < n → byteAt w (a + k) = BitVec.ofNat 8 (v / 256 ^ k)) →
      readLE w a n = v % 256 ^ n from H n a v _ fun k hk => byteAt_writeLE_in a n v k h hk
  intro n
  induction n with
  | zero => intro a v w _; simp [readLE, Nat.mod_one]
  | succ n ih =>
    intro a v w hw
    have h0 := hw 0 (by omega)
    rw [Nat.add_zero] at h0
    rw [readLE, h0, ih (a + 1) (v / 256) w]
    · rw [Nat.pow_succ', Nat.mod_mul]; simp
    · intro k hk
      rw [show a + 1 + k = a + (k + 1) by omega, hw (k + 1) (by omega), Nat.div_div_eq_div_mul, Nat.pow_succ']

/-- A filtered list keeps the canonical form. -/
theorem filter_wf {m : List Host.Cell} (p : Host.Cell → Bool) (h : Memory.wf m = true) : Memory.wf (m.filter p) = true := by
  rw [Memory.wf_iff] at *
  refine ⟨?_, fun c hc => h.2 c (List.mem_filter.1 hc).1⟩
  have h1 := h.1
  clear h
  induction m with
  | nil => rfl
  | cons x r ih =>
    obtain ⟨k, v⟩ := x
    obtain ⟨hr, hk⟩ := amSorted_cons h1
    rw [List.filter_cons]
    split
    · exact amSorted_of (ih hr) fun y hy => hk y (List.mem_filter.1 hy).1
    · exact ih hr

/-- A range cleared keeps the canonical form. -/
theorem clearRange_wf {m : List Host.Cell} (lo hi : Nat) (h : Memory.wf m = true) : Memory.wf (clearRange m lo hi) = true :=
  filter_wf _ h

end Sys2Proof.Machine
end

