-- ==== Sys2Proof/Laws/State.lean ====
section
/-!
SUPPORT. Sys2Proof/Laws/State.lean: the fields of State after each named update: the updated one, and those it leaves alone.
-/

namespace Sys2Proof.Machine

@[simp] theorem State.setGrp_clk (s : State) (a : Nat) (g : Group) : (s.setGrp a g).clk = s.clk := rfl
@[simp] theorem State.setGrp_regs (s : State) (a : Nat) (g : Group) : (s.setGrp a g).regs = s.regs := rfl
@[simp] theorem State.setGrp_mem (s : State) (a : Nat) (g : Group) : (s.setGrp a g).mem = s.mem := rfl
@[simp] theorem State.setGrp_poison (s : State) (a : Nat) (g : Group) : (s.setGrp a g).poison = s.poison := rfl
@[simp] theorem State.setGrp_issue (s : State) (a : Nat) (g : Group) : (s.setGrp a g).issue = s.issue := rfl
@[simp] theorem State.setGrp_used (s : State) (a : Nat) (g : Group) : (s.setGrp a g).used = s.used := rfl
@[simp] theorem State.setGrp_agenda (s : State) (a : Nat) (g : Group) : (s.setGrp a g).agenda = s.agenda := rfl
@[simp] theorem State.setGrp_outbox (s : State) (a : Nat) (g : Group) : (s.setGrp a g).outbox = s.outbox := rfl
@[simp] theorem State.setGrp_ctxs (s : State) (a : Nat) (g : Group) : (s.setGrp a g).ctxs = s.ctxs := rfl
@[simp] theorem State.setGrp_queues (s : State) (a : Nat) (g : Group) : (s.setGrp a g).queues = s.queues := rfl
@[simp] theorem State.setGrp_graphs (s : State) (a : Nat) (g : Group) : (s.setGrp a g).graphs = s.graphs := rfl
@[simp] theorem State.setGrp_dies (s : State) (a : Nat) (g : Group) : (s.setGrp a g).dies = s.dies := rfl
@[simp] theorem State.setGrp_grids (s : State) (a : Nat) (g : Group) : (s.setGrp a g).grids = s.grids := rfl
@[simp] theorem State.setGrp_clusters (s : State) (a : Nat) (g : Group) : (s.setGrp a g).clusters = s.clusters := rfl
@[simp] theorem State.setGrp_blocks (s : State) (a : Nat) (g : Group) : (s.setGrp a g).blocks = s.blocks := rfl
@[simp] theorem State.setGrp_cores (s : State) (a : Nat) (g : Group) : (s.setGrp a g).cores = s.cores := rfl
@[simp] theorem State.setGrp_writes (s : State) (a : Nat) (g : Group) : (s.setGrp a g).writes = s.writes := rfl
@[simp] theorem State.setGrp_extReqs (s : State) (a : Nat) (g : Group) : (s.setGrp a g).extReqs = s.extReqs := rfl
@[simp] theorem State.setGrp_watches (s : State) (a : Nat) (g : Group) : (s.setGrp a g).watches = s.watches := rfl
@[simp] theorem State.setGrp_nextId (s : State) (a : Nat) (g : Group) : (s.setGrp a g).nextId = s.nextId := rfl

@[simp] theorem State.updGrp_clk (s : State) (a : Nat) (f : Group → Group) : (s.updGrp a f).clk = s.clk := rfl
@[simp] theorem State.updGrp_regs (s : State) (a : Nat) (f : Group → Group) : (s.updGrp a f).regs = s.regs := rfl
@[simp] theorem State.updGrp_mem (s : State) (a : Nat) (f : Group → Group) : (s.updGrp a f).mem = s.mem := rfl
@[simp] theorem State.updGrp_poison (s : State) (a : Nat) (f : Group → Group) : (s.updGrp a f).poison = s.poison := rfl
@[simp] theorem State.updGrp_issue (s : State) (a : Nat) (f : Group → Group) : (s.updGrp a f).issue = s.issue := rfl
@[simp] theorem State.updGrp_used (s : State) (a : Nat) (f : Group → Group) : (s.updGrp a f).used = s.used := rfl
@[simp] theorem State.updGrp_agenda (s : State) (a : Nat) (f : Group → Group) : (s.updGrp a f).agenda = s.agenda := rfl
@[simp] theorem State.updGrp_outbox (s : State) (a : Nat) (f : Group → Group) : (s.updGrp a f).outbox = s.outbox := rfl
@[simp] theorem State.updGrp_ctxs (s : State) (a : Nat) (f : Group → Group) : (s.updGrp a f).ctxs = s.ctxs := rfl
@[simp] theorem State.updGrp_queues (s : State) (a : Nat) (f : Group → Group) : (s.updGrp a f).queues = s.queues := rfl
@[simp] theorem State.updGrp_graphs (s : State) (a : Nat) (f : Group → Group) : (s.updGrp a f).graphs = s.graphs := rfl
@[simp] theorem State.updGrp_dies (s : State) (a : Nat) (f : Group → Group) : (s.updGrp a f).dies = s.dies := rfl
@[simp] theorem State.updGrp_grids (s : State) (a : Nat) (f : Group → Group) : (s.updGrp a f).grids = s.grids := rfl
@[simp] theorem State.updGrp_clusters (s : State) (a : Nat) (f : Group → Group) : (s.updGrp a f).clusters = s.clusters := rfl
@[simp] theorem State.updGrp_blocks (s : State) (a : Nat) (f : Group → Group) : (s.updGrp a f).blocks = s.blocks := rfl
@[simp] theorem State.updGrp_cores (s : State) (a : Nat) (f : Group → Group) : (s.updGrp a f).cores = s.cores := rfl
@[simp] theorem State.updGrp_writes (s : State) (a : Nat) (f : Group → Group) : (s.updGrp a f).writes = s.writes := rfl
@[simp] theorem State.updGrp_extReqs (s : State) (a : Nat) (f : Group → Group) : (s.updGrp a f).extReqs = s.extReqs := rfl
@[simp] theorem State.updGrp_watches (s : State) (a : Nat) (f : Group → Group) : (s.updGrp a f).watches = s.watches := rfl
@[simp] theorem State.updGrp_nextId (s : State) (a : Nat) (f : Group → Group) : (s.updGrp a f).nextId = s.nextId := rfl

@[simp] theorem State.setCore_clk (s : State) (c : Nat) (x : Core) : (s.setCore c x).clk = s.clk := rfl
@[simp] theorem State.setCore_regs (s : State) (c : Nat) (x : Core) : (s.setCore c x).regs = s.regs := rfl
@[simp] theorem State.setCore_mem (s : State) (c : Nat) (x : Core) : (s.setCore c x).mem = s.mem := rfl
@[simp] theorem State.setCore_poison (s : State) (c : Nat) (x : Core) : (s.setCore c x).poison = s.poison := rfl
@[simp] theorem State.setCore_issue (s : State) (c : Nat) (x : Core) : (s.setCore c x).issue = s.issue := rfl
@[simp] theorem State.setCore_used (s : State) (c : Nat) (x : Core) : (s.setCore c x).used = s.used := rfl
@[simp] theorem State.setCore_agenda (s : State) (c : Nat) (x : Core) : (s.setCore c x).agenda = s.agenda := rfl
@[simp] theorem State.setCore_outbox (s : State) (c : Nat) (x : Core) : (s.setCore c x).outbox = s.outbox := rfl
@[simp] theorem State.setCore_ctxs (s : State) (c : Nat) (x : Core) : (s.setCore c x).ctxs = s.ctxs := rfl
@[simp] theorem State.setCore_queues (s : State) (c : Nat) (x : Core) : (s.setCore c x).queues = s.queues := rfl
@[simp] theorem State.setCore_graphs (s : State) (c : Nat) (x : Core) : (s.setCore c x).graphs = s.graphs := rfl
@[simp] theorem State.setCore_dies (s : State) (c : Nat) (x : Core) : (s.setCore c x).dies = s.dies := rfl
@[simp] theorem State.setCore_grids (s : State) (c : Nat) (x : Core) : (s.setCore c x).grids = s.grids := rfl
@[simp] theorem State.setCore_clusters (s : State) (c : Nat) (x : Core) : (s.setCore c x).clusters = s.clusters := rfl
@[simp] theorem State.setCore_blocks (s : State) (c : Nat) (x : Core) : (s.setCore c x).blocks = s.blocks := rfl
@[simp] theorem State.setCore_groups (s : State) (c : Nat) (x : Core) : (s.setCore c x).groups = s.groups := rfl
@[simp] theorem State.setCore_writes (s : State) (c : Nat) (x : Core) : (s.setCore c x).writes = s.writes := rfl
@[simp] theorem State.setCore_extReqs (s : State) (c : Nat) (x : Core) : (s.setCore c x).extReqs = s.extReqs := rfl
@[simp] theorem State.setCore_watches (s : State) (c : Nat) (x : Core) : (s.setCore c x).watches = s.watches := rfl
@[simp] theorem State.setCore_nextId (s : State) (c : Nat) (x : Core) : (s.setCore c x).nextId = s.nextId := rfl

@[simp] theorem State.updCore_clk (s : State) (c : Nat) (f : Core → Core) : (s.updCore c f).clk = s.clk := rfl
@[simp] theorem State.updCore_regs (s : State) (c : Nat) (f : Core → Core) : (s.updCore c f).regs = s.regs := rfl
@[simp] theorem State.updCore_mem (s : State) (c : Nat) (f : Core → Core) : (s.updCore c f).mem = s.mem := rfl
@[simp] theorem State.updCore_poison (s : State) (c : Nat) (f : Core → Core) : (s.updCore c f).poison = s.poison := rfl
@[simp] theorem State.updCore_issue (s : State) (c : Nat) (f : Core → Core) : (s.updCore c f).issue = s.issue := rfl
@[simp] theorem State.updCore_used (s : State) (c : Nat) (f : Core → Core) : (s.updCore c f).used = s.used := rfl
@[simp] theorem State.updCore_agenda (s : State) (c : Nat) (f : Core → Core) : (s.updCore c f).agenda = s.agenda := rfl
@[simp] theorem State.updCore_outbox (s : State) (c : Nat) (f : Core → Core) : (s.updCore c f).outbox = s.outbox := rfl
@[simp] theorem State.updCore_ctxs (s : State) (c : Nat) (f : Core → Core) : (s.updCore c f).ctxs = s.ctxs := rfl
@[simp] theorem State.updCore_queues (s : State) (c : Nat) (f : Core → Core) : (s.updCore c f).queues = s.queues := rfl
@[simp] theorem State.updCore_graphs (s : State) (c : Nat) (f : Core → Core) : (s.updCore c f).graphs = s.graphs := rfl
@[simp] theorem State.updCore_dies (s : State) (c : Nat) (f : Core → Core) : (s.updCore c f).dies = s.dies := rfl
@[simp] theorem State.updCore_grids (s : State) (c : Nat) (f : Core → Core) : (s.updCore c f).grids = s.grids := rfl
@[simp] theorem State.updCore_clusters (s : State) (c : Nat) (f : Core → Core) : (s.updCore c f).clusters = s.clusters := rfl
@[simp] theorem State.updCore_blocks (s : State) (c : Nat) (f : Core → Core) : (s.updCore c f).blocks = s.blocks := rfl
@[simp] theorem State.updCore_groups (s : State) (c : Nat) (f : Core → Core) : (s.updCore c f).groups = s.groups := rfl
@[simp] theorem State.updCore_writes (s : State) (c : Nat) (f : Core → Core) : (s.updCore c f).writes = s.writes := rfl
@[simp] theorem State.updCore_extReqs (s : State) (c : Nat) (f : Core → Core) : (s.updCore c f).extReqs = s.extReqs := rfl
@[simp] theorem State.updCore_watches (s : State) (c : Nat) (f : Core → Core) : (s.updCore c f).watches = s.watches := rfl
@[simp] theorem State.updCore_nextId (s : State) (c : Nat) (f : Core → Core) : (s.updCore c f).nextId = s.nextId := rfl

@[simp] theorem State.setCtx_clk (s : State) (c : Nat) (x : Ctx) : (s.setCtx c x).clk = s.clk := rfl
@[simp] theorem State.setCtx_regs (s : State) (c : Nat) (x : Ctx) : (s.setCtx c x).regs = s.regs := rfl
@[simp] theorem State.setCtx_mem (s : State) (c : Nat) (x : Ctx) : (s.setCtx c x).mem = s.mem := rfl
@[simp] theorem State.setCtx_poison (s : State) (c : Nat) (x : Ctx) : (s.setCtx c x).poison = s.poison := rfl
@[simp] theorem State.setCtx_issue (s : State) (c : Nat) (x : Ctx) : (s.setCtx c x).issue = s.issue := rfl
@[simp] theorem State.setCtx_used (s : State) (c : Nat) (x : Ctx) : (s.setCtx c x).used = s.used := rfl
@[simp] theorem State.setCtx_agenda (s : State) (c : Nat) (x : Ctx) : (s.setCtx c x).agenda = s.agenda := rfl
@[simp] theorem State.setCtx_outbox (s : State) (c : Nat) (x : Ctx) : (s.setCtx c x).outbox = s.outbox := rfl
@[simp] theorem State.setCtx_queues (s : State) (c : Nat) (x : Ctx) : (s.setCtx c x).queues = s.queues := rfl
@[simp] theorem State.setCtx_graphs (s : State) (c : Nat) (x : Ctx) : (s.setCtx c x).graphs = s.graphs := rfl
@[simp] theorem State.setCtx_dies (s : State) (c : Nat) (x : Ctx) : (s.setCtx c x).dies = s.dies := rfl
@[simp] theorem State.setCtx_grids (s : State) (c : Nat) (x : Ctx) : (s.setCtx c x).grids = s.grids := rfl
@[simp] theorem State.setCtx_clusters (s : State) (c : Nat) (x : Ctx) : (s.setCtx c x).clusters = s.clusters := rfl
@[simp] theorem State.setCtx_blocks (s : State) (c : Nat) (x : Ctx) : (s.setCtx c x).blocks = s.blocks := rfl
@[simp] theorem State.setCtx_cores (s : State) (c : Nat) (x : Ctx) : (s.setCtx c x).cores = s.cores := rfl
@[simp] theorem State.setCtx_groups (s : State) (c : Nat) (x : Ctx) : (s.setCtx c x).groups = s.groups := rfl
@[simp] theorem State.setCtx_writes (s : State) (c : Nat) (x : Ctx) : (s.setCtx c x).writes = s.writes := rfl
@[simp] theorem State.setCtx_extReqs (s : State) (c : Nat) (x : Ctx) : (s.setCtx c x).extReqs = s.extReqs := rfl
@[simp] theorem State.setCtx_watches (s : State) (c : Nat) (x : Ctx) : (s.setCtx c x).watches = s.watches := rfl
@[simp] theorem State.setCtx_nextId (s : State) (c : Nat) (x : Ctx) : (s.setCtx c x).nextId = s.nextId := rfl

@[simp] theorem State.updCtx_clk (s : State) (c : Nat) (f : Ctx → Ctx) : (s.updCtx c f).clk = s.clk := rfl
@[simp] theorem State.updCtx_regs (s : State) (c : Nat) (f : Ctx → Ctx) : (s.updCtx c f).regs = s.regs := rfl
@[simp] theorem State.updCtx_mem (s : State) (c : Nat) (f : Ctx → Ctx) : (s.updCtx c f).mem = s.mem := rfl
@[simp] theorem State.updCtx_poison (s : State) (c : Nat) (f : Ctx → Ctx) : (s.updCtx c f).poison = s.poison := rfl
@[simp] theorem State.updCtx_issue (s : State) (c : Nat) (f : Ctx → Ctx) : (s.updCtx c f).issue = s.issue := rfl
@[simp] theorem State.updCtx_used (s : State) (c : Nat) (f : Ctx → Ctx) : (s.updCtx c f).used = s.used := rfl
@[simp] theorem State.updCtx_agenda (s : State) (c : Nat) (f : Ctx → Ctx) : (s.updCtx c f).agenda = s.agenda := rfl
@[simp] theorem State.updCtx_outbox (s : State) (c : Nat) (f : Ctx → Ctx) : (s.updCtx c f).outbox = s.outbox := rfl
@[simp] theorem State.updCtx_queues (s : State) (c : Nat) (f : Ctx → Ctx) : (s.updCtx c f).queues = s.queues := rfl
@[simp] theorem State.updCtx_graphs (s : State) (c : Nat) (f : Ctx → Ctx) : (s.updCtx c f).graphs = s.graphs := rfl
@[simp] theorem State.updCtx_dies (s : State) (c : Nat) (f : Ctx → Ctx) : (s.updCtx c f).dies = s.dies := rfl
@[simp] theorem State.updCtx_grids (s : State) (c : Nat) (f : Ctx → Ctx) : (s.updCtx c f).grids = s.grids := rfl
@[simp] theorem State.updCtx_clusters (s : State) (c : Nat) (f : Ctx → Ctx) : (s.updCtx c f).clusters = s.clusters := rfl
@[simp] theorem State.updCtx_blocks (s : State) (c : Nat) (f : Ctx → Ctx) : (s.updCtx c f).blocks = s.blocks := rfl
@[simp] theorem State.updCtx_cores (s : State) (c : Nat) (f : Ctx → Ctx) : (s.updCtx c f).cores = s.cores := rfl
@[simp] theorem State.updCtx_groups (s : State) (c : Nat) (f : Ctx → Ctx) : (s.updCtx c f).groups = s.groups := rfl
@[simp] theorem State.updCtx_writes (s : State) (c : Nat) (f : Ctx → Ctx) : (s.updCtx c f).writes = s.writes := rfl
@[simp] theorem State.updCtx_extReqs (s : State) (c : Nat) (f : Ctx → Ctx) : (s.updCtx c f).extReqs = s.extReqs := rfl
@[simp] theorem State.updCtx_watches (s : State) (c : Nat) (f : Ctx → Ctx) : (s.updCtx c f).watches = s.watches := rfl
@[simp] theorem State.updCtx_nextId (s : State) (c : Nat) (f : Ctx → Ctx) : (s.updCtx c f).nextId = s.nextId := rfl

@[simp] theorem State.setQueue_clk (s : State) (q : Nat) (x : Queue) : (s.setQueue q x).clk = s.clk := rfl
@[simp] theorem State.setQueue_regs (s : State) (q : Nat) (x : Queue) : (s.setQueue q x).regs = s.regs := rfl
@[simp] theorem State.setQueue_mem (s : State) (q : Nat) (x : Queue) : (s.setQueue q x).mem = s.mem := rfl
@[simp] theorem State.setQueue_poison (s : State) (q : Nat) (x : Queue) : (s.setQueue q x).poison = s.poison := rfl
@[simp] theorem State.setQueue_issue (s : State) (q : Nat) (x : Queue) : (s.setQueue q x).issue = s.issue := rfl
@[simp] theorem State.setQueue_used (s : State) (q : Nat) (x : Queue) : (s.setQueue q x).used = s.used := rfl
@[simp] theorem State.setQueue_agenda (s : State) (q : Nat) (x : Queue) : (s.setQueue q x).agenda = s.agenda := rfl
@[simp] theorem State.setQueue_outbox (s : State) (q : Nat) (x : Queue) : (s.setQueue q x).outbox = s.outbox := rfl
@[simp] theorem State.setQueue_ctxs (s : State) (q : Nat) (x : Queue) : (s.setQueue q x).ctxs = s.ctxs := rfl
@[simp] theorem State.setQueue_graphs (s : State) (q : Nat) (x : Queue) : (s.setQueue q x).graphs = s.graphs := rfl
@[simp] theorem State.setQueue_dies (s : State) (q : Nat) (x : Queue) : (s.setQueue q x).dies = s.dies := rfl
@[simp] theorem State.setQueue_grids (s : State) (q : Nat) (x : Queue) : (s.setQueue q x).grids = s.grids := rfl
@[simp] theorem State.setQueue_clusters (s : State) (q : Nat) (x : Queue) : (s.setQueue q x).clusters = s.clusters := rfl
@[simp] theorem State.setQueue_blocks (s : State) (q : Nat) (x : Queue) : (s.setQueue q x).blocks = s.blocks := rfl
@[simp] theorem State.setQueue_cores (s : State) (q : Nat) (x : Queue) : (s.setQueue q x).cores = s.cores := rfl
@[simp] theorem State.setQueue_groups (s : State) (q : Nat) (x : Queue) : (s.setQueue q x).groups = s.groups := rfl
@[simp] theorem State.setQueue_writes (s : State) (q : Nat) (x : Queue) : (s.setQueue q x).writes = s.writes := rfl
@[simp] theorem State.setQueue_extReqs (s : State) (q : Nat) (x : Queue) : (s.setQueue q x).extReqs = s.extReqs := rfl
@[simp] theorem State.setQueue_watches (s : State) (q : Nat) (x : Queue) : (s.setQueue q x).watches = s.watches := rfl
@[simp] theorem State.setQueue_nextId (s : State) (q : Nat) (x : Queue) : (s.setQueue q x).nextId = s.nextId := rfl

@[simp] theorem State.setDie_clk (s : State) (d : Nat) (x : Die) : (s.setDie d x).clk = s.clk := rfl
@[simp] theorem State.setDie_regs (s : State) (d : Nat) (x : Die) : (s.setDie d x).regs = s.regs := rfl
@[simp] theorem State.setDie_mem (s : State) (d : Nat) (x : Die) : (s.setDie d x).mem = s.mem := rfl
@[simp] theorem State.setDie_poison (s : State) (d : Nat) (x : Die) : (s.setDie d x).poison = s.poison := rfl
@[simp] theorem State.setDie_issue (s : State) (d : Nat) (x : Die) : (s.setDie d x).issue = s.issue := rfl
@[simp] theorem State.setDie_used (s : State) (d : Nat) (x : Die) : (s.setDie d x).used = s.used := rfl
@[simp] theorem State.setDie_agenda (s : State) (d : Nat) (x : Die) : (s.setDie d x).agenda = s.agenda := rfl
@[simp] theorem State.setDie_outbox (s : State) (d : Nat) (x : Die) : (s.setDie d x).outbox = s.outbox := rfl
@[simp] theorem State.setDie_ctxs (s : State) (d : Nat) (x : Die) : (s.setDie d x).ctxs = s.ctxs := rfl
@[simp] theorem State.setDie_queues (s : State) (d : Nat) (x : Die) : (s.setDie d x).queues = s.queues := rfl
@[simp] theorem State.setDie_graphs (s : State) (d : Nat) (x : Die) : (s.setDie d x).graphs = s.graphs := rfl
@[simp] theorem State.setDie_grids (s : State) (d : Nat) (x : Die) : (s.setDie d x).grids = s.grids := rfl
@[simp] theorem State.setDie_clusters (s : State) (d : Nat) (x : Die) : (s.setDie d x).clusters = s.clusters := rfl
@[simp] theorem State.setDie_blocks (s : State) (d : Nat) (x : Die) : (s.setDie d x).blocks = s.blocks := rfl
@[simp] theorem State.setDie_cores (s : State) (d : Nat) (x : Die) : (s.setDie d x).cores = s.cores := rfl
@[simp] theorem State.setDie_groups (s : State) (d : Nat) (x : Die) : (s.setDie d x).groups = s.groups := rfl
@[simp] theorem State.setDie_writes (s : State) (d : Nat) (x : Die) : (s.setDie d x).writes = s.writes := rfl
@[simp] theorem State.setDie_extReqs (s : State) (d : Nat) (x : Die) : (s.setDie d x).extReqs = s.extReqs := rfl
@[simp] theorem State.setDie_watches (s : State) (d : Nat) (x : Die) : (s.setDie d x).watches = s.watches := rfl
@[simp] theorem State.setDie_nextId (s : State) (d : Nat) (x : Die) : (s.setDie d x).nextId = s.nextId := rfl

@[simp] theorem State.setReg_clk (s : State) (o : Nat) (v : BitVec 64) : (s.setReg o v).clk = s.clk := rfl
@[simp] theorem State.setReg_mem (s : State) (o : Nat) (v : BitVec 64) : (s.setReg o v).mem = s.mem := rfl
@[simp] theorem State.setReg_poison (s : State) (o : Nat) (v : BitVec 64) : (s.setReg o v).poison = s.poison := rfl
@[simp] theorem State.setReg_issue (s : State) (o : Nat) (v : BitVec 64) : (s.setReg o v).issue = s.issue := rfl
@[simp] theorem State.setReg_used (s : State) (o : Nat) (v : BitVec 64) : (s.setReg o v).used = s.used := rfl
@[simp] theorem State.setReg_agenda (s : State) (o : Nat) (v : BitVec 64) : (s.setReg o v).agenda = s.agenda := rfl
@[simp] theorem State.setReg_outbox (s : State) (o : Nat) (v : BitVec 64) : (s.setReg o v).outbox = s.outbox := rfl
@[simp] theorem State.setReg_ctxs (s : State) (o : Nat) (v : BitVec 64) : (s.setReg o v).ctxs = s.ctxs := rfl
@[simp] theorem State.setReg_queues (s : State) (o : Nat) (v : BitVec 64) : (s.setReg o v).queues = s.queues := rfl
@[simp] theorem State.setReg_graphs (s : State) (o : Nat) (v : BitVec 64) : (s.setReg o v).graphs = s.graphs := rfl
@[simp] theorem State.setReg_dies (s : State) (o : Nat) (v : BitVec 64) : (s.setReg o v).dies = s.dies := rfl
@[simp] theorem State.setReg_grids (s : State) (o : Nat) (v : BitVec 64) : (s.setReg o v).grids = s.grids := rfl
@[simp] theorem State.setReg_clusters (s : State) (o : Nat) (v : BitVec 64) : (s.setReg o v).clusters = s.clusters := rfl
@[simp] theorem State.setReg_blocks (s : State) (o : Nat) (v : BitVec 64) : (s.setReg o v).blocks = s.blocks := rfl
@[simp] theorem State.setReg_cores (s : State) (o : Nat) (v : BitVec 64) : (s.setReg o v).cores = s.cores := rfl
@[simp] theorem State.setReg_groups (s : State) (o : Nat) (v : BitVec 64) : (s.setReg o v).groups = s.groups := rfl
@[simp] theorem State.setReg_writes (s : State) (o : Nat) (v : BitVec 64) : (s.setReg o v).writes = s.writes := rfl
@[simp] theorem State.setReg_extReqs (s : State) (o : Nat) (v : BitVec 64) : (s.setReg o v).extReqs = s.extReqs := rfl
@[simp] theorem State.setReg_watches (s : State) (o : Nat) (v : BitVec 64) : (s.setReg o v).watches = s.watches := rfl
@[simp] theorem State.setReg_nextId (s : State) (o : Nat) (v : BitVec 64) : (s.setReg o v).nextId = s.nextId := rfl

@[simp] theorem State.updBlk_clk (s : State) (b : Nat) (f : Block → Block) : (s.updBlk b f).clk = s.clk := rfl
@[simp] theorem State.updBlk_regs (s : State) (b : Nat) (f : Block → Block) : (s.updBlk b f).regs = s.regs := rfl
@[simp] theorem State.updBlk_mem (s : State) (b : Nat) (f : Block → Block) : (s.updBlk b f).mem = s.mem := rfl
@[simp] theorem State.updBlk_poison (s : State) (b : Nat) (f : Block → Block) : (s.updBlk b f).poison = s.poison := rfl
@[simp] theorem State.updBlk_issue (s : State) (b : Nat) (f : Block → Block) : (s.updBlk b f).issue = s.issue := rfl
@[simp] theorem State.updBlk_used (s : State) (b : Nat) (f : Block → Block) : (s.updBlk b f).used = s.used := rfl
@[simp] theorem State.updBlk_agenda (s : State) (b : Nat) (f : Block → Block) : (s.updBlk b f).agenda = s.agenda := rfl
@[simp] theorem State.updBlk_outbox (s : State) (b : Nat) (f : Block → Block) : (s.updBlk b f).outbox = s.outbox := rfl
@[simp] theorem State.updBlk_ctxs (s : State) (b : Nat) (f : Block → Block) : (s.updBlk b f).ctxs = s.ctxs := rfl
@[simp] theorem State.updBlk_queues (s : State) (b : Nat) (f : Block → Block) : (s.updBlk b f).queues = s.queues := rfl
@[simp] theorem State.updBlk_graphs (s : State) (b : Nat) (f : Block → Block) : (s.updBlk b f).graphs = s.graphs := rfl
@[simp] theorem State.updBlk_dies (s : State) (b : Nat) (f : Block → Block) : (s.updBlk b f).dies = s.dies := rfl
@[simp] theorem State.updBlk_grids (s : State) (b : Nat) (f : Block → Block) : (s.updBlk b f).grids = s.grids := rfl
@[simp] theorem State.updBlk_clusters (s : State) (b : Nat) (f : Block → Block) : (s.updBlk b f).clusters = s.clusters := rfl
@[simp] theorem State.updBlk_cores (s : State) (b : Nat) (f : Block → Block) : (s.updBlk b f).cores = s.cores := rfl
@[simp] theorem State.updBlk_groups (s : State) (b : Nat) (f : Block → Block) : (s.updBlk b f).groups = s.groups := rfl
@[simp] theorem State.updBlk_writes (s : State) (b : Nat) (f : Block → Block) : (s.updBlk b f).writes = s.writes := rfl
@[simp] theorem State.updBlk_extReqs (s : State) (b : Nat) (f : Block → Block) : (s.updBlk b f).extReqs = s.extReqs := rfl
@[simp] theorem State.updBlk_watches (s : State) (b : Nat) (f : Block → Block) : (s.updBlk b f).watches = s.watches := rfl
@[simp] theorem State.updBlk_nextId (s : State) (b : Nat) (f : Block → Block) : (s.updBlk b f).nextId = s.nextId := rfl

@[simp] theorem State.updCl_clk (s : State) (b : Nat) (f : Cluster → Cluster) : (s.updCl b f).clk = s.clk := rfl
@[simp] theorem State.updCl_regs (s : State) (b : Nat) (f : Cluster → Cluster) : (s.updCl b f).regs = s.regs := rfl
@[simp] theorem State.updCl_mem (s : State) (b : Nat) (f : Cluster → Cluster) : (s.updCl b f).mem = s.mem := rfl
@[simp] theorem State.updCl_poison (s : State) (b : Nat) (f : Cluster → Cluster) : (s.updCl b f).poison = s.poison := rfl
@[simp] theorem State.updCl_issue (s : State) (b : Nat) (f : Cluster → Cluster) : (s.updCl b f).issue = s.issue := rfl
@[simp] theorem State.updCl_used (s : State) (b : Nat) (f : Cluster → Cluster) : (s.updCl b f).used = s.used := rfl
@[simp] theorem State.updCl_agenda (s : State) (b : Nat) (f : Cluster → Cluster) : (s.updCl b f).agenda = s.agenda := rfl
@[simp] theorem State.updCl_outbox (s : State) (b : Nat) (f : Cluster → Cluster) : (s.updCl b f).outbox = s.outbox := rfl
@[simp] theorem State.updCl_ctxs (s : State) (b : Nat) (f : Cluster → Cluster) : (s.updCl b f).ctxs = s.ctxs := rfl
@[simp] theorem State.updCl_queues (s : State) (b : Nat) (f : Cluster → Cluster) : (s.updCl b f).queues = s.queues := rfl
@[simp] theorem State.updCl_graphs (s : State) (b : Nat) (f : Cluster → Cluster) : (s.updCl b f).graphs = s.graphs := rfl
@[simp] theorem State.updCl_dies (s : State) (b : Nat) (f : Cluster → Cluster) : (s.updCl b f).dies = s.dies := rfl
@[simp] theorem State.updCl_grids (s : State) (b : Nat) (f : Cluster → Cluster) : (s.updCl b f).grids = s.grids := rfl
@[simp] theorem State.updCl_blocks (s : State) (b : Nat) (f : Cluster → Cluster) : (s.updCl b f).blocks = s.blocks := rfl
@[simp] theorem State.updCl_cores (s : State) (b : Nat) (f : Cluster → Cluster) : (s.updCl b f).cores = s.cores := rfl
@[simp] theorem State.updCl_groups (s : State) (b : Nat) (f : Cluster → Cluster) : (s.updCl b f).groups = s.groups := rfl
@[simp] theorem State.updCl_writes (s : State) (b : Nat) (f : Cluster → Cluster) : (s.updCl b f).writes = s.writes := rfl
@[simp] theorem State.updCl_extReqs (s : State) (b : Nat) (f : Cluster → Cluster) : (s.updCl b f).extReqs = s.extReqs := rfl
@[simp] theorem State.updCl_watches (s : State) (b : Nat) (f : Cluster → Cluster) : (s.updCl b f).watches = s.watches := rfl
@[simp] theorem State.updCl_nextId (s : State) (b : Nat) (f : Cluster → Cluster) : (s.updCl b f).nextId = s.nextId := rfl

@[simp] theorem State.updGrid_clk (s : State) (g : Nat) (f : Grid → Grid) : (s.updGrid g f).clk = s.clk := rfl
@[simp] theorem State.updGrid_regs (s : State) (g : Nat) (f : Grid → Grid) : (s.updGrid g f).regs = s.regs := rfl
@[simp] theorem State.updGrid_mem (s : State) (g : Nat) (f : Grid → Grid) : (s.updGrid g f).mem = s.mem := rfl
@[simp] theorem State.updGrid_poison (s : State) (g : Nat) (f : Grid → Grid) : (s.updGrid g f).poison = s.poison := rfl
@[simp] theorem State.updGrid_issue (s : State) (g : Nat) (f : Grid → Grid) : (s.updGrid g f).issue = s.issue := rfl
@[simp] theorem State.updGrid_used (s : State) (g : Nat) (f : Grid → Grid) : (s.updGrid g f).used = s.used := rfl
@[simp] theorem State.updGrid_agenda (s : State) (g : Nat) (f : Grid → Grid) : (s.updGrid g f).agenda = s.agenda := rfl
@[simp] theorem State.updGrid_outbox (s : State) (g : Nat) (f : Grid → Grid) : (s.updGrid g f).outbox = s.outbox := rfl
@[simp] theorem State.updGrid_ctxs (s : State) (g : Nat) (f : Grid → Grid) : (s.updGrid g f).ctxs = s.ctxs := rfl
@[simp] theorem State.updGrid_queues (s : State) (g : Nat) (f : Grid → Grid) : (s.updGrid g f).queues = s.queues := rfl
@[simp] theorem State.updGrid_graphs (s : State) (g : Nat) (f : Grid → Grid) : (s.updGrid g f).graphs = s.graphs := rfl
@[simp] theorem State.updGrid_dies (s : State) (g : Nat) (f : Grid → Grid) : (s.updGrid g f).dies = s.dies := rfl
@[simp] theorem State.updGrid_clusters (s : State) (g : Nat) (f : Grid → Grid) : (s.updGrid g f).clusters = s.clusters := rfl
@[simp] theorem State.updGrid_blocks (s : State) (g : Nat) (f : Grid → Grid) : (s.updGrid g f).blocks = s.blocks := rfl
@[simp] theorem State.updGrid_cores (s : State) (g : Nat) (f : Grid → Grid) : (s.updGrid g f).cores = s.cores := rfl
@[simp] theorem State.updGrid_groups (s : State) (g : Nat) (f : Grid → Grid) : (s.updGrid g f).groups = s.groups := rfl
@[simp] theorem State.updGrid_writes (s : State) (g : Nat) (f : Grid → Grid) : (s.updGrid g f).writes = s.writes := rfl
@[simp] theorem State.updGrid_extReqs (s : State) (g : Nat) (f : Grid → Grid) : (s.updGrid g f).extReqs = s.extReqs := rfl
@[simp] theorem State.updGrid_watches (s : State) (g : Nat) (f : Grid → Grid) : (s.updGrid g f).watches = s.watches := rfl
@[simp] theorem State.updGrid_nextId (s : State) (g : Nat) (f : Grid → Grid) : (s.updGrid g f).nextId = s.nextId := rfl

@[simp] theorem State.send_clk (s : State) (m : OutMsg) : (s.send m).clk = s.clk := rfl
@[simp] theorem State.send_regs (s : State) (m : OutMsg) : (s.send m).regs = s.regs := rfl
@[simp] theorem State.send_mem (s : State) (m : OutMsg) : (s.send m).mem = s.mem := rfl
@[simp] theorem State.send_poison (s : State) (m : OutMsg) : (s.send m).poison = s.poison := rfl
@[simp] theorem State.send_issue (s : State) (m : OutMsg) : (s.send m).issue = s.issue := rfl
@[simp] theorem State.send_used (s : State) (m : OutMsg) : (s.send m).used = s.used := rfl
@[simp] theorem State.send_agenda (s : State) (m : OutMsg) : (s.send m).agenda = s.agenda := rfl
@[simp] theorem State.send_ctxs (s : State) (m : OutMsg) : (s.send m).ctxs = s.ctxs := rfl
@[simp] theorem State.send_queues (s : State) (m : OutMsg) : (s.send m).queues = s.queues := rfl
@[simp] theorem State.send_graphs (s : State) (m : OutMsg) : (s.send m).graphs = s.graphs := rfl
@[simp] theorem State.send_dies (s : State) (m : OutMsg) : (s.send m).dies = s.dies := rfl
@[simp] theorem State.send_grids (s : State) (m : OutMsg) : (s.send m).grids = s.grids := rfl
@[simp] theorem State.send_clusters (s : State) (m : OutMsg) : (s.send m).clusters = s.clusters := rfl
@[simp] theorem State.send_blocks (s : State) (m : OutMsg) : (s.send m).blocks = s.blocks := rfl
@[simp] theorem State.send_cores (s : State) (m : OutMsg) : (s.send m).cores = s.cores := rfl
@[simp] theorem State.send_groups (s : State) (m : OutMsg) : (s.send m).groups = s.groups := rfl
@[simp] theorem State.send_writes (s : State) (m : OutMsg) : (s.send m).writes = s.writes := rfl
@[simp] theorem State.send_extReqs (s : State) (m : OutMsg) : (s.send m).extReqs = s.extReqs := rfl
@[simp] theorem State.send_watches (s : State) (m : OutMsg) : (s.send m).watches = s.watches := rfl
@[simp] theorem State.send_nextId (s : State) (m : OutMsg) : (s.send m).nextId = s.nextId := rfl

@[simp] theorem State.leaveSlot_clk (s : State) (a : Nat) : (s.leaveSlot a).clk = s.clk := rfl
@[simp] theorem State.leaveSlot_regs (s : State) (a : Nat) : (s.leaveSlot a).regs = s.regs := rfl
@[simp] theorem State.leaveSlot_mem (s : State) (a : Nat) : (s.leaveSlot a).mem = s.mem := rfl
@[simp] theorem State.leaveSlot_poison (s : State) (a : Nat) : (s.leaveSlot a).poison = s.poison := rfl
@[simp] theorem State.leaveSlot_used (s : State) (a : Nat) : (s.leaveSlot a).used = s.used := rfl
@[simp] theorem State.leaveSlot_agenda (s : State) (a : Nat) : (s.leaveSlot a).agenda = s.agenda := rfl
@[simp] theorem State.leaveSlot_outbox (s : State) (a : Nat) : (s.leaveSlot a).outbox = s.outbox := rfl
@[simp] theorem State.leaveSlot_ctxs (s : State) (a : Nat) : (s.leaveSlot a).ctxs = s.ctxs := rfl
@[simp] theorem State.leaveSlot_queues (s : State) (a : Nat) : (s.leaveSlot a).queues = s.queues := rfl
@[simp] theorem State.leaveSlot_graphs (s : State) (a : Nat) : (s.leaveSlot a).graphs = s.graphs := rfl
@[simp] theorem State.leaveSlot_dies (s : State) (a : Nat) : (s.leaveSlot a).dies = s.dies := rfl
@[simp] theorem State.leaveSlot_grids (s : State) (a : Nat) : (s.leaveSlot a).grids = s.grids := rfl
@[simp] theorem State.leaveSlot_clusters (s : State) (a : Nat) : (s.leaveSlot a).clusters = s.clusters := rfl
@[simp] theorem State.leaveSlot_blocks (s : State) (a : Nat) : (s.leaveSlot a).blocks = s.blocks := rfl
@[simp] theorem State.leaveSlot_cores (s : State) (a : Nat) : (s.leaveSlot a).cores = s.cores := rfl
@[simp] theorem State.leaveSlot_groups (s : State) (a : Nat) : (s.leaveSlot a).groups = s.groups := rfl
@[simp] theorem State.leaveSlot_writes (s : State) (a : Nat) : (s.leaveSlot a).writes = s.writes := rfl
@[simp] theorem State.leaveSlot_extReqs (s : State) (a : Nat) : (s.leaveSlot a).extReqs = s.extReqs := rfl
@[simp] theorem State.leaveSlot_watches (s : State) (a : Nat) : (s.leaveSlot a).watches = s.watches := rfl
@[simp] theorem State.leaveSlot_nextId (s : State) (a : Nat) : (s.leaveSlot a).nextId = s.nextId := rfl

@[simp] theorem State.countUp_clk (s : State) (c i n : Nat) : (s.countUp c i n).clk = s.clk := rfl
@[simp] theorem State.countUp_regs (s : State) (c i n : Nat) : (s.countUp c i n).regs = s.regs := rfl
@[simp] theorem State.countUp_mem (s : State) (c i n : Nat) : (s.countUp c i n).mem = s.mem := rfl
@[simp] theorem State.countUp_poison (s : State) (c i n : Nat) : (s.countUp c i n).poison = s.poison := rfl
@[simp] theorem State.countUp_issue (s : State) (c i n : Nat) : (s.countUp c i n).issue = s.issue := rfl
@[simp] theorem State.countUp_used (s : State) (c i n : Nat) : (s.countUp c i n).used = s.used := rfl
@[simp] theorem State.countUp_agenda (s : State) (c i n : Nat) : (s.countUp c i n).agenda = s.agenda := rfl
@[simp] theorem State.countUp_outbox (s : State) (c i n : Nat) : (s.countUp c i n).outbox = s.outbox := rfl
@[simp] theorem State.countUp_ctxs (s : State) (c i n : Nat) : (s.countUp c i n).ctxs = s.ctxs := rfl
@[simp] theorem State.countUp_queues (s : State) (c i n : Nat) : (s.countUp c i n).queues = s.queues := rfl
@[simp] theorem State.countUp_graphs (s : State) (c i n : Nat) : (s.countUp c i n).graphs = s.graphs := rfl
@[simp] theorem State.countUp_dies (s : State) (c i n : Nat) : (s.countUp c i n).dies = s.dies := rfl
@[simp] theorem State.countUp_grids (s : State) (c i n : Nat) : (s.countUp c i n).grids = s.grids := rfl
@[simp] theorem State.countUp_clusters (s : State) (c i n : Nat) : (s.countUp c i n).clusters = s.clusters := rfl
@[simp] theorem State.countUp_blocks (s : State) (c i n : Nat) : (s.countUp c i n).blocks = s.blocks := rfl
@[simp] theorem State.countUp_groups (s : State) (c i n : Nat) : (s.countUp c i n).groups = s.groups := rfl
@[simp] theorem State.countUp_writes (s : State) (c i n : Nat) : (s.countUp c i n).writes = s.writes := rfl
@[simp] theorem State.countUp_extReqs (s : State) (c i n : Nat) : (s.countUp c i n).extReqs = s.extReqs := rfl
@[simp] theorem State.countUp_watches (s : State) (c i n : Nat) : (s.countUp c i n).watches = s.watches := rfl
@[simp] theorem State.countUp_nextId (s : State) (c i n : Nat) : (s.countUp c i n).nextId = s.nextId := rfl

@[simp] theorem State.charge_clk (s : State) (a c n : Nat) : (s.charge a c n).clk = s.clk := rfl
@[simp] theorem State.charge_regs (s : State) (a c n : Nat) : (s.charge a c n).regs = s.regs := rfl
@[simp] theorem State.charge_mem (s : State) (a c n : Nat) : (s.charge a c n).mem = s.mem := rfl
@[simp] theorem State.charge_poison (s : State) (a c n : Nat) : (s.charge a c n).poison = s.poison := rfl
@[simp] theorem State.charge_issue (s : State) (a c n : Nat) : (s.charge a c n).issue = s.issue := rfl
@[simp] theorem State.charge_used (s : State) (a c n : Nat) : (s.charge a c n).used = s.used := rfl
@[simp] theorem State.charge_agenda (s : State) (a c n : Nat) : (s.charge a c n).agenda = s.agenda := rfl
@[simp] theorem State.charge_outbox (s : State) (a c n : Nat) : (s.charge a c n).outbox = s.outbox := rfl
@[simp] theorem State.charge_ctxs (s : State) (a c n : Nat) : (s.charge a c n).ctxs = s.ctxs := rfl
@[simp] theorem State.charge_queues (s : State) (a c n : Nat) : (s.charge a c n).queues = s.queues := rfl
@[simp] theorem State.charge_graphs (s : State) (a c n : Nat) : (s.charge a c n).graphs = s.graphs := rfl
@[simp] theorem State.charge_dies (s : State) (a c n : Nat) : (s.charge a c n).dies = s.dies := rfl
@[simp] theorem State.charge_grids (s : State) (a c n : Nat) : (s.charge a c n).grids = s.grids := rfl
@[simp] theorem State.charge_clusters (s : State) (a c n : Nat) : (s.charge a c n).clusters = s.clusters := rfl
@[simp] theorem State.charge_blocks (s : State) (a c n : Nat) : (s.charge a c n).blocks = s.blocks := rfl
@[simp] theorem State.charge_cores (s : State) (a c n : Nat) : (s.charge a c n).cores = s.cores := rfl
@[simp] theorem State.charge_writes (s : State) (a c n : Nat) : (s.charge a c n).writes = s.writes := rfl
@[simp] theorem State.charge_extReqs (s : State) (a c n : Nat) : (s.charge a c n).extReqs = s.extReqs := rfl
@[simp] theorem State.charge_watches (s : State) (a c n : Nat) : (s.charge a c n).watches = s.watches := rfl
@[simp] theorem State.charge_nextId (s : State) (a c n : Nat) : (s.charge a c n).nextId = s.nextId := rfl

/-! ### What an update writes -/

@[simp] theorem State.setGrp_grp_self (s : State) (a : Nat) (g : Group) : (s.setGrp a g).grp a = some g := amGet_amSet_self _ _ _
theorem State.setGrp_grp_ne (s : State) {a b : Nat} (g : Group) (h : b ≠ a) : (s.setGrp a g).grp b = s.grp b :=
  amGet_amSet_ne _ _ h
@[simp] theorem State.updGrp_grp_self (s : State) (a : Nat) (f : Group → Group) : (s.updGrp a f).grp a = (s.grp a).map f :=
  amGet_amUpd_self _ _ _
theorem State.updGrp_grp_ne (s : State) {a b : Nat} (f : Group → Group) (h : b ≠ a) : (s.updGrp a f).grp b = s.grp b :=
  amGet_amUpd_ne _ _ h
@[simp] theorem State.setCore_core_self (s : State) (c : Nat) (x : Core) : (s.setCore c x).core c = x := by
  simp [State.setCore, State.core]
theorem State.setCore_core_ne (s : State) {c d : Nat} (x : Core) (h : d ≠ c) : (s.setCore c x).core d = s.core d := by
  simp [State.setCore, State.core, amGet_amSet_ne _ _ h]
@[simp] theorem State.updCore_core_self (s : State) (c : Nat) (f : Core → Core) : (s.updCore c f).core c = f (s.core c) :=
  State.setCore_core_self _ _ _
theorem State.updCore_core_ne (s : State) {c d : Nat} (f : Core → Core) (h : d ≠ c) : (s.updCore c f).core d = s.core d :=
  State.setCore_core_ne _ _ h
@[simp] theorem State.setCtx_ctx_self (s : State) (c : Nat) (x : Ctx) : (s.setCtx c x).ctx c = x := by simp [State.setCtx, State.ctx]
theorem State.setCtx_ctx_ne (s : State) {c d : Nat} (x : Ctx) (h : d ≠ c) : (s.setCtx c x).ctx d = s.ctx d := by
  simp [State.setCtx, State.ctx, amGet_amSet_ne _ _ h]
@[simp] theorem State.updCtx_ctx_self (s : State) (c : Nat) (f : Ctx → Ctx) : (s.updCtx c f).ctx c = f (s.ctx c) :=
  State.setCtx_ctx_self _ _ _
theorem State.updCtx_ctx_ne (s : State) {c d : Nat} (f : Ctx → Ctx) (h : d ≠ c) : (s.updCtx c f).ctx d = s.ctx d :=
  State.setCtx_ctx_ne _ _ h
@[simp] theorem State.updBlk_blk_self (s : State) (b : Nat) (f : Block → Block) : (s.updBlk b f).blk b = (s.blk b).map f :=
  amGet_amUpd_self _ _ _
theorem State.updBlk_blk_ne (s : State) {b c : Nat} (f : Block → Block) (h : c ≠ b) : (s.updBlk b f).blk c = s.blk c :=
  amGet_amUpd_ne _ _ h
@[simp] theorem State.setReg_reg_self (s : State) (o : Nat) (v : BitVec 64) : (s.setReg o v).reg o = v := by
  simp [State.setReg, State.reg]
theorem State.setReg_reg_ne (s : State) {o p : Nat} (v : BitVec 64) (h : p ≠ o) : (s.setReg o v).reg p = s.reg p := by
  simp [State.setReg, State.reg, amGet_amSet_ne _ _ h]
@[simp] theorem State.send_out (s : State) (m : OutMsg) : (s.send m).outbox = m :: s.outbox := rfl
@[simp] theorem State.leaveSlot_slots (s : State) (a : Nat) : (s.leaveSlot a).issue = s.issue.filter fun x => x != a := rfl
@[simp] theorem State.setCore_grp (s : State) (c : Nat) (x : Core) (a : Nat) : (s.setCore c x).grp a = s.grp a := rfl
@[simp] theorem State.updCore_grp (s : State) (c : Nat) (f : Core → Core) (a : Nat) : (s.updCore c f).grp a = s.grp a := rfl
@[simp] theorem State.countUp_grp (s : State) (c i n a : Nat) : (s.countUp c i n).grp a = s.grp a := rfl
@[simp] theorem State.leaveSlot_grp (s : State) (a b : Nat) : (s.leaveSlot a).grp b = s.grp b := rfl
@[simp] theorem State.updGrp_core (s : State) (a : Nat) (f : Group → Group) (c : Nat) : (s.updGrp a f).core c = s.core c := rfl
@[simp] theorem State.setGrp_core (s : State) (a : Nat) (g : Group) (c : Nat) : (s.setGrp a g).core c = s.core c := rfl

/-! ### The other fields -/

@[simp] theorem State.setGrp_liveCd (s : State) (a : Nat) (g : Group) : (s.setGrp a g).liveCd = s.liveCd := rfl
@[simp] theorem State.setGrp_liveXd (s : State) (a : Nat) (g : Group) : (s.setGrp a g).liveXd = s.liveXd := rfl
@[simp] theorem State.setGrp_ready (s : State) (a : Nat) (g : Group) : (s.setGrp a g).ready = s.ready := rfl
@[simp] theorem State.setGrp_recovery (s : State) (a : Nat) (g : Group) : (s.setGrp a g).recovery = s.recovery := rfl
@[simp] theorem State.setGrp_calfail (s : State) (a : Nat) (g : Group) : (s.setGrp a g).calfail = s.calfail := rfl
@[simp] theorem State.setGrp_throttle (s : State) (a : Nat) (g : Group) : (s.setGrp a g).throttle = s.throttle := rfl
@[simp] theorem State.setGrp_stage (s : State) (a : Nat) (g : Group) : (s.setGrp a g).stage = s.stage := rfl
@[simp] theorem State.setGrp_watts (s : State) (a : Nat) (g : Group) : (s.setGrp a g).watts = s.watts := rfl
@[simp] theorem State.setGrp_mhz10 (s : State) (a : Nat) (g : Group) : (s.setGrp a g).mhz10 = s.mhz10 := rfl
@[simp] theorem State.setGrp_ctxSts (s : State) (a : Nat) (g : Group) : (s.setGrp a g).ctxSts = s.ctxSts := rfl
@[simp] theorem State.setGrp_qSts (s : State) (a : Nat) (g : Group) : (s.setGrp a g).qSts = s.qSts := rfl
@[simp] theorem State.setGrp_tlbSts (s : State) (a : Nat) (g : Group) : (s.setGrp a g).tlbSts = s.tlbSts := rfl
@[simp] theorem State.setGrp_dbgSts (s : State) (a : Nat) (g : Group) : (s.setGrp a g).dbgSts = s.dbgSts := rfl
@[simp] theorem State.setGrp_dmaOvr (s : State) (a : Nat) (g : Group) : (s.setGrp a g).dmaOvr = s.dmaOvr := rfl
@[simp] theorem State.setGrp_dmaEngine (s : State) (a : Nat) (g : Group) : (s.setGrp a g).dmaEngine = s.dmaEngine := rfl
@[simp] theorem State.setGrp_frzDma (s : State) (a : Nat) (g : Group) : (s.setGrp a g).frzDma = s.frzDma := rfl
@[simp] theorem State.setGrp_frzHost (s : State) (a : Nat) (g : Group) : (s.setGrp a g).frzHost = s.frzHost := rfl
@[simp] theorem State.setGrp_frzPort (s : State) (a : Nat) (g : Group) : (s.setGrp a g).frzPort = s.frzPort := rfl
@[simp] theorem State.setGrp_frzAddr (s : State) (a : Nat) (g : Group) : (s.setGrp a g).frzAddr = s.frzAddr := rfl
@[simp] theorem State.setGrp_rcvLen (s : State) (a : Nat) (g : Group) : (s.setGrp a g).rcvLen = s.rcvLen := rfl
@[simp] theorem State.setGrp_rcvBusy (s : State) (a : Nat) (g : Group) : (s.setGrp a g).rcvBusy = s.rcvBusy := rfl
@[simp] theorem State.setGrp_rcvResult (s : State) (a : Nat) (g : Group) : (s.setGrp a g).rcvResult = s.rcvResult := rfl
@[simp] theorem State.setGrp_links (s : State) (a : Nat) (g : Group) : (s.setGrp a g).links = s.links := rfl
@[simp] theorem State.setGrp_lseq (s : State) (a : Nat) (g : Group) : (s.setGrp a g).lseq = s.lseq := rfl
@[simp] theorem State.setGrp_image (s : State) (a : Nat) (g : Group) : (s.setGrp a g).image = s.image := rfl
@[simp] theorem State.setGrp_lmsIndex (s : State) (a : Nat) (g : Group) : (s.setGrp a g).lmsIndex = s.lmsIndex := rfl
@[simp] theorem State.setGrp_attKey (s : State) (a : Nat) (g : Group) : (s.setGrp a g).attKey = s.attKey := rfl
@[simp] theorem State.setGrp_hostLines (s : State) (a : Nat) (g : Group) : (s.setGrp a g).hostLines = s.hostLines := rfl
@[simp] theorem State.setGrp_hdmHeld (s : State) (a : Nat) (g : Group) : (s.setGrp a g).hdmHeld = s.hdmHeld := rfl
@[simp] theorem State.setGrp_guests (s : State) (a : Nat) (g : Group) : (s.setGrp a g).guests = s.guests := rfl
@[simp] theorem State.setGrp_fills (s : State) (a : Nat) (g : Group) : (s.setGrp a g).fills = s.fills := rfl
@[simp] theorem State.setGrp_invs (s : State) (a : Nat) (g : Group) : (s.setGrp a g).invs = s.invs := rfl
@[simp] theorem State.setGrp_clLines (s : State) (a : Nat) (g : Group) : (s.setGrp a g).clLines = s.clLines := rfl
@[simp] theorem State.setGrp_partials (s : State) (a : Nat) (g : Group) : (s.setGrp a g).partials = s.partials := rfl
@[simp] theorem State.setGrp_checks (s : State) (a : Nat) (g : Group) : (s.setGrp a g).checks = s.checks := rfl
@[simp] theorem State.setGrp_arrivals (s : State) (a : Nat) (g : Group) : (s.setGrp a g).arrivals = s.arrivals := rfl
@[simp] theorem State.setGrp_objDogs (s : State) (a : Nat) (g : Group) : (s.setGrp a g).objDogs = s.objDogs := rfl
@[simp] theorem State.setGrp_objFails (s : State) (a : Nat) (g : Group) : (s.setGrp a g).objFails = s.objFails := rfl
@[simp] theorem State.setGrp_later (s : State) (a : Nat) (g : Group) : (s.setGrp a g).later = s.later := rfl
@[simp] theorem State.setGrp_recWrites (s : State) (a : Nat) (g : Group) : (s.setGrp a g).recWrites = s.recWrites := rfl
@[simp] theorem State.setGrp_dieTlb (s : State) (a : Nat) (g : Group) : (s.setGrp a g).dieTlb = s.dieTlb := rfl
@[simp] theorem State.setGrp_ptrCache (s : State) (a : Nat) (g : Group) : (s.setGrp a g).ptrCache = s.ptrCache := rfl
@[simp] theorem State.setGrp_misses (s : State) (a : Nat) (g : Group) : (s.setGrp a g).misses = s.misses := rfl
@[simp] theorem State.setGrp_settling (s : State) (a : Nat) (g : Group) : (s.setGrp a g).settling = s.settling := rfl
@[simp] theorem State.setGrp_capLogs (s : State) (a : Nat) (g : Group) : (s.setGrp a g).capLogs = s.capLogs := rfl
@[simp] theorem State.setGrp_capVas (s : State) (a : Nat) (g : Group) : (s.setGrp a g).capVas = s.capVas := rfl
@[simp] theorem State.setGrp_putOff (s : State) (a : Nat) (g : Group) : (s.setGrp a g).putOff = s.putOff := rfl
@[simp] theorem State.setGrp_lastWin (s : State) (a : Nat) (g : Group) : (s.setGrp a g).lastWin = s.lastWin := rfl
@[simp] theorem State.setGrp_engines (s : State) (a : Nat) (g : Group) : (s.setGrp a g).engines = s.engines := rfl
@[simp] theorem State.setGrp_markings (s : State) (a : Nat) (g : Group) : (s.setGrp a g).markings = s.markings := rfl
@[simp] theorem State.setGrp_revoking (s : State) (a : Nat) (g : Group) : (s.setGrp a g).revoking = s.revoking := rfl
@[simp] theorem State.setGrp_heldCmd (s : State) (a : Nat) (g : Group) : (s.setGrp a g).heldCmd = s.heldCmd := rfl
@[simp] theorem State.setGrp_snapClk (s : State) (a : Nat) (g : Group) : (s.setGrp a g).snapClk = s.snapClk := rfl
@[simp] theorem State.setGrp_freeCtr (s : State) (a : Nat) (g : Group) : (s.setGrp a g).freeCtr = s.freeCtr := rfl
@[simp] theorem State.setGrp_bringUp (s : State) (a : Nat) (g : Group) : (s.setGrp a g).bringUp = s.bringUp := rfl
@[simp] theorem State.setGrp_devIndex (s : State) (a : Nat) (g : Group) : (s.setGrp a g).devIndex = s.devIndex := rfl
@[simp] theorem State.setGrp_powerClk (s : State) (a : Nat) (g : Group) : (s.setGrp a g).powerClk = s.powerClk := rfl
@[simp] theorem State.setGrp_stopRecs (s : State) (a : Nat) (g : Group) : (s.setGrp a g).stopRecs = s.stopRecs := rfl
@[simp] theorem State.setGrp_regWrites (s : State) (a : Nat) (g : Group) : (s.setGrp a g).regWrites = s.regWrites := rfl
@[simp] theorem State.setGrp_heldMsgs (s : State) (a : Nat) (g : Group) : (s.setGrp a g).heldMsgs = s.heldMsgs := rfl
@[simp] theorem State.updGrp_liveCd (s : State) (a : Nat) (f : Group → Group) : (s.updGrp a f).liveCd = s.liveCd := rfl
@[simp] theorem State.updGrp_liveXd (s : State) (a : Nat) (f : Group → Group) : (s.updGrp a f).liveXd = s.liveXd := rfl
@[simp] theorem State.updGrp_ready (s : State) (a : Nat) (f : Group → Group) : (s.updGrp a f).ready = s.ready := rfl
@[simp] theorem State.updGrp_recovery (s : State) (a : Nat) (f : Group → Group) : (s.updGrp a f).recovery = s.recovery := rfl
@[simp] theorem State.updGrp_calfail (s : State) (a : Nat) (f : Group → Group) : (s.updGrp a f).calfail = s.calfail := rfl
@[simp] theorem State.updGrp_throttle (s : State) (a : Nat) (f : Group → Group) : (s.updGrp a f).throttle = s.throttle := rfl
@[simp] theorem State.updGrp_stage (s : State) (a : Nat) (f : Group → Group) : (s.updGrp a f).stage = s.stage := rfl
@[simp] theorem State.updGrp_watts (s : State) (a : Nat) (f : Group → Group) : (s.updGrp a f).watts = s.watts := rfl
@[simp] theorem State.updGrp_mhz10 (s : State) (a : Nat) (f : Group → Group) : (s.updGrp a f).mhz10 = s.mhz10 := rfl
@[simp] theorem State.updGrp_ctxSts (s : State) (a : Nat) (f : Group → Group) : (s.updGrp a f).ctxSts = s.ctxSts := rfl
@[simp] theorem State.updGrp_qSts (s : State) (a : Nat) (f : Group → Group) : (s.updGrp a f).qSts = s.qSts := rfl
@[simp] theorem State.updGrp_tlbSts (s : State) (a : Nat) (f : Group → Group) : (s.updGrp a f).tlbSts = s.tlbSts := rfl
@[simp] theorem State.updGrp_dbgSts (s : State) (a : Nat) (f : Group → Group) : (s.updGrp a f).dbgSts = s.dbgSts := rfl
@[simp] theorem State.updGrp_dmaOvr (s : State) (a : Nat) (f : Group → Group) : (s.updGrp a f).dmaOvr = s.dmaOvr := rfl
@[simp] theorem State.updGrp_dmaEngine (s : State) (a : Nat) (f : Group → Group) : (s.updGrp a f).dmaEngine = s.dmaEngine := rfl
@[simp] theorem State.updGrp_frzDma (s : State) (a : Nat) (f : Group → Group) : (s.updGrp a f).frzDma = s.frzDma := rfl
@[simp] theorem State.updGrp_frzHost (s : State) (a : Nat) (f : Group → Group) : (s.updGrp a f).frzHost = s.frzHost := rfl
@[simp] theorem State.updGrp_frzPort (s : State) (a : Nat) (f : Group → Group) : (s.updGrp a f).frzPort = s.frzPort := rfl
@[simp] theorem State.updGrp_frzAddr (s : State) (a : Nat) (f : Group → Group) : (s.updGrp a f).frzAddr = s.frzAddr := rfl
@[simp] theorem State.updGrp_rcvLen (s : State) (a : Nat) (f : Group → Group) : (s.updGrp a f).rcvLen = s.rcvLen := rfl
@[simp] theorem State.updGrp_rcvBusy (s : State) (a : Nat) (f : Group → Group) : (s.updGrp a f).rcvBusy = s.rcvBusy := rfl
@[simp] theorem State.updGrp_rcvResult (s : State) (a : Nat) (f : Group → Group) : (s.updGrp a f).rcvResult = s.rcvResult := rfl
@[simp] theorem State.updGrp_links (s : State) (a : Nat) (f : Group → Group) : (s.updGrp a f).links = s.links := rfl
@[simp] theorem State.updGrp_lseq (s : State) (a : Nat) (f : Group → Group) : (s.updGrp a f).lseq = s.lseq := rfl
@[simp] theorem State.updGrp_image (s : State) (a : Nat) (f : Group → Group) : (s.updGrp a f).image = s.image := rfl
@[simp] theorem State.updGrp_lmsIndex (s : State) (a : Nat) (f : Group → Group) : (s.updGrp a f).lmsIndex = s.lmsIndex := rfl
@[simp] theorem State.updGrp_attKey (s : State) (a : Nat) (f : Group → Group) : (s.updGrp a f).attKey = s.attKey := rfl
@[simp] theorem State.updGrp_hostLines (s : State) (a : Nat) (f : Group → Group) : (s.updGrp a f).hostLines = s.hostLines := rfl
@[simp] theorem State.updGrp_hdmHeld (s : State) (a : Nat) (f : Group → Group) : (s.updGrp a f).hdmHeld = s.hdmHeld := rfl
@[simp] theorem State.updGrp_guests (s : State) (a : Nat) (f : Group → Group) : (s.updGrp a f).guests = s.guests := rfl
@[simp] theorem State.updGrp_fills (s : State) (a : Nat) (f : Group → Group) : (s.updGrp a f).fills = s.fills := rfl
@[simp] theorem State.updGrp_invs (s : State) (a : Nat) (f : Group → Group) : (s.updGrp a f).invs = s.invs := rfl
@[simp] theorem State.updGrp_clLines (s : State) (a : Nat) (f : Group → Group) : (s.updGrp a f).clLines = s.clLines := rfl
@[simp] theorem State.updGrp_partials (s : State) (a : Nat) (f : Group → Group) : (s.updGrp a f).partials = s.partials := rfl
@[simp] theorem State.updGrp_checks (s : State) (a : Nat) (f : Group → Group) : (s.updGrp a f).checks = s.checks := rfl
@[simp] theorem State.updGrp_arrivals (s : State) (a : Nat) (f : Group → Group) : (s.updGrp a f).arrivals = s.arrivals := rfl
@[simp] theorem State.updGrp_objDogs (s : State) (a : Nat) (f : Group → Group) : (s.updGrp a f).objDogs = s.objDogs := rfl
@[simp] theorem State.updGrp_objFails (s : State) (a : Nat) (f : Group → Group) : (s.updGrp a f).objFails = s.objFails := rfl
@[simp] theorem State.updGrp_later (s : State) (a : Nat) (f : Group → Group) : (s.updGrp a f).later = s.later := rfl
@[simp] theorem State.updGrp_recWrites (s : State) (a : Nat) (f : Group → Group) : (s.updGrp a f).recWrites = s.recWrites := rfl
@[simp] theorem State.updGrp_dieTlb (s : State) (a : Nat) (f : Group → Group) : (s.updGrp a f).dieTlb = s.dieTlb := rfl
@[simp] theorem State.updGrp_ptrCache (s : State) (a : Nat) (f : Group → Group) : (s.updGrp a f).ptrCache = s.ptrCache := rfl
@[simp] theorem State.updGrp_misses (s : State) (a : Nat) (f : Group → Group) : (s.updGrp a f).misses = s.misses := rfl
@[simp] theorem State.updGrp_settling (s : State) (a : Nat) (f : Group → Group) : (s.updGrp a f).settling = s.settling := rfl
@[simp] theorem State.updGrp_capLogs (s : State) (a : Nat) (f : Group → Group) : (s.updGrp a f).capLogs = s.capLogs := rfl
@[simp] theorem State.updGrp_capVas (s : State) (a : Nat) (f : Group → Group) : (s.updGrp a f).capVas = s.capVas := rfl
@[simp] theorem State.updGrp_putOff (s : State) (a : Nat) (f : Group → Group) : (s.updGrp a f).putOff = s.putOff := rfl
@[simp] theorem State.updGrp_lastWin (s : State) (a : Nat) (f : Group → Group) : (s.updGrp a f).lastWin = s.lastWin := rfl
@[simp] theorem State.updGrp_engines (s : State) (a : Nat) (f : Group → Group) : (s.updGrp a f).engines = s.engines := rfl
@[simp] theorem State.updGrp_markings (s : State) (a : Nat) (f : Group → Group) : (s.updGrp a f).markings = s.markings := rfl
@[simp] theorem State.updGrp_revoking (s : State) (a : Nat) (f : Group → Group) : (s.updGrp a f).revoking = s.revoking := rfl
@[simp] theorem State.updGrp_heldCmd (s : State) (a : Nat) (f : Group → Group) : (s.updGrp a f).heldCmd = s.heldCmd := rfl
@[simp] theorem State.updGrp_snapClk (s : State) (a : Nat) (f : Group → Group) : (s.updGrp a f).snapClk = s.snapClk := rfl
@[simp] theorem State.updGrp_freeCtr (s : State) (a : Nat) (f : Group → Group) : (s.updGrp a f).freeCtr = s.freeCtr := rfl
@[simp] theorem State.updGrp_bringUp (s : State) (a : Nat) (f : Group → Group) : (s.updGrp a f).bringUp = s.bringUp := rfl
@[simp] theorem State.updGrp_devIndex (s : State) (a : Nat) (f : Group → Group) : (s.updGrp a f).devIndex = s.devIndex := rfl
@[simp] theorem State.updGrp_powerClk (s : State) (a : Nat) (f : Group → Group) : (s.updGrp a f).powerClk = s.powerClk := rfl
@[simp] theorem State.updGrp_stopRecs (s : State) (a : Nat) (f : Group → Group) : (s.updGrp a f).stopRecs = s.stopRecs := rfl
@[simp] theorem State.updGrp_regWrites (s : State) (a : Nat) (f : Group → Group) : (s.updGrp a f).regWrites = s.regWrites := rfl
@[simp] theorem State.updGrp_heldMsgs (s : State) (a : Nat) (f : Group → Group) : (s.updGrp a f).heldMsgs = s.heldMsgs := rfl
@[simp] theorem State.setCore_liveCd (s : State) (c : Nat) (x : Core) : (s.setCore c x).liveCd = s.liveCd := rfl
@[simp] theorem State.setCore_liveXd (s : State) (c : Nat) (x : Core) : (s.setCore c x).liveXd = s.liveXd := rfl
@[simp] theorem State.setCore_ready (s : State) (c : Nat) (x : Core) : (s.setCore c x).ready = s.ready := rfl
@[simp] theorem State.setCore_recovery (s : State) (c : Nat) (x : Core) : (s.setCore c x).recovery = s.recovery := rfl
@[simp] theorem State.setCore_calfail (s : State) (c : Nat) (x : Core) : (s.setCore c x).calfail = s.calfail := rfl
@[simp] theorem State.setCore_throttle (s : State) (c : Nat) (x : Core) : (s.setCore c x).throttle = s.throttle := rfl
@[simp] theorem State.setCore_stage (s : State) (c : Nat) (x : Core) : (s.setCore c x).stage = s.stage := rfl
@[simp] theorem State.setCore_watts (s : State) (c : Nat) (x : Core) : (s.setCore c x).watts = s.watts := rfl
@[simp] theorem State.setCore_mhz10 (s : State) (c : Nat) (x : Core) : (s.setCore c x).mhz10 = s.mhz10 := rfl
@[simp] theorem State.setCore_ctxSts (s : State) (c : Nat) (x : Core) : (s.setCore c x).ctxSts = s.ctxSts := rfl
@[simp] theorem State.setCore_qSts (s : State) (c : Nat) (x : Core) : (s.setCore c x).qSts = s.qSts := rfl
@[simp] theorem State.setCore_tlbSts (s : State) (c : Nat) (x : Core) : (s.setCore c x).tlbSts = s.tlbSts := rfl
@[simp] theorem State.setCore_dbgSts (s : State) (c : Nat) (x : Core) : (s.setCore c x).dbgSts = s.dbgSts := rfl
@[simp] theorem State.setCore_dmaOvr (s : State) (c : Nat) (x : Core) : (s.setCore c x).dmaOvr = s.dmaOvr := rfl
@[simp] theorem State.setCore_dmaEngine (s : State) (c : Nat) (x : Core) : (s.setCore c x).dmaEngine = s.dmaEngine := rfl
@[simp] theorem State.setCore_frzDma (s : State) (c : Nat) (x : Core) : (s.setCore c x).frzDma = s.frzDma := rfl
@[simp] theorem State.setCore_frzHost (s : State) (c : Nat) (x : Core) : (s.setCore c x).frzHost = s.frzHost := rfl
@[simp] theorem State.setCore_frzPort (s : State) (c : Nat) (x : Core) : (s.setCore c x).frzPort = s.frzPort := rfl
@[simp] theorem State.setCore_frzAddr (s : State) (c : Nat) (x : Core) : (s.setCore c x).frzAddr = s.frzAddr := rfl
@[simp] theorem State.setCore_rcvLen (s : State) (c : Nat) (x : Core) : (s.setCore c x).rcvLen = s.rcvLen := rfl
@[simp] theorem State.setCore_rcvBusy (s : State) (c : Nat) (x : Core) : (s.setCore c x).rcvBusy = s.rcvBusy := rfl
@[simp] theorem State.setCore_rcvResult (s : State) (c : Nat) (x : Core) : (s.setCore c x).rcvResult = s.rcvResult := rfl
@[simp] theorem State.setCore_links (s : State) (c : Nat) (x : Core) : (s.setCore c x).links = s.links := rfl
@[simp] theorem State.setCore_lseq (s : State) (c : Nat) (x : Core) : (s.setCore c x).lseq = s.lseq := rfl
@[simp] theorem State.setCore_image (s : State) (c : Nat) (x : Core) : (s.setCore c x).image = s.image := rfl
@[simp] theorem State.setCore_lmsIndex (s : State) (c : Nat) (x : Core) : (s.setCore c x).lmsIndex = s.lmsIndex := rfl
@[simp] theorem State.setCore_attKey (s : State) (c : Nat) (x : Core) : (s.setCore c x).attKey = s.attKey := rfl
@[simp] theorem State.setCore_hostLines (s : State) (c : Nat) (x : Core) : (s.setCore c x).hostLines = s.hostLines := rfl
@[simp] theorem State.setCore_hdmHeld (s : State) (c : Nat) (x : Core) : (s.setCore c x).hdmHeld = s.hdmHeld := rfl
@[simp] theorem State.setCore_guests (s : State) (c : Nat) (x : Core) : (s.setCore c x).guests = s.guests := rfl
@[simp] theorem State.setCore_fills (s : State) (c : Nat) (x : Core) : (s.setCore c x).fills = s.fills := rfl
@[simp] theorem State.setCore_invs (s : State) (c : Nat) (x : Core) : (s.setCore c x).invs = s.invs := rfl
@[simp] theorem State.setCore_clLines (s : State) (c : Nat) (x : Core) : (s.setCore c x).clLines = s.clLines := rfl
@[simp] theorem State.setCore_partials (s : State) (c : Nat) (x : Core) : (s.setCore c x).partials = s.partials := rfl
@[simp] theorem State.setCore_checks (s : State) (c : Nat) (x : Core) : (s.setCore c x).checks = s.checks := rfl
@[simp] theorem State.setCore_arrivals (s : State) (c : Nat) (x : Core) : (s.setCore c x).arrivals = s.arrivals := rfl
@[simp] theorem State.setCore_objDogs (s : State) (c : Nat) (x : Core) : (s.setCore c x).objDogs = s.objDogs := rfl
@[simp] theorem State.setCore_objFails (s : State) (c : Nat) (x : Core) : (s.setCore c x).objFails = s.objFails := rfl
@[simp] theorem State.setCore_later (s : State) (c : Nat) (x : Core) : (s.setCore c x).later = s.later := rfl
@[simp] theorem State.setCore_recWrites (s : State) (c : Nat) (x : Core) : (s.setCore c x).recWrites = s.recWrites := rfl
@[simp] theorem State.setCore_dieTlb (s : State) (c : Nat) (x : Core) : (s.setCore c x).dieTlb = s.dieTlb := rfl
@[simp] theorem State.setCore_ptrCache (s : State) (c : Nat) (x : Core) : (s.setCore c x).ptrCache = s.ptrCache := rfl
@[simp] theorem State.setCore_misses (s : State) (c : Nat) (x : Core) : (s.setCore c x).misses = s.misses := rfl
@[simp] theorem State.setCore_settling (s : State) (c : Nat) (x : Core) : (s.setCore c x).settling = s.settling := rfl
@[simp] theorem State.setCore_capLogs (s : State) (c : Nat) (x : Core) : (s.setCore c x).capLogs = s.capLogs := rfl
@[simp] theorem State.setCore_capVas (s : State) (c : Nat) (x : Core) : (s.setCore c x).capVas = s.capVas := rfl
@[simp] theorem State.setCore_putOff (s : State) (c : Nat) (x : Core) : (s.setCore c x).putOff = s.putOff := rfl
@[simp] theorem State.setCore_lastWin (s : State) (c : Nat) (x : Core) : (s.setCore c x).lastWin = s.lastWin := rfl
@[simp] theorem State.setCore_engines (s : State) (c : Nat) (x : Core) : (s.setCore c x).engines = s.engines := rfl
@[simp] theorem State.setCore_markings (s : State) (c : Nat) (x : Core) : (s.setCore c x).markings = s.markings := rfl
@[simp] theorem State.setCore_revoking (s : State) (c : Nat) (x : Core) : (s.setCore c x).revoking = s.revoking := rfl
@[simp] theorem State.setCore_heldCmd (s : State) (c : Nat) (x : Core) : (s.setCore c x).heldCmd = s.heldCmd := rfl
@[simp] theorem State.setCore_snapClk (s : State) (c : Nat) (x : Core) : (s.setCore c x).snapClk = s.snapClk := rfl
@[simp] theorem State.setCore_freeCtr (s : State) (c : Nat) (x : Core) : (s.setCore c x).freeCtr = s.freeCtr := rfl
@[simp] theorem State.setCore_bringUp (s : State) (c : Nat) (x : Core) : (s.setCore c x).bringUp = s.bringUp := rfl
@[simp] theorem State.setCore_devIndex (s : State) (c : Nat) (x : Core) : (s.setCore c x).devIndex = s.devIndex := rfl
@[simp] theorem State.setCore_powerClk (s : State) (c : Nat) (x : Core) : (s.setCore c x).powerClk = s.powerClk := rfl
@[simp] theorem State.setCore_stopRecs (s : State) (c : Nat) (x : Core) : (s.setCore c x).stopRecs = s.stopRecs := rfl
@[simp] theorem State.setCore_regWrites (s : State) (c : Nat) (x : Core) : (s.setCore c x).regWrites = s.regWrites := rfl
@[simp] theorem State.setCore_heldMsgs (s : State) (c : Nat) (x : Core) : (s.setCore c x).heldMsgs = s.heldMsgs := rfl
@[simp] theorem State.updCore_liveCd (s : State) (c : Nat) (f : Core → Core) : (s.updCore c f).liveCd = s.liveCd := rfl
@[simp] theorem State.updCore_liveXd (s : State) (c : Nat) (f : Core → Core) : (s.updCore c f).liveXd = s.liveXd := rfl
@[simp] theorem State.updCore_ready (s : State) (c : Nat) (f : Core → Core) : (s.updCore c f).ready = s.ready := rfl
@[simp] theorem State.updCore_recovery (s : State) (c : Nat) (f : Core → Core) : (s.updCore c f).recovery = s.recovery := rfl
@[simp] theorem State.updCore_calfail (s : State) (c : Nat) (f : Core → Core) : (s.updCore c f).calfail = s.calfail := rfl
@[simp] theorem State.updCore_throttle (s : State) (c : Nat) (f : Core → Core) : (s.updCore c f).throttle = s.throttle := rfl
@[simp] theorem State.updCore_stage (s : State) (c : Nat) (f : Core → Core) : (s.updCore c f).stage = s.stage := rfl
@[simp] theorem State.updCore_watts (s : State) (c : Nat) (f : Core → Core) : (s.updCore c f).watts = s.watts := rfl
@[simp] theorem State.updCore_mhz10 (s : State) (c : Nat) (f : Core → Core) : (s.updCore c f).mhz10 = s.mhz10 := rfl
@[simp] theorem State.updCore_ctxSts (s : State) (c : Nat) (f : Core → Core) : (s.updCore c f).ctxSts = s.ctxSts := rfl
@[simp] theorem State.updCore_qSts (s : State) (c : Nat) (f : Core → Core) : (s.updCore c f).qSts = s.qSts := rfl
@[simp] theorem State.updCore_tlbSts (s : State) (c : Nat) (f : Core → Core) : (s.updCore c f).tlbSts = s.tlbSts := rfl
@[simp] theorem State.updCore_dbgSts (s : State) (c : Nat) (f : Core → Core) : (s.updCore c f).dbgSts = s.dbgSts := rfl
@[simp] theorem State.updCore_dmaOvr (s : State) (c : Nat) (f : Core → Core) : (s.updCore c f).dmaOvr = s.dmaOvr := rfl
@[simp] theorem State.updCore_dmaEngine (s : State) (c : Nat) (f : Core → Core) : (s.updCore c f).dmaEngine = s.dmaEngine := rfl
@[simp] theorem State.updCore_frzDma (s : State) (c : Nat) (f : Core → Core) : (s.updCore c f).frzDma = s.frzDma := rfl
@[simp] theorem State.updCore_frzHost (s : State) (c : Nat) (f : Core → Core) : (s.updCore c f).frzHost = s.frzHost := rfl
@[simp] theorem State.updCore_frzPort (s : State) (c : Nat) (f : Core → Core) : (s.updCore c f).frzPort = s.frzPort := rfl
@[simp] theorem State.updCore_frzAddr (s : State) (c : Nat) (f : Core → Core) : (s.updCore c f).frzAddr = s.frzAddr := rfl
@[simp] theorem State.updCore_rcvLen (s : State) (c : Nat) (f : Core → Core) : (s.updCore c f).rcvLen = s.rcvLen := rfl
@[simp] theorem State.updCore_rcvBusy (s : State) (c : Nat) (f : Core → Core) : (s.updCore c f).rcvBusy = s.rcvBusy := rfl
@[simp] theorem State.updCore_rcvResult (s : State) (c : Nat) (f : Core → Core) : (s.updCore c f).rcvResult = s.rcvResult := rfl
@[simp] theorem State.updCore_links (s : State) (c : Nat) (f : Core → Core) : (s.updCore c f).links = s.links := rfl
@[simp] theorem State.updCore_lseq (s : State) (c : Nat) (f : Core → Core) : (s.updCore c f).lseq = s.lseq := rfl
@[simp] theorem State.updCore_image (s : State) (c : Nat) (f : Core → Core) : (s.updCore c f).image = s.image := rfl
@[simp] theorem State.updCore_lmsIndex (s : State) (c : Nat) (f : Core → Core) : (s.updCore c f).lmsIndex = s.lmsIndex := rfl
@[simp] theorem State.updCore_attKey (s : State) (c : Nat) (f : Core → Core) : (s.updCore c f).attKey = s.attKey := rfl
@[simp] theorem State.updCore_hostLines (s : State) (c : Nat) (f : Core → Core) : (s.updCore c f).hostLines = s.hostLines := rfl
@[simp] theorem State.updCore_hdmHeld (s : State) (c : Nat) (f : Core → Core) : (s.updCore c f).hdmHeld = s.hdmHeld := rfl
@[simp] theorem State.updCore_guests (s : State) (c : Nat) (f : Core → Core) : (s.updCore c f).guests = s.guests := rfl
@[simp] theorem State.updCore_fills (s : State) (c : Nat) (f : Core → Core) : (s.updCore c f).fills = s.fills := rfl
@[simp] theorem State.updCore_invs (s : State) (c : Nat) (f : Core → Core) : (s.updCore c f).invs = s.invs := rfl
@[simp] theorem State.updCore_clLines (s : State) (c : Nat) (f : Core → Core) : (s.updCore c f).clLines = s.clLines := rfl
@[simp] theorem State.updCore_partials (s : State) (c : Nat) (f : Core → Core) : (s.updCore c f).partials = s.partials := rfl
@[simp] theorem State.updCore_checks (s : State) (c : Nat) (f : Core → Core) : (s.updCore c f).checks = s.checks := rfl
@[simp] theorem State.updCore_arrivals (s : State) (c : Nat) (f : Core → Core) : (s.updCore c f).arrivals = s.arrivals := rfl
@[simp] theorem State.updCore_objDogs (s : State) (c : Nat) (f : Core → Core) : (s.updCore c f).objDogs = s.objDogs := rfl
@[simp] theorem State.updCore_objFails (s : State) (c : Nat) (f : Core → Core) : (s.updCore c f).objFails = s.objFails := rfl
@[simp] theorem State.updCore_later (s : State) (c : Nat) (f : Core → Core) : (s.updCore c f).later = s.later := rfl
@[simp] theorem State.updCore_recWrites (s : State) (c : Nat) (f : Core → Core) : (s.updCore c f).recWrites = s.recWrites := rfl
@[simp] theorem State.updCore_dieTlb (s : State) (c : Nat) (f : Core → Core) : (s.updCore c f).dieTlb = s.dieTlb := rfl
@[simp] theorem State.updCore_ptrCache (s : State) (c : Nat) (f : Core → Core) : (s.updCore c f).ptrCache = s.ptrCache := rfl
@[simp] theorem State.updCore_misses (s : State) (c : Nat) (f : Core → Core) : (s.updCore c f).misses = s.misses := rfl
@[simp] theorem State.updCore_settling (s : State) (c : Nat) (f : Core → Core) : (s.updCore c f).settling = s.settling := rfl
@[simp] theorem State.updCore_capLogs (s : State) (c : Nat) (f : Core → Core) : (s.updCore c f).capLogs = s.capLogs := rfl
@[simp] theorem State.updCore_capVas (s : State) (c : Nat) (f : Core → Core) : (s.updCore c f).capVas = s.capVas := rfl
@[simp] theorem State.updCore_putOff (s : State) (c : Nat) (f : Core → Core) : (s.updCore c f).putOff = s.putOff := rfl
@[simp] theorem State.updCore_lastWin (s : State) (c : Nat) (f : Core → Core) : (s.updCore c f).lastWin = s.lastWin := rfl
@[simp] theorem State.updCore_engines (s : State) (c : Nat) (f : Core → Core) : (s.updCore c f).engines = s.engines := rfl
@[simp] theorem State.updCore_markings (s : State) (c : Nat) (f : Core → Core) : (s.updCore c f).markings = s.markings := rfl
@[simp] theorem State.updCore_revoking (s : State) (c : Nat) (f : Core → Core) : (s.updCore c f).revoking = s.revoking := rfl
@[simp] theorem State.updCore_heldCmd (s : State) (c : Nat) (f : Core → Core) : (s.updCore c f).heldCmd = s.heldCmd := rfl
@[simp] theorem State.updCore_snapClk (s : State) (c : Nat) (f : Core → Core) : (s.updCore c f).snapClk = s.snapClk := rfl
@[simp] theorem State.updCore_freeCtr (s : State) (c : Nat) (f : Core → Core) : (s.updCore c f).freeCtr = s.freeCtr := rfl
@[simp] theorem State.updCore_bringUp (s : State) (c : Nat) (f : Core → Core) : (s.updCore c f).bringUp = s.bringUp := rfl
@[simp] theorem State.updCore_devIndex (s : State) (c : Nat) (f : Core → Core) : (s.updCore c f).devIndex = s.devIndex := rfl
@[simp] theorem State.updCore_powerClk (s : State) (c : Nat) (f : Core → Core) : (s.updCore c f).powerClk = s.powerClk := rfl
@[simp] theorem State.updCore_stopRecs (s : State) (c : Nat) (f : Core → Core) : (s.updCore c f).stopRecs = s.stopRecs := rfl
@[simp] theorem State.updCore_regWrites (s : State) (c : Nat) (f : Core → Core) : (s.updCore c f).regWrites = s.regWrites := rfl
@[simp] theorem State.updCore_heldMsgs (s : State) (c : Nat) (f : Core → Core) : (s.updCore c f).heldMsgs = s.heldMsgs := rfl
@[simp] theorem State.setCtx_liveCd (s : State) (c : Nat) (x : Ctx) : (s.setCtx c x).liveCd = s.liveCd := rfl
@[simp] theorem State.setCtx_liveXd (s : State) (c : Nat) (x : Ctx) : (s.setCtx c x).liveXd = s.liveXd := rfl
@[simp] theorem State.setCtx_ready (s : State) (c : Nat) (x : Ctx) : (s.setCtx c x).ready = s.ready := rfl
@[simp] theorem State.setCtx_recovery (s : State) (c : Nat) (x : Ctx) : (s.setCtx c x).recovery = s.recovery := rfl
@[simp] theorem State.setCtx_calfail (s : State) (c : Nat) (x : Ctx) : (s.setCtx c x).calfail = s.calfail := rfl
@[simp] theorem State.setCtx_throttle (s : State) (c : Nat) (x : Ctx) : (s.setCtx c x).throttle = s.throttle := rfl
@[simp] theorem State.setCtx_stage (s : State) (c : Nat) (x : Ctx) : (s.setCtx c x).stage = s.stage := rfl
@[simp] theorem State.setCtx_watts (s : State) (c : Nat) (x : Ctx) : (s.setCtx c x).watts = s.watts := rfl
@[simp] theorem State.setCtx_mhz10 (s : State) (c : Nat) (x : Ctx) : (s.setCtx c x).mhz10 = s.mhz10 := rfl
@[simp] theorem State.setCtx_ctxSts (s : State) (c : Nat) (x : Ctx) : (s.setCtx c x).ctxSts = s.ctxSts := rfl
@[simp] theorem State.setCtx_qSts (s : State) (c : Nat) (x : Ctx) : (s.setCtx c x).qSts = s.qSts := rfl
@[simp] theorem State.setCtx_tlbSts (s : State) (c : Nat) (x : Ctx) : (s.setCtx c x).tlbSts = s.tlbSts := rfl
@[simp] theorem State.setCtx_dbgSts (s : State) (c : Nat) (x : Ctx) : (s.setCtx c x).dbgSts = s.dbgSts := rfl
@[simp] theorem State.setCtx_dmaOvr (s : State) (c : Nat) (x : Ctx) : (s.setCtx c x).dmaOvr = s.dmaOvr := rfl
@[simp] theorem State.setCtx_dmaEngine (s : State) (c : Nat) (x : Ctx) : (s.setCtx c x).dmaEngine = s.dmaEngine := rfl
@[simp] theorem State.setCtx_frzDma (s : State) (c : Nat) (x : Ctx) : (s.setCtx c x).frzDma = s.frzDma := rfl
@[simp] theorem State.setCtx_frzHost (s : State) (c : Nat) (x : Ctx) : (s.setCtx c x).frzHost = s.frzHost := rfl
@[simp] theorem State.setCtx_frzPort (s : State) (c : Nat) (x : Ctx) : (s.setCtx c x).frzPort = s.frzPort := rfl
@[simp] theorem State.setCtx_frzAddr (s : State) (c : Nat) (x : Ctx) : (s.setCtx c x).frzAddr = s.frzAddr := rfl
@[simp] theorem State.setCtx_rcvLen (s : State) (c : Nat) (x : Ctx) : (s.setCtx c x).rcvLen = s.rcvLen := rfl
@[simp] theorem State.setCtx_rcvBusy (s : State) (c : Nat) (x : Ctx) : (s.setCtx c x).rcvBusy = s.rcvBusy := rfl
@[simp] theorem State.setCtx_rcvResult (s : State) (c : Nat) (x : Ctx) : (s.setCtx c x).rcvResult = s.rcvResult := rfl
@[simp] theorem State.setCtx_links (s : State) (c : Nat) (x : Ctx) : (s.setCtx c x).links = s.links := rfl
@[simp] theorem State.setCtx_lseq (s : State) (c : Nat) (x : Ctx) : (s.setCtx c x).lseq = s.lseq := rfl
@[simp] theorem State.setCtx_image (s : State) (c : Nat) (x : Ctx) : (s.setCtx c x).image = s.image := rfl
@[simp] theorem State.setCtx_lmsIndex (s : State) (c : Nat) (x : Ctx) : (s.setCtx c x).lmsIndex = s.lmsIndex := rfl
@[simp] theorem State.setCtx_attKey (s : State) (c : Nat) (x : Ctx) : (s.setCtx c x).attKey = s.attKey := rfl
@[simp] theorem State.setCtx_hostLines (s : State) (c : Nat) (x : Ctx) : (s.setCtx c x).hostLines = s.hostLines := rfl
@[simp] theorem State.setCtx_hdmHeld (s : State) (c : Nat) (x : Ctx) : (s.setCtx c x).hdmHeld = s.hdmHeld := rfl
@[simp] theorem State.setCtx_guests (s : State) (c : Nat) (x : Ctx) : (s.setCtx c x).guests = s.guests := rfl
@[simp] theorem State.setCtx_fills (s : State) (c : Nat) (x : Ctx) : (s.setCtx c x).fills = s.fills := rfl
@[simp] theorem State.setCtx_invs (s : State) (c : Nat) (x : Ctx) : (s.setCtx c x).invs = s.invs := rfl
@[simp] theorem State.setCtx_clLines (s : State) (c : Nat) (x : Ctx) : (s.setCtx c x).clLines = s.clLines := rfl
@[simp] theorem State.setCtx_partials (s : State) (c : Nat) (x : Ctx) : (s.setCtx c x).partials = s.partials := rfl
@[simp] theorem State.setCtx_checks (s : State) (c : Nat) (x : Ctx) : (s.setCtx c x).checks = s.checks := rfl
@[simp] theorem State.setCtx_arrivals (s : State) (c : Nat) (x : Ctx) : (s.setCtx c x).arrivals = s.arrivals := rfl
@[simp] theorem State.setCtx_objDogs (s : State) (c : Nat) (x : Ctx) : (s.setCtx c x).objDogs = s.objDogs := rfl
@[simp] theorem State.setCtx_objFails (s : State) (c : Nat) (x : Ctx) : (s.setCtx c x).objFails = s.objFails := rfl
@[simp] theorem State.setCtx_later (s : State) (c : Nat) (x : Ctx) : (s.setCtx c x).later = s.later := rfl
@[simp] theorem State.setCtx_recWrites (s : State) (c : Nat) (x : Ctx) : (s.setCtx c x).recWrites = s.recWrites := rfl
@[simp] theorem State.setCtx_dieTlb (s : State) (c : Nat) (x : Ctx) : (s.setCtx c x).dieTlb = s.dieTlb := rfl
@[simp] theorem State.setCtx_ptrCache (s : State) (c : Nat) (x : Ctx) : (s.setCtx c x).ptrCache = s.ptrCache := rfl
@[simp] theorem State.setCtx_misses (s : State) (c : Nat) (x : Ctx) : (s.setCtx c x).misses = s.misses := rfl
@[simp] theorem State.setCtx_settling (s : State) (c : Nat) (x : Ctx) : (s.setCtx c x).settling = s.settling := rfl
@[simp] theorem State.setCtx_capLogs (s : State) (c : Nat) (x : Ctx) : (s.setCtx c x).capLogs = s.capLogs := rfl
@[simp] theorem State.setCtx_capVas (s : State) (c : Nat) (x : Ctx) : (s.setCtx c x).capVas = s.capVas := rfl
@[simp] theorem State.setCtx_putOff (s : State) (c : Nat) (x : Ctx) : (s.setCtx c x).putOff = s.putOff := rfl
@[simp] theorem State.setCtx_lastWin (s : State) (c : Nat) (x : Ctx) : (s.setCtx c x).lastWin = s.lastWin := rfl
@[simp] theorem State.setCtx_engines (s : State) (c : Nat) (x : Ctx) : (s.setCtx c x).engines = s.engines := rfl
@[simp] theorem State.setCtx_markings (s : State) (c : Nat) (x : Ctx) : (s.setCtx c x).markings = s.markings := rfl
@[simp] theorem State.setCtx_revoking (s : State) (c : Nat) (x : Ctx) : (s.setCtx c x).revoking = s.revoking := rfl
@[simp] theorem State.setCtx_heldCmd (s : State) (c : Nat) (x : Ctx) : (s.setCtx c x).heldCmd = s.heldCmd := rfl
@[simp] theorem State.setCtx_snapClk (s : State) (c : Nat) (x : Ctx) : (s.setCtx c x).snapClk = s.snapClk := rfl
@[simp] theorem State.setCtx_freeCtr (s : State) (c : Nat) (x : Ctx) : (s.setCtx c x).freeCtr = s.freeCtr := rfl
@[simp] theorem State.setCtx_bringUp (s : State) (c : Nat) (x : Ctx) : (s.setCtx c x).bringUp = s.bringUp := rfl
@[simp] theorem State.setCtx_devIndex (s : State) (c : Nat) (x : Ctx) : (s.setCtx c x).devIndex = s.devIndex := rfl
@[simp] theorem State.setCtx_powerClk (s : State) (c : Nat) (x : Ctx) : (s.setCtx c x).powerClk = s.powerClk := rfl
@[simp] theorem State.setCtx_stopRecs (s : State) (c : Nat) (x : Ctx) : (s.setCtx c x).stopRecs = s.stopRecs := rfl
@[simp] theorem State.setCtx_regWrites (s : State) (c : Nat) (x : Ctx) : (s.setCtx c x).regWrites = s.regWrites := rfl
@[simp] theorem State.setCtx_heldMsgs (s : State) (c : Nat) (x : Ctx) : (s.setCtx c x).heldMsgs = s.heldMsgs := rfl
@[simp] theorem State.updCtx_liveCd (s : State) (c : Nat) (f : Ctx → Ctx) : (s.updCtx c f).liveCd = s.liveCd := rfl
@[simp] theorem State.updCtx_liveXd (s : State) (c : Nat) (f : Ctx → Ctx) : (s.updCtx c f).liveXd = s.liveXd := rfl
@[simp] theorem State.updCtx_ready (s : State) (c : Nat) (f : Ctx → Ctx) : (s.updCtx c f).ready = s.ready := rfl
@[simp] theorem State.updCtx_recovery (s : State) (c : Nat) (f : Ctx → Ctx) : (s.updCtx c f).recovery = s.recovery := rfl
@[simp] theorem State.updCtx_calfail (s : State) (c : Nat) (f : Ctx → Ctx) : (s.updCtx c f).calfail = s.calfail := rfl
@[simp] theorem State.updCtx_throttle (s : State) (c : Nat) (f : Ctx → Ctx) : (s.updCtx c f).throttle = s.throttle := rfl
@[simp] theorem State.updCtx_stage (s : State) (c : Nat) (f : Ctx → Ctx) : (s.updCtx c f).stage = s.stage := rfl
@[simp] theorem State.updCtx_watts (s : State) (c : Nat) (f : Ctx → Ctx) : (s.updCtx c f).watts = s.watts := rfl
@[simp] theorem State.updCtx_mhz10 (s : State) (c : Nat) (f : Ctx → Ctx) : (s.updCtx c f).mhz10 = s.mhz10 := rfl
@[simp] theorem State.updCtx_ctxSts (s : State) (c : Nat) (f : Ctx → Ctx) : (s.updCtx c f).ctxSts = s.ctxSts := rfl
@[simp] theorem State.updCtx_qSts (s : State) (c : Nat) (f : Ctx → Ctx) : (s.updCtx c f).qSts = s.qSts := rfl
@[simp] theorem State.updCtx_tlbSts (s : State) (c : Nat) (f : Ctx → Ctx) : (s.updCtx c f).tlbSts = s.tlbSts := rfl
@[simp] theorem State.updCtx_dbgSts (s : State) (c : Nat) (f : Ctx → Ctx) : (s.updCtx c f).dbgSts = s.dbgSts := rfl
@[simp] theorem State.updCtx_dmaOvr (s : State) (c : Nat) (f : Ctx → Ctx) : (s.updCtx c f).dmaOvr = s.dmaOvr := rfl
@[simp] theorem State.updCtx_dmaEngine (s : State) (c : Nat) (f : Ctx → Ctx) : (s.updCtx c f).dmaEngine = s.dmaEngine := rfl
@[simp] theorem State.updCtx_frzDma (s : State) (c : Nat) (f : Ctx → Ctx) : (s.updCtx c f).frzDma = s.frzDma := rfl
@[simp] theorem State.updCtx_frzHost (s : State) (c : Nat) (f : Ctx → Ctx) : (s.updCtx c f).frzHost = s.frzHost := rfl
@[simp] theorem State.updCtx_frzPort (s : State) (c : Nat) (f : Ctx → Ctx) : (s.updCtx c f).frzPort = s.frzPort := rfl
@[simp] theorem State.updCtx_frzAddr (s : State) (c : Nat) (f : Ctx → Ctx) : (s.updCtx c f).frzAddr = s.frzAddr := rfl
@[simp] theorem State.updCtx_rcvLen (s : State) (c : Nat) (f : Ctx → Ctx) : (s.updCtx c f).rcvLen = s.rcvLen := rfl
@[simp] theorem State.updCtx_rcvBusy (s : State) (c : Nat) (f : Ctx → Ctx) : (s.updCtx c f).rcvBusy = s.rcvBusy := rfl
@[simp] theorem State.updCtx_rcvResult (s : State) (c : Nat) (f : Ctx → Ctx) : (s.updCtx c f).rcvResult = s.rcvResult := rfl
@[simp] theorem State.updCtx_links (s : State) (c : Nat) (f : Ctx → Ctx) : (s.updCtx c f).links = s.links := rfl
@[simp] theorem State.updCtx_lseq (s : State) (c : Nat) (f : Ctx → Ctx) : (s.updCtx c f).lseq = s.lseq := rfl
@[simp] theorem State.updCtx_image (s : State) (c : Nat) (f : Ctx → Ctx) : (s.updCtx c f).image = s.image := rfl
@[simp] theorem State.updCtx_lmsIndex (s : State) (c : Nat) (f : Ctx → Ctx) : (s.updCtx c f).lmsIndex = s.lmsIndex := rfl
@[simp] theorem State.updCtx_attKey (s : State) (c : Nat) (f : Ctx → Ctx) : (s.updCtx c f).attKey = s.attKey := rfl
@[simp] theorem State.updCtx_hostLines (s : State) (c : Nat) (f : Ctx → Ctx) : (s.updCtx c f).hostLines = s.hostLines := rfl
@[simp] theorem State.updCtx_hdmHeld (s : State) (c : Nat) (f : Ctx → Ctx) : (s.updCtx c f).hdmHeld = s.hdmHeld := rfl
@[simp] theorem State.updCtx_guests (s : State) (c : Nat) (f : Ctx → Ctx) : (s.updCtx c f).guests = s.guests := rfl
@[simp] theorem State.updCtx_fills (s : State) (c : Nat) (f : Ctx → Ctx) : (s.updCtx c f).fills = s.fills := rfl
@[simp] theorem State.updCtx_invs (s : State) (c : Nat) (f : Ctx → Ctx) : (s.updCtx c f).invs = s.invs := rfl
@[simp] theorem State.updCtx_clLines (s : State) (c : Nat) (f : Ctx → Ctx) : (s.updCtx c f).clLines = s.clLines := rfl
@[simp] theorem State.updCtx_partials (s : State) (c : Nat) (f : Ctx → Ctx) : (s.updCtx c f).partials = s.partials := rfl
@[simp] theorem State.updCtx_checks (s : State) (c : Nat) (f : Ctx → Ctx) : (s.updCtx c f).checks = s.checks := rfl
@[simp] theorem State.updCtx_arrivals (s : State) (c : Nat) (f : Ctx → Ctx) : (s.updCtx c f).arrivals = s.arrivals := rfl
@[simp] theorem State.updCtx_objDogs (s : State) (c : Nat) (f : Ctx → Ctx) : (s.updCtx c f).objDogs = s.objDogs := rfl
@[simp] theorem State.updCtx_objFails (s : State) (c : Nat) (f : Ctx → Ctx) : (s.updCtx c f).objFails = s.objFails := rfl
@[simp] theorem State.updCtx_later (s : State) (c : Nat) (f : Ctx → Ctx) : (s.updCtx c f).later = s.later := rfl
@[simp] theorem State.updCtx_recWrites (s : State) (c : Nat) (f : Ctx → Ctx) : (s.updCtx c f).recWrites = s.recWrites := rfl
@[simp] theorem State.updCtx_dieTlb (s : State) (c : Nat) (f : Ctx → Ctx) : (s.updCtx c f).dieTlb = s.dieTlb := rfl
@[simp] theorem State.updCtx_ptrCache (s : State) (c : Nat) (f : Ctx → Ctx) : (s.updCtx c f).ptrCache = s.ptrCache := rfl
@[simp] theorem State.updCtx_misses (s : State) (c : Nat) (f : Ctx → Ctx) : (s.updCtx c f).misses = s.misses := rfl
@[simp] theorem State.updCtx_settling (s : State) (c : Nat) (f : Ctx → Ctx) : (s.updCtx c f).settling = s.settling := rfl
@[simp] theorem State.updCtx_capLogs (s : State) (c : Nat) (f : Ctx → Ctx) : (s.updCtx c f).capLogs = s.capLogs := rfl
@[simp] theorem State.updCtx_capVas (s : State) (c : Nat) (f : Ctx → Ctx) : (s.updCtx c f).capVas = s.capVas := rfl
@[simp] theorem State.updCtx_putOff (s : State) (c : Nat) (f : Ctx → Ctx) : (s.updCtx c f).putOff = s.putOff := rfl
@[simp] theorem State.updCtx_lastWin (s : State) (c : Nat) (f : Ctx → Ctx) : (s.updCtx c f).lastWin = s.lastWin := rfl
@[simp] theorem State.updCtx_engines (s : State) (c : Nat) (f : Ctx → Ctx) : (s.updCtx c f).engines = s.engines := rfl
@[simp] theorem State.updCtx_markings (s : State) (c : Nat) (f : Ctx → Ctx) : (s.updCtx c f).markings = s.markings := rfl
@[simp] theorem State.updCtx_revoking (s : State) (c : Nat) (f : Ctx → Ctx) : (s.updCtx c f).revoking = s.revoking := rfl
@[simp] theorem State.updCtx_heldCmd (s : State) (c : Nat) (f : Ctx → Ctx) : (s.updCtx c f).heldCmd = s.heldCmd := rfl
@[simp] theorem State.updCtx_snapClk (s : State) (c : Nat) (f : Ctx → Ctx) : (s.updCtx c f).snapClk = s.snapClk := rfl
@[simp] theorem State.updCtx_freeCtr (s : State) (c : Nat) (f : Ctx → Ctx) : (s.updCtx c f).freeCtr = s.freeCtr := rfl
@[simp] theorem State.updCtx_bringUp (s : State) (c : Nat) (f : Ctx → Ctx) : (s.updCtx c f).bringUp = s.bringUp := rfl
@[simp] theorem State.updCtx_devIndex (s : State) (c : Nat) (f : Ctx → Ctx) : (s.updCtx c f).devIndex = s.devIndex := rfl
@[simp] theorem State.updCtx_powerClk (s : State) (c : Nat) (f : Ctx → Ctx) : (s.updCtx c f).powerClk = s.powerClk := rfl
@[simp] theorem State.updCtx_stopRecs (s : State) (c : Nat) (f : Ctx → Ctx) : (s.updCtx c f).stopRecs = s.stopRecs := rfl
@[simp] theorem State.updCtx_regWrites (s : State) (c : Nat) (f : Ctx → Ctx) : (s.updCtx c f).regWrites = s.regWrites := rfl
@[simp] theorem State.updCtx_heldMsgs (s : State) (c : Nat) (f : Ctx → Ctx) : (s.updCtx c f).heldMsgs = s.heldMsgs := rfl
@[simp] theorem State.setQueue_liveCd (s : State) (q : Nat) (x : Queue) : (s.setQueue q x).liveCd = s.liveCd := rfl
@[simp] theorem State.setQueue_liveXd (s : State) (q : Nat) (x : Queue) : (s.setQueue q x).liveXd = s.liveXd := rfl
@[simp] theorem State.setQueue_ready (s : State) (q : Nat) (x : Queue) : (s.setQueue q x).ready = s.ready := rfl
@[simp] theorem State.setQueue_recovery (s : State) (q : Nat) (x : Queue) : (s.setQueue q x).recovery = s.recovery := rfl
@[simp] theorem State.setQueue_calfail (s : State) (q : Nat) (x : Queue) : (s.setQueue q x).calfail = s.calfail := rfl
@[simp] theorem State.setQueue_throttle (s : State) (q : Nat) (x : Queue) : (s.setQueue q x).throttle = s.throttle := rfl
@[simp] theorem State.setQueue_stage (s : State) (q : Nat) (x : Queue) : (s.setQueue q x).stage = s.stage := rfl
@[simp] theorem State.setQueue_watts (s : State) (q : Nat) (x : Queue) : (s.setQueue q x).watts = s.watts := rfl
@[simp] theorem State.setQueue_mhz10 (s : State) (q : Nat) (x : Queue) : (s.setQueue q x).mhz10 = s.mhz10 := rfl
@[simp] theorem State.setQueue_ctxSts (s : State) (q : Nat) (x : Queue) : (s.setQueue q x).ctxSts = s.ctxSts := rfl
@[simp] theorem State.setQueue_qSts (s : State) (q : Nat) (x : Queue) : (s.setQueue q x).qSts = s.qSts := rfl
@[simp] theorem State.setQueue_tlbSts (s : State) (q : Nat) (x : Queue) : (s.setQueue q x).tlbSts = s.tlbSts := rfl
@[simp] theorem State.setQueue_dbgSts (s : State) (q : Nat) (x : Queue) : (s.setQueue q x).dbgSts = s.dbgSts := rfl
@[simp] theorem State.setQueue_dmaOvr (s : State) (q : Nat) (x : Queue) : (s.setQueue q x).dmaOvr = s.dmaOvr := rfl
@[simp] theorem State.setQueue_dmaEngine (s : State) (q : Nat) (x : Queue) : (s.setQueue q x).dmaEngine = s.dmaEngine := rfl
@[simp] theorem State.setQueue_frzDma (s : State) (q : Nat) (x : Queue) : (s.setQueue q x).frzDma = s.frzDma := rfl
@[simp] theorem State.setQueue_frzHost (s : State) (q : Nat) (x : Queue) : (s.setQueue q x).frzHost = s.frzHost := rfl
@[simp] theorem State.setQueue_frzPort (s : State) (q : Nat) (x : Queue) : (s.setQueue q x).frzPort = s.frzPort := rfl
@[simp] theorem State.setQueue_frzAddr (s : State) (q : Nat) (x : Queue) : (s.setQueue q x).frzAddr = s.frzAddr := rfl
@[simp] theorem State.setQueue_rcvLen (s : State) (q : Nat) (x : Queue) : (s.setQueue q x).rcvLen = s.rcvLen := rfl
@[simp] theorem State.setQueue_rcvBusy (s : State) (q : Nat) (x : Queue) : (s.setQueue q x).rcvBusy = s.rcvBusy := rfl
@[simp] theorem State.setQueue_rcvResult (s : State) (q : Nat) (x : Queue) : (s.setQueue q x).rcvResult = s.rcvResult := rfl
@[simp] theorem State.setQueue_links (s : State) (q : Nat) (x : Queue) : (s.setQueue q x).links = s.links := rfl
@[simp] theorem State.setQueue_lseq (s : State) (q : Nat) (x : Queue) : (s.setQueue q x).lseq = s.lseq := rfl
@[simp] theorem State.setQueue_image (s : State) (q : Nat) (x : Queue) : (s.setQueue q x).image = s.image := rfl
@[simp] theorem State.setQueue_lmsIndex (s : State) (q : Nat) (x : Queue) : (s.setQueue q x).lmsIndex = s.lmsIndex := rfl
@[simp] theorem State.setQueue_attKey (s : State) (q : Nat) (x : Queue) : (s.setQueue q x).attKey = s.attKey := rfl
@[simp] theorem State.setQueue_hostLines (s : State) (q : Nat) (x : Queue) : (s.setQueue q x).hostLines = s.hostLines := rfl
@[simp] theorem State.setQueue_hdmHeld (s : State) (q : Nat) (x : Queue) : (s.setQueue q x).hdmHeld = s.hdmHeld := rfl
@[simp] theorem State.setQueue_guests (s : State) (q : Nat) (x : Queue) : (s.setQueue q x).guests = s.guests := rfl
@[simp] theorem State.setQueue_fills (s : State) (q : Nat) (x : Queue) : (s.setQueue q x).fills = s.fills := rfl
@[simp] theorem State.setQueue_invs (s : State) (q : Nat) (x : Queue) : (s.setQueue q x).invs = s.invs := rfl
@[simp] theorem State.setQueue_clLines (s : State) (q : Nat) (x : Queue) : (s.setQueue q x).clLines = s.clLines := rfl
@[simp] theorem State.setQueue_partials (s : State) (q : Nat) (x : Queue) : (s.setQueue q x).partials = s.partials := rfl
@[simp] theorem State.setQueue_checks (s : State) (q : Nat) (x : Queue) : (s.setQueue q x).checks = s.checks := rfl
@[simp] theorem State.setQueue_arrivals (s : State) (q : Nat) (x : Queue) : (s.setQueue q x).arrivals = s.arrivals := rfl
@[simp] theorem State.setQueue_objDogs (s : State) (q : Nat) (x : Queue) : (s.setQueue q x).objDogs = s.objDogs := rfl
@[simp] theorem State.setQueue_objFails (s : State) (q : Nat) (x : Queue) : (s.setQueue q x).objFails = s.objFails := rfl
@[simp] theorem State.setQueue_later (s : State) (q : Nat) (x : Queue) : (s.setQueue q x).later = s.later := rfl
@[simp] theorem State.setQueue_recWrites (s : State) (q : Nat) (x : Queue) : (s.setQueue q x).recWrites = s.recWrites := rfl
@[simp] theorem State.setQueue_dieTlb (s : State) (q : Nat) (x : Queue) : (s.setQueue q x).dieTlb = s.dieTlb := rfl
@[simp] theorem State.setQueue_ptrCache (s : State) (q : Nat) (x : Queue) : (s.setQueue q x).ptrCache = s.ptrCache := rfl
@[simp] theorem State.setQueue_misses (s : State) (q : Nat) (x : Queue) : (s.setQueue q x).misses = s.misses := rfl
@[simp] theorem State.setQueue_settling (s : State) (q : Nat) (x : Queue) : (s.setQueue q x).settling = s.settling := rfl
@[simp] theorem State.setQueue_capLogs (s : State) (q : Nat) (x : Queue) : (s.setQueue q x).capLogs = s.capLogs := rfl
@[simp] theorem State.setQueue_capVas (s : State) (q : Nat) (x : Queue) : (s.setQueue q x).capVas = s.capVas := rfl
@[simp] theorem State.setQueue_putOff (s : State) (q : Nat) (x : Queue) : (s.setQueue q x).putOff = s.putOff := rfl
@[simp] theorem State.setQueue_lastWin (s : State) (q : Nat) (x : Queue) : (s.setQueue q x).lastWin = s.lastWin := rfl
@[simp] theorem State.setQueue_engines (s : State) (q : Nat) (x : Queue) : (s.setQueue q x).engines = s.engines := rfl
@[simp] theorem State.setQueue_markings (s : State) (q : Nat) (x : Queue) : (s.setQueue q x).markings = s.markings := rfl
@[simp] theorem State.setQueue_revoking (s : State) (q : Nat) (x : Queue) : (s.setQueue q x).revoking = s.revoking := rfl
@[simp] theorem State.setQueue_heldCmd (s : State) (q : Nat) (x : Queue) : (s.setQueue q x).heldCmd = s.heldCmd := rfl
@[simp] theorem State.setQueue_snapClk (s : State) (q : Nat) (x : Queue) : (s.setQueue q x).snapClk = s.snapClk := rfl
@[simp] theorem State.setQueue_freeCtr (s : State) (q : Nat) (x : Queue) : (s.setQueue q x).freeCtr = s.freeCtr := rfl
@[simp] theorem State.setQueue_bringUp (s : State) (q : Nat) (x : Queue) : (s.setQueue q x).bringUp = s.bringUp := rfl
@[simp] theorem State.setQueue_devIndex (s : State) (q : Nat) (x : Queue) : (s.setQueue q x).devIndex = s.devIndex := rfl
@[simp] theorem State.setQueue_powerClk (s : State) (q : Nat) (x : Queue) : (s.setQueue q x).powerClk = s.powerClk := rfl
@[simp] theorem State.setQueue_stopRecs (s : State) (q : Nat) (x : Queue) : (s.setQueue q x).stopRecs = s.stopRecs := rfl
@[simp] theorem State.setQueue_regWrites (s : State) (q : Nat) (x : Queue) : (s.setQueue q x).regWrites = s.regWrites := rfl
@[simp] theorem State.setQueue_heldMsgs (s : State) (q : Nat) (x : Queue) : (s.setQueue q x).heldMsgs = s.heldMsgs := rfl
@[simp] theorem State.setDie_liveCd (s : State) (d : Nat) (x : Die) : (s.setDie d x).liveCd = s.liveCd := rfl
@[simp] theorem State.setDie_liveXd (s : State) (d : Nat) (x : Die) : (s.setDie d x).liveXd = s.liveXd := rfl
@[simp] theorem State.setDie_ready (s : State) (d : Nat) (x : Die) : (s.setDie d x).ready = s.ready := rfl
@[simp] theorem State.setDie_recovery (s : State) (d : Nat) (x : Die) : (s.setDie d x).recovery = s.recovery := rfl
@[simp] theorem State.setDie_calfail (s : State) (d : Nat) (x : Die) : (s.setDie d x).calfail = s.calfail := rfl
@[simp] theorem State.setDie_throttle (s : State) (d : Nat) (x : Die) : (s.setDie d x).throttle = s.throttle := rfl
@[simp] theorem State.setDie_stage (s : State) (d : Nat) (x : Die) : (s.setDie d x).stage = s.stage := rfl
@[simp] theorem State.setDie_watts (s : State) (d : Nat) (x : Die) : (s.setDie d x).watts = s.watts := rfl
@[simp] theorem State.setDie_mhz10 (s : State) (d : Nat) (x : Die) : (s.setDie d x).mhz10 = s.mhz10 := rfl
@[simp] theorem State.setDie_ctxSts (s : State) (d : Nat) (x : Die) : (s.setDie d x).ctxSts = s.ctxSts := rfl
@[simp] theorem State.setDie_qSts (s : State) (d : Nat) (x : Die) : (s.setDie d x).qSts = s.qSts := rfl
@[simp] theorem State.setDie_tlbSts (s : State) (d : Nat) (x : Die) : (s.setDie d x).tlbSts = s.tlbSts := rfl
@[simp] theorem State.setDie_dbgSts (s : State) (d : Nat) (x : Die) : (s.setDie d x).dbgSts = s.dbgSts := rfl
@[simp] theorem State.setDie_dmaOvr (s : State) (d : Nat) (x : Die) : (s.setDie d x).dmaOvr = s.dmaOvr := rfl
@[simp] theorem State.setDie_dmaEngine (s : State) (d : Nat) (x : Die) : (s.setDie d x).dmaEngine = s.dmaEngine := rfl
@[simp] theorem State.setDie_frzDma (s : State) (d : Nat) (x : Die) : (s.setDie d x).frzDma = s.frzDma := rfl
@[simp] theorem State.setDie_frzHost (s : State) (d : Nat) (x : Die) : (s.setDie d x).frzHost = s.frzHost := rfl
@[simp] theorem State.setDie_frzPort (s : State) (d : Nat) (x : Die) : (s.setDie d x).frzPort = s.frzPort := rfl
@[simp] theorem State.setDie_frzAddr (s : State) (d : Nat) (x : Die) : (s.setDie d x).frzAddr = s.frzAddr := rfl
@[simp] theorem State.setDie_rcvLen (s : State) (d : Nat) (x : Die) : (s.setDie d x).rcvLen = s.rcvLen := rfl
@[simp] theorem State.setDie_rcvBusy (s : State) (d : Nat) (x : Die) : (s.setDie d x).rcvBusy = s.rcvBusy := rfl
@[simp] theorem State.setDie_rcvResult (s : State) (d : Nat) (x : Die) : (s.setDie d x).rcvResult = s.rcvResult := rfl
@[simp] theorem State.setDie_links (s : State) (d : Nat) (x : Die) : (s.setDie d x).links = s.links := rfl
@[simp] theorem State.setDie_lseq (s : State) (d : Nat) (x : Die) : (s.setDie d x).lseq = s.lseq := rfl
@[simp] theorem State.setDie_image (s : State) (d : Nat) (x : Die) : (s.setDie d x).image = s.image := rfl
@[simp] theorem State.setDie_lmsIndex (s : State) (d : Nat) (x : Die) : (s.setDie d x).lmsIndex = s.lmsIndex := rfl
@[simp] theorem State.setDie_attKey (s : State) (d : Nat) (x : Die) : (s.setDie d x).attKey = s.attKey := rfl
@[simp] theorem State.setDie_hostLines (s : State) (d : Nat) (x : Die) : (s.setDie d x).hostLines = s.hostLines := rfl
@[simp] theorem State.setDie_hdmHeld (s : State) (d : Nat) (x : Die) : (s.setDie d x).hdmHeld = s.hdmHeld := rfl
@[simp] theorem State.setDie_guests (s : State) (d : Nat) (x : Die) : (s.setDie d x).guests = s.guests := rfl
@[simp] theorem State.setDie_fills (s : State) (d : Nat) (x : Die) : (s.setDie d x).fills = s.fills := rfl
@[simp] theorem State.setDie_invs (s : State) (d : Nat) (x : Die) : (s.setDie d x).invs = s.invs := rfl
@[simp] theorem State.setDie_clLines (s : State) (d : Nat) (x : Die) : (s.setDie d x).clLines = s.clLines := rfl
@[simp] theorem State.setDie_partials (s : State) (d : Nat) (x : Die) : (s.setDie d x).partials = s.partials := rfl
@[simp] theorem State.setDie_checks (s : State) (d : Nat) (x : Die) : (s.setDie d x).checks = s.checks := rfl
@[simp] theorem State.setDie_arrivals (s : State) (d : Nat) (x : Die) : (s.setDie d x).arrivals = s.arrivals := rfl
@[simp] theorem State.setDie_objDogs (s : State) (d : Nat) (x : Die) : (s.setDie d x).objDogs = s.objDogs := rfl
@[simp] theorem State.setDie_objFails (s : State) (d : Nat) (x : Die) : (s.setDie d x).objFails = s.objFails := rfl
@[simp] theorem State.setDie_later (s : State) (d : Nat) (x : Die) : (s.setDie d x).later = s.later := rfl
@[simp] theorem State.setDie_recWrites (s : State) (d : Nat) (x : Die) : (s.setDie d x).recWrites = s.recWrites := rfl
@[simp] theorem State.setDie_dieTlb (s : State) (d : Nat) (x : Die) : (s.setDie d x).dieTlb = s.dieTlb := rfl
@[simp] theorem State.setDie_ptrCache (s : State) (d : Nat) (x : Die) : (s.setDie d x).ptrCache = s.ptrCache := rfl
@[simp] theorem State.setDie_misses (s : State) (d : Nat) (x : Die) : (s.setDie d x).misses = s.misses := rfl
@[simp] theorem State.setDie_settling (s : State) (d : Nat) (x : Die) : (s.setDie d x).settling = s.settling := rfl
@[simp] theorem State.setDie_capLogs (s : State) (d : Nat) (x : Die) : (s.setDie d x).capLogs = s.capLogs := rfl
@[simp] theorem State.setDie_capVas (s : State) (d : Nat) (x : Die) : (s.setDie d x).capVas = s.capVas := rfl
@[simp] theorem State.setDie_putOff (s : State) (d : Nat) (x : Die) : (s.setDie d x).putOff = s.putOff := rfl
@[simp] theorem State.setDie_lastWin (s : State) (d : Nat) (x : Die) : (s.setDie d x).lastWin = s.lastWin := rfl
@[simp] theorem State.setDie_engines (s : State) (d : Nat) (x : Die) : (s.setDie d x).engines = s.engines := rfl
@[simp] theorem State.setDie_markings (s : State) (d : Nat) (x : Die) : (s.setDie d x).markings = s.markings := rfl
@[simp] theorem State.setDie_revoking (s : State) (d : Nat) (x : Die) : (s.setDie d x).revoking = s.revoking := rfl
@[simp] theorem State.setDie_heldCmd (s : State) (d : Nat) (x : Die) : (s.setDie d x).heldCmd = s.heldCmd := rfl
@[simp] theorem State.setDie_snapClk (s : State) (d : Nat) (x : Die) : (s.setDie d x).snapClk = s.snapClk := rfl
@[simp] theorem State.setDie_freeCtr (s : State) (d : Nat) (x : Die) : (s.setDie d x).freeCtr = s.freeCtr := rfl
@[simp] theorem State.setDie_bringUp (s : State) (d : Nat) (x : Die) : (s.setDie d x).bringUp = s.bringUp := rfl
@[simp] theorem State.setDie_devIndex (s : State) (d : Nat) (x : Die) : (s.setDie d x).devIndex = s.devIndex := rfl
@[simp] theorem State.setDie_powerClk (s : State) (d : Nat) (x : Die) : (s.setDie d x).powerClk = s.powerClk := rfl
@[simp] theorem State.setDie_stopRecs (s : State) (d : Nat) (x : Die) : (s.setDie d x).stopRecs = s.stopRecs := rfl
@[simp] theorem State.setDie_regWrites (s : State) (d : Nat) (x : Die) : (s.setDie d x).regWrites = s.regWrites := rfl
@[simp] theorem State.setDie_heldMsgs (s : State) (d : Nat) (x : Die) : (s.setDie d x).heldMsgs = s.heldMsgs := rfl
@[simp] theorem State.setReg_liveCd (s : State) (o : Nat) (v : BitVec 64) : (s.setReg o v).liveCd = s.liveCd := rfl
@[simp] theorem State.setReg_liveXd (s : State) (o : Nat) (v : BitVec 64) : (s.setReg o v).liveXd = s.liveXd := rfl
@[simp] theorem State.setReg_ready (s : State) (o : Nat) (v : BitVec 64) : (s.setReg o v).ready = s.ready := rfl
@[simp] theorem State.setReg_recovery (s : State) (o : Nat) (v : BitVec 64) : (s.setReg o v).recovery = s.recovery := rfl
@[simp] theorem State.setReg_calfail (s : State) (o : Nat) (v : BitVec 64) : (s.setReg o v).calfail = s.calfail := rfl
@[simp] theorem State.setReg_throttle (s : State) (o : Nat) (v : BitVec 64) : (s.setReg o v).throttle = s.throttle := rfl
@[simp] theorem State.setReg_stage (s : State) (o : Nat) (v : BitVec 64) : (s.setReg o v).stage = s.stage := rfl
@[simp] theorem State.setReg_watts (s : State) (o : Nat) (v : BitVec 64) : (s.setReg o v).watts = s.watts := rfl
@[simp] theorem State.setReg_mhz10 (s : State) (o : Nat) (v : BitVec 64) : (s.setReg o v).mhz10 = s.mhz10 := rfl
@[simp] theorem State.setReg_ctxSts (s : State) (o : Nat) (v : BitVec 64) : (s.setReg o v).ctxSts = s.ctxSts := rfl
@[simp] theorem State.setReg_qSts (s : State) (o : Nat) (v : BitVec 64) : (s.setReg o v).qSts = s.qSts := rfl
@[simp] theorem State.setReg_tlbSts (s : State) (o : Nat) (v : BitVec 64) : (s.setReg o v).tlbSts = s.tlbSts := rfl
@[simp] theorem State.setReg_dbgSts (s : State) (o : Nat) (v : BitVec 64) : (s.setReg o v).dbgSts = s.dbgSts := rfl
@[simp] theorem State.setReg_dmaOvr (s : State) (o : Nat) (v : BitVec 64) : (s.setReg o v).dmaOvr = s.dmaOvr := rfl
@[simp] theorem State.setReg_dmaEngine (s : State) (o : Nat) (v : BitVec 64) : (s.setReg o v).dmaEngine = s.dmaEngine := rfl
@[simp] theorem State.setReg_frzDma (s : State) (o : Nat) (v : BitVec 64) : (s.setReg o v).frzDma = s.frzDma := rfl
@[simp] theorem State.setReg_frzHost (s : State) (o : Nat) (v : BitVec 64) : (s.setReg o v).frzHost = s.frzHost := rfl
@[simp] theorem State.setReg_frzPort (s : State) (o : Nat) (v : BitVec 64) : (s.setReg o v).frzPort = s.frzPort := rfl
@[simp] theorem State.setReg_frzAddr (s : State) (o : Nat) (v : BitVec 64) : (s.setReg o v).frzAddr = s.frzAddr := rfl
@[simp] theorem State.setReg_rcvLen (s : State) (o : Nat) (v : BitVec 64) : (s.setReg o v).rcvLen = s.rcvLen := rfl
@[simp] theorem State.setReg_rcvBusy (s : State) (o : Nat) (v : BitVec 64) : (s.setReg o v).rcvBusy = s.rcvBusy := rfl
@[simp] theorem State.setReg_rcvResult (s : State) (o : Nat) (v : BitVec 64) : (s.setReg o v).rcvResult = s.rcvResult := rfl
@[simp] theorem State.setReg_links (s : State) (o : Nat) (v : BitVec 64) : (s.setReg o v).links = s.links := rfl
@[simp] theorem State.setReg_lseq (s : State) (o : Nat) (v : BitVec 64) : (s.setReg o v).lseq = s.lseq := rfl
@[simp] theorem State.setReg_image (s : State) (o : Nat) (v : BitVec 64) : (s.setReg o v).image = s.image := rfl
@[simp] theorem State.setReg_lmsIndex (s : State) (o : Nat) (v : BitVec 64) : (s.setReg o v).lmsIndex = s.lmsIndex := rfl
@[simp] theorem State.setReg_attKey (s : State) (o : Nat) (v : BitVec 64) : (s.setReg o v).attKey = s.attKey := rfl
@[simp] theorem State.setReg_hostLines (s : State) (o : Nat) (v : BitVec 64) : (s.setReg o v).hostLines = s.hostLines := rfl
@[simp] theorem State.setReg_hdmHeld (s : State) (o : Nat) (v : BitVec 64) : (s.setReg o v).hdmHeld = s.hdmHeld := rfl
@[simp] theorem State.setReg_guests (s : State) (o : Nat) (v : BitVec 64) : (s.setReg o v).guests = s.guests := rfl
@[simp] theorem State.setReg_fills (s : State) (o : Nat) (v : BitVec 64) : (s.setReg o v).fills = s.fills := rfl
@[simp] theorem State.setReg_invs (s : State) (o : Nat) (v : BitVec 64) : (s.setReg o v).invs = s.invs := rfl
@[simp] theorem State.setReg_clLines (s : State) (o : Nat) (v : BitVec 64) : (s.setReg o v).clLines = s.clLines := rfl
@[simp] theorem State.setReg_partials (s : State) (o : Nat) (v : BitVec 64) : (s.setReg o v).partials = s.partials := rfl
@[simp] theorem State.setReg_checks (s : State) (o : Nat) (v : BitVec 64) : (s.setReg o v).checks = s.checks := rfl
@[simp] theorem State.setReg_arrivals (s : State) (o : Nat) (v : BitVec 64) : (s.setReg o v).arrivals = s.arrivals := rfl
@[simp] theorem State.setReg_objDogs (s : State) (o : Nat) (v : BitVec 64) : (s.setReg o v).objDogs = s.objDogs := rfl
@[simp] theorem State.setReg_objFails (s : State) (o : Nat) (v : BitVec 64) : (s.setReg o v).objFails = s.objFails := rfl
@[simp] theorem State.setReg_later (s : State) (o : Nat) (v : BitVec 64) : (s.setReg o v).later = s.later := rfl
@[simp] theorem State.setReg_recWrites (s : State) (o : Nat) (v : BitVec 64) : (s.setReg o v).recWrites = s.recWrites := rfl
@[simp] theorem State.setReg_dieTlb (s : State) (o : Nat) (v : BitVec 64) : (s.setReg o v).dieTlb = s.dieTlb := rfl
@[simp] theorem State.setReg_ptrCache (s : State) (o : Nat) (v : BitVec 64) : (s.setReg o v).ptrCache = s.ptrCache := rfl
@[simp] theorem State.setReg_misses (s : State) (o : Nat) (v : BitVec 64) : (s.setReg o v).misses = s.misses := rfl
@[simp] theorem State.setReg_settling (s : State) (o : Nat) (v : BitVec 64) : (s.setReg o v).settling = s.settling := rfl
@[simp] theorem State.setReg_capLogs (s : State) (o : Nat) (v : BitVec 64) : (s.setReg o v).capLogs = s.capLogs := rfl
@[simp] theorem State.setReg_capVas (s : State) (o : Nat) (v : BitVec 64) : (s.setReg o v).capVas = s.capVas := rfl
@[simp] theorem State.setReg_putOff (s : State) (o : Nat) (v : BitVec 64) : (s.setReg o v).putOff = s.putOff := rfl
@[simp] theorem State.setReg_lastWin (s : State) (o : Nat) (v : BitVec 64) : (s.setReg o v).lastWin = s.lastWin := rfl
@[simp] theorem State.setReg_engines (s : State) (o : Nat) (v : BitVec 64) : (s.setReg o v).engines = s.engines := rfl
@[simp] theorem State.setReg_markings (s : State) (o : Nat) (v : BitVec 64) : (s.setReg o v).markings = s.markings := rfl
@[simp] theorem State.setReg_revoking (s : State) (o : Nat) (v : BitVec 64) : (s.setReg o v).revoking = s.revoking := rfl
@[simp] theorem State.setReg_heldCmd (s : State) (o : Nat) (v : BitVec 64) : (s.setReg o v).heldCmd = s.heldCmd := rfl
@[simp] theorem State.setReg_snapClk (s : State) (o : Nat) (v : BitVec 64) : (s.setReg o v).snapClk = s.snapClk := rfl
@[simp] theorem State.setReg_freeCtr (s : State) (o : Nat) (v : BitVec 64) : (s.setReg o v).freeCtr = s.freeCtr := rfl
@[simp] theorem State.setReg_bringUp (s : State) (o : Nat) (v : BitVec 64) : (s.setReg o v).bringUp = s.bringUp := rfl
@[simp] theorem State.setReg_devIndex (s : State) (o : Nat) (v : BitVec 64) : (s.setReg o v).devIndex = s.devIndex := rfl
@[simp] theorem State.setReg_powerClk (s : State) (o : Nat) (v : BitVec 64) : (s.setReg o v).powerClk = s.powerClk := rfl
@[simp] theorem State.setReg_stopRecs (s : State) (o : Nat) (v : BitVec 64) : (s.setReg o v).stopRecs = s.stopRecs := rfl
@[simp] theorem State.setReg_regWrites (s : State) (o : Nat) (v : BitVec 64) : (s.setReg o v).regWrites = s.regWrites := rfl
@[simp] theorem State.setReg_heldMsgs (s : State) (o : Nat) (v : BitVec 64) : (s.setReg o v).heldMsgs = s.heldMsgs := rfl
@[simp] theorem State.updBlk_liveCd (s : State) (b : Nat) (f : Block → Block) : (s.updBlk b f).liveCd = s.liveCd := rfl
@[simp] theorem State.updBlk_liveXd (s : State) (b : Nat) (f : Block → Block) : (s.updBlk b f).liveXd = s.liveXd := rfl
@[simp] theorem State.updBlk_ready (s : State) (b : Nat) (f : Block → Block) : (s.updBlk b f).ready = s.ready := rfl
@[simp] theorem State.updBlk_recovery (s : State) (b : Nat) (f : Block → Block) : (s.updBlk b f).recovery = s.recovery := rfl
@[simp] theorem State.updBlk_calfail (s : State) (b : Nat) (f : Block → Block) : (s.updBlk b f).calfail = s.calfail := rfl
@[simp] theorem State.updBlk_throttle (s : State) (b : Nat) (f : Block → Block) : (s.updBlk b f).throttle = s.throttle := rfl
@[simp] theorem State.updBlk_stage (s : State) (b : Nat) (f : Block → Block) : (s.updBlk b f).stage = s.stage := rfl
@[simp] theorem State.updBlk_watts (s : State) (b : Nat) (f : Block → Block) : (s.updBlk b f).watts = s.watts := rfl
@[simp] theorem State.updBlk_mhz10 (s : State) (b : Nat) (f : Block → Block) : (s.updBlk b f).mhz10 = s.mhz10 := rfl
@[simp] theorem State.updBlk_ctxSts (s : State) (b : Nat) (f : Block → Block) : (s.updBlk b f).ctxSts = s.ctxSts := rfl
@[simp] theorem State.updBlk_qSts (s : State) (b : Nat) (f : Block → Block) : (s.updBlk b f).qSts = s.qSts := rfl
@[simp] theorem State.updBlk_tlbSts (s : State) (b : Nat) (f : Block → Block) : (s.updBlk b f).tlbSts = s.tlbSts := rfl
@[simp] theorem State.updBlk_dbgSts (s : State) (b : Nat) (f : Block → Block) : (s.updBlk b f).dbgSts = s.dbgSts := rfl
@[simp] theorem State.updBlk_dmaOvr (s : State) (b : Nat) (f : Block → Block) : (s.updBlk b f).dmaOvr = s.dmaOvr := rfl
@[simp] theorem State.updBlk_dmaEngine (s : State) (b : Nat) (f : Block → Block) : (s.updBlk b f).dmaEngine = s.dmaEngine := rfl
@[simp] theorem State.updBlk_frzDma (s : State) (b : Nat) (f : Block → Block) : (s.updBlk b f).frzDma = s.frzDma := rfl
@[simp] theorem State.updBlk_frzHost (s : State) (b : Nat) (f : Block → Block) : (s.updBlk b f).frzHost = s.frzHost := rfl
@[simp] theorem State.updBlk_frzPort (s : State) (b : Nat) (f : Block → Block) : (s.updBlk b f).frzPort = s.frzPort := rfl
@[simp] theorem State.updBlk_frzAddr (s : State) (b : Nat) (f : Block → Block) : (s.updBlk b f).frzAddr = s.frzAddr := rfl
@[simp] theorem State.updBlk_rcvLen (s : State) (b : Nat) (f : Block → Block) : (s.updBlk b f).rcvLen = s.rcvLen := rfl
@[simp] theorem State.updBlk_rcvBusy (s : State) (b : Nat) (f : Block → Block) : (s.updBlk b f).rcvBusy = s.rcvBusy := rfl
@[simp] theorem State.updBlk_rcvResult (s : State) (b : Nat) (f : Block → Block) : (s.updBlk b f).rcvResult = s.rcvResult := rfl
@[simp] theorem State.updBlk_links (s : State) (b : Nat) (f : Block → Block) : (s.updBlk b f).links = s.links := rfl
@[simp] theorem State.updBlk_lseq (s : State) (b : Nat) (f : Block → Block) : (s.updBlk b f).lseq = s.lseq := rfl
@[simp] theorem State.updBlk_image (s : State) (b : Nat) (f : Block → Block) : (s.updBlk b f).image = s.image := rfl
@[simp] theorem State.updBlk_lmsIndex (s : State) (b : Nat) (f : Block → Block) : (s.updBlk b f).lmsIndex = s.lmsIndex := rfl
@[simp] theorem State.updBlk_attKey (s : State) (b : Nat) (f : Block → Block) : (s.updBlk b f).attKey = s.attKey := rfl
@[simp] theorem State.updBlk_hostLines (s : State) (b : Nat) (f : Block → Block) : (s.updBlk b f).hostLines = s.hostLines := rfl
@[simp] theorem State.updBlk_hdmHeld (s : State) (b : Nat) (f : Block → Block) : (s.updBlk b f).hdmHeld = s.hdmHeld := rfl
@[simp] theorem State.updBlk_guests (s : State) (b : Nat) (f : Block → Block) : (s.updBlk b f).guests = s.guests := rfl
@[simp] theorem State.updBlk_fills (s : State) (b : Nat) (f : Block → Block) : (s.updBlk b f).fills = s.fills := rfl
@[simp] theorem State.updBlk_invs (s : State) (b : Nat) (f : Block → Block) : (s.updBlk b f).invs = s.invs := rfl
@[simp] theorem State.updBlk_clLines (s : State) (b : Nat) (f : Block → Block) : (s.updBlk b f).clLines = s.clLines := rfl
@[simp] theorem State.updBlk_partials (s : State) (b : Nat) (f : Block → Block) : (s.updBlk b f).partials = s.partials := rfl
@[simp] theorem State.updBlk_checks (s : State) (b : Nat) (f : Block → Block) : (s.updBlk b f).checks = s.checks := rfl
@[simp] theorem State.updBlk_arrivals (s : State) (b : Nat) (f : Block → Block) : (s.updBlk b f).arrivals = s.arrivals := rfl
@[simp] theorem State.updBlk_objDogs (s : State) (b : Nat) (f : Block → Block) : (s.updBlk b f).objDogs = s.objDogs := rfl
@[simp] theorem State.updBlk_objFails (s : State) (b : Nat) (f : Block → Block) : (s.updBlk b f).objFails = s.objFails := rfl
@[simp] theorem State.updBlk_later (s : State) (b : Nat) (f : Block → Block) : (s.updBlk b f).later = s.later := rfl
@[simp] theorem State.updBlk_recWrites (s : State) (b : Nat) (f : Block → Block) : (s.updBlk b f).recWrites = s.recWrites := rfl
@[simp] theorem State.updBlk_dieTlb (s : State) (b : Nat) (f : Block → Block) : (s.updBlk b f).dieTlb = s.dieTlb := rfl
@[simp] theorem State.updBlk_ptrCache (s : State) (b : Nat) (f : Block → Block) : (s.updBlk b f).ptrCache = s.ptrCache := rfl
@[simp] theorem State.updBlk_misses (s : State) (b : Nat) (f : Block → Block) : (s.updBlk b f).misses = s.misses := rfl
@[simp] theorem State.updBlk_settling (s : State) (b : Nat) (f : Block → Block) : (s.updBlk b f).settling = s.settling := rfl
@[simp] theorem State.updBlk_capLogs (s : State) (b : Nat) (f : Block → Block) : (s.updBlk b f).capLogs = s.capLogs := rfl
@[simp] theorem State.updBlk_capVas (s : State) (b : Nat) (f : Block → Block) : (s.updBlk b f).capVas = s.capVas := rfl
@[simp] theorem State.updBlk_putOff (s : State) (b : Nat) (f : Block → Block) : (s.updBlk b f).putOff = s.putOff := rfl
@[simp] theorem State.updBlk_lastWin (s : State) (b : Nat) (f : Block → Block) : (s.updBlk b f).lastWin = s.lastWin := rfl
@[simp] theorem State.updBlk_engines (s : State) (b : Nat) (f : Block → Block) : (s.updBlk b f).engines = s.engines := rfl
@[simp] theorem State.updBlk_markings (s : State) (b : Nat) (f : Block → Block) : (s.updBlk b f).markings = s.markings := rfl
@[simp] theorem State.updBlk_revoking (s : State) (b : Nat) (f : Block → Block) : (s.updBlk b f).revoking = s.revoking := rfl
@[simp] theorem State.updBlk_heldCmd (s : State) (b : Nat) (f : Block → Block) : (s.updBlk b f).heldCmd = s.heldCmd := rfl
@[simp] theorem State.updBlk_snapClk (s : State) (b : Nat) (f : Block → Block) : (s.updBlk b f).snapClk = s.snapClk := rfl
@[simp] theorem State.updBlk_freeCtr (s : State) (b : Nat) (f : Block → Block) : (s.updBlk b f).freeCtr = s.freeCtr := rfl
@[simp] theorem State.updBlk_bringUp (s : State) (b : Nat) (f : Block → Block) : (s.updBlk b f).bringUp = s.bringUp := rfl
@[simp] theorem State.updBlk_devIndex (s : State) (b : Nat) (f : Block → Block) : (s.updBlk b f).devIndex = s.devIndex := rfl
@[simp] theorem State.updBlk_powerClk (s : State) (b : Nat) (f : Block → Block) : (s.updBlk b f).powerClk = s.powerClk := rfl
@[simp] theorem State.updBlk_stopRecs (s : State) (b : Nat) (f : Block → Block) : (s.updBlk b f).stopRecs = s.stopRecs := rfl
@[simp] theorem State.updBlk_regWrites (s : State) (b : Nat) (f : Block → Block) : (s.updBlk b f).regWrites = s.regWrites := rfl
@[simp] theorem State.updBlk_heldMsgs (s : State) (b : Nat) (f : Block → Block) : (s.updBlk b f).heldMsgs = s.heldMsgs := rfl
@[simp] theorem State.updCl_liveCd (s : State) (b : Nat) (f : Cluster → Cluster) : (s.updCl b f).liveCd = s.liveCd := rfl
@[simp] theorem State.updCl_liveXd (s : State) (b : Nat) (f : Cluster → Cluster) : (s.updCl b f).liveXd = s.liveXd := rfl
@[simp] theorem State.updCl_ready (s : State) (b : Nat) (f : Cluster → Cluster) : (s.updCl b f).ready = s.ready := rfl
@[simp] theorem State.updCl_recovery (s : State) (b : Nat) (f : Cluster → Cluster) : (s.updCl b f).recovery = s.recovery := rfl
@[simp] theorem State.updCl_calfail (s : State) (b : Nat) (f : Cluster → Cluster) : (s.updCl b f).calfail = s.calfail := rfl
@[simp] theorem State.updCl_throttle (s : State) (b : Nat) (f : Cluster → Cluster) : (s.updCl b f).throttle = s.throttle := rfl
@[simp] theorem State.updCl_stage (s : State) (b : Nat) (f : Cluster → Cluster) : (s.updCl b f).stage = s.stage := rfl
@[simp] theorem State.updCl_watts (s : State) (b : Nat) (f : Cluster → Cluster) : (s.updCl b f).watts = s.watts := rfl
@[simp] theorem State.updCl_mhz10 (s : State) (b : Nat) (f : Cluster → Cluster) : (s.updCl b f).mhz10 = s.mhz10 := rfl
@[simp] theorem State.updCl_ctxSts (s : State) (b : Nat) (f : Cluster → Cluster) : (s.updCl b f).ctxSts = s.ctxSts := rfl
@[simp] theorem State.updCl_qSts (s : State) (b : Nat) (f : Cluster → Cluster) : (s.updCl b f).qSts = s.qSts := rfl
@[simp] theorem State.updCl_tlbSts (s : State) (b : Nat) (f : Cluster → Cluster) : (s.updCl b f).tlbSts = s.tlbSts := rfl
@[simp] theorem State.updCl_dbgSts (s : State) (b : Nat) (f : Cluster → Cluster) : (s.updCl b f).dbgSts = s.dbgSts := rfl
@[simp] theorem State.updCl_dmaOvr (s : State) (b : Nat) (f : Cluster → Cluster) : (s.updCl b f).dmaOvr = s.dmaOvr := rfl
@[simp] theorem State.updCl_dmaEngine (s : State) (b : Nat) (f : Cluster → Cluster) : (s.updCl b f).dmaEngine = s.dmaEngine := rfl
@[simp] theorem State.updCl_frzDma (s : State) (b : Nat) (f : Cluster → Cluster) : (s.updCl b f).frzDma = s.frzDma := rfl
@[simp] theorem State.updCl_frzHost (s : State) (b : Nat) (f : Cluster → Cluster) : (s.updCl b f).frzHost = s.frzHost := rfl
@[simp] theorem State.updCl_frzPort (s : State) (b : Nat) (f : Cluster → Cluster) : (s.updCl b f).frzPort = s.frzPort := rfl
@[simp] theorem State.updCl_frzAddr (s : State) (b : Nat) (f : Cluster → Cluster) : (s.updCl b f).frzAddr = s.frzAddr := rfl
@[simp] theorem State.updCl_rcvLen (s : State) (b : Nat) (f : Cluster → Cluster) : (s.updCl b f).rcvLen = s.rcvLen := rfl
@[simp] theorem State.updCl_rcvBusy (s : State) (b : Nat) (f : Cluster → Cluster) : (s.updCl b f).rcvBusy = s.rcvBusy := rfl
@[simp] theorem State.updCl_rcvResult (s : State) (b : Nat) (f : Cluster → Cluster) : (s.updCl b f).rcvResult = s.rcvResult := rfl
@[simp] theorem State.updCl_links (s : State) (b : Nat) (f : Cluster → Cluster) : (s.updCl b f).links = s.links := rfl
@[simp] theorem State.updCl_lseq (s : State) (b : Nat) (f : Cluster → Cluster) : (s.updCl b f).lseq = s.lseq := rfl
@[simp] theorem State.updCl_image (s : State) (b : Nat) (f : Cluster → Cluster) : (s.updCl b f).image = s.image := rfl
@[simp] theorem State.updCl_lmsIndex (s : State) (b : Nat) (f : Cluster → Cluster) : (s.updCl b f).lmsIndex = s.lmsIndex := rfl
@[simp] theorem State.updCl_attKey (s : State) (b : Nat) (f : Cluster → Cluster) : (s.updCl b f).attKey = s.attKey := rfl
@[simp] theorem State.updCl_hostLines (s : State) (b : Nat) (f : Cluster → Cluster) : (s.updCl b f).hostLines = s.hostLines := rfl
@[simp] theorem State.updCl_hdmHeld (s : State) (b : Nat) (f : Cluster → Cluster) : (s.updCl b f).hdmHeld = s.hdmHeld := rfl
@[simp] theorem State.updCl_guests (s : State) (b : Nat) (f : Cluster → Cluster) : (s.updCl b f).guests = s.guests := rfl
@[simp] theorem State.updCl_fills (s : State) (b : Nat) (f : Cluster → Cluster) : (s.updCl b f).fills = s.fills := rfl
@[simp] theorem State.updCl_invs (s : State) (b : Nat) (f : Cluster → Cluster) : (s.updCl b f).invs = s.invs := rfl
@[simp] theorem State.updCl_clLines (s : State) (b : Nat) (f : Cluster → Cluster) : (s.updCl b f).clLines = s.clLines := rfl
@[simp] theorem State.updCl_partials (s : State) (b : Nat) (f : Cluster → Cluster) : (s.updCl b f).partials = s.partials := rfl
@[simp] theorem State.updCl_checks (s : State) (b : Nat) (f : Cluster → Cluster) : (s.updCl b f).checks = s.checks := rfl
@[simp] theorem State.updCl_arrivals (s : State) (b : Nat) (f : Cluster → Cluster) : (s.updCl b f).arrivals = s.arrivals := rfl
@[simp] theorem State.updCl_objDogs (s : State) (b : Nat) (f : Cluster → Cluster) : (s.updCl b f).objDogs = s.objDogs := rfl
@[simp] theorem State.updCl_objFails (s : State) (b : Nat) (f : Cluster → Cluster) : (s.updCl b f).objFails = s.objFails := rfl
@[simp] theorem State.updCl_later (s : State) (b : Nat) (f : Cluster → Cluster) : (s.updCl b f).later = s.later := rfl
@[simp] theorem State.updCl_recWrites (s : State) (b : Nat) (f : Cluster → Cluster) : (s.updCl b f).recWrites = s.recWrites := rfl
@[simp] theorem State.updCl_dieTlb (s : State) (b : Nat) (f : Cluster → Cluster) : (s.updCl b f).dieTlb = s.dieTlb := rfl
@[simp] theorem State.updCl_ptrCache (s : State) (b : Nat) (f : Cluster → Cluster) : (s.updCl b f).ptrCache = s.ptrCache := rfl
@[simp] theorem State.updCl_misses (s : State) (b : Nat) (f : Cluster → Cluster) : (s.updCl b f).misses = s.misses := rfl
@[simp] theorem State.updCl_settling (s : State) (b : Nat) (f : Cluster → Cluster) : (s.updCl b f).settling = s.settling := rfl
@[simp] theorem State.updCl_capLogs (s : State) (b : Nat) (f : Cluster → Cluster) : (s.updCl b f).capLogs = s.capLogs := rfl
@[simp] theorem State.updCl_capVas (s : State) (b : Nat) (f : Cluster → Cluster) : (s.updCl b f).capVas = s.capVas := rfl
@[simp] theorem State.updCl_putOff (s : State) (b : Nat) (f : Cluster → Cluster) : (s.updCl b f).putOff = s.putOff := rfl
@[simp] theorem State.updCl_lastWin (s : State) (b : Nat) (f : Cluster → Cluster) : (s.updCl b f).lastWin = s.lastWin := rfl
@[simp] theorem State.updCl_engines (s : State) (b : Nat) (f : Cluster → Cluster) : (s.updCl b f).engines = s.engines := rfl
@[simp] theorem State.updCl_markings (s : State) (b : Nat) (f : Cluster → Cluster) : (s.updCl b f).markings = s.markings := rfl
@[simp] theorem State.updCl_revoking (s : State) (b : Nat) (f : Cluster → Cluster) : (s.updCl b f).revoking = s.revoking := rfl
@[simp] theorem State.updCl_heldCmd (s : State) (b : Nat) (f : Cluster → Cluster) : (s.updCl b f).heldCmd = s.heldCmd := rfl
@[simp] theorem State.updCl_snapClk (s : State) (b : Nat) (f : Cluster → Cluster) : (s.updCl b f).snapClk = s.snapClk := rfl
@[simp] theorem State.updCl_freeCtr (s : State) (b : Nat) (f : Cluster → Cluster) : (s.updCl b f).freeCtr = s.freeCtr := rfl
@[simp] theorem State.updCl_bringUp (s : State) (b : Nat) (f : Cluster → Cluster) : (s.updCl b f).bringUp = s.bringUp := rfl
@[simp] theorem State.updCl_devIndex (s : State) (b : Nat) (f : Cluster → Cluster) : (s.updCl b f).devIndex = s.devIndex := rfl
@[simp] theorem State.updCl_powerClk (s : State) (b : Nat) (f : Cluster → Cluster) : (s.updCl b f).powerClk = s.powerClk := rfl
@[simp] theorem State.updCl_stopRecs (s : State) (b : Nat) (f : Cluster → Cluster) : (s.updCl b f).stopRecs = s.stopRecs := rfl
@[simp] theorem State.updCl_regWrites (s : State) (b : Nat) (f : Cluster → Cluster) : (s.updCl b f).regWrites = s.regWrites := rfl
@[simp] theorem State.updCl_heldMsgs (s : State) (b : Nat) (f : Cluster → Cluster) : (s.updCl b f).heldMsgs = s.heldMsgs := rfl
@[simp] theorem State.updGrid_liveCd (s : State) (g : Nat) (f : Grid → Grid) : (s.updGrid g f).liveCd = s.liveCd := rfl
@[simp] theorem State.updGrid_liveXd (s : State) (g : Nat) (f : Grid → Grid) : (s.updGrid g f).liveXd = s.liveXd := rfl
@[simp] theorem State.updGrid_ready (s : State) (g : Nat) (f : Grid → Grid) : (s.updGrid g f).ready = s.ready := rfl
@[simp] theorem State.updGrid_recovery (s : State) (g : Nat) (f : Grid → Grid) : (s.updGrid g f).recovery = s.recovery := rfl
@[simp] theorem State.updGrid_calfail (s : State) (g : Nat) (f : Grid → Grid) : (s.updGrid g f).calfail = s.calfail := rfl
@[simp] theorem State.updGrid_throttle (s : State) (g : Nat) (f : Grid → Grid) : (s.updGrid g f).throttle = s.throttle := rfl
@[simp] theorem State.updGrid_stage (s : State) (g : Nat) (f : Grid → Grid) : (s.updGrid g f).stage = s.stage := rfl
@[simp] theorem State.updGrid_watts (s : State) (g : Nat) (f : Grid → Grid) : (s.updGrid g f).watts = s.watts := rfl
@[simp] theorem State.updGrid_mhz10 (s : State) (g : Nat) (f : Grid → Grid) : (s.updGrid g f).mhz10 = s.mhz10 := rfl
@[simp] theorem State.updGrid_ctxSts (s : State) (g : Nat) (f : Grid → Grid) : (s.updGrid g f).ctxSts = s.ctxSts := rfl
@[simp] theorem State.updGrid_qSts (s : State) (g : Nat) (f : Grid → Grid) : (s.updGrid g f).qSts = s.qSts := rfl
@[simp] theorem State.updGrid_tlbSts (s : State) (g : Nat) (f : Grid → Grid) : (s.updGrid g f).tlbSts = s.tlbSts := rfl
@[simp] theorem State.updGrid_dbgSts (s : State) (g : Nat) (f : Grid → Grid) : (s.updGrid g f).dbgSts = s.dbgSts := rfl
@[simp] theorem State.updGrid_dmaOvr (s : State) (g : Nat) (f : Grid → Grid) : (s.updGrid g f).dmaOvr = s.dmaOvr := rfl
@[simp] theorem State.updGrid_dmaEngine (s : State) (g : Nat) (f : Grid → Grid) : (s.updGrid g f).dmaEngine = s.dmaEngine := rfl
@[simp] theorem State.updGrid_frzDma (s : State) (g : Nat) (f : Grid → Grid) : (s.updGrid g f).frzDma = s.frzDma := rfl
@[simp] theorem State.updGrid_frzHost (s : State) (g : Nat) (f : Grid → Grid) : (s.updGrid g f).frzHost = s.frzHost := rfl
@[simp] theorem State.updGrid_frzPort (s : State) (g : Nat) (f : Grid → Grid) : (s.updGrid g f).frzPort = s.frzPort := rfl
@[simp] theorem State.updGrid_frzAddr (s : State) (g : Nat) (f : Grid → Grid) : (s.updGrid g f).frzAddr = s.frzAddr := rfl
@[simp] theorem State.updGrid_rcvLen (s : State) (g : Nat) (f : Grid → Grid) : (s.updGrid g f).rcvLen = s.rcvLen := rfl
@[simp] theorem State.updGrid_rcvBusy (s : State) (g : Nat) (f : Grid → Grid) : (s.updGrid g f).rcvBusy = s.rcvBusy := rfl
@[simp] theorem State.updGrid_rcvResult (s : State) (g : Nat) (f : Grid → Grid) : (s.updGrid g f).rcvResult = s.rcvResult := rfl
@[simp] theorem State.updGrid_links (s : State) (g : Nat) (f : Grid → Grid) : (s.updGrid g f).links = s.links := rfl
@[simp] theorem State.updGrid_lseq (s : State) (g : Nat) (f : Grid → Grid) : (s.updGrid g f).lseq = s.lseq := rfl
@[simp] theorem State.updGrid_image (s : State) (g : Nat) (f : Grid → Grid) : (s.updGrid g f).image = s.image := rfl
@[simp] theorem State.updGrid_lmsIndex (s : State) (g : Nat) (f : Grid → Grid) : (s.updGrid g f).lmsIndex = s.lmsIndex := rfl
@[simp] theorem State.updGrid_attKey (s : State) (g : Nat) (f : Grid → Grid) : (s.updGrid g f).attKey = s.attKey := rfl
@[simp] theorem State.updGrid_hostLines (s : State) (g : Nat) (f : Grid → Grid) : (s.updGrid g f).hostLines = s.hostLines := rfl
@[simp] theorem State.updGrid_hdmHeld (s : State) (g : Nat) (f : Grid → Grid) : (s.updGrid g f).hdmHeld = s.hdmHeld := rfl
@[simp] theorem State.updGrid_guests (s : State) (g : Nat) (f : Grid → Grid) : (s.updGrid g f).guests = s.guests := rfl
@[simp] theorem State.updGrid_fills (s : State) (g : Nat) (f : Grid → Grid) : (s.updGrid g f).fills = s.fills := rfl
@[simp] theorem State.updGrid_invs (s : State) (g : Nat) (f : Grid → Grid) : (s.updGrid g f).invs = s.invs := rfl
@[simp] theorem State.updGrid_clLines (s : State) (g : Nat) (f : Grid → Grid) : (s.updGrid g f).clLines = s.clLines := rfl
@[simp] theorem State.updGrid_partials (s : State) (g : Nat) (f : Grid → Grid) : (s.updGrid g f).partials = s.partials := rfl
@[simp] theorem State.updGrid_checks (s : State) (g : Nat) (f : Grid → Grid) : (s.updGrid g f).checks = s.checks := rfl
@[simp] theorem State.updGrid_arrivals (s : State) (g : Nat) (f : Grid → Grid) : (s.updGrid g f).arrivals = s.arrivals := rfl
@[simp] theorem State.updGrid_objDogs (s : State) (g : Nat) (f : Grid → Grid) : (s.updGrid g f).objDogs = s.objDogs := rfl
@[simp] theorem State.updGrid_objFails (s : State) (g : Nat) (f : Grid → Grid) : (s.updGrid g f).objFails = s.objFails := rfl
@[simp] theorem State.updGrid_later (s : State) (g : Nat) (f : Grid → Grid) : (s.updGrid g f).later = s.later := rfl
@[simp] theorem State.updGrid_recWrites (s : State) (g : Nat) (f : Grid → Grid) : (s.updGrid g f).recWrites = s.recWrites := rfl
@[simp] theorem State.updGrid_dieTlb (s : State) (g : Nat) (f : Grid → Grid) : (s.updGrid g f).dieTlb = s.dieTlb := rfl
@[simp] theorem State.updGrid_ptrCache (s : State) (g : Nat) (f : Grid → Grid) : (s.updGrid g f).ptrCache = s.ptrCache := rfl
@[simp] theorem State.updGrid_misses (s : State) (g : Nat) (f : Grid → Grid) : (s.updGrid g f).misses = s.misses := rfl
@[simp] theorem State.updGrid_settling (s : State) (g : Nat) (f : Grid → Grid) : (s.updGrid g f).settling = s.settling := rfl
@[simp] theorem State.updGrid_capLogs (s : State) (g : Nat) (f : Grid → Grid) : (s.updGrid g f).capLogs = s.capLogs := rfl
@[simp] theorem State.updGrid_capVas (s : State) (g : Nat) (f : Grid → Grid) : (s.updGrid g f).capVas = s.capVas := rfl
@[simp] theorem State.updGrid_putOff (s : State) (g : Nat) (f : Grid → Grid) : (s.updGrid g f).putOff = s.putOff := rfl
@[simp] theorem State.updGrid_lastWin (s : State) (g : Nat) (f : Grid → Grid) : (s.updGrid g f).lastWin = s.lastWin := rfl
@[simp] theorem State.updGrid_engines (s : State) (g : Nat) (f : Grid → Grid) : (s.updGrid g f).engines = s.engines := rfl
@[simp] theorem State.updGrid_markings (s : State) (g : Nat) (f : Grid → Grid) : (s.updGrid g f).markings = s.markings := rfl
@[simp] theorem State.updGrid_revoking (s : State) (g : Nat) (f : Grid → Grid) : (s.updGrid g f).revoking = s.revoking := rfl
@[simp] theorem State.updGrid_heldCmd (s : State) (g : Nat) (f : Grid → Grid) : (s.updGrid g f).heldCmd = s.heldCmd := rfl
@[simp] theorem State.updGrid_snapClk (s : State) (g : Nat) (f : Grid → Grid) : (s.updGrid g f).snapClk = s.snapClk := rfl
@[simp] theorem State.updGrid_freeCtr (s : State) (g : Nat) (f : Grid → Grid) : (s.updGrid g f).freeCtr = s.freeCtr := rfl
@[simp] theorem State.updGrid_bringUp (s : State) (g : Nat) (f : Grid → Grid) : (s.updGrid g f).bringUp = s.bringUp := rfl
@[simp] theorem State.updGrid_devIndex (s : State) (g : Nat) (f : Grid → Grid) : (s.updGrid g f).devIndex = s.devIndex := rfl
@[simp] theorem State.updGrid_powerClk (s : State) (g : Nat) (f : Grid → Grid) : (s.updGrid g f).powerClk = s.powerClk := rfl
@[simp] theorem State.updGrid_stopRecs (s : State) (g : Nat) (f : Grid → Grid) : (s.updGrid g f).stopRecs = s.stopRecs := rfl
@[simp] theorem State.updGrid_regWrites (s : State) (g : Nat) (f : Grid → Grid) : (s.updGrid g f).regWrites = s.regWrites := rfl
@[simp] theorem State.updGrid_heldMsgs (s : State) (g : Nat) (f : Grid → Grid) : (s.updGrid g f).heldMsgs = s.heldMsgs := rfl
@[simp] theorem State.send_liveCd (s : State) (m : OutMsg) : (s.send m).liveCd = s.liveCd := rfl
@[simp] theorem State.send_liveXd (s : State) (m : OutMsg) : (s.send m).liveXd = s.liveXd := rfl
@[simp] theorem State.send_ready (s : State) (m : OutMsg) : (s.send m).ready = s.ready := rfl
@[simp] theorem State.send_recovery (s : State) (m : OutMsg) : (s.send m).recovery = s.recovery := rfl
@[simp] theorem State.send_calfail (s : State) (m : OutMsg) : (s.send m).calfail = s.calfail := rfl
@[simp] theorem State.send_throttle (s : State) (m : OutMsg) : (s.send m).throttle = s.throttle := rfl
@[simp] theorem State.send_stage (s : State) (m : OutMsg) : (s.send m).stage = s.stage := rfl
@[simp] theorem State.send_watts (s : State) (m : OutMsg) : (s.send m).watts = s.watts := rfl
@[simp] theorem State.send_mhz10 (s : State) (m : OutMsg) : (s.send m).mhz10 = s.mhz10 := rfl
@[simp] theorem State.send_ctxSts (s : State) (m : OutMsg) : (s.send m).ctxSts = s.ctxSts := rfl
@[simp] theorem State.send_qSts (s : State) (m : OutMsg) : (s.send m).qSts = s.qSts := rfl
@[simp] theorem State.send_tlbSts (s : State) (m : OutMsg) : (s.send m).tlbSts = s.tlbSts := rfl
@[simp] theorem State.send_dbgSts (s : State) (m : OutMsg) : (s.send m).dbgSts = s.dbgSts := rfl
@[simp] theorem State.send_dmaOvr (s : State) (m : OutMsg) : (s.send m).dmaOvr = s.dmaOvr := rfl
@[simp] theorem State.send_dmaEngine (s : State) (m : OutMsg) : (s.send m).dmaEngine = s.dmaEngine := rfl
@[simp] theorem State.send_frzDma (s : State) (m : OutMsg) : (s.send m).frzDma = s.frzDma := rfl
@[simp] theorem State.send_frzHost (s : State) (m : OutMsg) : (s.send m).frzHost = s.frzHost := rfl
@[simp] theorem State.send_frzPort (s : State) (m : OutMsg) : (s.send m).frzPort = s.frzPort := rfl
@[simp] theorem State.send_frzAddr (s : State) (m : OutMsg) : (s.send m).frzAddr = s.frzAddr := rfl
@[simp] theorem State.send_rcvLen (s : State) (m : OutMsg) : (s.send m).rcvLen = s.rcvLen := rfl
@[simp] theorem State.send_rcvBusy (s : State) (m : OutMsg) : (s.send m).rcvBusy = s.rcvBusy := rfl
@[simp] theorem State.send_rcvResult (s : State) (m : OutMsg) : (s.send m).rcvResult = s.rcvResult := rfl
@[simp] theorem State.send_links (s : State) (m : OutMsg) : (s.send m).links = s.links := rfl
@[simp] theorem State.send_lseq (s : State) (m : OutMsg) : (s.send m).lseq = s.lseq := rfl
@[simp] theorem State.send_image (s : State) (m : OutMsg) : (s.send m).image = s.image := rfl
@[simp] theorem State.send_lmsIndex (s : State) (m : OutMsg) : (s.send m).lmsIndex = s.lmsIndex := rfl
@[simp] theorem State.send_attKey (s : State) (m : OutMsg) : (s.send m).attKey = s.attKey := rfl
@[simp] theorem State.send_hostLines (s : State) (m : OutMsg) : (s.send m).hostLines = s.hostLines := rfl
@[simp] theorem State.send_hdmHeld (s : State) (m : OutMsg) : (s.send m).hdmHeld = s.hdmHeld := rfl
@[simp] theorem State.send_guests (s : State) (m : OutMsg) : (s.send m).guests = s.guests := rfl
@[simp] theorem State.send_fills (s : State) (m : OutMsg) : (s.send m).fills = s.fills := rfl
@[simp] theorem State.send_invs (s : State) (m : OutMsg) : (s.send m).invs = s.invs := rfl
@[simp] theorem State.send_clLines (s : State) (m : OutMsg) : (s.send m).clLines = s.clLines := rfl
@[simp] theorem State.send_partials (s : State) (m : OutMsg) : (s.send m).partials = s.partials := rfl
@[simp] theorem State.send_checks (s : State) (m : OutMsg) : (s.send m).checks = s.checks := rfl
@[simp] theorem State.send_arrivals (s : State) (m : OutMsg) : (s.send m).arrivals = s.arrivals := rfl
@[simp] theorem State.send_objDogs (s : State) (m : OutMsg) : (s.send m).objDogs = s.objDogs := rfl
@[simp] theorem State.send_objFails (s : State) (m : OutMsg) : (s.send m).objFails = s.objFails := rfl
@[simp] theorem State.send_later (s : State) (m : OutMsg) : (s.send m).later = s.later := rfl
@[simp] theorem State.send_recWrites (s : State) (m : OutMsg) : (s.send m).recWrites = s.recWrites := rfl
@[simp] theorem State.send_dieTlb (s : State) (m : OutMsg) : (s.send m).dieTlb = s.dieTlb := rfl
@[simp] theorem State.send_ptrCache (s : State) (m : OutMsg) : (s.send m).ptrCache = s.ptrCache := rfl
@[simp] theorem State.send_misses (s : State) (m : OutMsg) : (s.send m).misses = s.misses := rfl
@[simp] theorem State.send_settling (s : State) (m : OutMsg) : (s.send m).settling = s.settling := rfl
@[simp] theorem State.send_capLogs (s : State) (m : OutMsg) : (s.send m).capLogs = s.capLogs := rfl
@[simp] theorem State.send_capVas (s : State) (m : OutMsg) : (s.send m).capVas = s.capVas := rfl
@[simp] theorem State.send_putOff (s : State) (m : OutMsg) : (s.send m).putOff = s.putOff := rfl
@[simp] theorem State.send_lastWin (s : State) (m : OutMsg) : (s.send m).lastWin = s.lastWin := rfl
@[simp] theorem State.send_engines (s : State) (m : OutMsg) : (s.send m).engines = s.engines := rfl
@[simp] theorem State.send_markings (s : State) (m : OutMsg) : (s.send m).markings = s.markings := rfl
@[simp] theorem State.send_revoking (s : State) (m : OutMsg) : (s.send m).revoking = s.revoking := rfl
@[simp] theorem State.send_heldCmd (s : State) (m : OutMsg) : (s.send m).heldCmd = s.heldCmd := rfl
@[simp] theorem State.send_snapClk (s : State) (m : OutMsg) : (s.send m).snapClk = s.snapClk := rfl
@[simp] theorem State.send_freeCtr (s : State) (m : OutMsg) : (s.send m).freeCtr = s.freeCtr := rfl
@[simp] theorem State.send_bringUp (s : State) (m : OutMsg) : (s.send m).bringUp = s.bringUp := rfl
@[simp] theorem State.send_devIndex (s : State) (m : OutMsg) : (s.send m).devIndex = s.devIndex := rfl
@[simp] theorem State.send_powerClk (s : State) (m : OutMsg) : (s.send m).powerClk = s.powerClk := rfl
@[simp] theorem State.send_stopRecs (s : State) (m : OutMsg) : (s.send m).stopRecs = s.stopRecs := rfl
@[simp] theorem State.send_regWrites (s : State) (m : OutMsg) : (s.send m).regWrites = s.regWrites := rfl
@[simp] theorem State.send_heldMsgs (s : State) (m : OutMsg) : (s.send m).heldMsgs = s.heldMsgs := rfl
@[simp] theorem State.leaveSlot_liveCd (s : State) (a : Nat) : (s.leaveSlot a).liveCd = s.liveCd := rfl
@[simp] theorem State.leaveSlot_liveXd (s : State) (a : Nat) : (s.leaveSlot a).liveXd = s.liveXd := rfl
@[simp] theorem State.leaveSlot_ready (s : State) (a : Nat) : (s.leaveSlot a).ready = s.ready := rfl
@[simp] theorem State.leaveSlot_recovery (s : State) (a : Nat) : (s.leaveSlot a).recovery = s.recovery := rfl
@[simp] theorem State.leaveSlot_calfail (s : State) (a : Nat) : (s.leaveSlot a).calfail = s.calfail := rfl
@[simp] theorem State.leaveSlot_throttle (s : State) (a : Nat) : (s.leaveSlot a).throttle = s.throttle := rfl
@[simp] theorem State.leaveSlot_stage (s : State) (a : Nat) : (s.leaveSlot a).stage = s.stage := rfl
@[simp] theorem State.leaveSlot_watts (s : State) (a : Nat) : (s.leaveSlot a).watts = s.watts := rfl
@[simp] theorem State.leaveSlot_mhz10 (s : State) (a : Nat) : (s.leaveSlot a).mhz10 = s.mhz10 := rfl
@[simp] theorem State.leaveSlot_ctxSts (s : State) (a : Nat) : (s.leaveSlot a).ctxSts = s.ctxSts := rfl
@[simp] theorem State.leaveSlot_qSts (s : State) (a : Nat) : (s.leaveSlot a).qSts = s.qSts := rfl
@[simp] theorem State.leaveSlot_tlbSts (s : State) (a : Nat) : (s.leaveSlot a).tlbSts = s.tlbSts := rfl
@[simp] theorem State.leaveSlot_dbgSts (s : State) (a : Nat) : (s.leaveSlot a).dbgSts = s.dbgSts := rfl
@[simp] theorem State.leaveSlot_dmaOvr (s : State) (a : Nat) : (s.leaveSlot a).dmaOvr = s.dmaOvr := rfl
@[simp] theorem State.leaveSlot_dmaEngine (s : State) (a : Nat) : (s.leaveSlot a).dmaEngine = s.dmaEngine := rfl
@[simp] theorem State.leaveSlot_frzDma (s : State) (a : Nat) : (s.leaveSlot a).frzDma = s.frzDma := rfl
@[simp] theorem State.leaveSlot_frzHost (s : State) (a : Nat) : (s.leaveSlot a).frzHost = s.frzHost := rfl
@[simp] theorem State.leaveSlot_frzPort (s : State) (a : Nat) : (s.leaveSlot a).frzPort = s.frzPort := rfl
@[simp] theorem State.leaveSlot_frzAddr (s : State) (a : Nat) : (s.leaveSlot a).frzAddr = s.frzAddr := rfl
@[simp] theorem State.leaveSlot_rcvLen (s : State) (a : Nat) : (s.leaveSlot a).rcvLen = s.rcvLen := rfl
@[simp] theorem State.leaveSlot_rcvBusy (s : State) (a : Nat) : (s.leaveSlot a).rcvBusy = s.rcvBusy := rfl
@[simp] theorem State.leaveSlot_rcvResult (s : State) (a : Nat) : (s.leaveSlot a).rcvResult = s.rcvResult := rfl
@[simp] theorem State.leaveSlot_links (s : State) (a : Nat) : (s.leaveSlot a).links = s.links := rfl
@[simp] theorem State.leaveSlot_lseq (s : State) (a : Nat) : (s.leaveSlot a).lseq = s.lseq := rfl
@[simp] theorem State.leaveSlot_image (s : State) (a : Nat) : (s.leaveSlot a).image = s.image := rfl
@[simp] theorem State.leaveSlot_lmsIndex (s : State) (a : Nat) : (s.leaveSlot a).lmsIndex = s.lmsIndex := rfl
@[simp] theorem State.leaveSlot_attKey (s : State) (a : Nat) : (s.leaveSlot a).attKey = s.attKey := rfl
@[simp] theorem State.leaveSlot_hostLines (s : State) (a : Nat) : (s.leaveSlot a).hostLines = s.hostLines := rfl
@[simp] theorem State.leaveSlot_hdmHeld (s : State) (a : Nat) : (s.leaveSlot a).hdmHeld = s.hdmHeld := rfl
@[simp] theorem State.leaveSlot_guests (s : State) (a : Nat) : (s.leaveSlot a).guests = s.guests := rfl
@[simp] theorem State.leaveSlot_fills (s : State) (a : Nat) : (s.leaveSlot a).fills = s.fills := rfl
@[simp] theorem State.leaveSlot_invs (s : State) (a : Nat) : (s.leaveSlot a).invs = s.invs := rfl
@[simp] theorem State.leaveSlot_clLines (s : State) (a : Nat) : (s.leaveSlot a).clLines = s.clLines := rfl
@[simp] theorem State.leaveSlot_partials (s : State) (a : Nat) : (s.leaveSlot a).partials = s.partials := rfl
@[simp] theorem State.leaveSlot_checks (s : State) (a : Nat) : (s.leaveSlot a).checks = s.checks := rfl
@[simp] theorem State.leaveSlot_arrivals (s : State) (a : Nat) : (s.leaveSlot a).arrivals = s.arrivals := rfl
@[simp] theorem State.leaveSlot_objDogs (s : State) (a : Nat) : (s.leaveSlot a).objDogs = s.objDogs := rfl
@[simp] theorem State.leaveSlot_objFails (s : State) (a : Nat) : (s.leaveSlot a).objFails = s.objFails := rfl
@[simp] theorem State.leaveSlot_later (s : State) (a : Nat) : (s.leaveSlot a).later = s.later := rfl
@[simp] theorem State.leaveSlot_recWrites (s : State) (a : Nat) : (s.leaveSlot a).recWrites = s.recWrites := rfl
@[simp] theorem State.leaveSlot_dieTlb (s : State) (a : Nat) : (s.leaveSlot a).dieTlb = s.dieTlb := rfl
@[simp] theorem State.leaveSlot_ptrCache (s : State) (a : Nat) : (s.leaveSlot a).ptrCache = s.ptrCache := rfl
@[simp] theorem State.leaveSlot_misses (s : State) (a : Nat) : (s.leaveSlot a).misses = s.misses := rfl
@[simp] theorem State.leaveSlot_settling (s : State) (a : Nat) : (s.leaveSlot a).settling = s.settling := rfl
@[simp] theorem State.leaveSlot_capLogs (s : State) (a : Nat) : (s.leaveSlot a).capLogs = s.capLogs := rfl
@[simp] theorem State.leaveSlot_capVas (s : State) (a : Nat) : (s.leaveSlot a).capVas = s.capVas := rfl
@[simp] theorem State.leaveSlot_putOff (s : State) (a : Nat) : (s.leaveSlot a).putOff = s.putOff := rfl
@[simp] theorem State.leaveSlot_lastWin (s : State) (a : Nat) : (s.leaveSlot a).lastWin = s.lastWin := rfl
@[simp] theorem State.leaveSlot_engines (s : State) (a : Nat) : (s.leaveSlot a).engines = s.engines := rfl
@[simp] theorem State.leaveSlot_markings (s : State) (a : Nat) : (s.leaveSlot a).markings = s.markings := rfl
@[simp] theorem State.leaveSlot_revoking (s : State) (a : Nat) : (s.leaveSlot a).revoking = s.revoking := rfl
@[simp] theorem State.leaveSlot_heldCmd (s : State) (a : Nat) : (s.leaveSlot a).heldCmd = s.heldCmd := rfl
@[simp] theorem State.leaveSlot_snapClk (s : State) (a : Nat) : (s.leaveSlot a).snapClk = s.snapClk := rfl
@[simp] theorem State.leaveSlot_freeCtr (s : State) (a : Nat) : (s.leaveSlot a).freeCtr = s.freeCtr := rfl
@[simp] theorem State.leaveSlot_bringUp (s : State) (a : Nat) : (s.leaveSlot a).bringUp = s.bringUp := rfl
@[simp] theorem State.leaveSlot_devIndex (s : State) (a : Nat) : (s.leaveSlot a).devIndex = s.devIndex := rfl
@[simp] theorem State.leaveSlot_powerClk (s : State) (a : Nat) : (s.leaveSlot a).powerClk = s.powerClk := rfl
@[simp] theorem State.leaveSlot_stopRecs (s : State) (a : Nat) : (s.leaveSlot a).stopRecs = s.stopRecs := rfl
@[simp] theorem State.leaveSlot_regWrites (s : State) (a : Nat) : (s.leaveSlot a).regWrites = s.regWrites := rfl
@[simp] theorem State.leaveSlot_heldMsgs (s : State) (a : Nat) : (s.leaveSlot a).heldMsgs = s.heldMsgs := rfl
@[simp] theorem State.countUp_liveCd (s : State) (c i n : Nat) : (s.countUp c i n).liveCd = s.liveCd := rfl
@[simp] theorem State.countUp_liveXd (s : State) (c i n : Nat) : (s.countUp c i n).liveXd = s.liveXd := rfl
@[simp] theorem State.countUp_ready (s : State) (c i n : Nat) : (s.countUp c i n).ready = s.ready := rfl
@[simp] theorem State.countUp_recovery (s : State) (c i n : Nat) : (s.countUp c i n).recovery = s.recovery := rfl
@[simp] theorem State.countUp_calfail (s : State) (c i n : Nat) : (s.countUp c i n).calfail = s.calfail := rfl
@[simp] theorem State.countUp_throttle (s : State) (c i n : Nat) : (s.countUp c i n).throttle = s.throttle := rfl
@[simp] theorem State.countUp_stage (s : State) (c i n : Nat) : (s.countUp c i n).stage = s.stage := rfl
@[simp] theorem State.countUp_watts (s : State) (c i n : Nat) : (s.countUp c i n).watts = s.watts := rfl
@[simp] theorem State.countUp_mhz10 (s : State) (c i n : Nat) : (s.countUp c i n).mhz10 = s.mhz10 := rfl
@[simp] theorem State.countUp_ctxSts (s : State) (c i n : Nat) : (s.countUp c i n).ctxSts = s.ctxSts := rfl
@[simp] theorem State.countUp_qSts (s : State) (c i n : Nat) : (s.countUp c i n).qSts = s.qSts := rfl
@[simp] theorem State.countUp_tlbSts (s : State) (c i n : Nat) : (s.countUp c i n).tlbSts = s.tlbSts := rfl
@[simp] theorem State.countUp_dbgSts (s : State) (c i n : Nat) : (s.countUp c i n).dbgSts = s.dbgSts := rfl
@[simp] theorem State.countUp_dmaOvr (s : State) (c i n : Nat) : (s.countUp c i n).dmaOvr = s.dmaOvr := rfl
@[simp] theorem State.countUp_dmaEngine (s : State) (c i n : Nat) : (s.countUp c i n).dmaEngine = s.dmaEngine := rfl
@[simp] theorem State.countUp_frzDma (s : State) (c i n : Nat) : (s.countUp c i n).frzDma = s.frzDma := rfl
@[simp] theorem State.countUp_frzHost (s : State) (c i n : Nat) : (s.countUp c i n).frzHost = s.frzHost := rfl
@[simp] theorem State.countUp_frzPort (s : State) (c i n : Nat) : (s.countUp c i n).frzPort = s.frzPort := rfl
@[simp] theorem State.countUp_frzAddr (s : State) (c i n : Nat) : (s.countUp c i n).frzAddr = s.frzAddr := rfl
@[simp] theorem State.countUp_rcvLen (s : State) (c i n : Nat) : (s.countUp c i n).rcvLen = s.rcvLen := rfl
@[simp] theorem State.countUp_rcvBusy (s : State) (c i n : Nat) : (s.countUp c i n).rcvBusy = s.rcvBusy := rfl
@[simp] theorem State.countUp_rcvResult (s : State) (c i n : Nat) : (s.countUp c i n).rcvResult = s.rcvResult := rfl
@[simp] theorem State.countUp_links (s : State) (c i n : Nat) : (s.countUp c i n).links = s.links := rfl
@[simp] theorem State.countUp_lseq (s : State) (c i n : Nat) : (s.countUp c i n).lseq = s.lseq := rfl
@[simp] theorem State.countUp_image (s : State) (c i n : Nat) : (s.countUp c i n).image = s.image := rfl
@[simp] theorem State.countUp_lmsIndex (s : State) (c i n : Nat) : (s.countUp c i n).lmsIndex = s.lmsIndex := rfl
@[simp] theorem State.countUp_attKey (s : State) (c i n : Nat) : (s.countUp c i n).attKey = s.attKey := rfl
@[simp] theorem State.countUp_hostLines (s : State) (c i n : Nat) : (s.countUp c i n).hostLines = s.hostLines := rfl
@[simp] theorem State.countUp_hdmHeld (s : State) (c i n : Nat) : (s.countUp c i n).hdmHeld = s.hdmHeld := rfl
@[simp] theorem State.countUp_guests (s : State) (c i n : Nat) : (s.countUp c i n).guests = s.guests := rfl
@[simp] theorem State.countUp_fills (s : State) (c i n : Nat) : (s.countUp c i n).fills = s.fills := rfl
@[simp] theorem State.countUp_invs (s : State) (c i n : Nat) : (s.countUp c i n).invs = s.invs := rfl
@[simp] theorem State.countUp_clLines (s : State) (c i n : Nat) : (s.countUp c i n).clLines = s.clLines := rfl
@[simp] theorem State.countUp_partials (s : State) (c i n : Nat) : (s.countUp c i n).partials = s.partials := rfl
@[simp] theorem State.countUp_checks (s : State) (c i n : Nat) : (s.countUp c i n).checks = s.checks := rfl
@[simp] theorem State.countUp_arrivals (s : State) (c i n : Nat) : (s.countUp c i n).arrivals = s.arrivals := rfl
@[simp] theorem State.countUp_objDogs (s : State) (c i n : Nat) : (s.countUp c i n).objDogs = s.objDogs := rfl
@[simp] theorem State.countUp_objFails (s : State) (c i n : Nat) : (s.countUp c i n).objFails = s.objFails := rfl
@[simp] theorem State.countUp_later (s : State) (c i n : Nat) : (s.countUp c i n).later = s.later := rfl
@[simp] theorem State.countUp_recWrites (s : State) (c i n : Nat) : (s.countUp c i n).recWrites = s.recWrites := rfl
@[simp] theorem State.countUp_dieTlb (s : State) (c i n : Nat) : (s.countUp c i n).dieTlb = s.dieTlb := rfl
@[simp] theorem State.countUp_ptrCache (s : State) (c i n : Nat) : (s.countUp c i n).ptrCache = s.ptrCache := rfl
@[simp] theorem State.countUp_misses (s : State) (c i n : Nat) : (s.countUp c i n).misses = s.misses := rfl
@[simp] theorem State.countUp_settling (s : State) (c i n : Nat) : (s.countUp c i n).settling = s.settling := rfl
@[simp] theorem State.countUp_capLogs (s : State) (c i n : Nat) : (s.countUp c i n).capLogs = s.capLogs := rfl
@[simp] theorem State.countUp_capVas (s : State) (c i n : Nat) : (s.countUp c i n).capVas = s.capVas := rfl
@[simp] theorem State.countUp_putOff (s : State) (c i n : Nat) : (s.countUp c i n).putOff = s.putOff := rfl
@[simp] theorem State.countUp_lastWin (s : State) (c i n : Nat) : (s.countUp c i n).lastWin = s.lastWin := rfl
@[simp] theorem State.countUp_engines (s : State) (c i n : Nat) : (s.countUp c i n).engines = s.engines := rfl
@[simp] theorem State.countUp_markings (s : State) (c i n : Nat) : (s.countUp c i n).markings = s.markings := rfl
@[simp] theorem State.countUp_revoking (s : State) (c i n : Nat) : (s.countUp c i n).revoking = s.revoking := rfl
@[simp] theorem State.countUp_heldCmd (s : State) (c i n : Nat) : (s.countUp c i n).heldCmd = s.heldCmd := rfl
@[simp] theorem State.countUp_snapClk (s : State) (c i n : Nat) : (s.countUp c i n).snapClk = s.snapClk := rfl
@[simp] theorem State.countUp_freeCtr (s : State) (c i n : Nat) : (s.countUp c i n).freeCtr = s.freeCtr := rfl
@[simp] theorem State.countUp_bringUp (s : State) (c i n : Nat) : (s.countUp c i n).bringUp = s.bringUp := rfl
@[simp] theorem State.countUp_devIndex (s : State) (c i n : Nat) : (s.countUp c i n).devIndex = s.devIndex := rfl
@[simp] theorem State.countUp_powerClk (s : State) (c i n : Nat) : (s.countUp c i n).powerClk = s.powerClk := rfl
@[simp] theorem State.countUp_stopRecs (s : State) (c i n : Nat) : (s.countUp c i n).stopRecs = s.stopRecs := rfl
@[simp] theorem State.countUp_regWrites (s : State) (c i n : Nat) : (s.countUp c i n).regWrites = s.regWrites := rfl
@[simp] theorem State.countUp_heldMsgs (s : State) (c i n : Nat) : (s.countUp c i n).heldMsgs = s.heldMsgs := rfl
@[simp] theorem State.charge_liveCd (s : State) (a c n : Nat) : (s.charge a c n).liveCd = s.liveCd := rfl
@[simp] theorem State.charge_liveXd (s : State) (a c n : Nat) : (s.charge a c n).liveXd = s.liveXd := rfl
@[simp] theorem State.charge_ready (s : State) (a c n : Nat) : (s.charge a c n).ready = s.ready := rfl
@[simp] theorem State.charge_recovery (s : State) (a c n : Nat) : (s.charge a c n).recovery = s.recovery := rfl
@[simp] theorem State.charge_calfail (s : State) (a c n : Nat) : (s.charge a c n).calfail = s.calfail := rfl
@[simp] theorem State.charge_throttle (s : State) (a c n : Nat) : (s.charge a c n).throttle = s.throttle := rfl
@[simp] theorem State.charge_stage (s : State) (a c n : Nat) : (s.charge a c n).stage = s.stage := rfl
@[simp] theorem State.charge_watts (s : State) (a c n : Nat) : (s.charge a c n).watts = s.watts := rfl
@[simp] theorem State.charge_mhz10 (s : State) (a c n : Nat) : (s.charge a c n).mhz10 = s.mhz10 := rfl
@[simp] theorem State.charge_ctxSts (s : State) (a c n : Nat) : (s.charge a c n).ctxSts = s.ctxSts := rfl
@[simp] theorem State.charge_qSts (s : State) (a c n : Nat) : (s.charge a c n).qSts = s.qSts := rfl
@[simp] theorem State.charge_tlbSts (s : State) (a c n : Nat) : (s.charge a c n).tlbSts = s.tlbSts := rfl
@[simp] theorem State.charge_dbgSts (s : State) (a c n : Nat) : (s.charge a c n).dbgSts = s.dbgSts := rfl
@[simp] theorem State.charge_dmaOvr (s : State) (a c n : Nat) : (s.charge a c n).dmaOvr = s.dmaOvr := rfl
@[simp] theorem State.charge_dmaEngine (s : State) (a c n : Nat) : (s.charge a c n).dmaEngine = s.dmaEngine := rfl
@[simp] theorem State.charge_frzDma (s : State) (a c n : Nat) : (s.charge a c n).frzDma = s.frzDma := rfl
@[simp] theorem State.charge_frzHost (s : State) (a c n : Nat) : (s.charge a c n).frzHost = s.frzHost := rfl
@[simp] theorem State.charge_frzPort (s : State) (a c n : Nat) : (s.charge a c n).frzPort = s.frzPort := rfl
@[simp] theorem State.charge_frzAddr (s : State) (a c n : Nat) : (s.charge a c n).frzAddr = s.frzAddr := rfl
@[simp] theorem State.charge_rcvLen (s : State) (a c n : Nat) : (s.charge a c n).rcvLen = s.rcvLen := rfl
@[simp] theorem State.charge_rcvBusy (s : State) (a c n : Nat) : (s.charge a c n).rcvBusy = s.rcvBusy := rfl
@[simp] theorem State.charge_rcvResult (s : State) (a c n : Nat) : (s.charge a c n).rcvResult = s.rcvResult := rfl
@[simp] theorem State.charge_links (s : State) (a c n : Nat) : (s.charge a c n).links = s.links := rfl
@[simp] theorem State.charge_lseq (s : State) (a c n : Nat) : (s.charge a c n).lseq = s.lseq := rfl
@[simp] theorem State.charge_image (s : State) (a c n : Nat) : (s.charge a c n).image = s.image := rfl
@[simp] theorem State.charge_lmsIndex (s : State) (a c n : Nat) : (s.charge a c n).lmsIndex = s.lmsIndex := rfl
@[simp] theorem State.charge_attKey (s : State) (a c n : Nat) : (s.charge a c n).attKey = s.attKey := rfl
@[simp] theorem State.charge_hostLines (s : State) (a c n : Nat) : (s.charge a c n).hostLines = s.hostLines := rfl
@[simp] theorem State.charge_hdmHeld (s : State) (a c n : Nat) : (s.charge a c n).hdmHeld = s.hdmHeld := rfl
@[simp] theorem State.charge_guests (s : State) (a c n : Nat) : (s.charge a c n).guests = s.guests := rfl
@[simp] theorem State.charge_fills (s : State) (a c n : Nat) : (s.charge a c n).fills = s.fills := rfl
@[simp] theorem State.charge_invs (s : State) (a c n : Nat) : (s.charge a c n).invs = s.invs := rfl
@[simp] theorem State.charge_clLines (s : State) (a c n : Nat) : (s.charge a c n).clLines = s.clLines := rfl
@[simp] theorem State.charge_partials (s : State) (a c n : Nat) : (s.charge a c n).partials = s.partials := rfl
@[simp] theorem State.charge_checks (s : State) (a c n : Nat) : (s.charge a c n).checks = s.checks := rfl
@[simp] theorem State.charge_arrivals (s : State) (a c n : Nat) : (s.charge a c n).arrivals = s.arrivals := rfl
@[simp] theorem State.charge_objDogs (s : State) (a c n : Nat) : (s.charge a c n).objDogs = s.objDogs := rfl
@[simp] theorem State.charge_objFails (s : State) (a c n : Nat) : (s.charge a c n).objFails = s.objFails := rfl
@[simp] theorem State.charge_later (s : State) (a c n : Nat) : (s.charge a c n).later = s.later := rfl
@[simp] theorem State.charge_recWrites (s : State) (a c n : Nat) : (s.charge a c n).recWrites = s.recWrites := rfl
@[simp] theorem State.charge_dieTlb (s : State) (a c n : Nat) : (s.charge a c n).dieTlb = s.dieTlb := rfl
@[simp] theorem State.charge_ptrCache (s : State) (a c n : Nat) : (s.charge a c n).ptrCache = s.ptrCache := rfl
@[simp] theorem State.charge_misses (s : State) (a c n : Nat) : (s.charge a c n).misses = s.misses := rfl
@[simp] theorem State.charge_settling (s : State) (a c n : Nat) : (s.charge a c n).settling = s.settling := rfl
@[simp] theorem State.charge_capLogs (s : State) (a c n : Nat) : (s.charge a c n).capLogs = s.capLogs := rfl
@[simp] theorem State.charge_capVas (s : State) (a c n : Nat) : (s.charge a c n).capVas = s.capVas := rfl
@[simp] theorem State.charge_putOff (s : State) (a c n : Nat) : (s.charge a c n).putOff = s.putOff := rfl
@[simp] theorem State.charge_lastWin (s : State) (a c n : Nat) : (s.charge a c n).lastWin = s.lastWin := rfl
@[simp] theorem State.charge_engines (s : State) (a c n : Nat) : (s.charge a c n).engines = s.engines := rfl
@[simp] theorem State.charge_markings (s : State) (a c n : Nat) : (s.charge a c n).markings = s.markings := rfl
@[simp] theorem State.charge_revoking (s : State) (a c n : Nat) : (s.charge a c n).revoking = s.revoking := rfl
@[simp] theorem State.charge_heldCmd (s : State) (a c n : Nat) : (s.charge a c n).heldCmd = s.heldCmd := rfl
@[simp] theorem State.charge_snapClk (s : State) (a c n : Nat) : (s.charge a c n).snapClk = s.snapClk := rfl
@[simp] theorem State.charge_freeCtr (s : State) (a c n : Nat) : (s.charge a c n).freeCtr = s.freeCtr := rfl
@[simp] theorem State.charge_bringUp (s : State) (a c n : Nat) : (s.charge a c n).bringUp = s.bringUp := rfl
@[simp] theorem State.charge_devIndex (s : State) (a c n : Nat) : (s.charge a c n).devIndex = s.devIndex := rfl
@[simp] theorem State.charge_powerClk (s : State) (a c n : Nat) : (s.charge a c n).powerClk = s.powerClk := rfl
@[simp] theorem State.charge_stopRecs (s : State) (a c n : Nat) : (s.charge a c n).stopRecs = s.stopRecs := rfl
@[simp] theorem State.charge_regWrites (s : State) (a c n : Nat) : (s.charge a c n).regWrites = s.regWrites := rfl
@[simp] theorem State.charge_heldMsgs (s : State) (a c n : Nat) : (s.charge a c n).heldMsgs = s.heldMsgs := rfl

end Sys2Proof.Machine
end

