-- ==== Sys2Proof/Laws/Words.lean ====
section
/-!
SUPPORT. Sys2Proof/Laws/Words.lean: what a word's issue and its end can do: one lemma for each way that `runWord` ends, and
`retire_retired`, which says once what the end of a word changes.
-/

namespace Sys2Proof.Machine

/-- The checks that a word passes before its meaning (03 R78, 17 R331). -/
structure Passes (x : Insn) (g : Group) (imm : BitVec 64) : Prop where
  privilege : x.sig.privileged = true → g.trapMode = true
  immediate : x.immediate g.exts = some imm
  form : x.formOk g = true
  step : g.inStep = true → stepCheck x g imm = none

theorem State.Issues.list {s : State} {a : Nat} {g : Group} {b : Block} (h : s.Issues a g b) : ∃ r, s.issue = a :: r := by
  have := h.slot
  cases hs : s.issue with
  | nil => simp [hs] at this
  | cons x r => simp [hs] at this; exact ⟨r, by rw [this]⟩

theorem issueWord_run {s : State} {a : Nat} {g : Group} {b : Block} (h : s.Issues a g b) (x : Insn) (ok : Iss → Bool)
    (body : State → Iss → Res) : issueWord x ok body s = .next (s.runWord ⟨a, g, b, x, 0, g.pc⟩ ok body) := by
  obtain ⟨r, hr⟩ := h.list
  simp [issueWord, hr, h.group, h.block]

/-- A word that passes its checks does what its meaning says. -/
theorem runWord_body {s : State} {a : Nat} {g : Group} {b : Block} {x : Insn} {imm : BitVec 64} {ok : Iss → Bool}
    {body : State → Iss → Res} (hr : (s.core (coreOf a)).resultsDue a = []) (hc : g.poison = []) (hp : Passes x g imm)
    (hok : ok ⟨a, g, b, x, imm, g.pc⟩ = true) :
    s.runWord ⟨a, g, b, x, 0, g.pc⟩ ok body =
      match body s ⟨a, g, b, x, imm, g.pc⟩ with
      | .done s mv cls n => s.retire ⟨a, g, b, x, imm, g.pc⟩ mv cls n
      | .trap t cause addr aux => (t.uncount s (coreOf a)).takeTrap a cause addr aux g.wordPc g.onB
      | .trapNext s cause addr aux =>
        (((s.charge a (energyClass x.op) 1).charge a 0 g.exts.length).countWords (coreOf a) (g.exts.length + 1) g.startsRun).takeTrap a cause
          addr aux (if g.trapMode then g.wordPc else g.pc + 4) g.onB
      | .wait s code dep => s.suspend ⟨a, g, b, x, imm, g.pc⟩ code dep
      | .later s => s.putOffWord a := by
  have hpr : (x.sig.privileged && !g.trapMode) = false := by
    cases h1 : x.sig.privileged <;> cases h2 : g.trapMode <;> simp_all [hp.privilege]
  have hst : (if g.inStep = true then stepCheck x g imm else none) = none := by
    split
    · next h => exact hp.step h
    · rfl
  have hw : ∀ m, (⟨a, g, b, x, m, g.pc⟩ : Iss).awaitsResults s = false := fun m => by simp [Iss.awaitsResults, hr]
  simp only [State.runWord, hpr, hp.immediate, hp.form, hok, hst, hw, hc]
  simp
  rfl

theorem issueWord_done {s : State} {a : Nat} {g : Group} {b : Block} {x : Insn} {imm : BitVec 64} {ok : Iss → Bool}
    {body : State → Iss → Res} {u : State} {mv : PcMove} {cls n : Nat} (h : s.Issues a g b) (hp : Passes x g imm)
    (hok : ok ⟨a, g, b, x, imm, g.pc⟩ = true) (hb : body s ⟨a, g, b, x, imm, g.pc⟩ = .done u mv cls n) :
    issueWord x ok body s = .next (u.retire ⟨a, g, b, x, imm, g.pc⟩ mv cls n) := by
  rw [issueWord_run h, runWord_body h.results h.clean hp hok, hb]

theorem issueWord_trap {s : State} {a : Nat} {g : Group} {b : Block} {x : Insn} {imm : BitVec 64} {ok : Iss → Bool}
    {body : State → Iss → Res} {u : State} {cause : Nat} {addr aux : BitVec 64} (h : s.Issues a g b) (hp : Passes x g imm)
    (hok : ok ⟨a, g, b, x, imm, g.pc⟩ = true) (hb : body s ⟨a, g, b, x, imm, g.pc⟩ = .trap u cause addr aux) :
    issueWord x ok body s = .next ((u.uncount s (coreOf a)).takeTrap a cause addr aux g.wordPc g.onB) := by
  rw [issueWord_run h, runWord_body h.results h.clean hp hok, hb]

/-- A word that has counted nothing gives no count back when it traps. -/
@[simp] theorem uncount_self (s : State) (c : Nat) : s.uncount s c = s := by simp [State.uncount]

theorem issueWord_later {s : State} {a : Nat} {g : Group} {b : Block} {x : Insn} {imm : BitVec 64} {ok : Iss → Bool}
    {body : State → Iss → Res} {u : State} (h : s.Issues a g b) (hp : Passes x g imm)
    (hok : ok ⟨a, g, b, x, imm, g.pc⟩ = true) (hb : body s ⟨a, g, b, x, imm, g.pc⟩ = .later u) :
    issueWord x ok body s = .next (u.putOffWord a) := by
  rw [issueWord_run h, runWord_body h.results h.clean hp hok, hb]

theorem issueWord_wait {s : State} {a : Nat} {g : Group} {b : Block} {x : Insn} {imm : BitVec 64} {ok : Iss → Bool}
    {body : State → Iss → Res} {u : State} {code : GState} {dep : Dep} (h : s.Issues a g b) (hp : Passes x g imm)
    (hok : ok ⟨a, g, b, x, imm, g.pc⟩ = true) (hb : body s ⟨a, g, b, x, imm, g.pc⟩ = .wait u code dep) :
    issueWord x ok body s = .next (u.suspend ⟨a, g, b, x, imm, g.pc⟩ code dep) := by
  rw [issueWord_run h, runWord_body h.results h.clean hp hok, hb]

/-- Where the PC of the issuing path goes. -/
def PcMove.apply (mv : PcMove) (next : BitVec 57) (g : Group) : Group :=
  match mv with
  | .next => g.moveTo next
  | .to pc => g.moveTo pc
  | .stay => g

/-- The counters of core c of t apart, core c of t is that of u. -/
theorem core_count (u : State) (c i n d : Nat) : { (u.countUp c i n).core d with ctr := (u.core d).ctr } = u.core d := by
  unfold State.countUp
  by_cases h : d = c
  · subst h; simp [Core.count]
  · rw [State.updCore_core_ne _ _ h]

/-- A group that has not exited adds nothing to its block. -/
theorem groupExit_live {s : State} {i : Iss} {g : Group} (hg : s.grp i.agent = some g) (hx : g.state ≠ .exited) :
    s.groupExit i = s := by
  simp [State.groupExit, hg, hx]

/-- What a group keeps of ENERGY charged to it. -/
theorem charge_grp_self {s : State} {a : Nat} {g : Group} (c n : Nat) (hg : s.grp a = some g) :
    (s.charge a c n).grp a = some { g with energy := g.energy + BitVec.ofNat 64 (s.weight c * n) } := by
  simp [State.charge, hg]

theorem charge_grp_ne {s : State} {a b : Nat} (c n : Nat) (h : b ≠ a) : (s.charge a c n).grp b = s.grp b :=
  State.updGrp_grp_ne _ _ h

theorem moveTo_energy (g : Group) (pc : BitVec 57) (e : BitVec 64) :
    ({ g with energy := e } : Group).moveTo pc = { g.moveTo pc with energy := e } := by
  unfold Group.moveTo Group.setPath
  split <;> rfl

theorem apply_energy (mv : PcMove) (next : BitVec 57) (g : Group) (e : BitVec 64) :
    mv.apply next { g with energy := e } = { mv.apply next g with energy := e } := by
  cases mv
  · exact moveTo_energy g next e
  · exact moveTo_energy g _ e
  · rfl

@[simp] theorem moveTo_state (g : Group) (pc : BitVec 57) : (g.moveTo pc).state = g.state := by
  unfold Group.moveTo Group.setPath; split <;> rfl
@[simp] theorem moveTo_cap (g : Group) (pc : BitVec 57) : (g.moveTo pc).cap = g.cap := by
  unfold Group.moveTo Group.setPath; split <;> rfl
theorem apply_state (mv : PcMove) (next : BitVec 57) (g : Group) : (mv.apply next g).state = g.state := by
  cases mv <;> simp [PcMove.apply]

/-- A group before its run may end (`retire`), `g` as its word left it. -/
structure AtEnd (h g : Group) : Prop where
  state : h.state = g.state
  rest : h = { g with exts := [], runWords := h.runWords, energy := h.energy, woke := false, sent := false, going := [],
                      cap := { g.cap with words := h.cap.words } }

theorem AtEnd.same {h g : Group} (x : AtEnd h g) : h.Same g := by
  refine ⟨?_, .inl x.state⟩
  obtain ⟨h1, h2⟩ := x
  rw [h2]

theorem AtEnd.ended {h g : Group} (x : AtEnd h g) (r p : Nat) :
    ({ h with state := if h.state = .issuing then .ready else h.state, runWords := 0, readyClk := r, promo := p } : Group).Same g := by
  obtain ⟨h1, h2⟩ := x
  refine ⟨by rw [h2], ?_⟩
  by_cases hi : h.state = .issuing
  · exact .inr ⟨h1 ▸ hi, if_pos hi⟩
  · exact .inl ((if_neg hi).trans h1)

theorem retireWord_atEnd (g : Group) (next : BitVec 57) (mv : PcMove) (k : Nat) (b : Bool) :
    AtEnd (g.retireWord next mv k b) (mv.apply next g) := by
  constructor
  · cases mv <;> simp [Group.retireWord, PcMove.apply]
  · cases mv <;> simp only [Group.retireWord, PcMove.apply] <;> split <;> rfl

theorem AtEnd.energy {h g : Group} {mv : PcMove} {next : BitVec 57} {e : BitVec 64}
    (x : AtEnd h (mv.apply next { g with energy := e })) : AtEnd h (mv.apply next g) := by
  rw [apply_energy] at x
  exact ⟨x.state, x.rest⟩

/-- The state and the group after one more part of a word's end. -/
structure Touch (u t : State) (a : Nat) (f : Group → Group) : Prop where
  rest : ∃ gs cs rs l, t = { u with groups := gs, cores := cs, extReqs := rs, issue := l }
  others : ∀ b, b ≠ a → t.grp b = u.grp b
  cores : ∀ c, { t.core c with ctr := (u.core c).ctr } = u.core c
  requests : ∀ r ∈ t.extReqs, r ∈ u.extReqs
  group : t.grp a = (u.grp a).map f

theorem Touch.trans {u t w : State} {a : Nat} {f h : Group → Group} (x : Touch u t a f) (y : Touch t w a h) :
    Touch u w a (h ∘ f) where
  rest := by
    obtain ⟨_, _, _, _, rfl⟩ := x.rest
    obtain ⟨gs, cs, rs, l, e⟩ := y.rest
    exact ⟨gs, cs, rs, l, e⟩
  others := fun b hb => (y.others b hb).trans (x.others b hb)
  cores := fun c => by rw [← x.cores c, ← y.cores c]
  requests := fun r hr => x.requests r (y.requests r hr)
  group := by rw [y.group, x.group, Option.map_map]

theorem Touch.updGrp (u : State) (a : Nat) (f : Group → Group) : Touch u (u.updGrp a f) a f where
  rest := ⟨_, _, _, _, rfl⟩
  others := fun _ hb => State.updGrp_grp_ne _ _ hb
  cores := fun _ => rfl
  requests := fun _ h => h
  group := State.updGrp_grp_self _ _ _

theorem Touch.countUp (u : State) (a c i n : Nat) : Touch u (u.countUp c i n) a id where
  rest := ⟨_, _, _, _, rfl⟩
  others := fun _ _ => rfl
  cores := fun _ => core_count _ _ _ _ _
  requests := fun _ h => h
  group := by rw [State.countUp_grp, Option.map_id, id]

theorem Touch.countWords (u : State) (a c n : Nat) (first : Bool) : Touch u (u.countWords c n first) a id where
  rest := ⟨_, _, _, _, rfl⟩
  others := fun _ _ => rfl
  cores := fun d => by
    unfold State.countWords
    by_cases h : d = c
    · subst h; simp [Core.count]
    · rw [State.updCore_core_ne _ _ h]
  requests := fun _ h => h
  group := by rw [Option.map_id, id]; rfl

theorem Touch.requests' (u : State) (a : Nat) (p : ExtReq → Bool) : Touch u { u with extReqs := u.extReqs.filter p } a id where
  rest := ⟨_, _, _, _, rfl⟩
  others := fun _ _ => rfl
  cores := fun _ => rfl
  requests := fun _ h => (List.mem_filter.1 h).1
  group := by rw [Option.map_id, id]; rfl

theorem Touch.slots (u : State) (a : Nat) (l : List Nat) : Touch u { u with issue := l } a id where
  rest := ⟨_, _, _, _, rfl⟩
  others := fun _ _ => rfl
  cores := fun _ => rfl
  requests := fun _ h => h
  group := by rw [Option.map_id, id]; rfl

theorem retireWord_touch (u : State) (i : Iss) (mv : PcMove) (cls n : Nat) :
    ∃ e : BitVec 64, Touch u (u.retireWord i mv cls n) i.agent fun g =>
      ({ g with energy := g.energy + e } : Group).retireWord i.next mv i.g.exts.length (i.g.inStep && i.x.op != 0x291) := by
  have t1 := Touch.updGrp u i.agent fun g => { g with energy := g.energy + BitVec.ofNat 64 (u.weight cls * n) }
  have t2 := Touch.updGrp (u.charge i.agent cls n) i.agent
    fun g => { g with energy := g.energy + BitVec.ofNat 64 ((u.charge i.agent cls n).weight 0 * i.g.exts.length) }
  have t3 := Touch.countWords ((u.charge i.agent cls n).charge i.agent 0 i.g.exts.length) i.agent i.core (i.g.exts.length + 1) i.g.startsRun
  have t4 := Touch.updGrp (((u.charge i.agent cls n).charge i.agent 0 i.g.exts.length).countWords i.core (i.g.exts.length + 1) i.g.startsRun) i.agent
    fun g => g.retireWord i.next mv i.g.exts.length (i.g.inStep && i.x.op != 0x291)
  have t5 := Touch.requests' ((((u.charge i.agent cls n).charge i.agent 0 i.g.exts.length).countWords i.core (i.g.exts.length + 1) i.g.startsRun).updGrp i.agent
    fun g => g.retireWord i.next mv i.g.exts.length (i.g.inStep && i.x.op != 0x291)) i.agent fun r => r.write || r.agent != i.agent
  refine ⟨BitVec.ofNat 64 (u.weight cls * n) + BitVec.ofNat 64 ((u.charge i.agent cls n).weight 0 * i.g.exts.length), ?_⟩
  have t := (((t1.trans t2).trans t3).trans t4).trans t5
  have hf : (id ∘ (fun g => Group.retireWord g i.next mv i.g.exts.length (i.g.inStep && i.x.op != 0x291)) ∘ id ∘
      (fun g : Group => { g with energy := g.energy + BitVec.ofNat 64 ((u.charge i.agent cls n).weight 0 * i.g.exts.length) }) ∘
      fun g : Group => { g with energy := g.energy + BitVec.ofNat 64 (u.weight cls * n) }) =
      fun g => ({ g with energy := g.energy + (BitVec.ofNat 64 (u.weight cls * n) + BitVec.ofNat 64 ((u.charge i.agent cls n).weight 0 * i.g.exts.length)) } : Group).retireWord i.next mv i.g.exts.length (i.g.inStep && i.x.op != 0x291) := by
    funext g
    simp only [Function.comp, id, BitVec.add_assoc]
  rw [← hf]
  exact t

theorem Touch.retired {u t : State} {a : Nat} {f : Group → Group} {g h : Group} (x : Touch u t a f) (hg : u.grp a = some g)
    (hs : (f g).Same h) : Retired u t a h where
  rest := x.rest
  others := x.others
  cores := x.cores
  requests := x.requests
  group := ⟨f g, by rw [x.group, hg]; rfl, hs⟩

/-- The end of a word changes only what `Retired` names. -/
theorem retire_retired {u : State} {i : Iss} {mv : PcMove} {cls n : Nat} {g : Group} (hg : u.grp i.agent = some g)
    (hx : g.state ≠ .exited) : Retired u (u.retire i mv cls n) i.agent (mv.apply i.next g) := by
  obtain ⟨e, x⟩ := retireWord_touch u i mv cls n
  have he : AtEnd (({ g with energy := g.energy + e } : Group).retireWord i.next mv i.g.exts.length (i.g.inStep && i.x.op != 0x291))
      (mv.apply i.next g) := (retireWord_atEnd _ _ _ _ _).energy
  unfold State.retire
  simp only
  split
  · exact (x.trans (Touch.slots _ _ _)).retired hg he.same
  · split
    · have y := (x.trans (Touch.slots _ _ ((u.retireWord i mv cls n).issue.filter fun z => z != i.agent))).trans
        (Touch.updGrp ((u.retireWord i mv cls n).leaveSlot i.agent) i.agent fun g =>
          { g with state := if g.state = .issuing then .ready else g.state, runWords := 0, readyClk := (u.retireWord i mv cls n).clk.toNat, promo := 0 })
      have z := y.retired (h := mv.apply i.next g) hg (he.ended _ _)
      obtain ⟨h', hh, hs⟩ := z.group
      rw [groupExit_live (g := h')]
      · exact z
      · exact hh
      · rcases hs.2 with h1 | h1
        · rw [h1, apply_state]; exact hx
        · rw [h1.2]; simp
    · exact (x.trans (Touch.slots _ _ _)).retired hg he.same

/-- A word whose meaning completes: its next state, up to the end of the word. -/
theorem completes_of {i : Instr} {s : State} {a : Nat} {g : Group} {b : Block} {x : Insn} {imm : BitVec 64} {ok : Iss → Bool}
    {body : State → Iss → Res} {u : State} {mv : PcMove} {cls n : Nat} {gu : Group} (hi : exec i s = issueWord x ok body s)
    (h : s.Issues a g b) (hp : Passes x g imm) (hok : ok ⟨a, g, b, x, imm, g.pc⟩ = true)
    (hb : body s ⟨a, g, b, x, imm, g.pc⟩ = .done u mv cls n) (hg : u.grp a = some gu) (hx : gu.state ≠ .exited) :
    Completes i s u a (mv.apply (g.pc + 4) gu) :=
  ⟨_, hi.trans (issueWord_done h hp hok hb), retire_retired (i := ⟨a, g, b, x, imm, g.pc⟩) hg hx⟩

/-- A word that changes only its group. -/
theorem Completes.of_group {i : Instr} {s : State} {a : Nat} {g' : Group} {f : Group → Group}
    (h : Completes i s (s.updGrp a f) a g') : Completes i s s a g' := by
  obtain ⟨t, ht, r⟩ := h
  exact ⟨t, ht, { rest := r.rest, others := fun b hb => (r.others b hb).trans (State.updGrp_grp_ne _ _ hb), cores := r.cores,
                  requests := r.requests, group := r.group }⟩

end Sys2Proof.Machine
end

