-- ==== Sys2Proof/Tests/Slice0.lean ====
section
/-!
SUPPORT. Sys2Proof/Tests/Slice0.lean: the model's own tests: ill-formed terms refused, words of the spec decoded, small steps, and for each
statement of the obligations states and operands that meet the hypotheses of its clauses.
-/

namespace Sys2Proof.Tests

set_option Elab.async false

open Sys2Proof Sys2Proof.Machine

/-! ### Small states -/

/-- A state in which one group issues a word next. -/
def s0 : State := State.reset.placeWord 0
/-- That state with the group changed. -/
def grpOf (f : Group → Group) : State := s0.updGrp 0 f
/-- The group in trap mode. -/
def trapG (g : Group) : Group := { g with trapMode := true }
/-- The group with some scalars. -/
def sregs (l : List (Nat × Nat)) (g : Group) : Group := l.foldl (fun g x => g.setS x.1 (BitVec.ofNat 64 x.2)) g
/-- The group with a MODE. -/
def moded (m : Nat) (g : Group) : Group := { g with mode := BitVec.ofNat 32 m }
/-- The group with prefixes. -/
def extsG (l : List (BitVec 21)) (g : Group) : Group := { g with exts := l }
/-- The group inside a capsule step of a line at 0x12000. -/
def stepG (g : Group) : Group := { g with cap := { g.cap with role := 1, cmode := false, line := 0x12000, cseq := 1 } }
/-- MODE with ET and ET2, under RNE and scope 0. -/
def ets (et et2 : Nat) : Nat := et * 2 ^ 5 + et2 * 2 ^ 9
/-- Every check of a list. -/
def allOf (l : List Bool) : Bool := l.all id

/-- Group 0 issues next in s, and P holds of it and its block. -/
def holdsAt (s : State) (P : State → Group → Block → Bool) : Bool :=
  match s.issue.head?, s.grp 0 with
  | some 0, some g =>
    match s.blk g.block with
    | some b => g.state != .exited && (s.core (coreOf 0)).resultsDue 0 == [] && g.poison == [] && P s g b
    | none => false
  | _, _ => false

/-- What `holdsAt` decides: a group that issues, with the property. -/
theorem holdsAt_issues {s : State} {P : State → Group → Block → Bool} (h : holdsAt s P = true) :
    ∃ g b, s.Issues 0 g b ∧ P s g b = true := by
  unfold holdsAt at h
  split at h
  · next h1 h2 =>
    split at h
    · next b h3 =>
      simp only [Bool.and_eq_true, bne_iff_ne, beq_iff_eq] at h
      exact ⟨_, b, ⟨h1, h2, h3, h.1.1.1, h.1.1.2, h.1.2⟩, h.2⟩
    · cases h
  · cases h

/-- The context with a translation table of one level, TVEC and SPILL in the mapped page; its tables lie at 0x20000. -/
def mapped (s : State) : State :=
  { (s.updCtx 0 fun c => { c with ptroot := 0x20000, tvec := 0x10000, spill := 0x18000, wptab := 0x19000, montab := 0x1A000 }) with
    mem := writeLE s.mem 0x20008 8 0x10DE1 }
/-- The context with tables whose page the handler alone may use. -/
def mappedSys (s : State) : State :=
  { mapped s with mem := writeLE s.mem 0x20008 8 0x10FE1 }
/-- The check of an access of group 0 gives this place. -/
def placed (s : State) (g : Group) (b : Block) (c : Acc) (p : Place) : Bool := s.checkAcc 0 g b c == .ok p

/-! ### Ill-formed terms, decoded words -/

theorem test_ill_context : wellFormed (.ctxLoad 256) = false ∧ wellFormed (.ctxLoad 255) = true := by decide
theorem test_ill_queue : wellFormed (.queueOpen 1024) = false ∧ wellFormed (.queueOpen 1023) = true := by decide

/-! ### Steps, words, traps -/

/-- The ways that a step goes: a word of memory, a word, a fetch that stops, an event, and a clock that passes. -/
theorem witness_step : allOf [
    holdsAt s0 fun s g b => s.nextEvent.isNone && s.turn == some 0 && s.writes == [] && !g.trapMode && !s.poisoned 0x10000 4 &&
      (s.takeTurn 0).translate (coreOf 0) b.ctx g.pc.toNat .fetch g.trapMode == .ok 0x10000 && (s.takeTurn 0).isMemory 0x10000 && (s.takeTurn 0).inReach 0 0x10000 &&
      ((s.ctx b.ctx).wpHit .fetch g.pc.toNat 4 none false).isNone,
    s0.nextEvent.isNone && (match s0.fetchNext with | some (.word _ _) => true | _ => false),
    (let s := grpOf fun g => g.moveTo 0x50000; s.nextEvent.isNone && (match s.fetchNext with | some (.stop _) => true | _ => false)),
    ({ s0 with agenda := [.scrub] }).nextEvent.isSome,
    (let s := { s0 with issue := [], groups := [], blocks := [] }; s.nextEvent.isNone && s.fetchNext.isNone)] = true := by decide +kernel

theorem witness_encoding : WellFormed (.sadd false 1 2 31) ∧ encode (.sadd false 1 2 31) = some 0x0020411F := by decide +kernel
theorem witness_memory_form : Memory.wf s0.mem = true ∧ (match step s0 with | .next _ => true | _ => false) = true := by decide +kernel

theorem witness_words_that_trap : allOf [
    holdsAt s0 fun _ g _ => g.trapMode == false,
    holdsAt (grpOf (extsG [1])) fun _ g _ => (sigOf 0x050).any (fun x => x.fmt != .X && x.fmt.immWidth == 0 && !x.privileged) && g.exts != [],
    holdsAt s0 fun _ g _ => (sigOf 0x001).any fun x => !(x.d.fits g.kregs 32) && x.fmt != .X,
    holdsAt (grpOf trapG) fun _ g _ => (sigOf 0x063).any fun x => x.privileged && g.trapMode] = true := by decide +kernel

theorem witness_prefix : allOf [
    holdsAt (grpOf fun g => { extsG [7] g with runWords := 21 }) fun _ g _ => g.exts.length == 1 && g.runWords + 2 == 23,
    holdsAt (grpOf (extsG [7, 8])) fun _ g _ => 2 ≤ g.exts.length,
    holdsAt (grpOf fun g => { g with runWords := 23 }) fun _ g _ => g.exts == [] && g.runWords + 1 == 24] = true := by decide +kernel

/-- The fetch of the handler of a pending entry of group 0 finds a MIGRATING leaf, once the frame is written. -/
def handlerMigrates (s t : State) (g : Group) (e : PendEntry) : Bool :=
  let f := s.frameVa 0 0
  match s.direct 0 f .write true with
  | (.ok pa, _) =>
    (match (((t.drainCore 0).l1Store 0 pa 128 g.frame).performWrite ⟨0, 0, 0, f, pa, 128, g.frame, none, 0, []⟩).translate 0 0
      ((s.ctx 0).tvec.toNat / 4096 * 4096 + e.cause * 64) .fetch true with
     | .migrating _ => true
     | _ => false)
  | _ => false

theorem witness_trap_entry : allOf [
    holdsAt s0 fun s g b => s.traced 0 == false && !g.trapMode && !g.inStep && b.ctx == 0 && (s.accDrain 0).grp 0 == some g,
    (let e : PendEntry := ⟨5, false, false⟩
     let s := mappedSys (grpOf fun g => { trapG g with entry := some e, state := .trapped })
     match s.grp 0, s.direct 0 (s.frameVa 0 0) .write true with
     | some g, (.ok pa, t) => g.entry == some e && g.trapMode && t.grp 0 == some g && t.isHbmOrSecond pa && t.inReach 0 pa && t.writes == [] &&
         Memory.wf t.mem && (t.ctx 0).tvec == (s.ctx 0).tvec && pa == 0x11000 && !(handlerMigrates s t g e)
     | _, _ => false),
    (let e : PendEntry := ⟨5, false, false⟩
     let m := mappedSys (grpOf fun g => { trapG g with entry := some e, state := .trapped })
     let s := { m.updCtx 0 fun c => { c with tvec := 0x2F000 } with mem := writeLE (writeLE m.mem 0x20010 8 0x20FE5) 0x20018 8 0x30FE1 }
     match s.grp 0, s.direct 0 (s.frameVa 0 0) .write true with
     | some g, (.ok pa, t) => g.entry == some e && g.trapMode && t.grp 0 == some g && t.isHbmOrSecond pa && t.inReach 0 pa && t.writes == [] &&
         Memory.wf t.mem && (t.ctx 0).tvec == (s.ctx 0).tvec && pa == 0x30000 && handlerMigrates s t g e
     | _, _ => false),
    holdsAt (grpOf trapG) fun s g b => g.trapMode && !g.inStep && (s.ctx b.ctx).state == .running && s.writes == [] && s.markings == [] &&
      g.cap.role == 0 && (s.core 0).accQ == []] = true := by decide +kernel

theorem witness_trap_return : allOf [
    (let s := mappedSys (grpOf trapG)
     match s.grp 0, s.direct 0 (s.frameVa 0 0) .read true with
     | some g, (.ok pa, r) => g.exts == [] && !g.inStep && g.trapMode && g.path0.isSome && s.writes == [] && g.cap.role == 0 && !(s.traced 0) &&
         r.groups == s.groups && r.isMemory pa && r.inReach 0 pa && !(r.poisoned pa 64) && !(r.traced 0)
     | _, _ => false)] = true := by decide +kernel

/-- A state in which the home of the line at 0x12000 waits for a host (19 R374). -/
def farS (s : State) : State := { s with hdmHeld := [0x120] }
/-- Group 0 is about to issue in s, its results awaited or not, and P holds. -/
def aboutTo (s : State) (P : State → Group → Bool) : Bool :=
  match s.issue.head?, s.grp 0 with
  | some 0, some g => (s.blk g.block).isSome && g.state != .exited && g.exts == [] && !g.inStep && P s g
  | _, _ => false

/-! ### Scalars and control -/

theorem witness_scalar_results : allOf [
    holdsAt s0 fun _ g _ => g.exts == [] && !g.inStep,
    holdsAt (grpOf stepG) fun _ g _ => g.exts == [] && g.inStep && g.cap.words + g.exts.length != 23,
    holdsAt (grpOf (extsG [0x1FFFFF, 0x1FFFFF])) fun _ g _ => (signedImm g.exts 7 0x7F).isSome,
    holdsAt (grpOf (extsG [1, 0])) fun _ g _ => (signedImm g.exts 14 0).isSome,
    holdsAt s0 fun _ g _ => rawImm g.exts 7 63 ≤ 63 && rawImm g.exts 7 64 == 64,
    holdsAt s0 fun _ g _ => rawImm g.exts 7 127 ≤ 127,
    holdsAt (grpOf (extsG [1])) fun _ g _ => 127 < rawImm g.exts 7 0] = true := by decide +kernel

theorem witness_control_words : allOf [
    holdsAt s0 fun _ g _ => (signedImm g.exts 21 0x1FFFFF).isSome && !g.inStep,
    holdsAt (grpOf (extsG [0x10000, 0])) fun _ g _ => signedImm g.exts 21 0 == none,
    holdsAt (grpOf stepG) fun _ g _ => (signedImm g.exts 21 5).any (fun m => decide (0 < m.toInt)) && g.inStep && g.cap.words + g.exts.length != 23,
    holdsAt (grpOf stepG) fun _ g _ => RegKind.scalar.fits g.kregs 31 && g.inStep,
    holdsAt s0 fun _ g _ => RegKind.pred.fits g.kregs 7,
    holdsAt s0 fun _ g _ => !g.inStep && g.otherPath == none && g.depth == 0,
    holdsAt (grpOf fun g => { trapG g with depth := 1 }) fun _ g _ => g.trapMode && !g.inStep,
    holdsAt (grpOf fun g => { g with depth := 1 }) fun _ g _ => !g.trapMode && g.depth != 0,
    holdsAt (grpOf fun g => { g with path1 := some ⟨0x10040, 0xF0, 3, 0⟩ }) fun _ g _ => !g.trapMode && g.otherPath != none,
    holdsAt (grpOf (sregs [(15, 0x10040)])) fun _ g _ => g.exts == [] && (g.sreg 15).toNat % 4 == 0,
    holdsAt (grpOf (sregs [(15, 0x10042)])) fun _ g _ => (g.sreg 15).toNat % 4 != 0,
    holdsAt (grpOf (sregs [(3, 0x10041)])) fun _ g _ => (signedImm g.exts 14 1).any fun m =>
      ((g.sreg 3).truncate 57 + 4 * m.truncate 57 : BitVec 57).toNat % 4 != 0,
    holdsAt s0 fun _ g _ => rawImm g.exts 14 0x3FFF ≤ 0xFFFF,
    holdsAt (grpOf (extsG [4])) fun _ g _ => 0xFFFF < rawImm g.exts 14 0] = true := by decide +kernel

/-- A group on the path of slot 0 with a tag, beside another path or alone, with an entry below the top of its divergence stack. -/
def splitS (tag : BitVec 16) (other : Option Path) (top : Option StackEntry) : State :=
  let s := mapped (grpOf fun g => { (g.setP 0 0x03).setPath (some ⟨0x10000, 0x0F, tag, 0⟩) with path1 := other, depth := top.isSome.toNat })
  { s with mem := writeLE s.mem 0x18000 16 ((top.map StackEntry.code).getD 0) }
/-- The other path of a split. -/
def sister : Path := ⟨0x10040, 0xF0, 3, 0⟩
/-- The entry of group 0's divergence stack at depth 0 can be written, or read with a value. -/
def pushOk (s : State) (g : Group) (b : Block) (e : StackEntry) : Bool :=
  placed s g b (Claims.stackAcc s 0 b 0 .write (some e.code)) (.mem 0x18000)
def popOk (s : State) (g : Group) (b : Block) (p : StackEntry → Bool) : Bool :=
  placed s g b (Claims.stackAcc s 0 b 0 .read none) (.mem 0x18000) &&
  match Claims.readAt s 0 g 0 false 16 (.mem 0x18000) with
  | some (v, u) => p (StackEntry.ofCode v) && (u.grp 0).any fun h => h.state != .exited
  | none => false

theorem witness_divergence : allOf [
    holdsAt (grpOf fun g => g.setP 0 0xFF) fun _ g _ => !g.inStep && g.path.isSome && g.preg 0 &&& g.mask == g.mask && (signedImm g.exts 14 1).isSome,
    holdsAt s0 fun _ g _ => g.preg 0 &&& g.mask == 0 && g.preg 0 &&& g.mask != g.mask,
    holdsAt (grpOf fun g => trapG (g.setP 0 1)) fun _ g _ => g.preg 0 &&& g.mask != 0 && g.preg 0 &&& g.mask != g.mask && g.trapMode,
    holdsAt (grpOf fun g => g.setP 0 0x80) fun _ g _ => g.preg 0 &&& g.mask != 0 && g.preg 0 &&& g.mask != g.mask && !g.trapMode && g.otherPath == none,
    holdsAt (splitS 2 (some sister) none) fun s g b => g.preg 0 &&& g.mask != 0 && g.preg 0 &&& g.mask != g.mask && !g.trapMode &&
      g.otherPath != none && decide (g.depth < 256) && pushOk s g b ⟨Claims.branchTo g 1, g.preg 0 &&& g.mask, false, g.splitC + 1, 2⟩,
    holdsAt ((splitS 2 (some sister) none).updGrp 0 fun g => { g with depth := 256 }) fun _ g _ => g.preg 0 &&& g.mask != 0 &&
      g.preg 0 &&& g.mask != g.mask && g.otherPath != none && decide (256 ≤ g.depth),
    holdsAt (grpOf trapG) fun _ g _ => g.exts == [] && !g.inStep && g.trapMode,
    holdsAt s0 fun _ g _ => g.exts == [] && !g.inStep && !g.trapMode && g.path.any fun p => decide (p.tag.toNat < 2),
    holdsAt (splitS 2 none none) fun _ g _ => g.depth == 0 && !(Claims.siblingBeside g 2),
    holdsAt (splitS 2 (some sister) none) fun s g b => g.depth == 0 && Claims.siblingBeside g 2 && pushOk s g b ⟨g.pc + 4, 0x0F, true, 2, 0⟩ &&
      pushOk s g b ⟨0, 0, true, 2, 0⟩,
    holdsAt (splitS 3 none (some ⟨0x10040, 0xF0, true, 2, 0⟩)) fun s g b => g.depth == 1 && !(Claims.siblingBeside g 3) &&
      popOk s g b fun w => w.join && w.tag == 3 ^^^ 1 && w.mask == 0xF0,
    holdsAt s0 fun s g b => g.otherPath == none && g.depth == 0 && !(s.traced b.ctx) && (g.path.any fun p => decide (p.tag.toNat < 2)),
    holdsAt (splitS 0 (some sister) none) fun _ g _ => g.otherPath != none && g.depth == 0 && (g.path.any fun p => decide (p.tag.toNat < 2)),
    holdsAt (splitS 0 none (some ⟨0x10040, 0xF0, false, 3, 0⟩)) fun s g b => g.depth == 1 && popOk s g b fun w => !w.join] = true := by decide +kernel

/-! ### System words -/

theorem witness_mode_words : allOf [
    holdsAt (grpOf (sregs [(0, 0x7FF)])) fun _ g _ => (g.sreg 0).toNat < 2 ^ 27 && !(modeLegal ((g.sreg 0).truncate 32)),
    holdsAt (grpOf (sregs [(0, ets 12 12)])) fun _ g _ => (g.sreg 0).toNat < 2 ^ 27 && modeLegal ((g.sreg 0).truncate 32),
    holdsAt (grpOf (sregs [(0, 2 ^ 27)])) fun _ g _ => 2 ^ 27 ≤ (g.sreg 0).toNat,
    holdsAt s0 fun _ g _ => (modeField 1).any fun x => decide (rawImm g.exts 14 12 < 2 ^ x.2.1 ∧ rawImm g.exts 14 12 ≤ x.2.2),
    holdsAt s0 fun _ g _ => (modeField 1).all fun x => decide (2 ^ x.2.1 ≤ rawImm g.exts 14 13 ∨ x.2.2 < rawImm g.exts 14 13),
    holdsAt s0 fun _ _ _ => modeField 9 == none] = true := by decide +kernel

theorem witness_special_registers : allOf [
    holdsAt s0 fun _ g _ => !g.inStep && rawImm g.exts 14 0x014 == 0x014 && rawImm g.exts 14 0x000 == 0,
    holdsAt (grpOf trapG) fun _ g _ => g.trapMode && rawImm g.exts 14 0x024 == 0x024,
    holdsAt s0 fun _ g _ => !g.trapMode && rawImm g.exts 14 0x020 == 0x020,
    holdsAt (grpOf (sregs [(1, 2 ^ 32)])) fun _ g _ => rawImm g.exts 14 0x014 == 0x014 && 2 ^ 32 ≤ (g.sreg 1).toNat,
    holdsAt (grpOf (sregs [(1, 2 ^ 57 - 1)])) fun _ g _ => (g.sreg 1).toNat < 2 ^ 57 && rawImm g.exts 14 0x020 == 0x020,
    holdsAt s0 fun _ g _ => [0x011, 0x014, 0x020, 0x021, 0x022, 0x023, 0x024].all fun c => rawImm g.exts 14 0x010 != c,
    holdsAt s0 fun _ g _ => rawImm g.exts 14 0x031 == 0x031 && decide (0 < g.kregs)] = true := by decide +kernel

theorem witness_stops_by_program : allOf [
    holdsAt s0 fun _ g _ => !g.inStep && decide (rawImm g.exts 14 0x3FFF < 2 ^ 56),
    holdsAt (grpOf trapG) fun s g _ => g.exts == [] && !g.inStep && g.trapMode && s.writes == [] && s.markings == [] && g.cap.role == 0 &&
      (s.core 0).accQ == []] = true := by decide +kernel

/-- A watchpoint descriptor at 0x12000 that a handler may arm. -/
def wpState : State := { mapped (grpOf fun g => sregs [(0, 15), (1, 0x12000)] (trapG g)) with
  mem := writeLE (mapped s0).mem 0x12000 32 (1 + 0x30000 * 2 ^ 64 + 0x30100 * 2 ^ 128) }

theorem witness_supervision : allOf [
    holdsAt (grpOf trapG) fun _ g _ => g.trapMode && decide (rawImm g.exts 7 15 ≤ 15) && decide (15 < rawImm g.exts 7 16),
    holdsAt wpState fun s g b => g.exts == [] && !g.sent && (g.sreg 0).toNat == 15 && (g.sreg 1).toNat % 32 == 0 &&
      placed s g b ⟨(g.sreg 1).toNat, 32, .read, 0, 0, true, false, true, none, 0⟩ (.mem 0x12000) &&
      (match Claims.readAt s 0 g 0 true 32 (.mem 0x12000) with
       | some (v, u) => u.ctxs == s.ctxs && u.grp 0 == some g && (wpOf v).isSome &&
         placed u g b ⟨(s.ctx 0).wptab.toNat + 15 * 32, 32, .write, 0, 0, false, false, true, some v, 0⟩ (.mem 0x191E0)
       | none => false),
    holdsAt (grpOf fun g => { trapG g with sent := true }) fun _ g _ => g.exts == [] && g.sent && decide (rawImm g.exts 7 15 ≤ 15),
    (let s := { grpOf fun g => { g with dep := some (.arm 3 none), state := .waitMem, sent := true } with clk := 1 }
     (s.ctx 0).state != .faulted && (s.grp 0).any fun g => g.entry.isNone && !g.cap.reenter && g.fate == none && decide (g.waitClk < s.clk.toNat)),
    holdsAt s0 fun _ g _ => decide (rawImm g.exts 7 127 ≤ 127),
    holdsAt (grpOf (extsG [1])) fun _ g _ => decide (127 < rawImm g.exts 7 0),
    holdsAt (grpOf trapG) fun _ g _ => g.trapMode && decide (rawImm g.exts 7 31 < 32) && decide (5 < g.kregs),
    holdsAt (grpOf fun g => sregs [(1, 0xFFFF)] (trapG g)) fun _ g _ => decide (32 ≤ rawImm g.exts 7 39) && decide (rawImm g.exts 7 39 < 40) &&
      decide ((g.sreg 1).toNat < 2 ^ 16),
    holdsAt (grpOf trapG) fun _ g _ => decide (40 ≤ rawImm g.exts 7 40),
    holdsAt s0 fun _ g _ => decide (rawImm g.exts 7 63 ≤ 63) && g.sreg 0 == 0,
    holdsAt (grpOf (sregs [(0, 1), (1, 2), (2, 3)])) fun _ g _ => g.sreg 0 == 1 && g.sreg 1 == 2 && decide (3 ≤ (g.sreg 2).toNat),
    holdsAt (grpOf fun g => { sregs [(1, 255)] (trapG g) with sent := true }) fun s g _ => g.exts == [] && g.trapMode && g.sent &&
      decide ((g.sreg 1).toNat < 2 ^ 8) && s.read64 (s.mailbox 0 + 0x18) == s.read64 (s.mailbox 0),
    holdsAt (grpOf fun g => sregs [(1, 256)] (trapG g)) fun _ g _ => decide (2 ^ 8 ≤ (g.sreg 1).toNat)] = true := by decide +kernel

/-! ### Loads, stores, fences and atomics of scalars -/

/-- What a load of n bytes at va gives, where its checks pass and no watchpoint meets it. -/
def loads (s : State) (g : Group) (b : Block) (va n : Nat) (scr : Bool) (scope : Nat) (home : Bool) (p : Place) : Bool :=
  placed s g b (Claims.loadAcc va n scr) p &&
  match Claims.readAt s 0 g scope home n p with
  | some (v, u) => ((g.trapMode || (u.ctx b.ctx).wpHit .read va n (some v) true == none)) && (u.grp 0).any fun h => h.state != .exited
  | none => false

theorem witness_scalar_loads : allOf [
    holdsAt (grpOf (sregs [(2, 0x12000)])) fun s g b => !g.inStep && decide (modeScope g.mode ≤ 5) &&
      loads s g b (Claims.address g 2 1 8) 8 false 0 false (.mem 0x12008),
    holdsAt ((grpOf (sregs [(2, 0x12000)])).updCore 0 fun c => { c with missing := List.replicate Config.missStatus 0 }) fun s g b =>
      placed s g b (Claims.loadAcc 0x12000 8 false) (.mem 0x12000) && Claims.reachable s 0 g (modeScope g.mode) false 8 (.mem 0x12000) &&
      !(s.entriesFree 0 (Claims.misses s 0 g (modeScope g.mode) false 0x12000 8)),
    holdsAt (farS (grpOf (sregs [(2, 0x12000)]))) fun s g b => placed s g b (Claims.loadAcc 0x12000 8 false) (.mem 0x12000) &&
      !(Claims.reachable s 0 g (modeScope g.mode) false 8 (.mem 0x12000)),
    holdsAt (grpOf fun g => moded (5 * 2 ^ 18) (sregs [(2, 0x1FFFF)] g)) fun s g b => modeScope g.mode == 5 &&
      loads s g b (Claims.address g 2 0 1) 1 false 5 true (.mem 0x1FFFF),
    holdsAt (grpOf (sregs [(2, 0xFFF8)])) fun s g b => loads s g b (Claims.address g 2 0 8) 8 true 0 false (.scr 0 0x10FFF8),
    holdsAt (grpOf (sregs [(2, 0x12001)])) fun _ g _ => Claims.address g 2 0 2 % 2 != 0,
    holdsAt (grpOf (sregs [(2, 2 ^ 63 - 8)])) fun s g b => match s.checkAcc 0 g b (Claims.loadAcc (Claims.address g 2 0 8) 8 false) with
      | .trap _ _ => true
      | _ => false] = true := by decide +kernel

theorem witness_scalar_stores : allOf [
    holdsAt (grpOf (sregs [(2, 0x12000), (3, 7)])) fun s g b => placed s g b (Claims.storeAcc 0x12000 8 false (g.sreg 3)) (.mem 0x12000) &&
      ((Claims.writeAt s 0 b 0x12000 8 7 (.mem 0x12000)).grp 0).any fun h => h.state != .exited,
    holdsAt (grpOf (sregs [(2, 0x100), (3, 7)])) fun s g b => placed s g b (Claims.storeAcc 0x100 4 true (g.sreg 3)) (.scr 0 0x100100),
    holdsAt (grpOf (sregs [(2, 0x12000), (3, 7)])) fun s g b => (s.release 0 0 (modeScope g.mode)).2 &&
      placed (s.release 0 0 (modeScope g.mode)).1 g b (Claims.storeAcc 0x12000 8 false (g.sreg 3)) (.mem 0x12000),
    holdsAt (grpOf (sregs [(2, 2 ^ 63 - 8)])) fun s g b => match s.checkAcc 0 g b (Claims.storeAcc (2 ^ 63 - 8) 8 false 0) with
      | .trap _ _ => true
      | _ => false,
    holdsAt (grpOf (sregs [(2, 0x12004)])) fun _ g _ => Claims.address g 2 0 8 % 8 != 0] = true := by decide +kernel

/-- A state whose page at 0x30000 lies in the window of a host that is memory to the part (19 R378). -/
def hostRoleS (f : Group → Group) : State :=
  { (mapped (grpOf f)).updCore 0 fun c => { c with tlb := [placeLeaf, ⟨0, 0x30000, 1, BitVec.ofNat 64 (2 ^ 48 + 0x30DF3)⟩] } with
    links := [(16, { Link.reset 16 with state := .active, trained := some true })] }

theorem witness_step_accesses : allOf [
    holdsAt (hostRoleS fun g => sregs [(18, 0x30100), (17, 9)] (stepG g)) fun s g b => g.inStep && g.cap.words + g.exts.length != 23 &&
      !(s.isHbmOrSecond (2 ^ 48 + 0x30100)) && loads s g b 0x30100 8 false 0 true (.mem (2 ^ 48 + 0x30100)),
    holdsAt (grpOf fun g => sregs [(18, 0x12100), (17, 9)] (stepG g)) fun s g b => g.inStep && g.cap.words + g.exts.length != 23 &&
      s.isHbmOrSecond 0x12100 && loads s g b 0x12100 8 false 0 true (.mem 0x12100) && decide (g.cap.stores.length < 4) &&
      placed s g b (Claims.storeAcc 0x12100 8 false (g.sreg 17)) (.mem 0x12100) && 0x12100 / 256 != g.cap.line / 256,
    holdsAt (grpOf fun g => sregs [(18, 0x12080)] (stepG g)) fun s g b => g.inStep &&
      placed s g b (Claims.storeAcc 0x12080 8 false 0) (.mem 0x12080) && 0x12080 / 256 == g.cap.line / 256,
    holdsAt (grpOf fun g => { stepG g with cap := { (stepG g).cap with stores := List.replicate 4 ⟨0x12100, 0x12100, 3, 0⟩ } })
      fun _ g _ => g.inStep && decide (4 ≤ g.cap.stores.length)] = true := by decide +kernel

theorem witness_memory_at_home : allOf [
    s0.region 0x12000 != .chip, s0.writes == [], Memory.wf s0.mem,
    (amGet (s0.core 0).l1 (0x12000 / 64)).isNone] = true := by decide +kernel

theorem witness_fences_and_waits : allOf [
    holdsAt s0 fun _ g _ => !g.inStep && rawImm g.exts 14 23 == 23 && rawImm g.exts 14 24 == 24,
    holdsAt s0 fun s _ _ => (s.release 0 0 0).2 && (s.release 0 0 5).2 && ((s.release 0 0 5).1.grp 0).any fun h => h.state == .issuing,
    holdsAt { s0 with extReqs := [⟨9, 0, 0, 0, true, 0, 8, none, none⟩] } fun s _ _ => !(s.release 0 0 5).2 &&
      ((s.release 0 0 5).1.grp 0).any fun h => h.state == .issuing,
    holdsAt (grpOf (sregs [(2, 0x12000), (3, 1)])) fun s g b => g.exts == [] && !g.inStep && s.writes == [] &&
      loads s g b 0x12000 8 false 5 true (.mem 0x12000) && (Claims.readAt s 0 g 5 true 8 (.mem 0x12000)).any fun r => r.1 != 1,
    holdsAt (grpOf (sregs [(2, 0x12000), (3, 0)])) fun s g b => !g.woke && loads s g b 0x12000 8 false 5 true (.mem 0x12000) &&
      (Claims.readAt s 0 g 5 true 8 (.mem 0x12000)).any fun r => r.1 == 0] = true := by decide +kernel

/-- An atomic of group 0 on 8 bytes of a host, with its answer. -/
def asked : ExtReq := ⟨9, 16, 0, 0, false, 2 ^ 48 + 0x30100, 8, some (false, 7), none⟩

theorem witness_scalar_atomics : allOf [
    holdsAt { grpOf (fun g => { moded (3 * 2 ^ 5) g with going := [.ext asked.pa] }) with
      extReqs := [asked], links := [(16, { Link.reset 16 with state := .active, trained := some false })] } fun s g _ =>
      g.going == [.ext asked.pa] && (s.extKey asked.pa 8).2 != 256 && !(s.refuses asked.pa) &&
      s.extReqs.filter (fun r => r.agent == 0 && !r.write) == [asked] && etBits (modeEt g.mode) / 8 == 8,
    holdsAt (grpOf fun g => moded (3 * 2 ^ 5) (sregs [(2, 0x12000), (3, 1)] g)) fun s g b => modeEt g.mode == 3 && s.extReqs == [] && g.going == [] && s.inReach 0 0x12000 &&
      placed s g b ⟨0x12000, 8, .rw, 0, 0, true, false, false, some 1, 0⟩ (.mem 0x12000) && !(s.poisoned 0x12000 8) &&
      ((s.memAtomic 0 0 0 0 0 .add 3 0x12000 0x12000 8 1 0).2.grp 0).any fun h => h.state != .exited,
    holdsAt (grpOf fun g => moded (12 * 2 ^ 5 + 5 * 2 ^ 18) (sregs [(2, 0x12000)] g)) fun s g b => modeEt g.mode == 12 && modeScope g.mode == 5 &&
      placed s g b ⟨0x12000, 8, .rw, 0, 0, true, false, false, some 0, 0⟩ (.mem 0x12000),
    holdsAt (grpOf fun g => moded (2 * 2 ^ 5) (sregs [(2, 2 ^ 63 + 0x100)] g)) fun s g b =>
      placed s g b ⟨2 ^ 63 + 0x100, 4, .rw, 0, 0, true, true, false, some 0, 0⟩ (.scr 0 0x100100) && g.going == [] && s.extReqs == [] &&
      s.inReach 0 (Place.addr (.scr 0 0x100100)),
    holdsAt s0 fun _ g _ => modeEt g.mode == 0] = true := by decide +kernel

/-! ### Vectors -/

theorem witness_vector_words : allOf [
    holdsAt s0 fun _ g _ => g.exts == [] && !g.inStep && decide (127 < g.kregs) && decide (modeEt g.mode ≤ 3),
    holdsAt (grpOf (moded (3 * 2 ^ 5))) fun _ g _ => modeEt g.mode == 3 && rawImm g.exts 7 63 == 63 && decide (etBits 3 ≤ rawImm g.exts 7 64),
    holdsAt (grpOf (moded (4 * 2 ^ 5))) fun _ g _ => decide (3 < modeEt g.mode) && decide (modeEt g.mode ≤ 12),
    holdsAt (grpOf (moded (12 * 2 ^ 5))) fun _ g _ => isWide (modeEt g.mode) && !(isInt (modeEt g.mode)),
    holdsAt s0 fun _ g _ => !(isWide (modeEt g.mode)) && isInt (modeEt g.mode),
    holdsAt (grpOf (sregs [(1, 31)])) fun _ g _ => decide ((g.sreg 1).toNat < etCount (modeEt g.mode)) && decide (rawImm g.exts 7 7 < 8),
    holdsAt (grpOf (sregs [(1, 32)])) fun _ g _ => decide (etCount (modeEt g.mode) ≤ (g.sreg 1).toNat),
    holdsAt (grpOf (moded (ets 1 0))) fun _ g _ => modeEt2 g.mode + 1 == modeEt g.mode,
    holdsAt (grpOf (moded (ets 2 3))) fun _ g _ => modeEt2 g.mode == modeEt g.mode + 1 && decide (126 + 2 ≤ g.kregs) && decide (g.kregs < 127 + 2),
    holdsAt (grpOf (sregs [(1, 255), (2, 256)])) fun _ g _ => decide ((g.sreg 1).toNat < 256) && decide (256 ≤ (g.sreg 2).toNat),
    holdsAt s0 fun _ g _ => decide (g.vreds.length < 64) && Claims.activeElems g 0 != [],
    holdsAt (grpOf fun g => { moded 8 g with p := vset g.p 0 0 }) fun _ g _ => lanesOf g.active == [] && Claims.activeElems g 0 == [],
    holdsAt (grpOf (moded (8 + 12 * 2 ^ 5))) fun _ g _ => isWide (modeEt g.mode) && decide (modeRm g.mode ≤ 4) && lanesOf g.active == [],
    holdsAt (grpOf fun g => { g with vreds := List.replicate 64 ⟨0, 0, 0, 0xFF⟩ }) fun s g _ =>
      decide (64 ≤ g.vreds.length + (s.core 0).ownCount 0) && g.state == .issuing && decide (modeEt g.mode ≤ 3),
    holdsAt (grpOf (moded (8 + 4 * 2 ^ 5))) fun _ g _ => isFloat (modeEt g.mode) && !(isInt (modeEt g.mode)) && !(isWide (modeEt g.mode)) &&
      lanesOf g.active == [],
    holdsAt (grpOf fun g => { g with vreds := [⟨2, 0, 0, 0xFF⟩] }) fun _ g _ =>
      (BitVec.ofNat 16 (rawImm g.exts 7 1) - (g.yreg 2).seq).toNat == 1 && (g.vreds.countP fun p => p.y.toNat == 2) == 1 &&
      decide ((g.vreds.countP fun p => p.y.toNat == 2) < (BitVec.ofNat 16 (rawImm g.exts 7 2) - (g.yreg 2).seq).toNat),
    holdsAt (grpOf (moded (ets 0 3))) fun _ g _ => decide (modeEt g.mode ≤ modeEt2 g.mode) && decide (modeEt2 g.mode ≤ 3),
    holdsAt s0 fun _ g _ => rawImm g.exts 7 0 == (g.yreg 3).seq.toNat] = true := by decide +kernel

theorem witness_float_words : allOf [
    holdsAt (grpOf (moded (11 * 2 ^ 5 + 4 * 2 ^ 13))) fun _ g _ => isWide (modeEt g.mode) && modeRm g.mode == 4 &&
      ((lanesOf g.active).all fun l => Claims.raised g (fun _ => ([], 0, 0)) l == 0),
    holdsAt (grpOf fun g => { moded (11 * 2 ^ 5) g with fpstat := 0x1F00 }) fun _ g _ =>
      (lanesOf g.active).any fun l => Claims.raised g (fun _ => ([], 2, 0)) l != 0,
    holdsAt (grpOf (moded (ets 4 11))) fun _ g _ => isFloat (modeEt g.mode) && isFloat (modeEt2 g.mode) && decide (0 + 1 ≤ g.kregs),
    holdsAt (grpOf (moded (ets 8 12))) fun _ g _ => decide (g.kregs < 113 + etCount (modeEt g.mode) / etCount (modeEt2 g.mode)),
    holdsAt (grpOf (moded (ets 0 9))) fun _ g _ => isInt (modeEt g.mode) && isFloat (modeEt2 g.mode),
    holdsAt (grpOf (moded (ets 12 3))) fun _ g _ => isFloat (modeEt g.mode) && isInt (modeEt2 g.mode),
    holdsAt (grpOf (moded (ets 8 9))) fun _ g _ => isMx (modeEt g.mode) && modeEt2 g.mode == 9,
    holdsAt (grpOf fun g => moded (ets 11 8) (sregs [(3, 0x3F800000 * 2 ^ 32)] g)) fun _ g _ => modeEt g.mode == 11 && isMx (modeEt2 g.mode) &&
      (let clip := Fmt.decode .fp32 ((g.sreg 3).toNat / 2 ^ 32); clip.isNan == false && clip.neg? == false) &&
      decide (120 + etCount 8 / etCount 11 ≤ g.kregs),
    holdsAt (grpOf (sregs [(3, 0xBF800000 * 2 ^ 32), (4, 0x7FC00000 * 2 ^ 32)])) fun _ g _ =>
      (Fmt.decode .fp32 ((g.sreg 3).toNat / 2 ^ 32)).neg? && (Fmt.decode .fp32 ((g.sreg 4).toNat / 2 ^ 32)).isNan,
    holdsAt (grpOf (moded (ets 0 12))) fun _ g _ => modeEt2 g.mode == 12 && decide (modeRm g.mode ≤ 4),
    holdsAt (grpOf (sregs [(1, 254), (2, 2 ^ 64 - 254), (3, 255), (4, 2 ^ 64 - 255)])) fun _ g _ =>
      (g.sreg 1).toInt == 254 && (g.sreg 2).toInt == -254 && (g.sreg 3).toInt == 255 && (g.sreg 4).toInt == -255] = true := by decide +kernel

theorem witness_rounding : allOf [
    decide ((Nat.log2 1 : Int) + (-140) < 1 - (Fmt.fp32.bias : Int)),
    !(magLe (Claims.gridChoice 0 false 0 1 1) (Claims.gridExp .e2m1 1 9) 3 1),
    magLe (Claims.gridChoice 4 true 5 (2 ^ 25 + 1) 4) (Claims.gridExp .fp32 (2 ^ 25 + 1) (-25)) (2 ^ 24 - 1) 104] = true := by decide +kernel

theorem witness_blocks_and_cells : allOf [
    (Claims.clipped (.inf false) (mulX (.zero false) (.inf true)).1).isNan,
    Claims.clipped (.fin false 5 0 false) (mulX (.fin false 3 0 false) (.fin true 0 2 false)).1 == .fin true 0 2 false,
    Claims.clipped (.fin false 5 0 false) (mulX (.fin false 3 0 false) (.fin true 7 2 false)).1 == .fin true 5 0 false && magLe 5 0 5 0,
    magLe 1 159 1 159 && !(magLe 1 159 (2 ^ 159 - 1) 0) && decide ((0 : Nat) * 2 ^ 4 ≤ 3 ∧ 3 < 1 * 2 ^ 4)] = true := by decide +kernel

/-! ### Vector memory -/

/-- A list of accesses with the places that their checks give. -/
def placesOf (s : State) (g : Group) (b : Block) (cs : List Acc) : Option (List (Acc × Place)) :=
  cs.foldr (fun c r => match s.checkAcc 0 g b c, r with | .ok p, some l => some ((c, p) :: l) | _, _ => none) (some [])
/-- Accesses that read data that is there, with no poison and no watchpoint; the group goes on. -/
def readsOk (s : State) (g : Group) (b : Block) (acq : Bool) (scope : Nat) (cs : List Acc) : Bool :=
  match placesOf s g b cs with
  | some ps =>
    ps.all (fun q => match q.2 with | .ext _ => false | _ => true) && ((s.loadReaches 0 0 g.acqClk scope acq ps).all fun q => s.inReach 0 q.2.addr) &&
    s.entriesFree 0 (s.loadMisses 0 g.acqClk scope acq ps) &&
    (let r := (s.takeEntries 0 (s.loadMisses 0 g.acqClk scope acq ps)).readPlaces 0 0 g.acqClk scope acq ps
     r.1.all (fun q => !q.2.poison && (g.trapMode || (r.2.ctx b.ctx).wpHit .read q.1.va q.1.n (some q.2.val) true == none)) &&
     (r.2.grp 0).any fun h => h.state != .exited)
  | none => false
/-- Accesses whose checks pass. -/
def checkedOk (s : State) (g : Group) (b : Block) (cs : List Acc) : Bool := (placesOf s g b cs).isSome
/-- The first access of a list fails its checks. -/
def faultsFirst (s : State) (g : Group) (b : Block) : List Acc → Bool
  | c :: _ => (match s.checkAcc 0 g b c with | .trap _ _ => true | _ => false)
  | [] => false

theorem witness_vector_memory : allOf [
    holdsAt (grpOf (sregs [(2, 0x12000)])) fun s g b => g.exts == [] && !g.inStep && readsOk s g b false (modeScope g.mode) (Claims.laneAccs g 2 5 4 .read false (fun _ _ => none)) &&
      readsOk s g b true (modeScope g.mode) (Claims.laneAccs g 2 5 32 .read false (fun _ _ => none)),
    holdsAt (grpOf (sregs [(2, 2 ^ 63)])) fun s g b => faultsFirst s g b (Claims.laneAccs g 2 5 4 .read false (fun _ _ => none)) &&
      faultsFirst s g b (Claims.laneAccs g 2 5 16 .write false (fun _ _ => some 0)),
    holdsAt (grpOf (sregs [(2, 0x100)])) fun s g b => readsOk s g b false (modeScope g.mode) (Claims.rowAccs g 2 .read (fun _ => none)),
    holdsAt (grpOf (sregs [(2, 0xFFF0)])) fun s g b => faultsFirst s g b (Claims.rowAccs g 2 .read (fun _ => none)) &&
      faultsFirst s g b (Claims.rowAccs g 2 .write (fun _ => some 0)),
    holdsAt (grpOf (sregs [(2, 0x12000)])) fun s g b => checkedOk s g b (Claims.laneAccs g 2 5 8 .write false fun l k => some (elem (g.vlane 7 l) 64 k)) &&
      (s.release 0 0 (modeScope g.mode)).2 &&
      checkedOk (s.release 0 0 (modeScope g.mode)).1 g b (Claims.laneAccs g 2 5 32 .write false fun l k => some (elem (g.vlane 7 l) 256 k)),
    holdsAt (grpOf (sregs [(2, 0x100)])) fun s g b => checkedOk s g b (Claims.rowAccs g 2 .write fun l => some (g.vlane 7 l))] = true := by decide +kernel

/-- A core with no miss-status entry free, and group 0 that loads from memory. -/
theorem witness_no_entries : allOf [
    holdsAt ((grpOf (sregs [(2, 0x12000)])).updCore 0 fun c => { c with missing := List.replicate Config.missStatus 0 }) fun s g b =>
      match placesOf s g b (Claims.laneAccs g 2 5 4 .read false (fun _ _ => none)) with
      | some ps => ps.all (fun q => match q.2 with | .ext _ => false | _ => true) &&
        ((s.loadReaches 0 0 g.acqClk (modeScope g.mode) false ps).all fun q => s.inReach 0 q.2.addr) && !(s.entriesFree 0 (Claims.missesOf s 0 g false ps))
      | none => false] = true := by decide +kernel

theorem witness_mx_lines : allOf [
    holdsAt (grpOf fun g => moded (8 * 2 ^ 5) (sregs [(2, 0x12000)] g)) fun s g b => isMx (modeEt g.mode) &&
      ((lanesOf g.active).all fun l => (Claims.mxLine g 2 5 l).1 % 256 == 0 && decide ((Claims.mxLine g 2 5 l).2 + 2 ≤ 15)) &&
      readsOk s g b false (modeScope g.mode) ((lanesOf g.active).map (Claims.mxAccs g 7 2 5 false false)).flatten &&
      checkedOk s g b ((lanesOf g.active).map (Claims.mxAccs g 7 2 5 false true)).flatten,
    holdsAt (grpOf fun g => moded (6 * 2 ^ 5) (sregs [(2, 0x100)] g)) fun s g b => isMx (modeEt g.mode) &&
      readsOk s g b false (modeScope g.mode) ((lanesOf g.active).map (Claims.mxAccs g 7 2 5 true false)).flatten &&
      checkedOk s g b ((lanesOf g.active).map (Claims.mxAccs g 7 2 5 true true)).flatten,
    holdsAt s0 fun _ g _ => !(isMx (modeEt g.mode)),
    holdsAt (grpOf fun g => moded (8 * 2 ^ 5) (sregs [(2, 0x12010)] g)) fun _ g _ => lanesOf g.active != [] && (Claims.mxLine g 2 5 0).1 % 256 != 0,
    holdsAt (grpOf fun g => (moded (8 * 2 ^ 5) (sregs [(2, 0x12000)] g)).setV 5 0 (14 * 2 ^ 64)) fun _ g _ =>
      (Claims.mxLine g 2 5 0).1 % 256 == 0 && decide (15 < (Claims.mxLine g 2 5 0).2 + 2),
    holdsAt (grpOf (sregs [(2, 0x12000)])) fun s g b =>
      (((lanesOf g.active).foldl (fun t l => Claims.prefetched t 0 g b (Claims.mxLine g 2 5 l).1) s).grp 0).any fun h => h.state != .exited] = true := by decide +kernel

theorem witness_vector_atomics : allOf [
    holdsAt (grpOf fun g => moded (2 * 2 ^ 5) (sregs [(2, 0x12000)] g)) fun s g b => modeEt g.mode == 2 && s.extReqs == [] &&
      (match placesOf s g b (Claims.elementAccs g 2 5 4 true (fun _ _ => 1) (fun _ _ => 0)) with
       | some ps => ps.all (fun q => match q.2 with | .mem pa => !(s.poisoned pa q.1.n) && s.inReach 0 pa | .scr _ _ => true | _ => false) && g.going == [] &&
         ((Claims.atomicsAt s 0 g b .add ps).2.grp 0).any fun h => h.state != .exited
       | none => false),
    holdsAt (grpOf fun g => moded (4 * 2 ^ 5) g) fun _ g _ => modeEt g.mode == 4,
    holdsAt (grpOf fun g => moded (12 * 2 ^ 5 + 3 * 2 ^ 18) (sregs [(2, 0x12000)] g)) fun s g b => decide (3 ≤ atomScope 0x12000 (modeScope g.mode)) &&
      (match placesOf s g b (Claims.elementAccs g 2 5 8 false (fun _ _ => 1) (fun _ _ => 0)) with
       | some ps => ps.all fun q => match q.2 with | .mem _ => true | _ => false
       | none => false),
    holdsAt (grpOf fun g => moded (9 * 2 ^ 5) (sregs [(2, 0x12000)] g)) fun s g b => modeEt g.mode == 9 && decide (5 + 2 ≤ g.kregs) &&
      (match placesOf s g b (Claims.elementAccs g 2 5 32 false (fun _ _ => 1) (fun _ _ => 0)) with
       | some ps => ps.all fun q => match q.2 with | .mem _ => true | _ => false
       | none => false)] = true := by decide +kernel

/-! ### Tiles -/

/-- A state whose block may hold eight accumulator slots, the group in trap mode or not. -/
def accS (f : Group → Group) : State := (s0.updBlk 0 fun b => { b with desc := { b.desc with acc := 8 } }).updGrp 0 f
/-- That state with a tile of class 1 of the block, bound to handle 3. -/
def tileS (f : Group → Group) : State :=
  let s := accS f
  match (s.core 0).createTile 0 1 with
  | some (first, c) => (s.setCore 0 c).updGrp 0 fun g => g.setH 3 (bindingWord 1 first)
  | none => s

/-- The array has room for a word of group 0. -/
def roomFor (s : State) (g : Group) : Bool :=
  decide ((s.core 0).accQ.length < Config.accQueue) && decide (g.vreds.length + (s.core 0).ownCount 0 < Config.groupResults)

theorem witness_tiles : allOf [
    holdsAt (accS (sregs [(2, 1)])) fun s g b => bindClass (g.hreg 3) == 0 && (g.sreg 2).toNat == 1 && roomFor s g &&
      decide ((s.core 0).heldSlots g.block + classSlots 1 ≤ b.desc.acc) && ((s.core 0).createTile g.block 1).isSome,
    holdsAt (tileS (sregs [(2, 2)])) fun _ g _ => bindClass (g.hreg 3) != 0 && bindClass (g.hreg 3) != 2,
    holdsAt (tileS id) fun _ g _ => bindClass (g.hreg 3) == 1 && decide (8 * 1 + 8 ≤ classRows 1) && decide (64 * 0 + 64 ≤ classCols 1),
    holdsAt s0 fun s g b => bindClass (g.hreg 3) == 0 && decide (b.desc.acc < (s.core 0).heldSlots g.block + classSlots 1),
    holdsAt (accS (sregs [(2, 5)])) fun _ g _ => decide (5 ≤ (g.sreg 2).toNat),
    holdsAt (tileS (sregs [(2, 16)])) fun _ g _ => (g.sreg 2).toNat == 0 + 16 * 1 + 32 * 0 && decide (classCols 1 < 64 * 1 + 64),
    holdsAt (tileS fun g => trapG (sregs [(2, 3 + 256 * 63), (4, 7)] g)) fun _ g _ => g.trapMode && bindClass (g.hreg 3) == 1 &&
      (g.sreg 2).toNat == 3 + 256 * 63 && decide (63 < classCols 1) && decide ((g.sreg 4).toNat < 2 ^ 32),
    holdsAt (grpOf trapG) fun _ g _ => g.trapMode && bindClass (g.hreg 3) == 0] = true := by decide +kernel

theorem witness_products : allOf [
    holdsAt (accS (moded (5 * 2 ^ 21 + 5 * 2 ^ 24))) fun s g b => taType (modeTa g.mode) == taType (modeTb g.mode) && roomFor s g && decide ((s.core 0).heldSlots g.block + classSlots 1 ≤ b.desc.acc),
    holdsAt (accS (moded (5 * 2 ^ 21))) fun _ g _ => taType (modeTa g.mode) != taType (modeTb g.mode)] = true := by decide +kernel

theorem witness_tile_reads : allOf [
    holdsAt (tileS (sregs [(2, 3 + 256 * 63)])) fun s g _ => !((s.core 0).ownWrites 0 (bindFirst (g.hreg 3))) && roomFor s g && bindClass (g.hreg 3) == 1 &&
      (g.sreg 2).toNat == 3 + 256 * 63 && !((s.core 0).ownWork 0 (bindFirst (g.hreg 3))) && (g.sreg 0).toNat == 0 + 16 * 0,
    holdsAt ((tileS id).updCore 0 fun c => { c with accQ := [⟨0, 1, 0, .azero⟩] }) fun s g _ => (s.core 0).ownWrites 0 (bindFirst (g.hreg 3)) &&
      (s.core 0).ownWork 0 (bindFirst (g.hreg 3)),
    holdsAt ((tileS id).updCore 0 fun c => { c with accQ := List.replicate Config.accQueue ⟨5, 1, 0, .azero⟩ }) fun s g _ =>
      !((s.core 0).ownWrites 0 (bindFirst (g.hreg 3))) && decide (Config.accQueue ≤ (s.core 0).accQ.length),
    holdsAt (tileS fun g => moded (8 * 2 ^ 9) (sregs [(2, 0)] g)) fun _ g _ => isMx (modeEt2 g.mode) && (g.sreg 2).toNat / 2 ^ 54 == 0 &&
      (Fmt.decode .bf16 0).isNan == false && decide (8 * 0 + 8 ≤ classRows 1) && decide (32 * 1 ≤ classCols 1),
    holdsAt (tileS (sregs [(2, 2 ^ 64 - 1)])) fun _ g _ => g.sreg 2 == BitVec.allOnes 64,
    holdsAt (tileS fun g => sregs [(2, (bindingWord 1 0).toNat), (4, (bindingWord 1 4).toNat)] g) fun s g _ => bindClass (g.hreg 5) == 0 &&
      bindClass (bindingWord 1 0) != 0 && (s.core 0).tileNamed g.block (bindingWord 1 0) && !((s.core 0).tileNamed g.block (bindingWord 1 4)),
    holdsAt s0 fun _ g _ => bindClass (g.hreg 3) == 0] = true := by decide +kernel

theorem witness_poisoned_registers : allOf [
    aboutTo (grpOf fun g => { g with poison := [⟨.scalar, 2, 0⟩] }) fun s g => ((s.core 0).resultsDue 0).isEmpty && g.exts == [] && !g.inStep &&
      g.poison.contains ⟨.scalar, 2, 0⟩,
    aboutTo (grpOf fun g => { g with poison := [⟨.vector, 8, 7⟩] }) fun s g => ((s.core 0).resultsDue 0).isEmpty && g.exts == [] && !g.inStep &&
      g.active.getLsbD 7 && decide (modeEt g.mode ≤ 3) && decide (8 < g.kregs)] = true := by decide +kernel

theorem witness_results_awaited : allOf [
    aboutTo ((tileS id).updCore 0 fun c => { c with accQ := [⟨0, 1, 0, .aget 0 0 5⟩] }) fun s _ => ((s.core 0).resultsDue 0).contains (RegKind.scalar, 5, 1),
    aboutTo ((tileS id).updCore 0 fun c => { c with accQ := [⟨0, 1, 0, .ast 0 0 8⟩] }) fun s g =>
      ((s.core 0).resultsDue 0).contains (RegKind.vector, 8, 8) && decide (modeEt g.mode ≤ 3)] = true := by decide +kernel

theorem witness_sums : allOf [
    [XVal.nan, .inf false].contains .nan, [XVal.inf false, .inf true].contains (.inf true), !([XVal.inf true].contains .nan),
    ([XVal.fin false 3 0 false, .fin true 3 0 false].map (Claims.units 0)).sum == 0, (Claims.units 0 (.fin true 3 2 false)) == -12,
    [(1 : Nat)].length == [(2 : Nat)].length && decide (32 * 0 < [(1 : Nat)].length),
    (let c := (tileS id).core 0; amSorted c.acc && c.partSlot 0 0 == 0 && classSlots 1 == 1),
    (AccWork.aget 1 2 3).writes.isSome && AccWork.azero.writes == none && isMx 8 && decide (8 + 2 ≤ 128),
    (let s := (tileS id).updCore 0 fun c => { c with accQ := [⟨0, 1, 0, .aget 0 0 5⟩] }; (s.core 0).accQ != [] && (s.grp 0).isSome)] = true := by decide +kernel

theorem witness_array_work : allOf [
    (let c := (tileS id).core 0; amSorted c.acc && decide (5 ≤ classRows 1) && (List.range 1).length == 1),
    (let c := { (tileS id).core 0 with accQ := [⟨0, 1, 0, .azero⟩] }; amSorted c.acc && c.accQ == [⟨0, 1, 0, .azero⟩] && c.accQ.all fun o => o.first != 5)] = true := by decide +kernel

/-! ### Capsules, barriers and monitors -/

/-- The check of an object or line gives a place in the windows that may hold one, with no poison (22 R406). -/
def objectAt (s : State) (g : Group) (b : Block) (va n : Nat) (k : Access) : Bool :=
  placed s g b ⟨va, n, k, 0, 0, true, false, false, none, 0⟩ (.mem va) && s.isHbmOrSecond va && s.inReach 0 va && !(s.poisoned va n) &&
    (Claims.atLine s 0).inReach 0 va && !((Claims.atLine s 0).poisoned va n)
/-- A line takes the requests of the clock; the visits of the clock have come. -/
def takesNow (s : State) : Bool :=
  s.issue == [0] && s.markings == [] && s.groups.all (fun k => !k.2.cap.reenter) && (s.regWrites ++ s.agenda).all fun i => !(resumes i)
def visitsCame (s : State) : Bool := s.issue == [0] && s.graphs.all fun q => !q.2.wact && q.2.halts == []
/-- Memory with eight bytes written. -/
def memW (s : State) (l : List (Nat × Nat)) : State := { s with mem := l.foldl (fun m x => writeLE m x.1 8 x.2) s.mem }
/-- The group goes on in a state. -/
def live (s : State) : Bool := (s.grp 0).any fun h => h.state != .exited
/-- Group 0 inside a capsule step, as its line at 0x12000 says. -/
def stepS (role log step : Nat) : State :=
  memW (grpOf fun g => { stepG g with cap := { (stepG g).cap with role := role } }) [(0x12000, if role = 1 then 1 else 3), (0x12008, step + log * 2 ^ 5 + 2 ^ 16)]

theorem witness_capsules : allOf [
    holdsAt (farS (grpOf (sregs [(2, 0x12000)]))) fun s g b => takesNow s && s.isHbmOrSecond 0x12000 &&
      placed s g b ⟨0x12000, 256, .rw, 0, 0, true, false, false, none, 0⟩ (.mem 0x12000) && !((Claims.atLine s 0).inReach 0 0x12000),
    holdsAt (grpOf fun g => { (sregs [(2, 0x12000)] g) with cap := { g.cap with role := 1, cmode := true } }) fun s g b => g.exts == [] && !g.inStep &&
      objectAt s g b 0x12000 256 .rw && g.cap.role != 0,
    holdsAt (grpOf (sregs [(2, 0x12000)])) fun s g b => g.cap.role == 0 && objectAt s g b 0x12000 256 .rw &&
      (let r := (Claims.atLine s 0).capAcquire 0x12000 b.ctx 0 (g.pc + 4) ((List.range 16).map fun k => g.sreg (16 + k));
       r.1 == .acquired 1 && live r.2),
    holdsAt (memW (grpOf (sregs [(2, 0x12000)])) [(0x12000, 2 + 5 * 2 ^ 16)]) fun s g b => objectAt s g b 0x12000 256 .rw &&
      (match (Claims.atLine s 0).capAcquire 0x12000 b.ctx 0 (g.pc + 4) [] with | (.adopt _ _ _, u) => live u | _ => false),
    holdsAt (memW (grpOf (sregs [(2, 0x12000)])) [(0x12000, 1 + 5 * 2 ^ 16)]) fun s g b => objectAt s g b 0x12000 256 .rw &&
      (match (Claims.atLine s 0).capAcquire 0x12000 b.ctx 0 (g.pc + 4) [] with | (.wait, _) => true | _ => false),
    holdsAt (memW (grpOf (sregs [(2, 0x12000)])) [(0x12000, 1 + 3 * 2 ^ 8)]) fun s g b => objectAt s g b 0x12000 256 .rw &&
      (match (Claims.atLine s 0).capAcquire 0x12000 b.ctx 0 (g.pc + 4) [] with | (.prot, _) => true | _ => false) &&
      objectAt s g b 0x12000 256 .read && !((Claims.atLine s 0).lineMalformed 0x12000) &&
      ((Claims.atLine s 0).settleLine 0x12000).lineCtx 0x12000 != b.ctx,
    holdsAt (memW (grpOf (sregs [(2, 0x12000)])) [(0x12000, 4)]) fun s g b => objectAt s g b 0x12000 256 .rw &&
      (match (Claims.atLine s 0).capAcquire 0x12000 b.ctx 0 (g.pc + 4) [] with | (.violation, _) => true | _ => false) &&
      (Claims.atLine s 0).lineMalformed 0x12000,
    holdsAt (grpOf (sregs [(2, 0x12000)])) fun s g b => objectAt s g b 0x12000 256 .read && !((Claims.atLine s 0).lineMalformed 0x12000) &&
      ((Claims.atLine s 0).settleLine 0x12000).lineState 0x12000 == 0 && live ((Claims.atLine s 0).settleLine 0x12000),
    holdsAt s0 fun _ g _ => !g.inStep && g.exts == [],
    holdsAt (stepS 1 0 15) fun s g _ => g.inStep && !(s.lineMalformed g.cap.line) && (s.settleLine g.cap.line).lineStep g.cap.line == 15,
    holdsAt (stepS 1 0 3) fun s g _ => g.inStep && (s.settleLine g.cap.line).lineStep g.cap.line != 15 && g.cap.role == 1 &&
      ([false, true].all fun last => let r := (s.settleLine g.cap.line).capCommit g.cap.line 0 g.cap.cseq g.cap.stores ((List.range 16).map fun k => g.sreg (16 + k)) (g.pc + 4) last;
        r.1 && live r.2),
    holdsAt (memW (stepS 1 0 3) [(0x12008, 3 + 2 * 2 ^ 16)]) fun s g _ =>
      [false, true].all fun last => !((s.settleLine g.cap.line).capCommit g.cap.line 0 g.cap.cseq g.cap.stores [] (g.pc + 4) last).1,
    holdsAt (stepS 2 0 3) fun s g _ => g.cap.role != 1 &&
      ((s.settleLine g.cap.line).capCommit g.cap.line 0 g.cap.cseq g.cap.stores ((List.range 16).map fun k => g.sreg (16 + k)) (g.pc + 4) true).1] = true := by decide +kernel

theorem witness_capsule_lines : allOf ([0, 1, 2, 3].map fun st =>
    let s := memW s0 [(0x12000, st), (0x12008, 3 + 2 ^ 16)]
    Memory.wf s.mem && !(s.lineMalformed 0x12000) && s.lineLog 0x12000 != 1 && s.capLogs == [] && s.lineState 0x12000 == st &&
      s.lineSeq 0x12000 == 1 && s.lineHolder 0x12000 == 0 && decide (s.lineStep 0x12000 < 16) && s.lineCtx 0x12000 == 0) = true := by decide +kernel

theorem witness_line_order : allOf [
    holdsAt s0 fun s _ _ => takesNow s,
    holdsAt { s0 with markings := [(5, 0x12000)] } fun s _ _ => s.putOff == [] && s.markings != [],
    holdsAt { s0 with agenda := [.dbgResume 0] } fun s _ _ => s.putOff == [] && s.agenda.any resumes,
    holdsAt { s0 with markings := [(5, 0x12000)], putOff := [0] } fun s _ _ => s.putOff.contains 0] = true := by decide +kernel

/-- A state whose group has its arrival at a barrier, with a token. -/
def arrivedS (x : BarId) (t : BitVec 32) : State := grpOf fun g => { (sregs [(2, t.toNat)] g) with arrivals := [⟨t, x.index, x.kind, none, false⟩] }
/-- A state whose core has a write on its way that a host holds back. -/
def heldBack (s : State) : State := { farS s with writes := [⟨0, 0, 0, 0x12000, 0x12000, 8, 7, none, 0, []⟩] }
/-- A state whose block belongs to a cluster of two blocks. -/
def clusterS (f : Group → Group) : State :=
  { (grpOf f) with clusters := [(0, ⟨0, 0, 0, 1, false, [0], Vector.replicate 16 (Bar.launch 2)⟩)] }

theorem witness_barrier_words : allOf [
    holdsAt s0 fun s g _ => !g.inStep && rawImm g.exts 7 5 == 5 && live (s.release 0 0 1).1 && s.arrivals == [],
    holdsAt (clusterS id) fun s g b => rawImm g.exts 7 17 == 17 && Claims.arrivalAt g (Claims.barrierOf s g b 17).1 0 == none && s.arrivals == [] && (s.bar (Claims.barrierOf s g b 17).1).isSome,
    holdsAt (arrivedS (.block 0 5) 1) fun s g b => (Claims.arrivalAt g (Claims.barrierOf s g b 5).1 0).isSome && (s.phaseOver (Claims.barrierOf s g b 5).1 1 ||
      !(s.phaseOver (Claims.barrierOf s g b 5).1 1)),
    holdsAt (arrivedS (.block 0 5) 0) fun s g b => !(s.phaseOver (Claims.barrierOf s g b 5).1 0) && (g.sreg 2).toNat == 0,
    holdsAt ((grpOf (sregs [(2, 0)])).updBlk 0 fun b => { b with bars := vset b.bars 5 ⟨1, 1, 1, 0, 0, 0⟩ }) fun s g b =>
      s.phaseOver (Claims.barrierOf s g b 5).1 0 && decide ((g.sreg 2).toNat < 2 ^ 16),
    holdsAt (grpOf (sregs [(2, 2 ^ 16)])) fun _ g _ => decide (2 ^ 16 ≤ (g.sreg 2).toNat),
    holdsAt (clusterS fun g => { g with arrivals := [⟨1, 1, 1, none, false⟩] }) fun s g b => (Claims.arrivalAt g (Claims.barrierOf s g b 17).1 0).isSome,
    holdsAt (clusterS fun g => { g with arrivals := [⟨1, 5, 0, none, false⟩, ⟨1, 1, 1, none, true⟩] }) fun s g b => Claims.arrivalAt g (Claims.barrierOf s g b 17).1 0 == none && s.arrivals == [],
    holdsAt (grpOf (sregs [(2, 1), (3, 2047), (4, 2048), (5, 0)])) fun _ g _ => decide (1 ≤ (g.sreg 2).toNat) && (g.sreg 3).toNat == 2047 &&
      decide (2047 < (g.sreg 4).toNat) && (g.sreg 5).toNat == 0,
    holdsAt (heldBack (clusterS id)) fun s g b => Claims.arrivalAt g (Claims.barrierOf s g b 17).1 0 == none && s.arrivals == [] && !(s.release 0 0 2).2,
    holdsAt s0 fun s g b => (s.bar (Claims.barrierOf s g b 5).1).isSome] = true := by decide +kernel

/-- Group 0 in a wait on a token of a block barrier or an object, whose end is settled. -/
def waitS (x : BarId) (scope : Nat) (f : Fate) : State :=
  grpOf fun g => { g with state := .waitBarrier, dep := some (.phase x 0 ⟨some 31, 0x12000, scope, 0x10004, 0⟩), fate := some f }

theorem witness_waits_that_trap : allOf [
    (let s := waitS (.block 0 5) 1 .stall; (s.ctx 0).state != .faulted && (s.grp 0).any fun g => g.entry.isNone && !g.cap.reenter && g.fate == some .stall),
    (let s := waitS (.object 0x12000) 4 (.balance 3); (s.grp 0).any fun g => g.entry.isNone && g.fate == some (.balance 3) && g.dep.isSome)] = true := by decide +kernel

/-- A state with a memory barrier object of context c at 0x12000, with a count, a phase and its sources to come. -/
def objS (c exp pend phase : Nat) (f : Group → Group) : State :=
  memW (grpOf fun g => f (sregs [(2, 0x12000)] g)) [(0x12000, pend + exp * 2 ^ 32), (0x12010, phase), (0x12018, c * 2 ^ 32)]

theorem witness_object_words : allOf [
    holdsAt (objS 3 2 2 0 id) fun s g b => s.drainCore 0 == s && objectAt s g b 0x12000 64 .rw && s.objCtx 0x12000 != b.ctx && s.objExp 0x12000 != 0,
    holdsAt (objS 0 2 2 0 id) fun s g b => s.drainCore 0 == s && objectAt s g b 0x12000 64 .rw && s.objCtx 0x12000 == b.ctx && Claims.arrivalAt g (.object 0x12000) 0x12000 == none &&
      s.arrivals == [] && (s.release 0 0 4).2,
    holdsAt (objS 0 2 2 1 fun g => { g with arrivals := [⟨0, 0, 2, some 0x12000, false⟩] }) fun s g b => objectAt s g b 0x12000 64 .rw && s.objCtx 0x12000 == b.ctx &&
      (Claims.arrivalAt g (.object 0x12000) 0x12000).any fun r => s.phaseOver (.object 0x12000) r.token && s.balance 0x12000 r.token == none,
    holdsAt (objS 0 2 2 0 fun g => { g with arrivals := [⟨0, 0, 2, some 0x12000, false⟩] }) fun s g _ => (Claims.arrivalAt g (.object 0x12000) 0x12000).any fun r => !(s.phaseOver (.object 0x12000) r.token),
    holdsAt { memW (objS 0 2 2 1 fun g => { g with arrivals := [⟨0, 0, 2, some 0x12000, false⟩] }) [(0x12018, 2 ^ 41)] with objFails := [(0x12000, 5)] } fun s g b =>
      objectAt s g b 0x12000 64 .rw && s.objCtx 0x12000 == b.ctx && (Claims.arrivalAt g (.object 0x12000) 0x12000).any (fun r => r.token == 0) &&
      s.phaseOver (.object 0x12000) 0 && s.balance 0x12000 0 == some 5 && (g.sreg 4).toNat == 0,
    holdsAt (objS 0 2 2 1 id) fun s g b => objectAt s g b 0x12000 64 .read && decide ((g.sreg 4).toNat < 2 ^ 32) &&
      s.phaseOver (.object 0x12000) 0 && s.balance 0x12000 0 == none,
    holdsAt (objS 0 2 2 0 id) fun s g b => objectAt s g b 0x12000 64 .read && !(s.phaseOver (.object 0x12000) 0),
    holdsAt (objS 3 0 0 0 (sregs [(4, 2 ^ 32), (5, 2 ^ 32 - 1), (6, 0)])) fun s g b => objectAt s g b 0x12000 64 .rw && s.objExp 0x12000 == 0 &&
      decide (2 ^ 32 ≤ (g.sreg 4).toNat) && decide (1 ≤ (g.sreg 5).toNat ∧ (g.sreg 5).toNat < 2 ^ 32) && (g.sreg 6).toNat == 0] = true := by decide +kernel

theorem witness_barrier_phases : allOf [
    (s0.updBlk 0 fun b => { b with bars := vset b.bars 15 ⟨0, 2, 2, 0, 0, 0⟩ }).bar (.block 0 15) == some ⟨0, 2, 2, 0, 0, 0⟩,
    s0.bar (.block 0 0) == some (Bar.launch 1) && (Bar.launch 1).exp != 0 && (Bar.launch 1).pend == 1] = true := by decide +kernel

/-- The words of a monitor descriptor that R323 admits: FP64 elements of 8 bytes between 0 and 2^20. -/
def monGood : List (Nat × Nat) := [(0x12000, 8 * 2 ^ 32 + 4), (0x12008, 0), (0x12010, 2 ^ 20)]

theorem witness_monitor_words : allOf [
    holdsAt (memW (grpOf (sregs [(2, 0x12000)])) monGood) fun s g b => placed s g b ⟨0x12000, 64, .read, 0, 0, true, false, false, none, 0⟩ (.mem 0x12000) &&
      !(s.poisoned 0x12000 64) && (let r := s.memLoad 0 0 g.acqClk 0 true 0x12000 64;
        !(monBad r.1) && !(r.2.checkOf b.ctx 3) && (r.2.ctx b.ctx).wpHit .read 0x12000 64 (some r.1) true == none &&
        live ((r.2.montabWrite b.ctx 3 0 64 (r.1 % 2 ^ 384)).zeroPartials b.ctx 3)),
    holdsAt (grpOf (sregs [(2, 0x12000)])) fun s g b => placed s g b ⟨0x12000, 64, .read, 0, 0, true, false, false, none, 0⟩ (.mem 0x12000) &&
      monBad (s.memLoad 0 0 g.acqClk 0 true 0x12000 64).1,
    holdsAt (mapped (grpOf id)) fun s g b => !g.inStep && rawImm g.exts 7 3 == 3 && !(s.checkOf b.ctx 3) &&
      live ((s.montabWrite b.ctx 3 0x30 16 0).zeroPartials b.ctx 3) && live (s.montabWrite b.ctx 3 0x18 8 0) && finite64 (g.sreg 2),
    holdsAt (grpOf (sregs [(2, 0x7FF0000000000000)])) fun _ g _ => !(finite64 (g.sreg 2)),
    holdsAt { s0 with checks := [⟨0x12000, 0, [(0, 3)], [], []⟩] } fun s _ b => s.checkOf b.ctx 3,
    holdsAt (objS 0 2 2 0 id) fun s g b => objectAt s g b 0x12000 64 .rw && s.drainCore 0 == s && s.objCtx 0x12000 == b.ctx && !(s.objChecking 0x12000) &&
      (s.objBound 0x12000).all (fun q => q.2 != 3) && !(s.boundElsewhere b.ctx 3) && !(s.bindComing b.ctx 3 fun _ => true) &&
      (List.range 4).find? (fun j => (s.objBinding 0x12000 j).isNone && !(s.bindDue 0x12000 j)) == some 0,
    holdsAt ((objS 0 2 2 0 id).setBinding 0x12000 1 (128 + 3)) fun s g b => objectAt s g b 0x12000 64 .rw && s.drainCore 0 == s &&
      s.objCtx 0x12000 == b.ctx && !(s.objChecking 0x12000) && (s.objBound 0x12000).any (fun q => q.2 == 3) &&
      ((s.objBound 0x12000).find? fun q => q.2 == 3).isSome && ((s.objBound 0x12000).find? fun q => q.2 == 4) == none,
    holdsAt s0 fun _ g _ => rawImm g.exts 7 (64 + 3) == 64 + 3 && rawImm g.exts 7 (3 * 16 + 3) == 3 * 16 + 3] = true := by decide +kernel

/-! ### Lacers and rings -/

/-- A state whose block has a ring of four slots of 256 bytes. -/
def ringS (r : Ring) : State := s0.updBlk 0 fun b => { b with rings := [(5, r)] }
/-- The words of a lace table entry: 64 bytes of HBM to the scratchpad. -/
def laceGood : List (Nat × Nat) := [(0x12000, 8), (0x12008, 0x13000), (0x12018, 64 + 2 ^ 16 + 2 ^ 32 + 2 ^ 48)]

theorem witness_lacer_words : allOf [
    holdsAt (memW (grpOf (sregs [(2, 0x12000)])) laceGood) fun s g b =>
      (match Claims.readAt s 0 g 0 false 64 (.mem 0x12000) with
       | some (v, u) => u.laceCheck b (LEntry.ofCode v) == 0 && decide (((u.core 0).lacer 1).length < Config.lacerQueue) &&
         live (Claims.laced u 0 g b 1 1 (LEntry.ofCode v))
       | none => false) && placed s g b ⟨0x12000, 64, .read, 0, 0, true, false, false, none, 0⟩ (.mem 0x12000),
    holdsAt (grpOf (sregs [(2, 0x12000)])) fun s g b =>
      (match Claims.readAt s 0 g 0 false 64 (.mem 0x12000) with
       | some (v, u) => u.laceCheck b (LEntry.ofCode v) != 0
       | none => false),
    holdsAt ((memW (grpOf (sregs [(2, 0x12000)])) laceGood).updCore 0 fun c => c.setLacer 1
      (List.replicate Config.lacerQueue ⟨0, 0, 1, 0, true, LEntry.ofCode 0, 0, [], 0, [], none, 0, false, none⟩)) fun s _ b =>
      decide (Config.lacerQueue ≤ ((s.core 0).lacer 1).length) && b.ctx == 0,
    holdsAt ((grpOf (sregs [(2, 1)])).updBlk 0 fun b => { b with tickets := vset b.tickets 1 1 }) fun s g b => (g.sreg 2).toNat == 1 &&
      vget b.tickets 1 0 == 1 && (s.core 0).laceEnded 1 g.block 1 && vget b.lfault 1 none == none && vget b.lwatch 1 none == none &&
      !((s.cancelCmds 0 1 g.block 1).core 0 |>.cancelling 1 g.block 1) && live (s.cancelCmds 0 1 g.block 1),
    holdsAt (((grpOf (sregs [(2, 1)])).updBlk 0 fun b => { b with tickets := vset b.tickets 1 1 }).updCore 0 fun c => c.setLacer 1
      [⟨0, 0, 1, 0, true, LEntry.ofCode 0, 0, [], 0, [], none, 0, false, none⟩]) fun s g _ => !((s.core 0).laceEnded 1 g.block 1),
    holdsAt ((grpOf (sregs [(2, 1)])).updBlk 0 fun b => { b with tickets := vset b.tickets 1 1, lfault := vset b.lfault 1 (some ⟨1, 0, 6⟩) }) fun s g b =>
      (s.core 0).laceEnded 1 g.block 1 && vget b.lfault 1 none == some ⟨1, 0, 6⟩,
    holdsAt ((grpOf (sregs [(2, 1)])).updBlk 0 fun b => { b with tickets := vset b.tickets 1 2, lwatch := vset b.lwatch 1 (some ⟨2, 0, 6⟩) }) fun s g b =>
      (s.core 0).laceEnded 1 g.block 1 && (vget b.lwatch 1 none).any fun r => decide (1 < r.ticket),
    holdsAt s0 fun s g b => (g.sreg 2).toNat == 0 && (s.tileEngine b 0).isSome,
    holdsAt (grpOf (sregs [(2, 0x10000)])) fun s g b => s.tileEngine b (g.sreg 2).toNat == none,
    holdsAt (s0.updBlk 0 fun b => b.hold [0] true) fun s _ b => s.tileEngine b 0 == some true] = true := by decide +kernel

theorem witness_ring_words : allOf [
    holdsAt s0 fun s g b => amGet b.rings 5 == none && rawImm g.exts 7 5 == 5 && rawImm g.exts 7 69 == 69 && live (s.release 0 0 1).1,
    holdsAt (ringS ⟨0, 256, 4, true, 4, 0, 0, 0, 0, 0⟩) fun _ _ b => (amGet b.rings 5).any fun r => r.lfed && r.filled == 0 && r.outc == 0,
    holdsAt (ringS ⟨0, 256, 4, false, 0, 2, 0, 0, 1, 1⟩) fun s _ b => live (s.release 0 0 1).1 && (amGet b.rings 5).any fun r =>
      !r.lfed && r.free == 0 && r.filled != 0 && r.outp != 0 && r.outc != 0,
    holdsAt (ringS ⟨0, 256, 4, false, 4, 0, 3, 0, 0, 0⟩) fun _ _ b => (amGet b.rings 5).any fun r => !r.lfed && r.free == r.n && r.outp == 0,
    holdsAt (grpOf (sregs [(2, 256 * 2 ^ 20 + 32 * 2 ^ 36), (3, 256 * 2 ^ 20 + 33 * 2 ^ 36), (4, 0)])) fun _ g b =>
      bitsOf (g.sreg 2) 63 43 == 0 && bitsOf (g.sreg 2) 41 36 == 32 && decide (0 + 32 * 256 ≤ b.desc.scr * 65536) &&
      decide (32 < bitsOf (g.sreg 3) 41 36) && bitsOf (g.sreg 4) 41 36 == 0] = true := by decide +kernel

/-! ### Graph words -/

/-- A node with nothing done yet, of a kind, in a state. -/
def nodeW (kind state : Nat) : Node :=
  { kind := kind, state := state, policy := 0, idem := false, early := true, nvar := 1, vsel := 0, rbudget := 0, rused := 0, status := 0,
    fdom := 0, prio := 0, povr := false, toksent := false, walked := false, need := 0, haveTok := 0, succs := [], payload := 0,
    vars := Vector.replicate 4 0, times := Vector.replicate 4 0, lseq := 0, tFire := 0, wlink := 0, cores := 0, accs := 0, readyClk := 0,
    raised := 0, waited := 0, limit := 0, grid := none, child := none, engine := none, ending := none, work := Vector.replicate 4 0,
    watchPa := 0, starting := none }
/-- A running graph of context 0 with its header at 0x12000 and its node records at 0x13000. -/
def graphW (l : List Node) : Graph :=
  { va := 0x12000, ctx := 0, die := 0, queue := none, parent := none, depth := 0, prio := 0, fdom := 0, cores := 0, accs := 0, regions := [],
    nodesVa := 0x13000, state := 1, completion := 0, failed := 0, whead := 0, wtail := 0, wact := false, visitClk := 0, halted := false,
    cancelled := false, admitted := 0, nodes := l, halts := [], compl := 0, cval := 0, told := false }
/-- A grid of node 0 of graph 7. -/
def gridW (st : GridState) : Grid :=
  { graph := 7, node := 0, lseq := 1, ctx := 0, die := 0, prio := 0, fired := 0, desc := placeDesc, phases := [], state := st, nextCluster := 0,
    tried := false, waited := 0, resClk := 0, reserved := [], started := false, clocks := 0, busy := [] }
/-- A state in which the group that issues belongs to node 0 of graph 7. -/
def graphS (l : List Node) (f : Group → Group) : State :=
  { mapped (grpOf f) with graphs := [(7, graphW l)], grids := [(0, gridW .resident)] }
/-- A queue of context 0 with 16 entries at 0x14000. -/
def queueW (st : QState) : Queue := { Queue.reset with state := st, ring := 0x14000, log2n := 4, tailpa := 0x15000 }
/-- A state with that queue as queue 3. -/
def queueS (x : Queue) (f : Group → Group) : State := { mapped (grpOf f) with queues := [(3, x)] }
/-- Words of a record can be read. -/
def recordOk (s : State) (g : Group) (b : Block) (vas : List Nat) : Bool :=
  readsOk s g b true 4 (vas.map fun va => ⟨va % 2 ^ 64, 8, .read, 0, 0, true, false, false, none, 0⟩)

theorem witness_graph_words : allOf [
    holdsAt s0 fun s g b => g.exts == [] && !g.inStep && amGet s.grids b.grid == none,
    holdsAt (graphS [{ nodeW 0 2 with early := false }] id) fun s _ b => amGet s.grids b.grid == some (gridW .resident) && (s.node 7 0).any fun n => !n.early,
    holdsAt { graphS [nodeW 0 2] id with graphs := [(7, { graphW [nodeW 0 2] with wact := true })] } fun s _ _ => s.putOff == [] && s.graphs.any fun q => q.2.wact,
    holdsAt (graphS [nodeW 0 2] id) fun s _ _ => (s.release 0 0 4).2 && !(s.graphStuck 7) && ((s.node 7 0).any fun n => n.early && !n.toksent && n.state == nRunning) &&
      live ((s.release 0 0 4).1.sendTokens 7 0) && live (s.nodeFault 7 0 0x46) && live (s.release 0 0 4).1,
    holdsAt (grpOf (sregs [(2, 1024)])) fun s g _ => (s.release 0 0 5).2 && decide (1023 < (g.sreg 2).toNat),
    holdsAt (queueS { queueW .idle with ctx := 5 } (sregs [(2, 3)])) fun s g b => (s.release 0 0 5).2 && (s.queue (g.sreg 2).toNat).ctx != b.ctx,
    holdsAt (memW (queueS (queueW .idle) (sregs [(2, 3)])) [(0x15000, 16)]) fun s g b =>
      let u := (s.release 0 0 5).1
      let q := u.queue (g.sreg 2).toNat
      q.ctx == b.ctx && u.isMemory (u.tailPa 3) && !(u.poisoned (u.tailPa 3) 8) && !(u.poisoned (u.queueHdr 3) 64) &&
        q.state != .closed && q.state != .faulted && decide (q.done.toNat + 2 ^ q.log2n ≤ u.read (u.tailPa 3) 8),
    holdsAt (memW (queueS (queueW .idle) (sregs [(2, 3)])) [(0x15000, 15)]) fun s g b =>
      let u := (s.release 0 0 5).1
      let q := u.queue (g.sreg 2).toNat
      let v := (Claims.writeAt u 0 b (0x14000 + 15 * 32) 32 0 (.mem (0x14000 + 15 * 32))).drainCore 0
      decide (u.read (u.tailPa 3) 8 < q.done.toNat + 2 ^ q.log2n) && v.isMemory (u.tailPa 3) &&
        live ((v.dropGuest 0 (u.tailPa 3 / 256)).performBytes none (u.tailPa 3) 8 16) &&
        placed u g b ⟨0x14000 + 15 * 32, 32, .write, 0, 0, true, false, false, some 0, 0⟩ (.mem (0x14000 + 15 * 32)),
    holdsAt (memW (graphS [nodeW 0 2] (sregs [(2, 0x12000), (4, 2), (5, 1)])) [(0x12008, 0x13000), (0x12010, 2)]) fun s g b =>
      recordOk s g b [0x12000, 0x12008, 0x12010, 0x12018] && recordOk (s.acquire 0 4) g b [0x13080, 0x13088] && s.read 0x12010 8 == 2 &&
        s.read 0x12000 8 / 2 ^ 16 % 256 == b.ctx && (g.sreg 4).toNat == 2 && (g.sreg 5).toNat == 1,
    holdsAt (memW (grpOf (sregs [(2, 0x12000)])) [(0x12000, 5 * 2 ^ 16)]) fun s g b => recordOk s g b [0x12000, 0x12008, 0x12010, 0x12018] &&
      s.read 0x12000 8 / 2 ^ 16 % 256 != b.ctx,
    holdsAt (grpOf (sregs [(2, 0x12000)])) fun s g b => recordOk s g b [0x12000] && (s.acquire 0 4).graphs.find? (Claims.reachedBy s b.ctx 0x12000) == none &&
      s.read 0x12000 8 / 2 ^ 16 % 256 == b.ctx,
    holdsAt { graphS [nodeW 0 2] (sregs [(2, 0x12000)]) with graphs := [(7, { graphW [nodeW 0 2] with halts := [0] })], putOff := [0] } fun s g b => s.putOff.contains 0 &&
      recordOk s g b [0x12000] && (((s.acquire 0 4).graphs.find? (Claims.reachedBy s b.ctx 0x12000)).any fun q => q.2.halts != []),
    holdsAt (graphS [nodeW 0 2, nodeW 0 9] (sregs [(2, 0x12000), (3, 2 ^ 64 - 1), (4, 2), (5, 1), (6, 0)])) fun s g b => visitsCame s && recordOk s g b [0x12000] &&
      (((s.acquire 0 4).graphs.find? (Claims.reachedBy s b.ctx 0x12000)).any fun q => q.1 == 7 && q.2.state == 1 && q.2.halts == []) &&
      (((s.acquire 0 4).graphs.find? (Claims.reachedBy s b.ctx 0x22000)).isNone) && !(s.graphStuck 7) && live (s.cancelChildren 0x43 9 7) && (graphW [nodeW 0 2, nodeW 0 9]).nodes[(g.sreg 4).toNat]? == none &&
      ((s.node 7 (g.sreg 5).toNat).any fun n => decide (nFailed ≤ n.state)) && ((s.node 7 (g.sreg 6).toNat).any fun n => decide (n.state < nFailed)) &&
      live (((s.coneVisit 7 0 0x43).startWalk 7 0).markRoot 7 0) && b.ctx == 0,
    holdsAt (grpOf (sregs [(2, 0x1C), (3, 0x1B)])) fun _ g _ => decide (0x1B < (g.sreg 2).toNat) && decide ((g.sreg 3).toNat ≤ 0x1B)] = true := by decide +kernel

/-! ### Events -/

/-- The context in a state. -/
def ctxS (f : Ctx → Ctx) : State := mapped (s0.updCtx 0 f)
/-- The context in a state, with no block. -/
def bareS (f : Ctx → Ctx) : State := { ctxS f with blocks := [], groups := [], issue := [] }
/-- A state with the tag of page i of a save of context 0 at a base written. -/
def tagged (s : State) (base i : Nat) : State :=
  { s with mem := writeLE s.mem (base + 0xEB000000 + i * 16) 16 (s.tagOf base 0 i (s.ctx 0).gen) }
theorem sha_congr (n m : Nat) {f g : Nat → BitVec 8} (h : f = g) : sha256 n f % m = sha256 n g % m := by rw [h]
/-- The tag of a page depends on its bytes alone. -/
theorem tagOf_congr {s t : State} {base c i : Nat} {gen : BitVec 64}
    (h : ∀ k, k < 4096 → byteAt t.mem (base + i * 4096 + k) = byteAt s.mem (base + i * 4096 + k)) :
    t.tagOf base c i gen = s.tagOf base c i gen := by
  simp only [State.tagOf]
  refine sha_congr _ _ (funext fun k => ?_)
  by_cases hk : k < 4096
  · simp only [hk, if_true, h k hk]
  · simp only [hk, if_false]
theorem read_written (s : State) (a v : Nat) (hm : Memory.wf s.mem = true) (hv : v < 2 ^ 128) :
    ({ s with mem := writeLE s.mem a 16 v } : State).read a 16 = v := by
  have := readLE_writeLE a 16 v hm
  rw [Nat.mod_eq_of_lt (Nat.lt_of_lt_of_eq hv (by norm_num))] at this
  exact this
theorem byte_beside (s : State) (a v j : Nat) (hm : Memory.wf s.mem = true) (hj : j < a ∨ a + 16 ≤ j) :
    byteAt ({ s with mem := writeLE s.mem a 16 v } : State).mem j = byteAt s.mem j := byteAt_writeLE_out 16 _ hm hj
theorem ctx_beside (s : State) (m : List Host.Cell) (c : Nat) : ({ s with mem := m } : State).ctx c = s.ctx c := rfl
theorem tagOf_lt (s : State) (base c i : Nat) (gen : BitVec 64) : s.tagOf base c i gen < 2 ^ 128 := by
  simp only [State.tagOf]
  exact Nat.mod_lt _ (Nat.two_pow_pos 128)
theorem poison_beside (s : State) (m : List Host.Cell) (pa n : Nat) : ({ s with mem := m } : State).poisoned pa n = s.poisoned pa n := rfl
/-- That page is good (04 R100). -/
theorem tagged_pageOk (s : State) (base i : Nat) (hm : Memory.wf s.mem = true)
    (hp : s.poisoned (base + i * 4096) 4096 = false ∧ s.poisoned (base + 0xEB000000 + i * 16) 16 = false) (hi : i < 0xEB000) :
    (tagged s base i).pageOk base 0 i ((tagged s base i).ctx 0).gen = true := by
  have h : (tagged s base i).tagOf base 0 i (s.ctx 0).gen = s.tagOf base 0 i (s.ctx 0).gen :=
    tagOf_congr fun k hk => byte_beside s _ _ _ hm (by omega)
  have hr : (tagged s base i).read (base + 0xEB000000 + i * 16) 16 = s.tagOf base 0 i (s.ctx 0).gen :=
    read_written s _ _ hm (tagOf_lt ..)
  have hc : (tagged s base i).ctx 0 = s.ctx 0 := ctx_beside s _ 0
  have hq : ∀ pa n, (tagged s base i).poisoned pa n = s.poisoned pa n := fun pa n => poison_beside s _ pa n
  simp only [State.pageOk, hq, hp.1, hp.2, hc, h, hr, Bool.not_false, Bool.true_and, beq_self_eq_true]
/-- A saved block of core 0 that owns no page. -/
def savedB : SavedBlock :=
  ⟨4, { placeBlock with bid := 4, slots := [], desc := { placeDesc with scr := 0 } }, ⟨0, 0, 0, 0, false, [4], Vector.replicate 16 (Bar.launch 1)⟩, (16, 24, 32), [], [], []⟩
/-- A state with 16 active contexts beside context c. -/
def fullS (st : CState) : State :=
  { State.reset with ctxs := (2, { Ctx.reset with state := st }) :: (List.range 16).map fun k => (k + 3, { Ctx.reset with active := true }) }

theorem witness_context_commands : allOf [
    (State.reset.ctx 255).state == .destroyed, (s0.ctx 0).state != .destroyed,
    (let s := ctxS fun c => { c with state := .created }; (s.ctx 0).state == .created && s.loadBad (s.latched (s.ctx 0) (s.ctxDesc 0))),
    (let s := memW { (s0.updCtx 0 fun c => { c with state := .created }) with regs := amSet s0.regs 0x10 0x40000 }
       [(0x40000, 2 ^ 8), (0x40008, 0x30001), (0x40010, 0x200000), (0x40048, 4096 * 2 ^ 32)];
     (s.ctx 0).state == .created && !(s.loadBad (s.latched (s.ctx 0) (s.ctxDesc 0)))),
    (fullS .loaded).activeCount == 16 && ((fullS .loaded).ctx 2).state == .loaded, ((fullS .parked).ctx 2).state == .parked,
    (let s := bareS fun c => { c with state := .loaded, active := false }; (s.ctx 0).state == .loaded && decide (s.activeCount < 16)),
    (let s := bareS fun c => { c with state := .parked, active := false, savepa := 0x30000 }; !(s.pageOk 0x30000 0 0 (s.ctx 0).gen) && (s.ctx 0).state == .parked),
    s0.hasBlocks 0 && (s0.ctx 0).state == .running,
    (let s := bareS fun c => c; !(s.hasBlocks 0) && (s.ctx 0).state == .running),
    ((ctxS fun c => { c with state := .draining }).ctx 0).state == .draining] = true := by decide +kernel

/-- A context PARKED, or restoring, with the save at 0x30000. -/
def parkedS : State := bareS fun c => { c with state := .parked, active := false, savepa := 0x30000 }
/-- A context that restores its one saved block. -/
def restoringS : State := bareS fun c => { c with saved := [savedB], restoring := true, savepa := 0x30000 }

/-- A context whose save is bad in page 1 and in the core pages, with a saved block of a grid that a node runs. -/
def lossS (parked : Bool) : State :=
  let node := { nodeW 1 2 with grid := some 0 }
  let s := if parked then parkedS else restoringS
  { (s.updCtx 0 fun c => { c with saved := [savedB, { savedB with id := 5 }] }) with
    graphs := [(7, graphW [node])], grids := [(0, gridW .resident)], poison := [0x31000 / 64, (0x30000 + corePage 0 * 4096) / 64] }
/-- Grid n is that of a RUNNING node that has taken no fault. -/
def runs (s : State) (n : Nat) : Bool :=
  (amGet s.grids n).any fun k => (s.node k.graph k.node).any fun y => y.state == 2 && y.grid == some n && y.ending == none

theorem witness_lost : (tagged (lossS true) 0x30000 0).pageOk ((tagged (lossS true) 0x30000 0).ctx 0).savepa 0 0 ((tagged (lossS true) 0x30000 0).ctx 0).gen = true ∧
    allOf (let s := tagged (lossS true) 0x30000 0
      let r := ((s.updCtx 0 fun x => { x with sealed := false, active := true, restoring := true }).loadMonitors 0).setCtxState 0 .running
      [(s.ctx 0).state == .parked, decide (s.activeCount < 16), !(s.pageOk (s.ctx 0).savepa 0 (1 + 101 * 40 / 4096) (s.ctx 0).gen),
       (r.ctx 0).saved.all fun z => r.pagesBad 0 z && runs r z.block.grid]) = true ∧
    allOf (let s := lossS false
      [s.canReload 0, (s.ctx 0).saved.find? (s.canReturnTo 0) == some savedB, s.pagesBad 0 savedB, runs s 0]) = true :=
  ⟨tagged_pageOk (lossS true) 0x30000 0 (by decide +kernel) (by decide +kernel) (by decide), by decide +kernel, by decide +kernel⟩
/-- A context in a state with a block resident, a block saved and a grid that is not ended, each of a node that runs; and a grid with none of these. -/
def resetS (st : CState) : State :=
  let nd := fun (k : Nat) => { nodeW 1 2 with grid := some k }
  { (ctxS fun c => { c with state := st, d2 := 5, dcnt := 5, saved := [{ savedB with block := { savedB.block with grid := 2 } }] }) with
    graphs := [(7, graphW [nd 0, nd 1, nd 2, nd 3])],
    grids := [(0, gridW .ended), (1, { gridW .dispatching with node := 1 }), (2, { gridW .ended with node := 2 }), (3, { gridW .ended with node := 3 })] }
theorem witness_resets : allOf ([CState.running, .draining, .parking, .parked, .faulted].map fun st =>
    let s := resetS st
    (s.ctx 0).state == st && [0, 1, 2, 3].all (runs s) && s.blocks.any (fun b => b.2.ctx == 0 && b.2.grid == 0) &&
      (s.ctx 0).saved.any (fun y => y.block.grid == 2) && (amGet s.grids 1).any (fun k => k.ctx == 0 && k.state != .ended) &&
      decide ((s.ctx 0).d2 ≤ (s.ctx 0).dcnt)) = true := by decide +kernel
theorem witness_saves : allOf [
    (let s : State := { ((ctxS fun c => { c with state := .parking }).updGrp 0 fun g => { g with state := .parked }) with issue := [], partials := [(5, ⟨0, 1⟩)] };
     s.canSave 0 && amSorted s.blocks && s.blocks.any fun b => b.2.ctx == 0),
    [CState.created, .loaded, .parked].all fun st => ((ctxS fun c => { c with state := st }).ctx 0).state == st] = true := by decide +kernel

theorem witness_restore : (tagged parkedS 0x30000 0).pageOk ((tagged parkedS 0x30000 0).ctx 0).savepa 0 0 ((tagged parkedS 0x30000 0).ctx 0).gen = true ∧
    allOf [((tagged parkedS 0x30000 0).ctx 0).state == .parked, decide ((tagged parkedS 0x30000 0).activeCount < 16)] = true :=
  ⟨tagged_pageOk parkedS 0x30000 0 (by decide +kernel) (by decide +kernel) (by decide), by decide +kernel⟩
theorem witness_reload : (tagged restoringS 0x30000 (corePage 0)).pagesBad 0 savedB = false ∧
    allOf [(tagged restoringS 0x30000 (corePage 0)).canReload 0,
      ((tagged restoringS 0x30000 (corePage 0)).ctx 0).saved.find? ((tagged restoringS 0x30000 (corePage 0)).canReturnTo 0) == some savedB] = true := by
  refine ⟨?_, by decide +kernel⟩
  have h := tagged_pageOk restoringS 0x30000 (corePage 0) (by decide +kernel) (by decide +kernel) (by decide)
  have hs : ((tagged restoringS 0x30000 (corePage 0)).ctx 0).savepa = 0x30000 := by decide +kernel
  have ho : ownedPages savedB = [] := by decide +kernel
  have hb : savedB.block.core = 0 := rfl
  simp [State.pagesBad, hs, ho, hb, h]

theorem witness_context_events : allOf [
    (let x := (ctxS fun c => { c with state := .draining, d1 := 5, dcnt := 5 }).ctx 0; x.state == .draining && x.d1 != 0 && decide (x.d1 ≤ x.dcnt)),
    (let x := (ctxS fun c => { c with state := .parking, d2 := 4096, dcnt := 4096 }).ctx 0; x.state == .parking && decide (x.d2 ≤ x.dcnt)),
    (let s := bareS fun c => { c with state := .resetting }; (s.ctx 0).state == .resetting && !(s.hasBlocks 0)),
    ({ ((ctxS fun c => { c with state := .parking }).updGrp 0 fun g => { g with state := .ready }) with issue := [] } : State).canPark 0,
    (bareS fun c => { c with state := .parking }).canSave 0,
    (let s := bareS fun c => { c with saved := [savedB], restoring := true, savepa := 0x30000 };
     s.canReload 0 && (s.ctx 0).saved.find? (s.canReturnTo 0) == some savedB && s.pagesBad 0 savedB),
    (let s := bareS fun c => { c with saved := [], restoring := true }; s.canReload 0 && (s.ctx 0).saved == [])] = true := by decide +kernel

/-- A queue whose TAIL lies in a host window, behind a port that is up. -/
def hostTailS : State :=
  { queueS { queueW .idle with tailpa := 2 ^ 48 + 0x15000 } id with
    links := [(16, { Link.reset 16 with state := .active, trained := some false })] }

theorem witness_queue_commands : allOf [
    (s0.queue 1023).state == .closed && s0.headerBad (s0.headerQueue 1023),
    (let s := memW { s0 with regs := amSet s0.regs 0x18 0x80000 } [(0x80000 + 512 * 3 + 8, 0x14000), (0x80000 + 512 * 3 + 16, 4)];
     (s.queue 3).state == .closed && !(s.headerBad (s.headerQueue 3))),
    [QState.idle, .watching, .active, .draining, .paused, .faulted].all fun st => ((queueS (queueW st) id).queue 3).state == st,
    (queueS (queueW .idle) id).isMemory ((queueS (queueW .idle) id).tailPa 3),
    (let s := memW (queueS (queueW .paused) id) [(0x15000, 17)]; s.tailNow 3 == some 17 && decide ((s.queue 3).done.toNat + 2 ^ (s.queue 3).log2n < 17)),
    (let s := memW (queueS (queueW .idle) id) [(0x15000, 16)]; s.tailNow 3 == some 16 && decide (16 ≤ (s.queue 3).done.toNat + 2 ^ (s.queue 3).log2n)),
    hostTailS.tailNow 3 == none && (hostTailS.queue 3).state == .idle] = true := by decide +kernel

/-- A queue with a launch in hand of the graph at 0x12000: one empty-policy node of kind 2 without a predecessor. -/
def launchS : State :=
  memW (queueS { queueW .active with entry := some (0x12000, 0, 0), head := 1, tail := 1 } id)
    [(0x12008, 0x13000), (0x12010, 1), (0x13000, 2 + 2 ^ 8)]

theorem witness_queue_events : allOf [
    (let s := (queueS (queueW .watching) id).updCtx 0 fun c => { c with state := .faulted }; (s.queue 3).state == .watching && (s.ctx 0).state != .running && !(s.queueFired 3) &&
      !(s.launchBad (s.queue 3)) && !(s.queue 3).drainDue),
    (let s := memW (queueS (queueW .idle) id) [(0x15000, 17)]; (s.ctx 0).state == .running && s.tailNow 3 == some 17 && !(s.launchBad (s.queue 3)) &&
      decide ((s.queue 3).done.toNat + 2 ^ (s.queue 3).log2n < 17)),
    (let s := queueS (queueW .idle) id; s.tailNow 3 == some (s.queue 3).head && (s.queue 3).done == (s.queue 3).head && !(s.launchBad (s.queue 3))),
    (let s : State := { memW (queueS (queueW .watching) id) [(0x15000, 1)] with watches := [⟨.queue 3, 0x15000, 8, false, true⟩] };
     s.queueFired 3 && (s.queue 3).state == .watching && s.tailNow 3 == some 1),
    (let s := queueS { queueW .closed with entry := some (0x12001, 0, 0), head := 1, tail := 1 } id; s.launchBad (s.queue 3) && (s.queue 3).state == .closed),
    (let s := queueS { queueW .active with entry := some (0x12001, 0, 0), head := 1, tail := 1 } id; s.launchBad (s.queue 3)),
    (let s := memW (queueS { queueW .active with tail := 1 } id) [(0x14008, 2 ^ 32 + 1)];
     !(s.canObserve 3) && s.mayTake (s.queue 3) && (match s.ctxRead 0 0x14000 32 with
       | .ok v _ => v / 2 ^ 64 % 2 ^ 32 != (s.queue 3).head.toNat % 2 ^ 32
       | _ => false)),
    (let s := memW (queueS { queueW .active with tail := 1 } id) [(0x14000, 0x12000), (0x14008, 2 ^ 32)];
     !(s.canObserve 3) && s.mayTake (s.queue 3) && (match s.ctxRead 0 0x14000 32 with
       | .ok v u => v / 2 ^ 64 % 2 ^ 32 == 0 && v / 2 ^ 96 % 2 ^ 8 == 1 && u.partDone.graphDie 0 (v % 2 ^ 64) == some (some 0)
       | _ => false)),
    (let x := (queueS (queueW .draining) id).queue 3; x.state == .draining && x.head.truncate 56 == x.dlimit && x.done == x.head),
    launchS.canAdmit 0 && (match launchS.winner 0 with
      | some (q, y) => q == 3 && y.entry == some (0x12000, 0, 0) &&
        (match launchS.admitGraph 0 0x12000 0 (some 3) none with | .ok _ _ => true | _ => false)
      | none => false),
    (let s := memW launchS [(0x12010, 0)]
     s.canAdmit 0 && (match s.winner 0 with
      | some (q, y) => q == 3 && y.entry == some (0x12000, 0, 0) &&
        (match s.admitGraph 0 0x12000 0 (some 3) none with | .refused _ => true | _ => false)
      | none => false)),
    (let s := { queueS { queueW .active with entry := some (0x12000, 0, 0), eff := 6 } id with clk := 4096 };
     (s.queue 3).entry.isSome && (s.queue 3).flying == none && decide ((s.queue 3).eff < 7) && decide ((s.queue 3).waitClk + 4096 ≤ s.clk.toNat))] = true := by decide +kernel

theorem witness_graph_events : allOf [
    ({ graphS [nodeW 2 4] id with blocks := [], groups := [], issue := [], grids := [] } : State).canComplete 7,
    (let s := graphS [nodeW 2 1] id; s.canFire 0 && (sortBy fireBefore (s.fireable 0)).head? == some (7, 0, graphW [nodeW 2 1], nodeW 2 1) &&
      ((s.setDie 0 { s.die 0 with fireClk := 8 }).askChild (graphW [nodeW 2 1]) (nodeW 2 1)).isNone),
    (let s := { graphS [nodeW 2 1] id with clk := 4097 }; s.node 7 0 == some (nodeW 2 1) && decide (4096 < s.clk.toNat - (nodeW 2 1).readyClk) &&
      decide ((nodeW 2 1).raised < (s.clk.toNat - (nodeW 2 1).readyClk) / 4096)),
    (let nd := { nodeW 1 2 with grid := some 0 }; let s := { graphS [nd] id with grids := [(0, gridW .resident)], blocks := [], groups := [] };
     s.canFinish 7 0 && match s.workEnd (graphW [nd]) nd with | .over => true | _ => false),
    (let nd := { nodeW 1 2 with grid := some 0, ending := some 0x44 }; let s := { graphS [nd] id with blocks := [], groups := [] };
     s.canFinish 7 0 && match s.workEnd (graphW [nd]) nd with | .failed c => c == 0x44 | _ => false),
    (let nd := { nodeW 5 2 with payload := 2 ^ 63 }; let s := graphS [nd] id;
     s.canFinish 7 0 && match s.workEnd (graphW [nd]) nd with | .failed _ => nd.grid == none | _ => false),
    (let nd := { nodeW 5 2 with work := vset (Vector.replicate 4 0) 0 0x32000 };
     let s := { graphS [nd] id with mem := writeLE (graphS [nd] id).mem 0x20018 8 (2 ^ 48 + 0x30DF3), links := [(16, { Link.reset 16 with state := .active, trained := some false })] };
     s.canFinish 7 0 && match s.workEnd (graphW [nd]) nd with | .asked _ => true | _ => false),
    ({ graphS [nodeW 2 8] id with graphs := [(7, { graphW [nodeW 2 8] with wact := true })] } : State).canVisit 7,
    (let nd := { nodeW 5 2 with limit := 9, waited := 9 }; nd.kind == 5 && nd.limit != 0 && decide (nd.limit ≤ nd.waited) && !((graphS [nd] id).graphStuck 7))] = true := by decide +kernel

/-- Graph 7 with a node and three more, of which two wait and one is DONE; no block. -/
def fourS (nd : Node) (l : List (Nat × Nat)) : State :=
  let rest : List Node := [{ nodeW 1 0 with need := 2, haveTok := 1 }, { nodeW 1 0 with need := 2, succs := [3] }, { nodeW 1 4 with need := 2 }]
  memW { graphS (nd :: rest) id with grids := [], blocks := [], groups := [], issue := [], graphs := [(7, { graphW (nd :: rest) with cores := 4 })] } l
/-- A node with two successors. -/
def fanN (kind state : Nat) : Node := { nodeW kind state with succs := [1, 2], need := 2 }
/-- The page at 0x30000 in a host window. -/
def hostPage (s : State) : State :=
  { s with mem := writeLE s.mem 0x20018 8 (2 ^ 48 + 0x30DF3), links := [(16, { Link.reset 16 with state := .active, trained := some false })] }
def changeG (f : Graph → Graph) (s : State) : State := { s with graphs := amMap (fun _ x => f x) s.graphs }
/-- The node that fires first in a state, and what is asked of its firing. -/
def fires (s : State) (P : State → Graph → Node → Bool) : Bool :=
  match amGet s.graphs 7, s.node 7 0 with
  | some x, some nd => s.canFire 0 && (s.fireable 0).contains (7, 0, x, nd) && nd.grid == none &&
      (s.fireable 0).all (fun z => z == (7, 0, x, nd) || decide (Claims.fireKey (7, 0, x, nd) < Claims.fireKey z)) &&
      P (s.setDie 0 { s.die 0 with fireClk := s.clk.toNat + 8 }) x nd
  | _, _ => false
/-- The premises on the place that a WAIT or HOST node watches and on the child of a subgraph node. -/
def beginsAt (z : State) (x : Graph) (nd : Node) (vals : List Nat) : Bool :=
  match nd.kind with
  | 5 => match z.walkCheck x.ctx (vals.getD 0 0) .read true with | .ok _ => true | _ => false
  | 6 => match z.graphDie x.ctx nd.payload.toNat with
    | some (some d) => (match z.admitGraph x.ctx nd.payload.toNat d none (some (7, 0)) with | .ok c _ => c != 7 && decide (x.depth < 8) | _ => false)
    | _ => false
  | 7 => match z.ctxWrite x.ctx (vals.getD 0 0) 8 nd.lseq.toNat true with
    | .ok 0 u => (match u.walkCheck x.ctx ((vals.getD 0 0 + 8) % 2 ^ 64) .read true with | .ok _ => true | _ => false)
    | _ => false
  | _ => true
/-- The firing reads what it must, and its work begins in the clock, or later. -/
def firesTo (s : State) (now : Bool) : Bool :=
  fires s fun r x nd => (r.askChild x nd).isNone &&
    match r.fireReads x nd with
    | .ok vals u =>
      let z := Claims.firedRecord s u 7 0 x nd vals
      let new := Claims.firedNode s x nd vals
      z.canStartWork x new vals == now && (!now || beginsAt (z.updNode 7 0 fun y => { y with starting := none }) x new vals)
    | _ => false
def kernelAt : List (Nat × Nat) := [(0x16000, 0x10000), (0x16008, 1 + 2 ^ 32 + 2 ^ 40 + 8 * 2 ^ 48)]
def childAt : List (Nat × Nat) := [(0x17000, 0), (0x17008, 0x17100), (0x17010, 1), (0x17100, 2 + 2 ^ 8)]

theorem witness_records : allOf [
    (let s := mapped s0; !(s.recWaits 0) && s.direct 0 0x12000 .read true == (.ok 0x12000, s) && s.isHbm 0x12000 && !(s.poisoned 0x12000 8) && Memory.wf s.mem &&
      (let u := (s.touchHome Config.computeDies 0x12000).partUsed 0 0x12000; u.direct 0 0x12000 .write true == (.ok 0x12000, u))),
    decide ((nodeW 1 1).nvar < 4) && (nodeW 1 1).rused == 0 && ({ nodeW 1 1 with rused := 1, nvar := 3 } : Node).rused != 0] = true := by decide +kernel

theorem witness_graphs_complete : allOf [
    (let s := fourS (fanN 1 4) []; (amGet s.graphs 7).any fun x => !(s.graphStuck 7) && !(s.ctxWrites x.ctx) && !x.told && x.state != 3 &&
      x.nodes.all (fun y => y.state != 1 && y.state != 2 && y.state != 3) && !x.wact && x.halts == [] && s.blocks == [] && s.engines == [] &&
      s.graphs.all (fun y => y.2.parent == none) &&
      (let u := (Claims.endWords s x).updGraph 7 fun y => { y with state := 3 }
       !(u.graphStuck 7) && !(u.ctxWrites x.ctx) &&
       (let v := (u.marWrite x.ctx (x.va.toNat + 0x18) (BitVec.allOnes 64) (x.completion + 1)).updGraph 7 fun y => { y with told := true }
        !(v.graphStuck 7) && !(v.ctxWrites x.ctx) && v.complReady x.ctx x.compl.toNat))),
    (let s := changeG (fun x => { x with va := 0x30000 }) (hostPage (fourS (fanN 1 4) [])); (amGet s.graphs 7).any fun x => !(s.graphStuck 7) && !(s.ctxWrites x.ctx) &&
      (let u := (Claims.endWords s x).updGraph 7 fun y => { y with state := 3 }; u.graphStuck 7 || u.ctxWrites x.ctx)),
    (let s := changeG (fun x => { x with va := 0x30000, state := 3 }) (hostPage (fourS (fanN 1 4) [])); (amGet s.graphs 7).any fun x => !(s.graphStuck 7) && !(s.ctxWrites x.ctx) &&
      x.state == 3 && !x.told &&
      (let v := (s.marWrite x.ctx (x.va.toNat + 0x18) (BitVec.allOnes 64) (x.completion + 1)).updGraph 7 fun y => { y with told := true }; v.graphStuck 7 || v.ctxWrites x.ctx)),
    (let s : State := { changeG (fun x => { x with state := 3, told := true, queue := some 3, compl := 0x15008 }) (fourS (fanN 1 4) []) with
        queues := [(3, { queueW .active with entry := some (0x12000, 0, 0), flying := some 7 })] }
     (amGet s.graphs 7).any fun x => !(s.graphStuck 7) && !(s.ctxWrites x.ctx) && s.complReady x.ctx x.compl.toNat && (s.queue 3).flying == some 7 && amSorted s.graphs &&
      match (({ s with graphs := amDel s.graphs 7 } : State).putQueue 3 { s.queue 3 with entry := none, flying := none, eff := (s.queue 3).prio }).ctxWrite x.ctx 0x15008 8 0 false with
      | .ok v _ => v == 0 | _ => false),
    [(2, 4), (2, 5), (3, 5)].all fun (parent, child) =>
      let s := fourS { fanN 6 parent with child := some 8 } []
      let c := { graphW [nodeW 1 child] with va := 0x17000, nodesVa := 0x17100, parent := some (7, 0), depth := 1, state := 3, told := true }
      let t : State := { s with graphs := s.graphs ++ [(8, c)] }
      !(t.graphStuck 8) && t.complReady 0 0 && (Claims.gstatus c == 1) == (child == 4) &&
        (({ t with graphs := amDel t.graphs 8 } : State).node 7 0).any fun y => y.state == parent && y.grid == none && y.ending == none] = true := by decide +kernel

theorem witness_nodes_fire : allOf [
    firesTo (fourS { fanN 1 1 with vars := Vector.replicate 4 0x16000 } kernelAt) true,
    firesTo (fourS { fanN 2 1 with toksent := true } []) true,
    firesTo (fourS { fanN 3 1 with payload := 0x16000 } [(0x16000, 0x15000), (0x16008, 0)]) true,
    firesTo (fourS { fanN 3 1 with payload := 0x16000 } [(0x16000, 0x15000), (0x16008, 8)]) true,
    firesTo (fourS { fanN 4 1 with payload := 0x16000 } [(0x16000, 0x15000), (0x16008, 8)]) true,
    firesTo (fourS { fanN 5 1 with payload := 0x16000 } [(0x16000, 0x15000), (0x16008, 8), (0x16018, 99)]) true,
    firesTo (fourS { fanN 6 1 with payload := 0x17000 } childAt) true,
    firesTo (fourS { fanN 7 1 with payload := 0x16000 } [(0x16000, 0x15000), (0x16008, 8)]) true,
    firesTo (changeG (fun x => { x with nodesVa := 0x30000 }) (hostPage (fourS (fanN 2 1) []))) false,
    fires (hostPage (fourS { fanN 6 1 with payload := 0x30000 } [])) fun r x nd => (r.askChild x nd).isSome,
    fires (hostPage (fourS { fanN 5 1 with payload := 0x30000 } [])) fun r x nd => (r.askChild x nd).isNone &&
      match r.fireReads x nd with | .wait _ => true | _ => false,
    fires (changeG (fun x => { x with nodes := x.nodes ++ [{ nodeW 2 1 with readyClk := 1 }] }) (fourS { fanN 1 1 with policy := 1, idem := true, rbudget := 1 } []))
      fun r x nd => (r.askChild x nd).isNone && match r.fireReads x nd with | .fault _ _ => true | _ => false] = true := by decide +kernel

/-- A node of graph 7 that can end, and what is asked of it. -/
def ends (s : State) (P : Graph → Node → Bool) : Bool :=
  match amGet s.graphs 7, s.node 7 0 with
  | some x, some nd => !(s.graphStuck 7) && (s.ctx x.ctx).state == .running && !(s.ctx x.ctx).restoring && P x nd
  | _, _ => false
/-- A WAIT or HOST node whose word at 0x15000 is 7. -/
def waitN (kind op b : Nat) : Node := { fanN kind 2 with work := #v[if kind = 7 then 0x14FF8 else 0x15000, BitVec.ofNat 64 b, BitVec.ofNat 64 op, 0], lseq := 7 }

theorem witness_nodes_end : allOf [
    [(1, 0x17000), (4, 0x17000), (6, 0x17000)].all fun (kind, payload) => let s := fourS { fanN kind 2 with starting := some [0x15000, 8], payload := payload } childAt
      ends s fun x nd => s.canStartWork x nd [0x15000, 8] && beginsAt (s.updNode 7 0 fun y => { y with starting := none }) x nd [0x15000, 8],
    [true, false].all fun pin => let s : State := { (fourS { fanN 1 2 with grid := some 0 } []).updCtx 0 (fun c => { c with pinVariant := pin }) with grids := [(0, gridW .resident)] }
      ends s fun _ nd => nd.starting == none && nd.ending == none && s.gridEmpty 0 && amSorted s.grids,
    [0, 1, 2, 3].all fun policy => let s : State := { fourS { fanN 1 2 with grid := some 0, ending := some 0x44, policy := policy, idem := true, rbudget := 1 } [] with grids := [(0, gridW .ended)] }
      ends s fun _ nd => nd.starting == none && s.gridEmpty 0 && amSorted s.grids,
    [(5, 0, 7), (5, 1, 7), (5, 2, 8), (7, 0, 0)].all fun (kind, op, b) => let s := fourS (waitN kind op b) [(0x15000, 7)]
      ends s fun x nd => nd.starting == none && nd.grid == none && nd.ending == none && match s.ctxRead x.ctx 0x15000 8 with | .ok v _ => v == 7 | _ => false,
    (let s := fourS { waitN 5 0 0 with work := #v[2 ^ 40, 0, 0, 0] } []
     ends s fun x _ => match s.ctxRead x.ctx (2 ^ 40) 8 with | .fault _ _ => true | _ => false),
    (let s := fourS { fanN 1 3 with grid := some 0 } []; ends s fun _ nd => s.gridEmpty 0 && nd.state == 3),
    ends (fourS { fanN 5 3 with ending := some 0x48 } []) fun _ nd => nd.grid == none && nd.child == none && nd.engine == none,
    ends (fourS { waitN 5 0 0 with limit := 9, waited := 9 } []) fun _ nd => nd.limit != 0 && decide (nd.limit ≤ nd.waited)] = true := by decide +kernel

theorem witness_cone_visits : allOf [
    [0, 1, 2, 3, 4, 5, 6].all fun st => let s := changeG (fun x => { x with wact := true, whead := 0, wtail := 0 }) (fourS { fanN 5 st with walked := true, wlink := 0xFFFF } [])
      ends s fun x _ => x.wact && x.whead == 0 && decide (x.visitClk ≤ s.clk.toNat) && decide ((s.die x.die).visitClk ≤ s.clk.toNat) && decide (x.nodes.length < 0xFFFF),
    ends (changeG (fun x => { x with halts := [0, 1] }) (fourS (fanN 5 5) [])) fun x _ => !x.wact && x.halts == [0, 1] && x.nodes.all fun y => y.state != 2 || y.child == none] = true := by decide +kernel

/-- A state with a grid to dispatch and no block, at a clock. -/
def offerS (acc : Nat) : State :=
  { mapped s0 with
    blocks := [], groups := [], issue := [], clk := 4096, graphs := [(7, graphW [nodeW 1 2])],
    grids := [(0, { gridW .dispatching with tried := true, waited := 4096, desc := { placeDesc with acc := acc, entry := 0x10000 } })] }

theorem witness_launch_events : allOf [
    (offerS 0).canOffer 0 && (match (offerS 0).offerOrder 0 with | (g, k) :: _ => g == 0 && cursorAt (((offerS 0).offerOrder 0).map (·.1)) ((offerS 0).die 0).cursor == 0 && ((offerS 0).placement 0 k).isSome | [] => false),
    (offerS 33).canOffer 0 && (match (offerS 33).offerOrder 0 with | (g, k) :: _ => g == 0 && ((offerS 33).placement 0 k).isNone | [] => false),
    (offerS 33).canReserve 0,
    (let s := State.reset.updCore 3 fun c => { c with recut := [(16, 24, 0)] }; s.canRecut 3 && ((s.drainCore 3).core 3).recut == [(16, 24, 0)]),
    (let s := s0.updBlk 0 fun b => { b with launching := true }; s.canLaunch 0 && (s.grp 0).any fun g => g.block == 0),
    ({ (grpOf fun g => { g with state := .exited }) with issue := [] } : State).canExit 0] = true := by decide +kernel

theorem witness_placements : allOf [
    (let s : State := { offerS 0 with nextId := 100, grids := [(0, { gridW .dispatching with desc := { placeDesc with acc := 0, gdim := 16, cldim := 8, bdim := 4 } })], graphs := [(7, { graphW [nodeW 1 2] with cores := 100 })] }
     (amGet s.grids 0).any fun k => (s.placement 0 k).any fun cores => decide cores.Nodup && cores.length == 8 && cores.all (fun c => (s.fit c k.desc).isSome) && s.canOffer 0 &&
       (s.offerOrder 0)[cursorAt ((s.offerOrder 0).map (·.1)) (s.die 0).cursor]? == some (0, k)),
    (let s := offerS 33; (amGet s.grids 0).any fun k => s.canReserve 0 && (Claims.bare s).placement 0 k == none),
    (let s : State := { offerS 0 with blocks := (List.range 48).map fun c => (c, { placeBlock with core := c, ctx := 1, slots := [] }), liveCd := 1 }
     (amGet s.grids 0).any fun k => s.canReserve 0 && ((Claims.bare s).placement 0 k).isSome && s.placement 0 k == none),
    (let s : State := { (grpOf fun g => { g with state := .exited }) with issue := [] };
     (s.blk 0).any fun b => !b.discarding && !b.launching && s.groups.all (fun x => x.2.block != 0 || x.2.state == .exited) && amSorted s.blocks && amSorted s.groups &&
       [0, 1, 2, 3].all fun l => ((s.core b.core).lacer l).all fun k => k.block != 0),
    (let s : State := { (grpOf fun g => { g with state := .ready }).updBlk 0 (fun b => { b with discarding := true }) with issue := [] };
     s.blockStoppable 0 && (s.blk 0).any fun b => b.discarding)] = true := by decide +kernel

/-- A state with a Lacer command of 64 bytes from HBM to scratchpad. -/
def lacerS (u : Nat) : State :=
  memW (s0.updCore 0 fun c => c.setLacer 1 [⟨0, 0, 1, 0, true, LEntry.ofCode (8 + 0x12000 * 2 ^ 64 + (64 + 2 ^ 16 + 2 ^ 32 + 2 ^ 48) * 2 ^ 192), u, [], 0, [], none, 0, false, none⟩]) []

theorem witness_engine_events : allOf [
    (lacerS 0).canUnit 0 1, (lacerS 1).canEnd 0 1,
    bitsOf (0x12345 * 128 + 31 : BitVec 64) 6 5 == 0 && bitsOf (0x12345 * 128 + 31 : BitVec 64) 63 52 == 0,
    decide (16 ≤ ({ Engine.reset with descs := List.replicate 16 0 } : Engine).descs.length),
    (let s := (memW s0 [(0x12000, 0), (0x12008, 0x13000), (0x12010, 0x14000), (0x12018, 64 + 2 ^ 16 + 2 ^ 32 + 2 ^ 48)]).setEngine 4 { Engine.reset with descs := [0x12000] };
     s.canStart 4 && s.region 0x12000 != Region.hole && !(s.poisoned 0x12000 128) && LEntry.engineCheck { LEntry.ofCode (s.read 0x12000 128) with scope := 0 } == 0 &&
      ((s.descStart 4).descStep 4).isSome)] = true := by decide +kernel

/-- A COPY of two units of 8 bytes from 0x12000 to scratchpad at 0x100. -/
def copyE (kind : Nat) : LEntry :=
  ⟨kind, false, true, 2, 0, 1, false, false, 5, false, 0, 0, false, 0x12000, 0x100, #v[4, 2, 1, 1], #v[0, 16, 0, 0], #v[0, 16, 0, 0], 0x9000⟩
/-- A command of block 0 that stands at a unit. -/
def cmdOf (e : LEntry) (u : Nat) : LCmd := ⟨0, 0, 1, 0, true, e, u, [], 0, [], none, 0, false, none⟩
/-- Lacer 1 of core 0 with that command, in a block that holds tiles. -/
def walkS (k : LCmd) (s : State) : State := (s.updBlk 0 fun b => { b with holders := [(1, 2), (2, 1)] }).updCore 0 fun c => c.setLacer 1 [k]
/-- That command is the Lacer's current one. -/
def walks (k : LCmd) (s : State) (P : Block → Bool) : Bool :=
  s.liveCd.getLsbD 0 && s.lacerCmd 0 1 == some k && (s.blk 0).any (fun b => amSorted b.holders && P b) &&
  !(s.extReqs.any fun r => r.agent == lacerAgent 0 1 && r.write && r.reply.isNone)
/-- What a command's next unit answers: 0 done, 1 a fault, 2 a watchpoint. -/
def unitAt (k : LCmd) (s : State) (P : UnitRes → Bool) : Bool :=
  walks k s fun b => k.unit != k.entry.sz 1 * k.entry.sz 2 * k.entry.sz 3 && P (s.unitRun (Claims.lacerWalker k 0 1 0) (some b) k.entry k.unit)
/-- An engine's two units of a COPY or FILL from 0x12010 to 0x40010, at the second. -/
def privE (kind : Nat) : LEntry := { copyE kind with dst := 0x40000, dstsp := false }
/-- The next state of an event, or the state as it was. -/
def ranTo (i : Instr) (s : State) : State := match exec i s with | .next t => t | _ => s
/-- Engine 4 with a descriptor at an address. -/
def descS (l : List (Nat × Nat)) (pa : Nat) : State := (memW s0 l).setEngine 4 { Engine.reset with descs := [pa] }
def descGood (src : Nat) : List (Nat × Nat) :=
  [(0x12000, 0x20), (0x12008, src), (0x12010, 0x14000), (0x12018, 4 + 2 ^ 16 + 2 ^ 32 + 2 ^ 48), (0x12040, 0x15000), (0x12048, 99), (0x13000, 0x1234)]
/-- Engine 4 at its descriptor, and the answer of its next unit. -/
def descAt (src : Nat) (P : State → Engine → UnitRes → Bool) : Bool :=
  let s := ranTo (.dmaDescriptorStart 4) (descS (descGood src) 0x12000)
  let x := s.engine 4
  match x.entry with
  | some e => s.stage == 6 && !x.held && x.current == some 0x12000 && !x.ending && decide (x.unit < e.sz 1 * e.sz 2 * e.sz 3) &&
      P s x (s.unitRun (privWalker 4) none e x.unit)
  | none => false
/-- Engine 4 with the work of node 0 of graph 7. -/
def workS (kind state va op : Nat) : State :=
  (fourS { fanN kind state with work := #v[BitVec.ofNat 64 va, if kind = 3 then 8 else 5, BitVec.ofNat 64 op, 0], engine := some 4 } []).setEngine 4
    { Engine.reset with work := [(7, 0)] }
def worksAt (s : State) (P : EngRes → Bool) : Bool :=
  match amGet s.graphs 7, s.node 7 0 with
  | some x, some nd => s.stage == 6 && !((s.engine 4).held) && !(s.privNext 4) && s.engineWork 4 == some (7, 0) && nd.grid == none && nd.ending == none &&
      P ((s.chooseWork 4 (7, 0)).nodeWork 4 x nd)
  | _, _ => false
/-- What EnginesEnd asks of the word that a SIGNAL or FILL node writes. -/
def writesAt (s : State) (need : Access) : Bool :=
  let r := s.chooseWork 4 (7, 0)
  (r.engine 4).unit == 0 && !(r.ctxWrites 0) && Memory.wf r.mem && r.isHbm 0x15000 && !(r.poisoned 0x15000 8) &&
    r.walkOpen ⟨some 0, true, true, none, engineAgent 4, none⟩ (.mem 0x15000) && r.direct 0 0x15000 need false == (.ok 0x15000, r)

theorem witness_units : allOf [
    (let s := memW (mapped s0) [(0x12010, 0x1122334455667788)]; let w := Claims.lacerWalker (cmdOf (copyE 0) 1) 0 1 0
     s.writes == [] && vget (s.ctx 0).wps 0 none == none && (s.blk 0).any fun b => (List.range 8).all fun i =>
       s.isHbm (0x12010 + i) && !(s.poisoned (0x12010 + i) 1) && s.walkOpen w (.mem (0x12010 + i)) && s.direct 0 (0x12010 + i) .read false == (.ok (0x12010 + i), s) &&
       (s.runTarget (some b) ⟨0x110 + i, 1, 2, true, none, 0⟩).any fun p => s.runTarget (some b) ⟨0x110, 1, 2, true, none, 0⟩ == some (p.1, p.2 - i) && s.walkOpen w (.scr p.1 p.2) &&
         Memory.wf (s.core p.1).scr),
    (let s := memW s0 [(0x12010, 0x1122334455667788)]; let w := privWalker 4
     w.ctx == none && w.core == none && !w.watched && Memory.wf s.mem && (List.range 8).all fun i => s.isHbm (0x12010 + i) && !(s.poisoned (0x12010 + i) 1) &&
       s.walkOpen w (.mem (0x12010 + i)) && s.isHbm (0x40010 + i) && s.walkOpen w (.mem (0x40010 + i))),
    unitAt (cmdOf (copyE 0) 0) (walkS (cmdOf (copyE 0) 0) (mapped s0)) fun | .done _ _ _ => true | _ => false,
    unitAt (cmdOf { copyE 0 with src := 2 ^ 40 } 0) (walkS (cmdOf { copyE 0 with src := 2 ^ 40 } 0) s0) fun | .fault _ _ _ _ => true | _ => false,
    unitAt (cmdOf (copyE 0) 1) (walkS (cmdOf (copyE 0) 1) ((mapped s0).updCtx 0 fun c => { c with wps := vset c.wps 3 (wpOf (1 + 2 + 0x12010 * 2 ^ 64 + 0x12020 * 2 ^ 128)) }))
      fun | .watch _ _ _ _ => true | _ => false,
    [4, 5].all fun scope => let k := { cmdOf { copyE 0 with scope := scope } 2 with tiles := [1, 2] }; walks k (walkS k s0) fun _ => k.unit == k.entry.sz 1 * k.entry.sz 2 * k.entry.sz 3 && k.packed == [],
    (let k := { cmdOf (copyE 0) 1 with cancelled := true }; walks k (walkS k s0) fun _ => k.failed == none),
    (let k := { cmdOf (copyE 0) 1 with failed := some (0x16, 77), tiles := [1] }; walks k (walkS k s0) fun _ => true)] = true := by decide +kernel

theorem witness_descriptors : allOf [
    bitsOf (0x12345 * 128 + 4 : BitVec 64) 6 5 == 0 && bitsOf (0x12345 * 128 + 4 : BitVec 64) 63 52 == 0 && ((s0.engine 4).descs.length + (s0.engine 4).current.isSome.toNat < 16),
    [(2 ^ 47, true), (0x12000, false)].all fun (pa, hole) => let s := descS (descGood 0x13000) pa; s.canStart 4 && (s.region pa == .hole) == hole,
    (let s : State := { descS (descGood 0x13000) 0x12000 with poison := [0x12000 / 64] }; s.canStart 4 && s.region 0x12000 != .hole && s.poisoned 0x12000 128),
    (let s := descS [(0x12000, 2 ^ 40), (0x12040, 0x15000)] 0x12000
     s.canStart 4 && s.region 0x12000 != .hole && !(s.poisoned 0x12000 128) && LEntry.engineCheck { LEntry.ofCode (s.read 0x12000 128) with scope := 0 } != 0 &&
       !(s.engineWaits 4) && s.isHbm 0x15000 && s.walkOpen (privWalker 4) (.mem 0x15000)),
    descAt 0x13000 fun s x r => match r with | .done u _ _ => u.engine 4 == x && x.unit + 1 == 1 && !(s.engineWaits 4) && u.isHbm x.compl && u.walkOpen (privWalker 4) (.mem x.compl) | _ => false,
    descAt 0x13002 fun _ x r => match r with | .fault u _ _ hole => !hole && u.engine 4 == x | _ => false,
    descAt (2 ^ 47) fun _ _ r => match r with | .fault _ _ _ hole => hole | _ => false] = true := by decide +kernel

theorem witness_engine_work : allOf [
    worksAt (workS 4 2 0x15000 0) fun | .done u => !(u.engineWaits 4) && u.node 7 0 == (workS 4 2 0x15000 0).node 7 0 | _ => false,
    worksAt (workS 4 2 (2 ^ 40) 0) fun | .fault u _ _ hole => !hole && u.node 7 0 == (workS 4 2 (2 ^ 40) 0).node 7 0 && amGet u.graphs 7 == amGet (workS 4 2 (2 ^ 40) 0).graphs 7 | _ => false,
    worksAt ((workS 4 2 0x15000 0).updCtx 0 fun c => { c with wps := vset c.wps 3 (wpOf (2 + 0x15000 * 2 ^ 64 + 0x15020 * 2 ^ 128)) })
      fun | .watch u => u.node 7 0 == (workS 4 2 0x15000 0).node 7 0 && amGet u.graphs 7 == amGet (workS 4 2 0x15000 0).graphs 7 | _ => false,
    worksAt (workS 4 3 0x15000 0) (fun _ => true) && ((workS 4 3 0x15000 0).engine 4).unit == 0,
    writesAt (workS 4 2 0x15000 0) .write, writesAt (workS 4 2 0x15000 1) .rw, writesAt (workS 3 2 0x15000 0) .write] = true := by decide +kernel

/-- Group 0 with no slot, in a state. -/
def idleS (f : Group → Group) : State := { grpOf f with issue := [] }

theorem witness_group_events : allOf [
    (idleS fun g => { g with state := .ready }).canArbitrate 0 0 && ((idleS fun g => { g with state := .ready }).issueWinner 0).any fun x => x.1 == 0,
    (let s := { idleS fun g => { g with state := .ready } with clk := 4096 }; (s.grp 0).any fun g => g.eligible && decide (g.readyClk + 4096 ≤ s.clk.toNat)),
    (let s := idleS fun g => { g with state := .waitMem, dep := some .again }; (s.grp 0).any fun g => s.depMet 0 g placeBlock .again && g.entry.isNone && g.fate == none),
    (let s := idleS fun g => { g with state := .waitMem, dep := some (.yseq 1 0) }; (s.grp 0).any fun g => (g.yreg 1).seq == 0 && g.entry.isNone),
    (let s := s0.updBlk 0 fun b => { b with desc := { b.desc with nph := 1 }, phases := [5] };
     (s.grp 0).any fun g => (s.blk 0).any fun b => b.phaseBound { g with phTimer := 5 } == 5 && !g.phOver),
    (idleS fun g => { g with state := .ready, pendPhase := true }).canDeliver 0, (idleS fun g => { g with state := .ready, pendFp := some 1 }).canDeliver 0,
    (let s := grpOf fun g => { g with vreds := [⟨1, 5, 2, 0xFF⟩] }; s.canLand 0 && (s.grp 0).any fun g => g.vreds.any fun r => r.flags &&& fpEnables g.fpstat == 0),
    ({ idleS (fun g => { g with state := .waitMem, dep := some .watch }) with watches := [⟨.group 0, 0x12000, 8, false, true⟩] } : State).watches[0]?.any fun w => w.fired,
    (let s := ({ idleS (fun g => { g with dep := some .watch, sent := true }) with clk := 9 } : State).updCtx 0 fun c => { c with vwait := 9 }; s.vwaitOver 0 0),
    (let s : State := { idleS (fun g => { g with dep := some .watch, sent := true }) with
       clk := 1024, watches := [⟨.group 0, 2 ^ 48 + 0x12000, 8, false, false⟩], links := [(16, { Link.reset 16 with state := .active, trained := some false })] };
     (s.polledPa 0).isSome && s.canPoll 0),
    ((idleS fun g => { g with state := .parked }).updCtx 0 fun c => { c with state := .faulted }).canStop 0,
    ({ idleS (fun g => { g with dep := some .watch, sent := true }) with watches := [⟨.group 0, 2 ^ 51 + 0x12000, 8, false, false⟩] } : State).polledPa 0 |>.isSome,
    ((idleS fun g => { g with state := .ready }).updCtx 0 fun c => { c with bcast := true }).canStop 0,
    ((idleS fun g => { g with state := .ready }).updCtx 0 fun c => { c with state := .faulted }).canStop 0,
    (let s := { (memW (idleS fun g => { stepG g with state := .waitCapsule, cap := { (stepG g).cap with reenter := true } }) [(0x12000, 2), (0x12008, 2 ^ 16)]) with watches := [] };
     s.canReenter 0 && match (s.capReenter 0x12000 0 0 1 1).1 with | .resume _ _ => true | _ => false)] = true := by decide +kernel

theorem witness_object_events : allOf [
    ({ s0 with clk := 5, arrivals := [⟨.block 0 3, 0, .arrive, 4, none⟩] } : State).canBatch (BarId.ofCode (BarId.code (.block 0 3))),
    (let c : Cluster := ⟨0, 0, 0, 1, true, [0], Vector.replicate 16 ⟨0, 1, 0, 0, 0, 0⟩⟩; c.split && c.barDone 2),
    (let s := (s0.updCtx 0 fun c => { c with bwdog := 7 }).updBlk 0 fun b => { b with bars := vset b.bars 3 ⟨0, 2, 1, 0, 0, 7⟩ };
     s.dogLimit (.block 0 3) == 7 && s.dogCount (.block 0 3) == 7),
    (let s := idleS fun g => { g with state := .waitBarrier, dep := some (.phase (.block 0 3) 0 ⟨none, 0, 1, 0x10004, 0⟩) };
     (s.grp 0).any fun g => g.waitsOn (.block 0 3) (s.barPhase (.block 0 3))),
    ({ s0 with checks := [⟨0x12000, 0, [(0, 3)], [2], []⟩] } : State).checks[0]?.any fun k => k.slices.contains 2,
    ({ s0 with checks := [⟨0x12000, 0, [(0, 3)], [], []⟩] } : State).checks[0]?.any fun k => k.slices == [],
    (((tileS id).updCore 0 fun c => { c with accQ := [⟨0, 1, 0, .azero⟩] }).core 0).accQ != [],
    ({ s0 with markings := [(0, 0x12000)] } : State).markings[0]? == some (0, 0x12000),
    ({ s0 with capLogs := [⟨0x12000, 0, [], false⟩] } : State).capLogs[0]?.isSome] = true := by decide +kernel

/-- An arrival of group 0, or another act of it, at a barrier. -/
def actOf (x : BarId) (act : BarAct) (dest : Option Nat) : Arrival := ⟨x, 0, act, 4, dest⟩
/-- The object at 0x12000, whose last arrival is to come, with monitor 3 bound. -/
def monObjS (en : Bool) (action : Nat) : State :=
  (memW (objS 0 2 1 3 id) [(0x12018, 0x83)]).updCtx 0 fun c => { c with mons := vset c.mons 3 { Mon.reset with en := en, action := action }, montab := 0x14000 }
/-- A capsule line at 0x12000. -/
def lineS (st holder adopter lo : Nat) (e : Nat) : State :=
  memW (s0.updCtx 0 fun c => { c with savepa := 0x40000 }) [(0x12000, st + holder * 2 ^ 16 + adopter * 2 ^ 33), (0x12008, lo), (0x120A0, e), (0x120A8, 7)]

theorem witness_barriers_apply : allOf [
    [1, 2].all fun pend => (s0.updBlk 0 fun b => { b with bars := vset b.bars 3 ⟨7, 2, pend, 0, 0, 0⟩ }).bar (.block 0 3) == some ⟨7, 2, pend, 0, 0, 0⟩,
    (grpOf fun g => { g with dep := some (.held (some 5) none) }).grp 0 |>.any fun g => g.dep == some (.held (some 5) none),
    s0.bar (.block 0 3) == some (Bar.launch (s0.bar (.block 0 3) |>.map (·.exp) |>.getD 0)),
    [1, 2].all fun pend => let s := objS 0 2 pend 3 id; Memory.wf s.mem && !(s.objChecking 0x12000) && s.objExp 0x12000 != 0 && s.objPend 0x12000 == pend &&
      (s.objBound 0x12000).filter (fun x => (vget (s.ctx (s.objCtx 0x12000)).mons x.2 Mon.reset).en) == [],
    (let s := monObjS true 0; Memory.wf s.mem && (s.objBound 0x12000).filter (fun x => (vget (s.ctx (s.objCtx 0x12000)).mons x.2 Mon.reset).en) != []),
    (memW (objS 0 2 1 3 id) [(0x12018, 2 ^ 40)]).objChecking 0x12000,
    (actOf (.block 0 3) .drop none).act == .drop && (actOf (.object 0x12000) (.expect 5 0) none).act == .expect 5 0,
    [0, 1, 2].all fun action => let s : State := { monObjS true action with checks := [⟨0x12000, 0, [(0, 3)], [], [(3, (none, 4))]⟩] }
      (s.checks[0]?.any fun k => k.slices == [] && k.mons.all (fun x => decide (x.2 < 16))) && (s.grp 0).isSome && (s.ctx 0).state == .running &&
        (vget (s.ctx 0).mons 3 Mon.reset).fails (checkTotal none) 4 && Memory.wf s.mem] = true := by decide +kernel

theorem witness_lines_move : allOf [
    [(1, 5, 0), (3, 6, 5), (0, 0, 0)].all fun (st, holder, adopter) => let s : State := { lineS st holder adopter 0 0 with markings := [(5, 0x12000)] }
      Memory.wf s.mem && s.markings[0]? == some (5, 0x12000) && s.capLogs == [] && s.lineLog 0x12000 != 1 && s.lineState 0x12000 == st,
    (let s : State := { lineS 1 5 0 (2 ^ 5 + 2 ^ 7) (0x30008 + 3 * 2 ^ 60) with capLogs := [⟨0x12000, 0, [0x5000], false⟩] }
     Memory.wf s.mem && s.lineNlog 0x12000 == 1),
    [1, 3].all fun st => let s : State := { lineS st 5 6 (2 ^ 5) 0 with capLogs := [⟨0x12000, 0, [], true⟩] }
      Memory.wf s.mem && s.lineNlog 0x12000 == 0 && s.lineState 0x12000 == st] = true := by decide +kernel

/-- A state whose lease 0 has a word. -/
def leaseS (w : Nat) : State := memW { s0 with regs := amSet s0.regs 0x20 0x40000 } [(0x40000, w), (0x40008, 0x100000), (0x40010, 0x1000)]

theorem witness_page_events : allOf [
    ({ s0 with misses := [⟨0, 0, 0x30000, false, []⟩] } : State).canWalk 0 && (s0.unanswered fun _ => true) == [],
    (leaseS 5).leaseLender 0 && (leaseS 5).leaseState 0 == 1, !((leaseS 1).leaseLender 0) && (leaseS 1).leaseState 0 == 1,
    !((leaseS 2).leaseLender 0) && (leaseS 2).leaseState 0 == 2 && decide ((leaseS 2).leaseDeadline 0 ≤ (leaseS 2).clk.toNat),
    (let s := { leaseS 6 with clk := 2400000 }; s.leaseLender 0 && s.leaseState 0 == 2 && decide (s.leaseDeadline 0 + 2400000 ≤ s.clk.toNat)),
    (let s := memW s0 [(0x20008, 0x10DE1)]; s.isHbm 0x20008 && pteState (s.read64 0x20008) != 0 && pteLeaf (s.read64 0x20008))] = true := by decide +kernel

/-- A walk of the page at 0x10000 by a state of its leaf. -/
def walkLeaf (st : Nat) : State := { mapped s0 with mem := writeLE s0.mem 0x20008 8 (0x10DE0 + st), misses := [⟨0, 0, 0x10000, true, [(0, 0)]⟩] }
theorem witness_walks : allOf [
    (walkLeaf 1).canWalk 0 && (match (walkLeaf 1).walk 0 0x10000 with | .leaf e _ at' => (walkLeaf 1).cacheable e && (walkLeaf 1).read64 at' == e && Memory.wf (walkLeaf 1).mem | _ => false),
    (walkLeaf 6).canWalk 0 && (match (walkLeaf 6).walk 0 0x10000 with | .leaf e _ _ => !((walkLeaf 6).cacheable e) | _ => false),
    (walkLeaf 0).canWalk 0 && (match (walkLeaf 0).walk 0 0x10000 with | .fault _ _ _ _ => true | _ => false),
    decide (((walkLeaf 1).ctx 0).levels ≤ 5),
    (s0.invalidatePage 0 0x10000).writes == [] && (s0.invalidateContext 0).writes == [] && ((leaseS 1).invalidateLease 0).writes == [] && Memory.wf (leaseS 1).mem &&
      (((leaseS 1).setLease 0 3).invalidateLease 0).unanswered (fun r => (leaseS 1).inLease 0 r.pa) == []] = true := by decide +kernel

/-- A state with a link in a state. -/
def linkS (l : Nat) (st : LState) : State := { s0 with links := [(l, { Link.reset l with state := st, trained := some false, hdm := some (0x100000, 0x1000) })] }

theorem witness_link_and_debug : allOf [
    ((linkS 1 .active).link 1).state == .active, ((linkS 1 .down).link 1).state == .down,
    linkListed 16 && ((linkS 16 .disabled).link 16).state == .disabled,
    [LState.disabled, .training, .active, .retraining, .down].all fun st => ((linkS 40 st).link 40).state == st && linkListed 40,
    (s0.ctx 0).active && !((s0.ctx 0).bcast) && !((s0.ctx 1).active),
    ((s0.updCtx 0 fun c => { c with bcast := true }).ctx 0).bcast,
    ({ s0 with regs := amSet s0.regs 0x170 0x200000 } : State).inOneStack (({ s0 with regs := amSet s0.regs 0x170 0x200000 } : State).dumpBase),
    ({ s0 with regs := amSet s0.regs 0x170 (2 ^ 50) } : State).inOneStack (({ s0 with regs := amSet s0.regs 0x170 (2 ^ 50) } : State).dumpBase) == false,
    ((idleS fun g => { g with state := .halted }).updCtx 0 fun c => { c with bcast := true }).canBroadcastEnd 0,
    ((idleS fun g => { g with state := .halted }).updCtx 0 fun c => { c with dumping := some (0x200000, 0) }).canDump 0,
    ({ s0 with regs := amSet s0.regs 0x180 (1 + 2 ^ 16), snapClk := 5 } : State).canSnapshot] = true := by decide +kernel

theorem witness_device : allOf [
    (3 : BitVec 2).getLsbD 0 && (15 : BitVec 4) != 0,
    (let s : State := { s0 with recovery := true, rcvLen := 0x100 }; s.recovery && !s.rcvBusy && s.rcvLen != 0 && decide (s.rcvLen.toNat ≤ 2 ^ 28)),
    (let s : State := { s0 with recovery := true }; s.rcvLen == 0),
    (let s : State := { s0 with recovery := true, rcvBusy := true }; s.recovery && s.rcvBusy),
    s0.clk.toNat % 2 ^ 20 == 0 && ({ s0 with clk := 5 } : State).clk.toNat % 2 ^ 20 != 0,
    bitsOf (600 : BitVec 64) 11 0 == 600 && bitsOf (2000 : BitVec 64) 11 0 == 2000,
    s0.lmsIndex == 0] = true := by decide +kernel
theorem witness_power_and_masters : allOf [
    (let s : State := { s0 with clk := 2 ^ 20 }; s.clk.toNat % 2 ^ 20 == 0 && s.powerClk != s.clk.toNat),
    (let s := ({ s0 with frzDma := 16 } : State).setEngine 4 { Engine.reset with held := true, current := some 0x12000, faddr := 9 }
     (16 : BitVec 64).truncate 32 == 1#32 <<< 4 && s.frzDma.getLsbD 4 && (s.engine 4).held && (s.engine 4).current == some 0x12000),
    (let s := ({ workS 4 2 0x15000 0 with frzDma := 16 } : State).setEngine 4 { Engine.reset with held := true, work := [(7, 0)], faddr := 9 }
     s.frzDma.getLsbD 4 && (s.engine 4).held && (s.engine 4).current == none && (s.node 7 0).any fun nd => nd.state == 2 && nd.grid == none && nd.ending == none),
    s0.image == none && ({ s0 with image := some (4, [(0, 5)]) } : State).image == some (4, [(0, 5)]),
    (let s : State := { s0 with recovery := true, rcvLen := 2 ^ 28 + 1 }; s.recovery && decide (2 ^ 28 < s.rcvLen.toNat)),
    0xF &&& ~~~(4 : BitVec 4) != 0 && (0xF &&& ~~~(15 : BitVec 4)) &&& 15 == 0] = true := by decide +kernel
theorem witness_device_key : s0.devIndex < Config.lmsLeaves ∧ Config.lmsLeaves ≤ ({ s0 with devIndex := Config.lmsLeaves } : State).devIndex :=
  ⟨Nat.pow_pos (n := Config.lmsHeight) Nat.two_pos, Nat.le_refl _⟩
theorem witness_attestation : s0.lmsIndex < Config.lmsLeaves ∧ Config.lmsLeaves ≤ ({ s0 with lmsIndex := Config.lmsLeaves } : State).lmsIndex :=
  ⟨Nat.pow_pos (n := Config.lmsHeight) Nat.two_pos, Nat.le_refl _⟩

theorem witness_register_writes : allOf [
    0x101 % 8 != 0, !(s0.ctxSts.getLsbD 0) && bitsOf (0x300 : BitVec 64) 11 8 == 3 && (s0.ctx 0).dumping == none,
    ({ s0 with ctxSts := 1 } : State).ctxSts.getLsbD 0, !(s0.qSts.getLsbD 0) && bitsOf (0x400 : BitVec 64) 13 10 == 1,
    State.reset.ctxs.all fun x => x.2.state == .destroyed, s0.ctxs.any fun x => x.2.state != .destroyed,
    State.reset.queues.all fun x => x.2.state == .closed, (queueS (queueW .idle) id).queues.any fun x => x.2.state != .closed] = true := by decide +kernel

theorem witness_traffic : allOf [
    (let w : PendWrite := ⟨0, 0, 0, 0x12000, 0x12000, 8, 7, none, 0, []⟩; ({ s0 with writes := [w] } : State).canReq 0),
    [true, false].all fun k => let s : State := { s0 with fills := [⟨1, 5, 0, 0, 0, k⟩] }; s.canRsp 0 && s.fills[0]?.any fun f => f.marked == k,
    ({ s0 with invs := [(1, 5)] } : State).canInv 0,
    ({ s0 with hostLines := [(9, 4)] } : State).hostLines == [(9, 4)],
    ((linkS 16 .active).hostLink 0).trained == some false,
    ((linkS 17 .active).hostLink 1).hdm == some (0x100000, 0x1000),
    barHolds 0 4 0x12000 8 && s0.isHbm 0x12000 && s0.isHbm (0x12000 + 7) && s0.ready && !(s0.frzHost.getLsbD 0) && barHolds 0 4 (64 * 10 ^ 9) 8 && s0.region (64 * 10 ^ 9) == Region.hole,
    ({ s0 with frzHost := 1 } : State).frzHost.getLsbD 0 && barHolds 0 0 8 8,
    ((linkS 32 .active).link 32).state == .active,
    (leaseS 5).leaseCovers 0 0x100000 8 && (leaseS 5).isHbm 0x100000 && (leaseS 5).isHbm 0x100007 && !((leaseS 5).poisoned 0x100000 8),
    ({ s0 with extReqs := [⟨9, 0, 0, 0, true, 0, 8, none, none⟩] } : State).extReqs.any fun r => r.id == 9 && r.reply.isNone && r.write,
    ({ s0 with extReqs := [⟨9, 0, 0, 0, false, 0, 8, none, none⟩] } : State).extReqs.any fun r => r.id == 9 && r.reply.isNone && !r.write] = true := by decide +kernel

/-- Host link 16 trained as a host's, with part of memory offered. -/
def hostS : State := { linkS 16 .active with ready := true }
theorem witness_hosts : allOf [
    (hostS.hostLink 0).state == .active && (hostS.hostLink 0).trained == some false && hostS.ready && !(hostS.frzHost.getLsbD 0) && !(hostS.frzHost.getLsbD 1),
    ({ hostS with ready := false } : State).ready == false && barHolds 0 4 0x12000 8,
    ({ hostS with poison := [0x12000 / 64] } : State).poisoned 0x12000 8 && !(hostS.poisoned 0x12000 8),
    barHolds 1 2 0x12000 8 && !((hostS.reg 0x0A00).getLsbD 0),
    (let s : State := { hostS with regs := amSet hostS.regs 0x0A00 1 }; let w := s.reg 0x0A00
     w.getLsbD 0 && !(w.getLsbD 1) && s.isHbm (bitsOf w 51 16 * 2 ^ 16 + 0x12000) && s.isHbm (bitsOf w 51 16 * 2 ^ 16 + 0x12007)),
    (let s : State := { hostS with regs := amSet hostS.regs 0x0A00 (1 + 0xF00000000) }; let w := s.reg 0x0A00
     w.getLsbD 0 && !(s.isHbmOrSecond (bitsOf w 51 16 * 2 ^ 16 + 0x12000))),
    (let s : State := { hostS with recovery := true }; s.recovery && barHolds 0 2 0x1000 8 && !(s.poisoned 0x1000 8)),
    [true, false].all fun r => let s : State := { linkS 17 .active with ready := r }; (s.hostLink 1).hdm == some (0x100000, 0x1000) && s.ready == r,
    (let s : State := { { leaseS 5 with ready := true } with links := [(32, { Link.reset 32 with state := .active })] }
     (s.link 32).state == .active && !(s.frzPort.getLsbD 0) && s.ready && s.leaseCovers 0 0x100000 8 && s.isHbm 0x100000 && s.isHbm 0x100007 && !(s.poisoned 0x100000 8)),
    (let s : State := { memW { leaseS 5 with ready := true } [(0x40008, 64 * 10 ^ 9)] with links := [(32, { Link.reset 32 with state := .active })] }
     s.leaseCovers 0 (64 * 10 ^ 9) 8 && !(s.isHbm (64 * 10 ^ 9))),
    (let s : State := { s0 with extReqs := [⟨9, 0, snoopAgent, 0, false, 0x12000, 8, none, none⟩] }; (s.extReqs.find? fun r => r.id == 9 && r.reply.isNone).any fun r => r.agent == snoopAgent),
    (let s : State := { s0 with extReqs := [⟨9, 16, 5, 0, true, 0x12000, 8, none, none⟩] }; s.settling == [] && (s.extReqs.find? fun r => r.id == 9 && r.reply.isNone).any fun r => r.agent != snoopAgent),
    s0.region (3 * 2 ^ 40) == .chip && !(s0.chipHole (3 * 2 ^ 40) 8)] = true := by decide +kernel
theorem witness_writes : allOf [
    (let w : PendWrite := ⟨0, 0, 0, 0x12000, 0x12000, 8, 7, none, 0, []⟩; ({ s0 with writes := [w] } : State).canReq 0 && Memory.wf s0.mem && s0.isHbm w.pa),
    (let w : PendWrite := ⟨0, 0, 0, 0x12000, 0x12000, 8, 7, some (.add, 3), 0, []⟩; ({ s0 with writes := [w] } : State).canReq 0 && (Claims.newValue .add w.size (s0.read w.pa w.size) w.data 0).isSome),
    (let w : PendWrite := ⟨0, 0, 0, 0x12000, 0x12000, 8, 7, none, 5, []⟩; let v : PendWrite := ⟨0, 0, 0, 0x12010, 0x12010, 8, 7, none, 5, []⟩
     ({ s0 with writes := [w, v] } : State).canReq 0 && w.tied v && s0.isHbm v.pa),
    !(({ s0 with writes := [⟨0, 0, 0, 0x12000, 0x12000, 8, 7, none, 0, []⟩], hdmHeld := [0x120] } : State).canReq 0)] = true := by decide +kernel

/-! ### Terms that are ill-formed, one for each check -/

theorem test_ill_registers : [
    wellFormed (.sadd false 32 0 0), wellFormed (.sadd false 0 32 0), wellFormed (.sadd false 0 0 32), wellFormed (.pnot false 8 0),
    wellFormed (.pnot false 0 8), wellFormed (.vredAdd false 4 0), wellFormed (.arel false 16), wellFormed (.ald false 16 0 0)].all (! ·) = true := by decide
theorem test_well_registers : [
    wellFormed (.sadd false 31 31 31), wellFormed (.pnot false 7 7), wellFormed (.vredAdd false 3 127), wellFormed (.arel false 15),
    wellFormed (.vadd false 127 127 127)].all id = true := by decide
theorem test_ill_immediates : [
    wellFormed (.sshli false 0 0 64), wellFormed (.perfrd false 0 64), wellFormed (.wpclr false 16), wellFormed (.vbcast false 0 0 8)].all (! ·) = true := by decide
theorem test_well_immediates : [
    wellFormed (.sshli false 0 0 63), wellFormed (.perfrd false 0 63), wellFormed (.wpclr false 15), wellFormed (.vbcast false 0 0 7)].all id = true := by decide
theorem test_ill_words : [wellFormed (.unassignedOpcode 0x00200000), wellFormed (.reservedFieldWord 0x00200000)].all (! ·) = true := by decide +kernel
theorem test_well_words : [wellFormed (.unassignedOpcode 0), wellFormed (.reservedFieldWord 0x52000001)].all id = true := by decide +kernel
theorem test_ill_events : [
    wellFormed (.nodeFire 4), wellFormed (.issueArbitration 192 0), wellFormed (.issueArbitration 0 4), wellFormed (.issuePromotion 98304),
    wellFormed (.lacerUnit 0 4), wellFormed (.dmaDescriptorStart 32), wellFormed (.monitorCollect 0 256), wellFormed (.tlbInvalidatePage 0 (2 ^ 57)),
    wellFormed (.leaseReturn 4096), wellFormed (.linkEnable 9), wellFormed (.hostAccess 2 0 0 0 0 8 0), wellFormed (.hostAccess 0 2 0 0 0 8 0),
    wellFormed (.hostAccess 0 0 1 0 0 8 0), wellFormed (.hostAccess 0 0 4 0 5 8 0), wellFormed (.cxlMemAccess 0 8 false 0), wellFormed (.fabricRequest 64 0 0 0 0 0 8 0 0),
    wellFormed (.fabricRequest 0 2048 0 0 0 0 8 0 0), wellFormed (.fabricRequest 0 0 0 0 0 (2 ^ 40) 8 0 0), wellFormed (.windowAccess true 4 8 0),
    wellFormed (.registerWrite 4 0), wellFormed (.masterRelease 0x0318 0), wellFormed (.commandWriteDropped 8), wellFormed (.frameRetire (4, 0, false))].all (! ·) = true := by decide
theorem test_well_events : [
    wellFormed (.nodeFire 3), wellFormed (.issueArbitration 191 3), wellFormed (.tlbInvalidatePage 255 (2 ^ 57 - 1)), wellFormed (.linkEnable 17),
    wellFormed (.hostAccess 1 1 4 0 0 8 0), wellFormed (.hostAccess 0 0 6 0 1 4 0), wellFormed (.registerWrite 0x1008 0), wellFormed (.frameRetire (8, 0, false))].all id = true := by decide

/-! ### Words written out field by field from the encodings (03 R61, R79): e, opcode, d, a, b -/

/-- A word of the format with three register fields. -/
def word3 (e : BitVec 1) (op : BitVec 10) (d a b : BitVec 7) : Word := (e ++ op ++ d ++ a ++ b).cast (by decide)

theorem test_decode_scalars : [
    decodeWord (word3 0 0x001 1 2 3) == .sadd false 1 2 3, decodeWord (word3 0 0x006 31 0 9) == .sdiv false 31 0 9,
    decodeWord (word3 1 0x027 4 127 127) == .sli true 4 0x3FFF].all id = true := by decide +kernel
theorem test_decode_control : [
    decodeWord (word3 1 0x040 0 0 64) == .br 64, decodeWord (word3 1 0x2B0 0 0 0) == .yield,
    decodeWord (word3 0 0x3FF 0 0 5) == .ext 5, decodeWord (word3 0 0x04B 0 0 0) == .nop false, decodeWord (word3 0 0x040 0 0 64) == .reservedFieldWord (word3 0 0x040 0 0 64)].all id = true := by decide +kernel
theorem test_decode_vectors : [
    decodeWord (word3 0 0x134 1 2 3) == .vshfl false 1 2 3, decodeWord (word3 0 0x180 100 101 102) == .fadd false 100 101 102,
    decodeWord (word3 1 0x1A7 5 6 7) == .kadd true 5 6 7].all id = true := by decide +kernel
theorem test_decode_memory : [
    decodeWord 0x10610102 == .sldD false 4 2 2, decodeWord 0x12000013 == .fence false 0x13, decodeWord (word3 0 0x203 8 9 10) == .vldO false 8 9 10,
    decodeWord (word3 0 0x240 8 9 3) == .lace false 8 9 3].all id = true := by decide +kernel
theorem test_decode_units : [
    decodeWord (word3 0 0x284 0 3 31) == .barx false 3 31, decodeWord (word3 0 0x290 4 5 0) == .capb false 4 5,
    decodeWord (word3 0 0x29B 4 0 0x37) == .bmrd false 4 3 7, decodeWord (word3 0 0x2A2 1 2 3) == .gstat false 1 2 3,
    decodeWord (word3 0 0x388 1 2 3) == .ahnd false 1 2 3,
    decodeWord ((0 : BitVec 1) ++ (0x3C5 : BitVec 10) ++ (7 : BitVec 4) ++ (1 : BitVec 1) ++ (1 : BitVec 1) ++ (0 : BitVec 1) ++ (8 : BitVec 7) ++ (9 : BitVec 7)) ==
      .mma false 5 7 true true 8 9].all id = true := by decide +kernel
theorem test_decode_reserved : [
    decodeWord 0x52000001 == .reservedFieldWord 0x52000001, decodeWord (word3 0 0x3FE 0 0 0) == .unassignedOpcode (word3 0 0x3FE 0 0 0),
    decodeTableWord 32 0x00208103 == some (.sadd false 2 2 3)].all id = true := by decide +kernel

/-! ### One step -/

/-- Group 0 after one step of a state with a word placed. -/
noncomputable def after (f : Group → Group) (w : Word) : Option Group :=
  match step (mappedSys ((State.reset.placeWord w.toNat).updGrp 0 f)) with
  | .next t => t.grp 0
  | _ => none

/-- −7 / 2 is −3: division truncates toward zero (09 R171). -/
theorem test_step_division : (after (sregs [(2, 2 ^ 64 - 7), (3, 2)]) (word3 0 0x006 4 2 3)).any (fun g => g.sreg 4 == BitVec.ofInt 64 (-3)) = true := by decide +kernel
theorem test_step_add_wraps : (after (sregs [(2, 2 ^ 64 - 1), (3, 2)]) (word3 0 0x001 2 2 3)).any (fun g => g.sreg 2 == 1 && g.pc == 0x10004) = true := by
  decide +kernel
/-- A word of opcode 0 raises ILLEGAL_OPCODE, code 0x01 (08 R160): the group traps with XPC at the word. -/
theorem test_step_illegal : (after id 0).any (fun g => g.trapMode && g.xcause == 1 && g.xpc == 0x10000 && g.xaddr == 0) = true := by decide +kernel
theorem test_step_branch : (after id (word3 1 0x040 0 0 2)).any (fun g => g.pc == 0x10008) = true := by decide +kernel

end Sys2Proof.Tests
end

/-!
The control page (00 R6, R7): what the event of a register write does at each offset that has a rule of its own, and how a command register
answers (04 R89, 05 R103).
-/

namespace Sys2Proof.Machine

/-! ### The events as functions of State -/

theorem exec_registerWrite (off : Nat) (v : BitVec 64) (s : State) : exec (.registerWrite off v) s = .next (s.writeRegister off v) := rfl
theorem exec_commandWriteDropped (off : Nat) (s : State) : exec (.commandWriteDropped off) s = .next (s.overrun off) := rfl
theorem exec_ctxtabWrite (v : BitVec 64) (s : State) : exec (.ctxtabWrite v) s = .next (s.writeCtxtab v) := rfl
theorem exec_qtabWrite (v : BitVec 64) (s : State) : exec (.qtabWrite v) s = .next (s.writeQtab v) := rfl

/-! ### Values and status words -/

/-- The kept field is at most the whole value, so it needs no truncation to 64 bits. -/
theorem keepBits_toNat (v : BitVec 64) (hi lo : Nat) : (keepBits v hi lo).toNat = bitsOf v hi lo * 2 ^ lo := by
  have hle : bitsOf v hi lo * 2 ^ lo ≤ v.toNat :=
    calc v.toNat / 2 ^ lo % 2 ^ (hi + 1 - lo) * 2 ^ lo
      _ ≤ v.toNat / 2 ^ lo * 2 ^ lo := Nat.mul_le_mul_right _ (Nat.mod_le _ _)
      _ ≤ v.toNat := Nat.div_mul_le_self _ _
  rw [keepBits, BitVec.toNat_ofNat, Nat.mod_eq_of_lt (hle.trans_lt v.isLt)]

/-- BUSY is set whatever the status word held. -/
@[simp] theorem stsStart_busy (sts : BitVec 64) (name : Nat) : (stsStart sts name).getLsbD 0 = true := by
  simp [stsStart]

@[simp] theorem State.push_agenda (s : State) (e : Instr) : (s.push e).agenda = e :: s.agenda := rfl
@[simp] theorem State.push_ctxSts (s : State) (e : Instr) : (s.push e).ctxSts = s.ctxSts := rfl
@[simp] theorem State.push_qSts (s : State) (e : Instr) : (s.push e).qSts = s.qSts := rfl

/-! ### A write at an offset -/

theorem State.writeRegister_misaligned (s : State) {off : Nat} (v : BitVec 64) (h : off % 8 ≠ 0) : s.writeRegister off v = s := by
  rw [State.writeRegister, if_pos h]

theorem State.writeRegister_fabid (s : State) (v : BitVec 64) : s.writeRegister 0x0038 v = s.setReg 0x0038 (keepBits v 10 0) := rfl
theorem State.writeRegister_ctxcmd (s : State) (v : BitVec 64) : s.writeRegister 0x0100 v = s.writeCtxcmd v := rfl
theorem State.writeRegister_ctxsts (s : State) (v : BitVec 64) :
    s.writeRegister 0x0108 v = { s with ctxSts := s.ctxSts &&& ~~~(v &&& 16#64) } := rfl
theorem State.writeRegister_qcmd (s : State) (v : BitVec 64) : s.writeRegister 0x0120 v = s.writeQcmd v := rfl
theorem State.writeRegister_tlbva (s : State) (v : BitVec 64) : s.writeRegister 0x0148 v = s.setReg 0x0148 (keepBits v 56 0) := rfl
theorem State.writeRegister_dumppa (s : State) (v : BitVec 64) : s.writeRegister 0x0170 v = s.setReg 0x0170 (keepBits v 51 21) := rfl

/-- An event that stores a field of its value leaves that field, in place, in the register. -/
theorem does_setReg_keepBits {i : Instr} {s : State} {off hi lo : Nat} {v : BitVec 64}
    (h : exec i s = .next (s.setReg off (keepBits v hi lo))) : Claims.Does i s fun t => (t.reg off).toNat = bitsOf v hi lo * 2 ^ lo :=
  ⟨_, h, by simp only [State.setReg_reg_self, keepBits_toNat]⟩

theorem does_setReg_lowBits {i : Instr} {s : State} {off hi : Nat} {v : BitVec 64}
    (h : exec i s = .next (s.setReg off (keepBits v hi 0))) : Claims.Does i s fun t => (t.reg off).toNat = bitsOf v hi 0 :=
  have ⟨t, ht, hreg⟩ := does_setReg_keepBits h
  ⟨t, ht, by simpa only [pow_zero, mul_one] using hreg⟩

/-! ### The two command registers -/

theorem State.writeCtxcmd_of_busy {s : State} (v : BitVec 64) (hbusy : s.ctxSts.getLsbD 0 = true) :
    s.writeCtxcmd v = s.overrun 0x0100 := by
  rw [State.writeCtxcmd, if_pos hbusy]

/-- A command that has a meaning, on a context that is not being dumped, comes next. -/
theorem State.writeCtxcmd_of_command {s : State} {v : BitVec 64} {e : Instr} (hidle : s.ctxSts.getLsbD 0 = false)
    (hcmd : ctxCommand (bitsOf v 11 8) (bitsOf v 7 0) = some e) (hdump : (s.ctx (bitsOf v 7 0)).dumping = none) :
    s.writeCtxcmd v = { s with ctxSts := stsStart s.ctxSts (bitsOf v 7 0 * 2 ^ 8) }.push e := by
  simp only [State.writeCtxcmd, hidle, hcmd, hdump, Bool.false_eq_true, if_false, Option.isSome_none]

/-- A command that has a meaning comes next. -/
theorem State.writeQcmd_of_command {s : State} {v : BitVec 64} {e : Instr} (hidle : s.qSts.getLsbD 0 = false)
    (hcmd : queueCommand (bitsOf v 13 10) (bitsOf v 9 0) = some e) :
    s.writeQcmd v = { s with qSts := stsStart s.qSts (bitsOf v 9 0 * 2 ^ 16) }.push e := by
  simp only [State.writeQcmd, hidle, hcmd, Bool.false_eq_true, if_false]

/-! ### The two tables -/

theorem State.writeCtxtab_of_destroyed {s : State} (v : BitVec 64) (h : ∀ x ∈ s.ctxs, x.2.state = .destroyed) :
    s.writeCtxtab v = s.setReg 0x0010 (keepBits v 51 16) :=
  if_pos (List.all_eq_true.mpr fun x hx => beq_iff_eq.mpr (h x hx))

theorem State.writeCtxtab_of_exists {s : State} (v : BitVec 64) (h : ∃ x ∈ s.ctxs, x.2.state ≠ .destroyed) : s.writeCtxtab v = s :=
  let ⟨x, hx, hne⟩ := h
  if_neg fun hall => hne (beq_iff_eq.mp (List.all_eq_true.mp hall x hx))

theorem State.writeQtab_of_closed {s : State} (v : BitVec 64) (h : ∀ x ∈ s.queues, x.2.state = .closed) :
    s.writeQtab v = s.setReg 0x0018 (keepBits v 51 19) :=
  if_pos (List.all_eq_true.mpr fun x hx => beq_iff_eq.mpr (h x hx))

theorem State.writeQtab_of_exists {s : State} (v : BitVec 64) (h : ∃ x ∈ s.queues, x.2.state ≠ .closed) : s.writeQtab v = s :=
  let ⟨x, hx, hne⟩ := h
  if_neg fun hall => hne (beq_iff_eq.mp (List.all_eq_true.mp hall x hx))

/-! ### Writes of the device control page -/

/-- A command written to an idle CTXCMD starts, with BUSY, as the next event. -/
theorem does_ctxcmd {s : State} {v : BitVec 64} {e : Instr} (hidle : s.ctxSts.getLsbD 0 = false)
    (hcmd : ctxCommand (bitsOf v 11 8) (bitsOf v 7 0) = some e) (hdump : (s.ctx (bitsOf v 7 0)).dumping = none) :
    Claims.Does (.registerWrite 0x0100 v) s fun t => t.ctxSts.getLsbD 0 = true ∧ t.agenda = e :: s.agenda := by
  refine ⟨_, by rw [exec_registerWrite, State.writeRegister_ctxcmd, State.writeCtxcmd_of_command hidle hcmd hdump], ?_, ?_⟩
  · simp only [State.push_ctxSts, stsStart_busy]
  · exact State.push_agenda _ _

/-- A command written to an idle QCMD starts, with BUSY, as the next event. -/
theorem does_qcmd {s : State} {v : BitVec 64} {e : Instr} (hidle : s.qSts.getLsbD 0 = false)
    (hcmd : queueCommand (bitsOf v 13 10) (bitsOf v 9 0) = some e) :
    Claims.Does (.registerWrite 0x0120 v) s fun t => t.qSts.getLsbD 0 = true ∧ t.agenda = e :: s.agenda := by
  refine ⟨_, by rw [exec_registerWrite, State.writeRegister_qcmd, State.writeQcmd_of_command hidle hcmd], ?_, ?_⟩
  · simp only [State.push_qSts, stsStart_busy]
  · exact State.push_agenda _ _

/-- Settles O58: each clause is the effect of a write at its offset, by the rules above. -/
theorem registerWrites : Obligations.RegisterWrites := by
  intro s off v
  refine ⟨fun hmis => ?misaligned, ?fabid, ?tlbva, ?dumppa, ?ctxsts, fun hbusy => ?busy, fun hidle hrun hdump => ?run,
    fun hidle hopen => ?openQueue, fun hall => ?ctxtab, fun hex => ?ctxtabDropped, fun hall => ?qtab, fun hex => ?qtabDropped,
    ?ctxcmd, ?qcmd, ?tlbcmd, ?dbgcmd, ?dmasub⟩
  case misaligned => rw [exec_registerWrite, State.writeRegister_misaligned s v hmis]
  case fabid => exact does_setReg_lowBits (by rw [exec_registerWrite, State.writeRegister_fabid])
  case tlbva => exact does_setReg_lowBits (by rw [exec_registerWrite, State.writeRegister_tlbva])
  case dumppa => exact does_setReg_keepBits (by rw [exec_registerWrite, State.writeRegister_dumppa])
  case ctxsts => rw [exec_registerWrite, State.writeRegister_ctxsts]
  case busy => rw [exec_registerWrite, State.writeRegister_ctxcmd, State.writeCtxcmd_of_busy v hbusy]; rfl
  case run => exact does_ctxcmd hidle (by rw [hrun]; rfl) hdump
  case openQueue => exact does_qcmd hidle (by rw [hopen]; rfl)
  case ctxtab => exact does_setReg_keepBits (by rw [exec_ctxtabWrite, State.writeCtxtab_of_destroyed v hall])
  case ctxtabDropped => rw [exec_ctxtabWrite, State.writeCtxtab_of_exists v hex]
  case qtab => exact does_setReg_keepBits (by rw [exec_qtabWrite, State.writeQtab_of_closed v hall])
  case qtabDropped => rw [exec_qtabWrite, State.writeQtab_of_exists v hex]
  case ctxcmd => exact exec_commandWriteDropped 0x0100 s
  case qcmd => exact exec_commandWriteDropped 0x0120 s
  case tlbcmd => exact exec_commandWriteDropped 0x0140 s
  case dbgcmd => exact exec_commandWriteDropped 0x0160 s
  case dmasub => exact exec_commandWriteDropped 0x0240 s

end Sys2Proof.Machine

/-! ## Every step keeps the canonical form of memory (O5)

Three functions of the model give memory a new value: `State.performBytes` and `State.hostBuffer` write bytes, which keeps the
form (`writeLE_wf`), and `State.zeroMemory` filters the cells (`filter_wf`); `State.partReset` carries memory over a reset.
Every other function passes memory on. So each function of the model that returns states has one rule here, in the order of the
model: `f_mem`, where f never writes memory, says that memory stays as it is; `f_canon`, for the others and for those that
return a result with a state in it, says that the form is kept. The proof of a rule follows the branches of its function and cites
the rules of the functions that it calls, which are the arguments of `grind`; no arithmetic enters, and `-linarith` spares
a search. Where a branch is chosen by an address computed with large literals, the proof names the choice by a
variable first (`generalize`), since the kernel would evaluate it. `exec_canon` collects the rules over the instructions and
`memoryKeepsItsForm` over the three kinds of step. -/

namespace Sys2Proof.Machine

open State

/-- The memory of a state is in canonical form: rising addresses, no zero byte listed. -/
abbrev State.Canon (s : State) : Prop := Memory.wf s.mem = true

/-! ### Results that carry a state -/

/-- The state of a word's result is canonical. -/
def Res.Canon : Res → Prop
  | .done s _ _ _ => s.Canon
  | .trap s _ _ _ => s.Canon
  | .trapNext s _ _ _ => s.Canon
  | .wait s _ _ => s.Canon
  | .later s => s.Canon

/-- The state of a unit of a walk, where it has one, is canonical. -/
def UnitRes.Canon : UnitRes → Prop
  | .done s _ _ => s.Canon
  | .fault s _ _ _ => s.Canon
  | .watch s _ _ _ => s.Canon
  | .ask s => s.Canon
  | .stuck => True

/-- The state of an engine's units, where it has one, is canonical. -/
def EngRes.Canon : EngRes → Prop
  | .done s => s.Canon
  | .fault s _ _ _ => s.Canon
  | .watch s => s.Canon
  | .going s => s.Canon
  | .stuck => True

/-- The state after the part's own access to a context's memory is canonical. -/
def CRes.Canon : CRes → Prop
  | .ok _ s => s.Canon
  | .fault _ s => s.Canon
  | .wait s => s.Canon

/-- The state after a row of such accesses is canonical. -/
def CReads.Canon : CReads → Prop
  | .ok _ s => s.Canon
  | .fault _ s => s.Canon
  | .wait s => s.Canon

/-- The state after a fetch is canonical. -/
def Fetched.Canon : Fetched → Prop
  | .word _ s => s.Canon
  | .stop s => s.Canon

/-- The state after the records of a graph are read is canonical. -/
def Records.Canon : Records → Prop
  | .ok _ s => s.Canon
  | .refused s => s.Canon
  | .wait s => s.Canon

/-- The state after the admission of a graph is canonical. -/
def Admission.Canon : Admission → Prop
  | .ok _ s => s.Canon
  | .refused s => s.Canon
  | .wait s => s.Canon

/-- The state in the end of a node's work, where it has one, is canonical. -/
def WorkEnd.Canon : WorkEnd → Prop
  | .asked s => s.Canon
  | _ => True

/-! ### Folds and branches over states -/

theorem foldl_mem {α : Type} {f : State → α → State} (hf : ∀ s a, (f s a).mem = s.mem) (l : List α) (s : State) :
    (l.foldl f s).mem = s.mem :=
  List.foldlRecOn l f (motive := fun t => t.mem = s.mem) rfl fun t h a _ => (hf t a).trans h

theorem foldl_snd_mem {α β : Type} {f : β × State → α → β × State} (hf : ∀ x a, (f x a).2.mem = x.2.mem) (l : List α)
    (x : β × State) : (l.foldl f x).2.mem = x.2.mem :=
  List.foldlRecOn l f (motive := fun y => y.2.mem = x.2.mem) rfl fun y h a _ => (hf y a).trans h

theorem foldl_canon {α : Type} {f : State → α → State} (hf : ∀ s a, s.Canon → (f s a).Canon) (l : List α) {s : State}
    (h : s.Canon) : (l.foldl f s).Canon :=
  List.foldlRecOn l f h fun t ht a _ => hf t a ht

theorem canon_of_mem {s t : State} (hm : t.mem = s.mem) (h : s.Canon) : t.Canon := by
  rw [State.Canon, hm]
  exact h

theorem ite_canon {c : Prop} [Decidable c] {s t : State} (ht : t.Canon) (hs : s.Canon) : (if c then t else s).Canon := by
  split
  · exact ht
  · exact hs

theorem getD_canon {o : Option State} {s : State} (h : s.Canon) (ho : ∀ {t}, o = some t → t.Canon) : (o.getD s).Canon := by
  cases o with
  | none => exact h
  | some t => exact ho rfl

theorem State.withChecks_canon {s : State} (h : s.Canon) (ks : List Check) : ({ s with checks := ks } : State).Canon := h

/-! ### Physical memory at its home (`Machine/Phys.lean`) -/

@[simp] theorem State.setLink_mem (s : State) (l : Nat) (x : Link) : (s.setLink l x).mem = s.mem := rfl
@[simp] theorem State.setEngine_mem (s : State) (e : Nat) (x : Engine) : (s.setEngine e x).mem = s.mem := rfl
theorem State.fresh_mem (s : State) : s.fresh.2.mem = s.mem := rfl

@[simp] theorem State.post_mem (s : State) (l : Nat) (m : OutMsg) : (s.post l m).mem = s.mem := by
  unfold post
  split <;> rfl

@[simp] theorem State.postHeld_mem (s : State) (l : Nat) : (s.postHeld l).mem = s.mem := by
  unfold postHeld
  exact foldl_mem (fun s _ => s.send_mem _) _ _

@[simp] theorem State.snoopBack_mem (s : State) (line : Nat) : (s.snoopBack line).mem = s.mem := by
  grind -linarith [snoopBack, post_mem]

@[simp] theorem State.arm_mem (s : State) (kind : WatchKind) (pa size : Nat) : (s.arm kind pa size).mem = s.mem := rfl
@[simp] theorem State.disarm_mem (s : State) (kind : WatchKind) : (s.disarm kind).mem = s.mem := rfl
@[simp] theorem State.dropGuest_mem (s : State) (die line : Nat) : (s.dropGuest die line).mem = s.mem := rfl

/-- Bytes written at their home slice (R227): all but the recovery image buffer goes through here. -/
theorem State.performBytes_canon {s : State} (h : s.Canon) (who : Option (Nat × Nat)) (pa n data : Nat) :
    (s.performBytes who pa n data).Canon :=
  writeLE_wf pa n data h

@[simp] theorem State.touchHome_mem (s : State) (die pa : Nat) : (s.touchHome die pa).mem = s.mem := rfl
theorem State.write64_canon {s : State} (h : s.Canon) (pa : Nat) (v : BitVec 64) : (s.write64 pa v).Canon := performBytes_canon h ..

/-! ### Translation (`Machine/Xlat.lean`) -/

theorem State.setAD_canon {s : State} (h : s.Canon) (ctx va : Nat) (d : Bool) : (s.setAD ctx va d).Canon := by
  grind -linarith [setAD, write64_canon]

theorem State.setRevoked_canon {s : State} (h : s.Canon) (at' : Nat) : (s.setRevoked at').Canon := write64_canon h ..

theorem State.direct_canon {s : State} (h : s.Canon) (ctx va : Nat) (k : Access) (priv : Bool) : (s.direct ctx va k priv).2.Canon := by
  grind -linarith [direct, setAD_canon, setRevoked_canon]

@[simp] theorem State.fillTlb_mem (s : State) (core : Nat) (t : TlbEntry) : (s.fillTlb core t).mem = s.mem := rfl

@[simp] theorem State.addMiss_mem (s : State) (die ctx va agent core : Nat) (k : Access) :
    (s.addMiss die ctx va agent core k).mem = s.mem := by
  grind -linarith [addMiss, countUp_mem]

/-! ### The matrix array (`Machine/Array.lean`) -/

@[simp] theorem State.accStep_mem (s : State) (core : Nat) : (s.accStep core).mem = s.mem := by
  grind -linarith [accStep, setCore_mem, updGrp_mem]

@[simp] theorem State.accDrain_mem (s : State) (core : Nat) : (s.accDrain core).mem = s.mem := foldl_mem (fun s _ => s.accStep_mem core) _ _

/-! ### The capsule line (`Machine/CapLine.lean`) -/

theorem State.setLock_canon {s : State} (h : s.Canon) (line st ctx holder adopter : Nat) : (s.setLock line st ctx holder adopter).Canon :=
  write64_canon h ..

theorem State.applyEntries_canon {s : State} (h : s.Canon) (line : Nat) (vas : List Nat) : (s.applyEntries line vas).Canon := by
  grind -linarith [applyEntries, performBytes_canon, foldl_canon]

theorem State.deliver_canon {s : State} (h : s.Canon) (line : Nat) : (s.deliver line).Canon := performBytes_canon h ..

theorem State.freeLine_canon {s : State} (h : s.Canon) (line : Nat) : (s.freeLine line).Canon := by
  grind -linarith [freeLine, setLock_canon, deliver_canon]

theorem State.finishLog_canon {s : State} (h : s.Canon) (c : CapLog) : (s.finishLog c).Canon := by
  grind -linarith [finishLog, applyEntries_canon, write64_canon, freeLine_canon]

theorem State.settleLine_canon {s : State} (h : s.Canon) (line : Nat) : (s.settleLine line).Canon := by
  grind -linarith [settleLine, finishLog_canon]

theorem State.capAcquire_canon {s : State} (h : s.Canon) (line ctx me : Nat) (entry : BitVec 57) (regs : List (BitVec 64)) :
    (s.capAcquire line ctx me entry regs).2.Canon := by
  grind -linarith [capAcquire, settleLine_canon, setLock_canon, write64_canon, performBytes_canon]

theorem State.capCommit_canon {s : State} (h : s.Canon) (line me : Nat) (cseq : BitVec 16) (stores : List CapStore)
    (regs : List (BitVec 64)) (next : BitVec 57) (last : Bool) : (s.capCommit line me cseq stores regs next last).2.Canon := by
  grind -linarith [capCommit, settleLine_canon, write64_canon, performBytes_canon]

theorem State.capMark_canon {s : State} (h : s.Canon) (me line : Nat) : (s.capMark me line).Canon := by
  grind -linarith [capMark, settleLine_canon, setLock_canon]

theorem State.drainMarks_canon {s : State} (h : s.Canon) (me : Nat) : (s.drainMarks me).Canon := by
  grind -linarith [drainMarks, capMark_canon, foldl_canon]

theorem State.drainMarksOf_canon {s : State} (h : s.Canon) (core : Nat) : (s.drainMarksOf core).Canon := by
  grind -linarith [drainMarksOf, capMark_canon, foldl_canon]

theorem State.capReenter_canon {s : State} (h : s.Canon) (line ctx me role : Nat) (cseq : BitVec 16) :
    (s.capReenter line ctx me role cseq).2.Canon := by
  grind -linarith [capReenter, settleLine_canon, drainMarks_canon, setLock_canon, performBytes_canon]

/-! ### The on-chip windows (`Machine/Window.lean`) -/

@[simp] theorem State.coreByteSet_mem (s : State) (c : Nat) (b : CoreByte) (v : Nat) : (s.coreByteSet c b v).mem = s.mem := by
  cases b <;> grind -linarith [coreByteSet, updCore_mem, updGrp_mem]

@[simp] theorem State.coreByteClean_mem (s : State) (c : Nat) (b : CoreByte) : (s.coreByteClean c b).mem = s.mem := by
  unfold coreByteClean
  split <;> rfl

@[simp] theorem State.coreWinClean_mem (s : State) (c off n : Nat) : (s.coreWinClean c off n).mem = s.mem :=
  foldl_mem (fun s i => by grind -linarith [coreByteClean_mem]) _ _

theorem State.coreWinRead_mem (s : State) (c off n : Nat) : (s.coreWinRead c off n).2.mem = s.mem := by
  have hbytes (l : List Nat) (r : Nat × State) : (l.foldr (fun o (r : Nat × State) =>
      let b := r.2.coreByte c o
      (r.1 * 256 + r.2.coreByteGet c b,
        if b == .none then r.2.updCore c fun k => { k with werr := true } else r.2)) r).2.mem = r.2.mem := by
    induction l with
    | nil => rfl
    | cons o l ih => grind -linarith [updCore_mem]
  exact (hbytes _ _).trans (s.accDrain_mem c)

@[simp] theorem State.coreWinWrite_mem (s : State) (c off n data : Nat) : (s.coreWinWrite c off n data).mem = s.mem := by
  rw [coreWinWrite, coreWinClean_mem, foldl_mem fun s i => s.coreByteSet_mem c _ _, accDrain_mem]

/-- As a function: applied, the kernel would evaluate `chipLoc` with its large literals. -/
theorem State.chipRead_def : State.chipRead = fun s pa n => match s.chipLoc pa with
    | .control off => (s.controlBytes off n, s)
    | .core c off => s.coreWinRead c off n
    | .hole => (0, s) := by
  with_reducible_and_instances
    unfold State.chipRead
    rfl

theorem State.chipRead_mem (s : State) (pa n : Nat) : (s.chipRead pa n).2.mem = s.mem := by
  have hread := congrFun (congrFun (congrFun chipRead_def s) pa) n
  beta_reduce at hread
  generalize s.chipLoc pa = l at hread
  rw [hread]
  cases l with
  | core c off => exact s.coreWinRead_mem c off n
  | _ => rfl

theorem State.chipWrite_def : State.chipWrite = fun s pa n data => match s.chipLoc pa with
    | .control off => { s with regWrites := s.regWrites ++ s.controlWrites off n data }
    | .core c off => s.coreWinWrite c off n data
    | .hole => s := by
  with_reducible_and_instances
    unfold State.chipWrite
    rfl

@[simp] theorem State.chipWrite_mem (s : State) (pa n data : Nat) : (s.chipWrite pa n data).mem = s.mem := by
  have hwrite := congrFun (congrFun (congrFun (congrFun chipWrite_def s) pa) n) data
  beta_reduce at hwrite
  generalize s.chipLoc pa = l at hwrite
  rw [hwrite]
  cases l with
  | core c off => exact s.coreWinWrite_mem c off n data
  | _ => rfl

/-! ### Accesses of groups to memory (`Machine/Mem.lean`) -/

@[simp] theorem State.setRefused_mem (s : State) (l : Nat) : (s.setRefused l).mem = s.mem := rfl

@[simp] theorem State.noteRefused_mem (s : State) (pa : Nat) : (s.noteRefused pa).mem = s.mem := by
  grind -linarith [noteRefused, setRefused_mem]

@[simp] theorem State.extSend_mem (s : State) (agent ctx : Nat) (write : Bool) (pa n data : Nat) :
    (s.extSend agent ctx write pa n data).mem = s.mem := by
  grind -linarith [extSend, post_mem]

@[simp] theorem State.extAtomic_mem (s : State) (agent ctx : Nat) (write : Bool) (pa n : Nat) (op : AtomOp) (et b cmp : Nat) :
    (s.extAtomic agent ctx write pa n op et b cmp).mem = s.mem := by
  grind -linarith [extAtomic, post_mem]

@[simp] theorem State.extWrite_mem (s : State) (w : PendWrite) : (s.extWrite w).mem = s.mem := by
  grind -linarith [extWrite, noteRefused_mem, extSend_mem, extAtomic_mem]

theorem State.performWrite_canon {s : State} (h : s.Canon) (w : PendWrite) : (s.performWrite w).Canon := by
  grind -linarith [performWrite, chipWrite_mem, extWrite_mem, dropGuest_mem, performBytes_canon]

theorem State.drainCore_canon {s : State} (h : s.Canon) (core : Nat) : (s.drainCore core).Canon := by
  grind -linarith [drainCore, performWrite_canon, foldl_canon]

theorem State.settleFor_canon {s : State} (h : s.Canon) (core agent pa n : Nat) : (s.settleFor core agent pa n).Canon := by
  grind -linarith [settleFor, drainCore_canon]

@[simp] theorem State.seeL1_mem (s : State) (core agent pa n : Nat) : (s.seeL1 core agent pa n).mem = s.mem := by
  unfold seeL1
  split <;> rfl

theorem State.settleOwn_canon {s : State} (h : s.Canon) (core agent pa n : Nat) : (s.settleOwn core agent pa n).Canon := by
  grind -linarith [settleOwn, drainCore_canon]

theorem State.l1Fill_canon {s : State} (h : s.Canon) (core k : Nat) : (s.l1Fill core k).Canon := by
  grind -linarith [l1Fill, drainCore_canon, touchHome_mem, updCore_mem]

theorem State.l1Ensure_canon {s : State} (h : s.Canon) (core acq k : Nat) : (s.l1Ensure core acq k).Canon := by
  grind -linarith [l1Ensure, countUp_mem, l1Fill_canon]

theorem State.l1Read_canon {s : State} (h : s.Canon) (core agent acq pa n : Nat) : (s.l1Read core agent acq pa n).2.Canon := by
  grind -linarith [l1Read, l1Ensure_canon, seeL1_mem, foldl_canon]

theorem State.l1Peek_canon {s : State} (h : s.Canon) (core acq pa n : Nat) : (s.l1Peek core acq pa n).2.Canon := by
  grind -linarith [l1Peek, countUp_mem, drainCore_canon, touchHome_mem]

@[simp] theorem State.l1Store_mem (s : State) (core pa n data : Nat) : (s.l1Store core pa n data).mem = s.mem := rfl
@[simp] theorem State.l1Drop_mem (s : State) (core pa n : Nat) : (s.l1Drop core pa n).mem = s.mem := rfl

theorem State.memLoad_canon {s : State} (h : s.Canon) (core agent acq scope : Nat) (home : Bool) (pa n : Nat) :
    (s.memLoad core agent acq scope home pa n).2.Canon := by
  grind -linarith [memLoad, !l1Read_canon, countUp_mem, settleFor_canon, touchHome_mem]

@[simp] theorem State.memStore_mem (s : State) (core agent ctx va pa n data : Nat) (red : Option (AtomOp × Nat)) (tie : Nat) :
    (s.memStore core agent ctx va pa n data red tie).mem = s.mem := by
  unfold memStore
  grind -linarith [chipWrite_mem, l1Store_mem, l1Drop_mem, snoopBack_mem]

@[simp] theorem State.storePieces_mem (s : State) (core agent ctx va pa n data : Nat) :
    (s.storePieces core agent ctx va pa n data).mem = s.mem := by
  unfold storePieces
  grind -linarith [foldl_mem, memStore_mem, !fresh_mem]

@[simp] theorem State.takeLine_mem (s : State) (agent pa : Nat) : (s.takeLine agent pa).mem = s.mem := rfl

theorem State.memAtomic_canon {s : State} (h : s.Canon) (core agent ctx acq scope : Nat) (op : AtomOp) (et va pa n b cmp : Nat) :
    (s.memAtomic core agent ctx acq scope op et va pa n b cmp).2.Canon := by
  grind -linarith [memAtomic, !l1Peek_canon, memStore_mem, touchHome_mem, countUp_mem, drainCore_canon, l1Drop_mem, performBytes_canon,
    takeLine_mem]

theorem State.release_canon {s : State} (h : s.Canon) (core agent scope : Nat) : (s.release core agent scope).1.Canon := by
  grind -linarith [release, accDrain_mem, drainMarksOf_canon, drainCore_canon]

@[simp] theorem State.acquire_mem (s : State) (a scope : Nat) : (s.acquire a scope).mem = s.mem := by
  unfold acquire
  split <;> rfl

@[simp] theorem State.scrWrite_mem (s : State) (core off n v : Nat) : (s.scrWrite core off n v).mem = s.mem := rfl

/-! ### Trace, counters, energy (`Machine/Trace.lean`) -/

theorem State.traceWord_canon {s : State} (h : s.Canon) (core : Nat) (v : BitVec 64) : (s.traceWord core v).Canon := by
  grind -linarith [traceWord, write64_canon, updCore_mem]

theorem State.traceWrite_canon {s : State} (h : s.Canon) (core : Nat) (p : BitVec 64 × Option (BitVec 64)) :
    (s.traceWrite core p).Canon := by
  grind -linarith [traceWrite, traceWord_canon]

theorem State.traceOut_canon {s : State} (h : s.Canon) (core : Nat) (ps : List (BitVec 64 × Option (BitVec 64))) :
    (s.traceOut core ps).Canon := by
  induction ps generalizing s with
  | nil => exact h
  | cons p r ih => grind -linarith [traceOut, updCore_mem, traceWrite_canon]

theorem State.traceFlush_canon {s : State} (h : s.Canon) (core : Nat) : (s.traceFlush core).Canon := traceOut_canon h ..

theorem State.tracePacket_canon {s : State} (h : s.Canon) (core ctx slot : Nat) (pcSlot : Bool) (type payload : Nat)
    (w1 : Option (BitVec 64)) : (s.tracePacket core ctx slot pcSlot type payload w1).Canon := by
  grind -linarith [tracePacket, traceFlush_canon, updCore_mem]

/-! ### What every instruction word shares (`Machine/Ops.lean`) -/

theorem State.setCtxState_canon {s : State} (h : s.Canon) (c : Nat) (st : CState) : (s.setCtxState c st).Canon := by
  grind -linarith [setCtxState, updCtx_mem, write64_canon]

theorem State.faultCtx_canon {s : State} (h : s.Canon) (c cause detail : Nat) : (s.faultCtx c cause detail).Canon := by
  grind -linarith [faultCtx, updCtx_mem, write64_canon, setCtxState_canon]

@[simp] theorem State.broadcast_mem (s : State) (c : Nat) : (s.broadcast c).mem = s.mem := rfl

@[simp] theorem State.stopBroadcast_mem (s : State) (a : Nat) : (s.stopBroadcast a).mem = s.mem := by
  grind -linarith [stopBroadcast, broadcast_mem]

theorem State.putStop_canon {s : State} (h : s.Canon) (r : StopRec) : (s.putStop r).Canon := by
  grind -linarith [putStop, stopBroadcast_mem, write64_canon]

theorem State.stopRecord_canon {s : State} (h : s.Canon) (r : StopRec) : (s.stopRecord r).Canon := by
  grind -linarith [stopRecord, !release_canon, putStop_canon]

theorem State.retryStops_canon {s : State} (h : s.Canon) : s.retryStops.Canon := by
  grind -linarith [retryStops, stopRecord_canon, foldl_canon]

@[simp] theorem State.mark_mem (s : State) (a : Nat) : (s.mark a).mem = s.mem := by
  grind -linarith [mark]

theorem State.enterHalted_canon {s : State} (h : s.Canon) (a cause : Nat) : (s.enterHalted a cause).Canon := by
  grind -linarith [enterHalted, leaveSlot_mem, updGrp_mem, mark_mem, accDrain_mem, disarm_mem, stopRecord_canon]

@[simp] theorem State.dropWaits_mem (s : State) (a : Nat) : (s.dropWaits a).mem = s.mem := rfl
@[simp] theorem State.discardStep_mem (s : State) (a : Nat) (pc : BitVec 57) : (s.discardStep a pc).mem = s.mem := rfl

theorem State.doubleTrap_canon {s : State} (h : s.Canon) (a cause : Nat) (addr : BitVec 64) (xpc here : BitVec 57) :
    (s.doubleTrap a cause addr xpc here).Canon := by
  grind -linarith [doubleTrap, discardStep_mem, updGrp_mem, enterHalted_canon, dropWaits_mem, faultCtx_canon]

theorem State.enterHandler_canon {s : State} (h : s.Canon) (a ctx : Nat) (e : PendEntry) (f : Nat) : (s.enterHandler a ctx e f).Canon := by
  grind -linarith [enterHandler, updGrp_mem, stopRecord_canon]

theorem State.startHandler_canon {s : State} (h : s.Canon) (a ctx : Nat) (e : PendEntry) (f : Nat) : (s.startHandler a ctx e f).Canon := by
  grind -linarith [startHandler, updGrp_mem, arm_mem, enterHandler_canon]

@[simp] theorem State.frameTaint_mem (s : State) (g : Group) (pa : Nat) : (s.frameTaint g pa).mem = s.mem := by
  unfold frameTaint
  split <;> rfl

theorem State.finishEntry_canon {s : State} (h : s.Canon) (a : Nat) : (s.finishEntry a).Canon := by
  grind -linarith [finishEntry, startHandler_canon, !direct_canon, doubleTrap_canon, updGrp_mem, snoopBack_mem, l1Store_mem,
    drainCore_canon, frameTaint_mem, performWrite_canon, arm_mem]

theorem State.beginTrap_canon {s : State} (h : s.Canon) (a ctx : Nat) (g : Group) (cause : Nat) (addr aux : BitVec 64) (resume : BitVec 57)
    (fromB : Bool) : (s.beginTrap a ctx g cause addr aux resume fromB).Canon := by
  grind -linarith [beginTrap, mark_mem, leaveSlot_mem, dropWaits_mem, accDrain_mem, updGrp_mem, tracePacket_canon]

theorem State.takeTrap_canon {s : State} (h : s.Canon) (a cause : Nat) (addr aux : BitVec 64) (xpc : BitVec 57) (fromB : Bool) :
    (s.takeTrap a cause addr aux xpc fromB).Canon := by
  grind -linarith [takeTrap, doubleTrap_canon, discardStep_mem, finishEntry_canon, beginTrap_canon]

theorem State.takeBetween_canon {s : State} (h : s.Canon) (a cause : Nat) (addr aux : BitVec 64) (xpc : BitVec 57) (fromB : Bool) :
    (s.takeBetween a cause addr aux xpc fromB).Canon := by
  grind -linarith [takeBetween, finishEntry_canon, beginTrap_canon]

@[simp] theorem State.trapReturn_mem (s : State) (a vals : Nat) : (s.trapReturn a vals).mem = s.mem := rfl

theorem Res.counting_canon (r : Res) (core i n : Nat) (hr : r.Canon) : (r.counting core i n).Canon := by
  unfold Res.counting
  split
  · split
    · exact hr
    · exact canon_of_mem (countUp_mem ..) hr
  · exact hr

theorem Iss.fin_canon {s : State} (h : s.Canon) (i : Iss) : (i.fin s).Canon := by
  grind -linarith [Iss.fin, Res.Canon]

theorem Iss.finG_canon {s : State} (h : s.Canon) (i : Iss) (g : Group) : (i.finG s g).Canon := by
  grind -linarith [Iss.finG, !Iss.fin_canon, setGrp_mem]

theorem Iss.finS_canon {s : State} (h : s.Canon) (i : Iss) (v : BitVec 64) : (i.finS s v).Canon := by
  grind -linarith [Iss.finS, !Iss.fin_canon, updGrp_mem]

theorem Iss.jump_canon {s : State} (h : s.Canon) (i : Iss) (pc : BitVec 57) : (i.jump s pc).Canon := by
  grind -linarith [Iss.jump, Res.Canon]

theorem Iss.illegal_canon {s : State} (h : s.Canon) (i : Iss) : (i.illegal s).Canon := by
  grind -linarith [Iss.illegal, Res.Canon]

@[simp] theorem State.endRun_mem (s : State) (a : Nat) : (s.endRun a).mem = s.mem := rfl

theorem State.groupExit_canon {s : State} (h : s.Canon) (i : Iss) : (s.groupExit i).Canon := by
  grind -linarith [groupExit, tracePacket_canon, updBlk_mem, countUp_mem, updCore_mem]

@[simp] theorem State.countWords_mem (s : State) (core n : Nat) (first : Bool) : (s.countWords core n first).mem = s.mem := rfl

@[simp] theorem State.retireWord_mem (s : State) (i : Iss) (mv : PcMove) (cls n : Nat) : (s.retireWord i mv cls n).mem = s.mem := by
  grind -linarith [retireWord, countWords_mem, charge_mem, updGrp_mem]

theorem State.retire_canon {s : State} (h : s.Canon) (i : Iss) (mv : PcMove) (cls n : Nat) : (s.retire i mv cls n).Canon := by
  grind -linarith [retire, retireWord_mem, groupExit_canon, endRun_mem]

@[simp] theorem State.suspendAt_mem (s : State) (a : Nat) (first : BitVec 57) (code : GState) (dep : Dep) :
    (s.suspendAt a first code dep).mem = s.mem :=
  rfl

@[simp] theorem State.suspend_mem (s : State) (i : Iss) (code : GState) (dep : Dep) : (s.suspend i code dep).mem = s.mem := rfl

@[simp] theorem State.uncount_mem (t s : State) (c : Nat) : (t.uncount s c).mem = t.mem := by
  unfold uncount
  split <;> rfl

@[simp] theorem State.putOffWord_mem (s : State) (a : Nat) : (s.putOffWord a).mem = s.mem := rfl

theorem State.runWord_canon {s : State} (h : s.Canon) (i : Iss) (ok : Iss → Bool) (body : State → Iss → Res)
    (hbody : ∀ t x, t.Canon → (body t x).Canon) : (s.runWord i ok body).Canon := by
  grind -linarith [runWord, Res.Canon, takeTrap_canon, suspend_mem, retire_canon, uncount_mem, countWords_mem, charge_mem, putOffWord_mem]

/-! ### The accesses of one instruction (`Machine/Access.lean`) -/

theorem Iss.memDone_canon {s : State} (h : s.Canon) (i : Iss) (cs : List Acc) : (i.memDone s cs).Canon := by
  grind -linarith [Iss.memDone, Res.Canon]

theorem Iss.guardedBy_canon {s : State} (h : s.Canon) (i : Iss) (chk : Acc → AccChk) (cs : List Acc) (k : State → List (Acc × Place) → Res)
    (hk : ∀ t x, t.Canon → (k t x).Canon) : (i.guardedBy s chk cs k).Canon := by
  grind -linarith [Iss.guardedBy, Res.Canon, setRevoked_canon, arm_mem, addMiss_mem, !Res.counting_canon, foldl_canon]

theorem Iss.guarded_canon {s : State} (h : s.Canon) (i : Iss) (cs : List Acc) (k : State → List (Acc × Place) → Res)
    (hk : ∀ t x, t.Canon → (k t x).Canon) : (i.guarded s cs k).Canon := by
  grind -linarith [Iss.guarded, !Iss.guardedBy_canon]

theorem State.extAsk_canon {s : State} (h : s.Canon) (agent ctx pa n : Nat) : (s.extAsk agent ctx pa n).Canon := by
  grind -linarith [extAsk, extSend_mem, drainCore_canon]

theorem State.settlePoison_canon {s : State} (h : s.Canon) (core pa n : Nat) : (s.settlePoison core pa n).Canon := by
  grind -linarith [settlePoison, drainCore_canon]

theorem State.readPlace_canon {s : State} (h : s.Canon) (core agent acq scope : Nat) (home : Bool) (c : Acc) (p : Place) :
    (s.readPlace core agent acq scope home c p).2.Canon := by
  unfold readPlace
  grind -linarith [settlePoison_canon, !memLoad_canon, !chipRead_mem, settleFor_canon, noteRefused_mem]

theorem State.readSectors_canon {s : State} (h : s.Canon) (core agent acq scope : Nat) (home : Bool) (ks : List Nat) :
    (s.readSectors core agent acq scope home ks).2.Canon := by
  induction ks generalizing s with
  | nil => exact h
  | cons k ks ih => grind -linarith [readSectors, settlePoison_canon, !memLoad_canon]

theorem State.readLanes_canon {s : State} (h : s.Canon) (core agent acq scope : Nat) (home : Bool) (m : AMap ReadOut)
    (ps : List (Acc × Place)) : (s.readLanes core agent acq scope home m ps).2.Canon := by
  induction ps generalizing s with
  | nil => exact h
  | cons x r ih =>
    obtain ⟨c, p⟩ := x
    cases p <;> grind -linarith [readLanes, !readPlace_canon]

theorem State.readPlaces_canon {s : State} (h : s.Canon) (core agent acq scope : Nat) (home : Bool) (ps : List (Acc × Place)) :
    (s.readPlaces core agent acq scope home ps).2.Canon := by
  unfold readPlaces
  grind -linarith [!readPlace_canon, !readSectors_canon, !readLanes_canon]

theorem State.shut_canon {s : State} (h : s.Canon) (core : Nat) (ps : List (Acc × Place)) {x : Nat × State} (hx : s.shut core ps = some x) :
    x.2.Canon := by
  obtain ⟨y, -, rfl⟩ := Option.map_eq_some_iff.mp hx
  exact canon_of_mem (s.snoopBack_mem _) h

@[simp] theorem State.takeEntries_mem (s : State) (core : Nat) (ks : List Nat) : (s.takeEntries core ks).mem = s.mem := by
  unfold takeEntries
  split <;> rfl

theorem Iss.askExt_canon {s : State} (h : s.Canon) (i : Iss) (ms : List (Nat × Nat)) : (i.askExt s ms).Canon := by
  grind -linarith [Iss.askExt, Res.Canon, extAsk_canon, foldl_canon]

theorem Iss.load_canon {s : State} (h : s.Canon) (i : Iss) (scope : Nat) (home : Bool) (cs : List Acc) (k : State → List Nat → Res)
    (hk : ∀ t x, t.Canon → (k t x).Canon) : (i.load s scope home cs k).Canon := by
  grind -linarith [Iss.load, Res.Canon, !Iss.guarded_canon, → shut_canon, !readPlaces_canon, takeEntries_mem, !Iss.askExt_canon]

@[simp] theorem State.storePlace_mem (s : State) (i : Iss) (c : Acc) (p : Place) : (s.storePlace i c p).mem = s.mem := by
  cases p with
  | chip pa => rw [storePlace, chipWrite_mem]
  | scr k off => exact scrWrite_mem ..
  | _ => exact storePieces_mem ..

@[simp] theorem State.storeSector_mem (s : State) (i : Iss) (tie : Nat) (ps : List (Nat × Nat × Nat × Nat)) (k : Nat) :
    (s.storeSector i tie ps k).mem = s.mem :=
  foldl_mem (fun s _ => s.memStore_mem ..) _ _

@[simp] theorem State.cleanCovered_mem (s : State) (ps : List (Acc × Place)) : (s.cleanCovered ps).mem = s.mem :=
  foldl_mem (fun s x => by grind -linarith [updCore_mem]) _ _

@[simp] theorem State.storeSectors_mem (s : State) (i : Iss) (ps : List (Acc × Place)) : (s.storeSectors i ps).mem = s.mem := by
  rw [storeSectors, foldl_mem fun s k => s.storeSector_mem i _ _ k, fresh_mem, cleanCovered_mem]
  exact foldl_mem (fun s x => by grind -linarith [storePlace_mem]) _ _

theorem Iss.store_canon {s : State} (h : s.Canon) (i : Iss) (cs : List Acc) (k : State → Res) (hk : ∀ t, t.Canon → (k t).Canon) :
    (i.store s cs k).Canon := by
  grind -linarith [Iss.store, !Iss.guarded_canon, storePlace_mem, foldl_canon]

theorem Iss.storeJoined_canon {s : State} (h : s.Canon) (i : Iss) (cs : List Acc) (k : State → Res) (hk : ∀ t, t.Canon → (k t).Canon) :
    (i.storeJoined s cs k).Canon := by
  grind -linarith [Iss.storeJoined, !Iss.guarded_canon, storeSectors_mem]

theorem Iss.storeMx_canon {s : State} (h : s.Canon) (i : Iss) (cs : List Acc) (k : State → Res) (hk : ∀ t, t.Canon → (k t).Canon) :
    (i.storeMx s cs k).Canon := by
  grind -linarith [Iss.storeMx, !Iss.guarded_canon, storeSectors_mem, storePlace_mem, foldl_canon]

@[simp] theorem State.notePlace_mem (s : State) (p : Place) : (s.notePlace p).mem = s.mem := by
  cases p with
  | ext pa => exact noteRefused_mem ..
  | _ => rfl

theorem State.lineAtomic_mem (s : State) (pa n : Nat) (op : AtomOp) (et b cmp : Nat) : (s.lineAtomic pa n op et b cmp).2.mem = s.mem := by
  grind -linarith [lineAtomic]

theorem State.atomicPlace_canon {s : State} (h : s.Canon) (i : Iss) (scope : Nat) (op : AtomOp) (et : Nat) (c : Acc) (p : Place) :
    (s.atomicPlace i scope op et c p).2.Canon := by
  unfold atomicPlace
  grind -linarith [!memAtomic_canon, scrWrite_mem, !chipRead_mem, chipWrite_mem, !lineAtomic_mem, drainCore_canon]

theorem State.atomicPlaces_canon {s : State} (h : s.Canon) (i : Iss) (scope : Nat) (op : AtomOp) (et : Nat) (ps : List (Acc × Place)) :
    (s.atomicPlaces i scope op et ps).2.Canon := by
  induction ps generalizing s with
  | nil => exact h
  | cons x r ih => grind -linarith [atomicPlaces, !atomicPlace_canon]

theorem State.askLines_canon {s : State} (h : s.Canon) (i : Iss) (ps : List (Acc × Place)) : (s.askLines i ps).Canon := by
  grind -linarith [askLines, extAsk_canon, foldl_canon]

theorem State.sendAtomics_canon {s : State} (h : s.Canon) (i : Iss) (op : AtomOp) (et : Nat) (ps : List (Acc × Place)) :
    (s.sendAtomics i op et ps).Canon := by
  grind -linarith [sendAtomics, extAtomic_mem, drainCore_canon, foldl_canon]

theorem State.settlePlaces_canon {s : State} (h : s.Canon) (core : Nat) (ps : List (Acc × Place)) : (s.settlePlaces core ps).Canon := by
  grind -linarith [settlePlaces, settlePoison_canon, foldl_canon]

theorem Iss.perform_canon {s : State} (h : s.Canon) (i : Iss) (scope : Nat) (op : AtomOp) (et : Nat) (ps : List (Acc × Place))
    (k : State → List Nat → Res) (hk : ∀ t x, t.Canon → (k t x).Canon) : (i.perform s scope op et ps k).Canon := by
  grind -linarith [Iss.perform, Res.Canon, notePlace_mem, askLines_canon, !atomicPlaces_canon]

theorem Iss.atomics_canon {s : State} (h : s.Canon) (i : Iss) (scope : Nat) (op : AtomOp) (et : Nat) (cs : List Acc)
    (k : State → List Nat → Res) (hk : ∀ t x, t.Canon → (k t x).Canon) : (i.atomics s scope op et cs k).Canon := by
  grind -linarith [Iss.atomics, Res.Canon, !Iss.perform_canon, !Iss.guardedBy_canon, settlePlaces_canon, → shut_canon, updGrp_mem,
    sendAtomics_canon]

theorem State.reducePlace_canon {s : State} (h : s.Canon) (i : Iss) (scope : Nat) (op : AtomOp) (et : Nat) (c : Acc) (p : Place) :
    (s.reducePlace i scope op et c p).Canon := by
  unfold reducePlace
  grind -linarith [memStore_mem, !memAtomic_canon, noteRefused_mem, !atomicPlace_canon]

theorem Iss.reduces_canon {s : State} (h : s.Canon) (i : Iss) (scope : Nat) (op : AtomOp) (et : Nat) (cs : List Acc) (k : State → Res)
    (hk : ∀ t, t.Canon → (k t).Canon) : (i.reduces s scope op et cs k).Canon := by
  grind -linarith [Iss.reduces, Res.Canon, !Iss.guardedBy_canon, askLines_canon, → shut_canon, reducePlace_canon, foldl_canon]

/-! ### Barriers as the part keeps them (`Machine/Bars.lean`) -/

@[simp] theorem State.setBar_mem (s : State) (x : BarId) (b : Bar) : (s.setBar x b).mem = s.mem := by
  unfold setBar
  split <;> rfl

theorem State.setObj_canon {s : State} (h : s.Canon) (pa off lo hi : Nat) : (s.setObj pa off lo hi).Canon := write64_canon h ..

theorem State.setObjFlags_canon {s : State} (h : s.Canon) (pa : Nat) (checking failed : Bool) (mask : Nat) :
    (s.setObjFlags pa checking failed mask).Canon :=
  write64_canon h ..

theorem State.objAdvance_canon {s : State} (h : s.Canon) (pa : Nat) : (s.objAdvance pa).Canon := by
  grind -linarith [objAdvance, setObj_canon, write64_canon]

@[simp] theorem State.monitorWaits_mem (s : State) (pa : Nat) : (s.monitorWaits pa).mem = s.mem := rfl

theorem State.objComplete_canon {s : State} (h : s.Canon) (pa : Nat) : (s.objComplete pa).Canon := by
  rw [objComplete]
  dsimp only
  generalize ht : (s.setObj pa 0 _ _).setObj pa 8 0 0 = t
  have hset : t.Canon := ht ▸ setObj_canon (setObj_canon h ..) ..
  split
  · exact objAdvance_canon (setObjFlags_canon hset ..) pa
  · exact withChecks_canon (canon_of_mem (monitorWaits_mem ..) (setObjFlags_canon hset ..)) _

theorem State.arriveAt_canon {s : State} (h : s.Canon) (x : BarId) (drop : Bool) : (s.arriveAt x drop).2.Canon := by
  cases x with
  | object pa =>
    rw [arriveAt]
    dsimp only
    generalize (s.objPend pa + (2 ^ 32 - 1)) % 2 ^ 32 = p
    generalize ht : (s.setObj pa 0 _ _).setObj pa 8 _ _ = t
    have hset : t.Canon := ht ▸ setObj_canon (setObj_canon h ..) ..
    grind -linarith [objComplete_canon]
  | _ => grind -linarith [arriveAt, setBar_mem, updCl_mem]

@[simp] theorem State.reach_mem (s : State) (x : BarId) (agent : Nat) (act : BarAct) (dest : Option Nat) :
    (s.reach x agent act dest).mem = s.mem :=
  rfl

theorem State.setExpect_canon {s : State} (h : s.Canon) (x : BarId) (n ctx : Nat) : (s.setExpect x n ctx).Canon := by
  unfold setExpect
  grind -linarith [performBytes_canon, setObj_canon, setBar_mem]

theorem State.setBinding_canon {s : State} (h : s.Canon) (pa k v : Nat) : (s.setBinding pa k v).Canon := performBytes_canon h ..

theorem State.applyHeld_canon {s : State} (h : s.Canon) (a : Arrival) : (s.applyHeld a).Canon := by
  unfold applyHeld
  grind -linarith [setExpect_canon, setBinding_canon, !arriveAt_canon, updGrp_mem]

theorem State.partWrite_canon {s : State} (h : s.Canon) (c va n data : Nat) : (s.partWrite c va n data).Canon := by
  grind -linarith [partWrite, !direct_canon, performWrite_canon, performBytes_canon]

theorem State.montabWrite_canon {s : State} (h : s.Canon) (c m off n data : Nat) : (s.montabWrite c m off n data).Canon :=
  partWrite_canon h ..

theorem State.retryLater_canon {s : State} (h : s.Canon) : s.retryLater.Canon := by
  grind -linarith [retryLater, partWrite_canon, foldl_canon]

theorem State.evalMonitor_canon {s : State} (h : s.Canon) (k : Check) (m : Nat) : (s.evalMonitor k m).2.Canon := by
  grind -linarith [evalMonitor, updCtx_mem, montabWrite_canon]

theorem State.evalAll_canon {s : State} (h : s.Canon) (k : Check) (ms : List (Nat × Nat)) : (s.evalAll k ms).2.Canon := by
  induction ms generalizing s with
  | nil => exact h
  | cons x xs ih => grind -linarith [evalAll, !evalMonitor_canon]

@[simp] theorem State.zeroPartials_mem (s : State) (c m : Nat) : (s.zeroPartials c m).mem = s.mem := rfl

/-! ### Control transfer (`Machine/Control.lean`) -/

theorem Iss.packet_canon {s : State} (h : s.Canon) (i : Iss) (type payload : Nat) (w1 : Option (BitVec 64)) :
    (i.packet s type payload w1).Canon :=
  tracePacket_canon h ..

theorem brBody_canon {s : State} (h : s.Canon) (i : Iss) : (brBody s i).Canon := Iss.jump_canon h ..

theorem branchIf_canon {s : State} (h : s.Canon) (c : Iss → Bool) (i : Iss) : (branchIf c s i).Canon := by
  grind -linarith [branchIf, !Iss.jump_canon, Iss.packet_canon]

theorem jumpTo_canon {s : State} (h : s.Canon) (i : Iss) (t : BitVec 57) : (jumpTo s i t).Canon := by
  grind -linarith [jumpTo, Res.Canon, !Iss.jump_canon, Iss.packet_canon]

theorem callBody_canon {s : State} (h : s.Canon) (i : Iss) : (callBody s i).Canon := by
  grind -linarith [callBody, Res.Canon, !Iss.jump_canon, updGrp_mem]

theorem retBody_canon {s : State} (h : s.Canon) (i : Iss) : (retBody s i).Canon := jumpTo_canon h ..
theorem jmpBody_canon {s : State} (h : s.Canon) (i : Iss) : (jmpBody s i).Canon := jumpTo_canon h ..
theorem nopBody_canon {s : State} (h : s.Canon) (i : Iss) : (nopBody s i).Canon := Iss.fin_canon h ..

theorem phaseBody_canon {s : State} (h : s.Canon) (i : Iss) : (phaseBody s i).Canon := by
  grind -linarith [phaseBody, !Iss.fin_canon, updGrp_mem]

theorem yieldBody_canon {s : State} (h : s.Canon) (i : Iss) : (yieldBody s i).Canon := by
  grind -linarith [yieldBody, !Iss.fin_canon, updGrp_mem]

theorem Iss.entryAt_canon {s : State} (h : s.Canon) (i : Iss) (t : Stk) (k : Nat) (f : State → StackEntry → Res)
    (hf : ∀ t x, t.Canon → (f t x).Canon) : (i.entryAt t k s f).Canon := by
  grind -linarith [Iss.entryAt, !Iss.load_canon]

theorem Iss.scan_canon {s : State} (h : s.Canon) (i : Iss) (t : Stk) (p : StackEntry → Bool)
    (k : State → Option (Nat × StackEntry × List StackEntry) → Res) (n : Nat) (above : List StackEntry)
    (hk : ∀ t x, t.Canon → (k t x).Canon) : (i.scan t p k n above s).Canon := by
  induction n generalizing above s with
  | zero => exact hk _ _ h
  | succ n ih => grind -linarith [Iss.scan, Iss.entryAt_canon]

theorem Iss.writeStack_canon {s : State} (h : s.Canon) (i : Iss) (t : Stk) (k : State → Res) (hk : ∀ t, t.Canon → (k t).Canon) :
    (i.writeStack t s k).Canon := by
  grind -linarith [Iss.writeStack, !Iss.store_canon]

theorem pushEntry_canon {s : State} (h : s.Canon) (t : Stk) (e : StackEntry) (k : Stk → Res) (hk : ∀ x, (k x).Canon) :
    (pushEntry s t e k).Canon := by
  grind -linarith [pushEntry, Res.Canon]

theorem Iss.refill_canon {s : State} (h : s.Canon) (i : Iss) (t : Stk) (k : State → Option Path → Stk → Res)
    (hk : ∀ t x y, t.Canon → (k t x y).Canon) : (i.refill t s k).Canon := by
  grind -linarith [Iss.refill, !Iss.scan_canon]

@[simp] theorem Iss.setPaths_mem (i : Iss) (s : State) (p : Option Path) (t : Stk) : (i.setPaths s p t).mem = s.mem := rfl
@[simp] theorem Iss.split_mem (i : Iss) (s : State) (p : Path) (other : Option Path) (t : Stk) : (i.split s p other t).mem = s.mem := rfl

theorem vbrBody_canon {s : State} (h : s.Canon) (i : Iss) : (vbrBody s i).Canon := by
  grind -linarith [vbrBody, Res.Canon, !Iss.jump_canon, Iss.packet_canon, !Iss.fin_canon, !Iss.illegal_canon, Iss.split_mem,
    !pushEntry_canon, !Iss.writeStack_canon]

theorem Iss.park_canon {s : State} (h : s.Canon) (i : Iss) (t : Stk) (e : StackEntry) : (i.park s t e).Canon := by
  grind -linarith [Iss.park, Res.Canon, !pushEntry_canon, !Iss.refill_canon, !Iss.writeStack_canon, Iss.setPaths_mem]

theorem vjoinBody_canon {s : State} (h : s.Canon) (i : Iss) : (vjoinBody s i).Canon := by
  grind -linarith [vjoinBody, !Iss.illegal_canon, !Iss.fin_canon, !Iss.park_canon, !Iss.scan_canon, Iss.setPaths_mem, !Iss.writeStack_canon,
    Iss.packet_canon]

theorem Iss.exitEnd_canon {s : State} (h : s.Canon) (i : Iss) (p : Option Path) (t : Stk) : (i.exitEnd s p t).Canon := by
  grind -linarith [Iss.exitEnd, Res.Canon, !Iss.writeStack_canon, Iss.packet_canon, Iss.setPaths_mem, updGrp_mem]

theorem Iss.retirePath_canon {s : State} (h : s.Canon) (i : Iss) (fuel : Nat) (p : Path) (t : Stk) : (i.retirePath fuel p t s).Canon := by
  have hleave {u : State} (hu : u.Canon) (t : Stk) : (i.refill t u fun s q t => i.exitEnd s q t).Canon :=
    refill_canon hu i t _ fun _ q t hv => exitEnd_canon hv i q t
  induction fuel generalizing p t s with
  | zero => exact hleave h t
  | succ fuel ih =>
    rw [retirePath]
    dsimp only
    split
    · exact hleave h t
    · split
      · exact pushEntry_canon h _ _ _ fun t => hleave h t
      · refine scan_canon h _ _ _ _ _ _ fun u r hu => ?_
        split
        · exact hleave hu t
        · split
          · split
            · exact ih hu _ _
            · exact exitEnd_canon hu ..
          · exact pushEntry_canon hu _ _ _ fun t => hleave hu t

theorem exitBody_canon {s : State} (h : s.Canon) (i : Iss) : (exitBody s i).Canon := by
  grind -linarith [exitBody, !Iss.illegal_canon, !Iss.retirePath_canon]

/-! ### System instructions (`Machine/System.lean`) -/

theorem setmodeBody_canon {s : State} (h : s.Canon) (i : Iss) : (setmodeBody s i).Canon := by
  grind -linarith [setmodeBody, !Iss.illegal_canon, !Iss.fin_canon, updGrp_mem]

theorem modeiBody_canon {s : State} (h : s.Canon) (i : Iss) : (modeiBody s i).Canon := by
  grind -linarith [modeiBody, !Iss.fin_canon, updGrp_mem, !Iss.illegal_canon]

theorem getmodeBody_canon {s : State} (h : s.Canon) (i : Iss) : (getmodeBody s i).Canon := Iss.finS_canon h ..

theorem srdBody_canon {s : State} (h : s.Canon) (i : Iss) : (srdBody s i).Canon := by
  grind -linarith [srdBody, Res.Canon, !Iss.finS_canon, !Iss.illegal_canon]

theorem swrBody_canon {s : State} (h : s.Canon) (i : Iss) : (swrBody s i).Canon := by
  grind -linarith [swrBody, Res.Canon, !Iss.illegal_canon, !Iss.fin_canon, updGrp_mem]

theorem vsrdBody_canon {s : State} (h : s.Canon) (i : Iss) : (vsrdBody s i).Canon := by
  grind -linarith [vsrdBody, Res.Canon, !Iss.illegal_canon, !Iss.fin_canon, updGrp_mem]

theorem trapBody_canon {s : State} (h : s.Canon) (i : Iss) : (trapBody s i).Canon := by
  grind -linarith [trapBody, Res.Canon]

theorem bkptBody_canon {s : State} (h : s.Canon) (i : Iss) : (bkptBody s i).Canon := by
  grind -linarith [bkptBody, Res.Canon]

theorem State.frameRead_mem (s : State) (a pa : Nat) : (s.frameRead a pa).2.mem = s.mem := by
  grind -linarith [frameRead, !chipRead_mem, noteRefused_mem]

theorem tretBody_canon {s : State} (h : s.Canon) (i : Iss) : (tretBody s i).Canon := by
  grind -linarith [tretBody, Res.Canon, !direct_canon, drainCore_canon, snoopBack_mem, !frameRead_mem, extAsk_canon, Iss.packet_canon,
    trapReturn_mem, arm_mem]

theorem haltBody_canon {s : State} (h : s.Canon) (i : Iss) : (haltBody s i).Canon := by
  grind -linarith [haltBody, Res.Canon, enterHalted_canon, updGrp_mem]

theorem Iss.armWait_canon {s : State} (h : s.Canon) (i : Iss) (k : Nat) (w : Option Wp) : (i.armWait s k w).Canon :=
  canon_of_mem (updGrp_mem ..) h

theorem wpsetBody_canon {s : State} (h : s.Canon) (i : Iss) : (wpsetBody s i).Canon := by
  grind -linarith [wpsetBody, Res.Canon, !Iss.fin_canon, !Iss.illegal_canon, !Iss.load_canon, !Iss.store_canon, !Iss.armWait_canon]

theorem wpclrBody_canon {s : State} (h : s.Canon) (i : Iss) : (wpclrBody s i).Canon := by
  grind -linarith [wpclrBody, !Iss.fin_canon, !Iss.armWait_canon]

theorem trcBody_canon {s : State} (h : s.Canon) (i : Iss) : (trcBody s i).Canon := by
  grind -linarith [trcBody, !Iss.fin_canon, Iss.packet_canon]

theorem ggetBody_canon {s : State} (h : s.Canon) (i : Iss) : (ggetBody s i).Canon := Iss.finS_canon h ..

theorem gputBody_canon {s : State} (h : s.Canon) (i : Iss) : (gputBody s i).Canon := by
  grind -linarith [gputBody, !Iss.fin_canon, updGrp_mem, !Iss.illegal_canon]

theorem mboxWait_canon {s : State} (h : s.Canon) (i : Iss) : (mboxWait s i).Canon := by
  grind -linarith [mboxWait, Res.Canon, !Iss.finS_canon, acquire_mem, arm_mem]

theorem mboxBody_canon {s : State} (h : s.Canon) (i : Iss) : (mboxBody s i).Canon := by
  grind -linarith [mboxBody, Res.Canon, !Iss.illegal_canon, !mboxWait_canon, !release_canon, write64_canon, updGrp_mem]

theorem perfrdBody_canon {s : State} (h : s.Canon) (i : Iss) : (perfrdBody s i).Canon := Iss.finS_canon h ..

theorem enrdBody_canon {s : State} (h : s.Canon) (i : Iss) : (enrdBody s i).Canon := by
  grind -linarith [enrdBody, !Iss.finS_canon, !Iss.illegal_canon]

theorem State.prefixWord_canon {s : State} (h : s.Canon) (a : Nat) (g : Group) (p : BitVec 21) : (s.prefixWord a g p).Canon := by
  grind -linarith [prefixWord, takeTrap_canon, updGrp_mem]

theorem State.badWord_canon {s : State} (h : s.Canon) (a : Nat) (g : Group) (cause : Nat) : (s.badWord a g cause).Canon :=
  takeTrap_canon h ..

/-! ### Scalar memory words (`Machine/ScalarMem.lean`) -/

theorem Iss.stepRead_canon {s : State} (h : s.Canon) (i : Iss) (scope : Nat) (c : Acc) (p : Place) (k : State → Nat → Res)
    (hk : ∀ t x, t.Canon → (k t x).Canon) : (i.stepRead s scope c p k).Canon := by
  grind -linarith [Iss.stepRead, Res.Canon, !readPlace_canon, takeEntries_mem]

theorem Iss.stepLoad_canon {s : State} (h : s.Canon) (i : Iss) (scope : Nat) (ps : List (Acc × Place)) (k : State → Nat → Res)
    (hk : ∀ t x, t.Canon → (k t x).Canon) : (i.stepLoad s scope ps k).Canon := by
  unfold Iss.stepLoad
  grind -linarith [Res.Canon, → shut_canon, !Iss.stepRead_canon, !Iss.askExt_canon]

theorem loadBody_canon {s : State} (h : s.Canon) (n : Nat) (signed acq scr : Bool) (i : Iss) : (loadBody n signed acq scr s i).Canon := by
  grind -linarith [loadBody, updGrp_mem, !Iss.memDone_canon, acquire_mem, !Iss.guarded_canon, !Iss.stepLoad_canon, !Iss.load_canon]

theorem storeBody_canon {s : State} (h : s.Canon) (n : Nat) (rel scr : Bool) (i : Iss) : (storeBody n rel scr s i).Canon := by
  grind -linarith [storeBody, Res.Canon, !Iss.guarded_canon, !Iss.memDone_canon, updGrp_mem, !release_canon, !Iss.store_canon]

theorem fenceBody_canon {s : State} (h : s.Canon) (i : Iss) : (fenceBody s i).Canon := by
  grind -linarith [fenceBody, Res.Canon, !Iss.fin_canon, acquire_mem, !release_canon]

theorem waitvBody_canon {s : State} (h : s.Canon) (i : Iss) : (waitvBody s i).Canon := by
  grind -linarith [waitvBody, Res.Canon, !Iss.guarded_canon, !Iss.load_canon, settleOwn_canon, updGrp_mem, !Iss.memDone_canon, acquire_mem,
    arm_mem]

theorem atomBody_canon {s : State} (h : s.Canon) (op : AtomOp) (i : Iss) : (atomBody op s i).Canon := by
  grind -linarith [atomBody, !Iss.atomics_canon, !Iss.memDone_canon, updGrp_mem]

/-! ### Scalar integer words (`Machine/Scalar.lean`) -/

theorem scalarAB_canon {s : State} (h : s.Canon) (f : BitVec 64 → BitVec 64 → BitVec 64) (i : Iss) : (scalarAB f s i).Canon :=
  Iss.finS_canon h ..

theorem scalarAI_canon {s : State} (h : s.Canon) (f : BitVec 64 → BitVec 64 → BitVec 64) (i : Iss) : (scalarAI f s i).Canon :=
  Iss.finS_canon h ..

theorem scalarA_canon {s : State} (h : s.Canon) (f : BitVec 64 → BitVec 64) (i : Iss) : (scalarA f s i).Canon := Iss.finS_canon h ..
theorem selectBody_canon {s : State} (h : s.Canon) (i : Iss) : (selectBody s i).Canon := Iss.finS_canon h ..
theorem loadImmBody_canon {s : State} (h : s.Canon) (i : Iss) : (loadImmBody s i).Canon := Iss.finS_canon h ..

/-! ### Vector integer words (`Machine/VecInt.lean`) -/

theorem Iss.vecOut_canon {s : State} (h : s.Canon) (i : Iss) (f : Nat → Nat) : (i.vecOut s f).Canon := by
  grind -linarith [Iss.vecOut, !Iss.fin_canon, updGrp_mem]

theorem elementwise_canon {s : State} (h : s.Canon) (f : Iss → Nat → Nat → Nat → Nat) (i : Iss) : (elementwise f s i).Canon :=
  Iss.vecOut_canon h ..

theorem wholeLane_canon {s : State} (h : s.Canon) (f : Nat → Nat → Nat) (i : Iss) : (wholeLane f s i).Canon := Iss.vecOut_canon h ..

theorem Iss.predOut_canon {s : State} (h : s.Canon) (i : Iss) (f : Nat → Bool) : (i.predOut s f).Canon := by
  grind -linarith [Iss.predOut, !Iss.fin_canon, updGrp_mem]

theorem compareAll_canon {s : State} (h : s.Canon) (p : Iss → Nat → Nat → Bool) (i : Iss) : (compareAll p s i).Canon :=
  Iss.predOut_canon h ..

theorem shiftImm_canon {s : State} (h : s.Canon) (f : Nat → Nat → Nat → Nat) (i : Iss) : (shiftImm f s i).Canon := by
  grind -linarith [shiftImm, !Iss.illegal_canon, !elementwise_canon]

/-! ### Vector memory words (`Machine/VecMem.lean`) -/

@[simp] theorem Iss.putLanes_mem (i : Iss) (s : State) (z n : Nat) (vs : List Nat) : (i.putLanes s z n vs).mem = s.mem := rfl

theorem vecLoad_canon {s : State} (h : s.Canon) (z : Nat) (acq scr : Bool) (i : Iss) : (vecLoad z acq scr s i).Canon := by
  grind -linarith [vecLoad, !Iss.load_canon, Iss.putLanes_mem, !Iss.memDone_canon, acquire_mem]

theorem Iss.storeAll_canon {s : State} (h : s.Canon) (i : Iss) (rel : Bool) (cs : List Acc) : (i.storeAll s rel cs).Canon := by
  grind -linarith [Iss.storeAll, Res.Canon, !Iss.guarded_canon, !release_canon, !Iss.storeJoined_canon, !Iss.memDone_canon]

theorem vecStore_canon {s : State} (h : s.Canon) (z : Nat) (rel scr : Bool) (i : Iss) : (vecStore z rel scr s i).Canon :=
  Iss.storeAll_canon h ..

theorem rowLoad_canon {s : State} (h : s.Canon) (i : Iss) : (rowLoad s i).Canon := by
  grind -linarith [rowLoad, !Iss.load_canon, !Iss.memDone_canon, Iss.putLanes_mem]

theorem rowStore_canon {s : State} (h : s.Canon) (i : Iss) : (rowStore s i).Canon := Iss.storeAll_canon h ..

theorem Iss.mxChecked_canon {s : State} (h : s.Canon) (i : Iss) (kind : Access) (scr : Bool) (k : State → List Acc → Res)
    (hk : ∀ t x, t.Canon → (k t x).Canon) : (i.mxChecked s kind scr k).Canon := by
  grind -linarith [Iss.mxChecked, Res.Canon, !Iss.guarded_canon]

theorem mxLoad_canon {s : State} (h : s.Canon) (scr : Bool) (i : Iss) : (mxLoad scr s i).Canon := by
  grind -linarith [mxLoad, !Iss.mxChecked_canon, !Iss.load_canon, updGrp_mem, !Iss.memDone_canon]

theorem mxStore_canon {s : State} (h : s.Canon) (scr : Bool) (i : Iss) : (mxStore scr s i).Canon := by
  grind -linarith [mxStore, !Iss.mxChecked_canon, !Iss.storeMx_canon, !Iss.memDone_canon]

theorem State.prefetch_canon {s : State} (h : s.Canon) (i : Iss) (va : Nat) : (s.prefetch i va).Canon := by
  grind -linarith [prefetch, l1Ensure_canon, addMiss_mem]

theorem prefetchBody_canon {s : State} (h : s.Canon) (i : Iss) : (prefetchBody s i).Canon := by
  grind -linarith [prefetchBody, !Iss.memDone_canon, prefetch_canon, foldl_canon]

theorem vatomBody_canon {s : State} (h : s.Canon) (op : AtomOp) (i : Iss) : (vatomBody op s i).Canon := by
  grind -linarith [vatomBody, !Iss.atomics_canon, !Iss.memDone_canon, Iss.putLanes_mem]

theorem redstBody_canon {s : State} (h : s.Canon) (op : AtomOp) (i : Iss) : (redstBody op s i).Canon := by
  grind -linarith [redstBody, !Iss.reduces_canon, !Iss.memDone_canon]

theorem redstCell_canon {s : State} (h : s.Canon) (i : Iss) : (redstCell s i).Canon := by
  grind -linarith [redstCell, !Iss.reduces_canon, !Iss.memDone_canon]

/-! ### Lace table entries and their walk (`Machine/Engine.lean`) -/

theorem State.runNoted_mem (s : State) (w : Walker) (k : Access) (pa n : Nat) : (s.runNoted w k pa n).2.mem = s.mem := by
  grind -linarith [runNoted, noteRefused_mem]

theorem State.walkShut_canon {s : State} (h : s.Canon) (w : Walker) (ps : List (Run × Place)) {r : UnitRes}
    (hr : s.walkShut w ps = some r) : r.Canon := by
  obtain ⟨y, -, rfl⟩ := Option.map_eq_some_iff.mp hr
  grind -linarith [UnitRes.Canon, snoopBack_mem]

theorem State.runCheck_canon {s : State} (h : s.Canon) (w : Walker) (b : Option Block) (k : Access) (r : Run) :
    (s.runCheck w b k r).2.Canon := by
  grind -linarith [runCheck, !runNoted_mem, !direct_canon]

theorem runPlaces_canon {s : State} (h : s.Canon) (w : Walker) (b : Option Block) (k : Access) (rs : List Run) :
    match runPlaces w b k rs s with
    | .ok x => x.2.Canon
    | .error r => r.Canon := by
  induction rs generalizing s with
  | nil => exact h
  | cons r rs ih => grind -linarith [runPlaces, UnitRes.Canon, !runCheck_canon]

theorem State.runRead_mem (s : State) (w : Walker) (r : Run) (p : Place) : (s.runRead w r p).2.2.mem = s.mem := by
  cases p with
  | mem pa => simp only [runRead, touchHome_mem]
  | chip pa =>
    have hkeep (x : Nat × State) (hx : x.2.mem = s.mem) :
        ((x.1, x.2.chipBad pa r.n, x.2) : Nat × Bool × State).2.2.mem = s.mem := hx
    rw [runRead]
    exact hkeep _ (s.chipRead_mem pa r.n)
  | scr c off => rfl
  | ext pa => grind -linarith [runRead, noteRefused_mem]

theorem runReads_canon {s : State} (h : s.Canon) (w : Walker) (ps : List (Run × Place)) :
    match runReads w ps s with
    | .ok x => x.2.Canon
    | .error r => r.Canon := by
  induction ps generalizing s with
  | nil => exact h
  | cons r rs ih => grind -linarith [runReads, UnitRes.Canon, !runRead_mem]

theorem State.fetchRuns_canon {s : State} (h : s.Canon) (w : Walker) (b : Option Block) (rs : List Run) :
    match s.fetchRuns w b rs with
    | .ok x => x.2.Canon
    | .error r => r.Canon := by
  grind -linarith [fetchRuns, UnitRes.Canon, !runPlaces_canon, → walkShut_canon, !runReads_canon, extAsk_canon, foldl_canon]

theorem State.runWrite_canon {s : State} (h : s.Canon) (w : Walker) (r : Run) (p : Place) : (s.runWrite w r p).Canon := by
  unfold runWrite
  grind -linarith [performBytes_canon, l1Drop_mem, chipWrite_mem, scrWrite_mem, performWrite_canon]

theorem State.storeRuns_canon {s : State} (h : s.Canon) (w : Walker) (b : Option Block) (rs : List Run) :
    match s.storeRuns w b rs with
    | .ok x => x.Canon
    | .error r => r.Canon := by
  grind -linarith [storeRuns, UnitRes.Canon, !runPlaces_canon, → walkShut_canon, runWrite_canon, foldl_canon]

@[simp] theorem State.usedReplies_mem (s : State) (w : Walker) : (s.usedReplies w).mem = s.mem := rfl

theorem State.unitStores_canon {s : State} (h : s.Canon) (w : Walker) (b : Option Block) (e : LEntry) (u row : Nat) :
    (s.unitStores w b e u row).Canon := by
  grind -linarith [unitStores, UnitRes.Canon, !storeRuns_canon, usedReplies_mem]

theorem State.unitRun_canon {s : State} (h : s.Canon) (w : Walker) (b : Option Block) (e : LEntry) (u : Nat) :
    (s.unitRun w b e u).Canon := by
  grind -linarith [unitRun, drainCore_canon, !fetchRuns_canon, !unitStores_canon]

@[simp] theorem State.endCmd_mem (s : State) (core l : Nat) (k : LCmd) : (s.endCmd core l k).mem = s.mem := rfl

@[simp] theorem State.chargeLacer_mem (s : State) (core : Nat) (k : LCmd) : (s.chargeLacer core k).mem = s.mem := by
  grind -linarith [chargeLacer, updGrp_mem, updBlk_mem, countUp_mem, updCore_mem]

/-! ### Running graphs (`Machine/Marionette.lean`) -/

theorem State.ctxRead_canon {s : State} (h : s.Canon) (c va n : Nat) : (s.ctxRead c va n).Canon := by
  grind -linarith [ctxRead, CRes.Canon, !direct_canon, touchHome_mem, noteRefused_mem, extAsk_canon]

theorem State.ctxReads_canon {s : State} (h : s.Canon) (c : Nat) (vas : List (Nat × Nat)) : (s.ctxReads c vas).Canon := by
  induction vas generalizing s with
  | nil => exact h
  | cons x rest ih => grind -linarith [ctxReads, CReads.Canon, CRes.Canon, !ctxRead_canon]

theorem State.ctxWrite_canon {s : State} (h : s.Canon) (c va n data : Nat) (count : Bool) : (s.ctxWrite c va n data count).Canon := by
  grind -linarith [ctxWrite, CRes.Canon, !direct_canon, performBytes_canon, performWrite_canon]

@[simp] theorem State.partDone_mem (s : State) : s.partDone.mem = s.mem := rfl
@[simp] theorem State.updGraph_mem (s : State) (g : Nat) (f : Graph → Graph) : (s.updGraph g f).mem = s.mem := rfl
@[simp] theorem State.updNode_mem (s : State) (g n : Nat) (f : Node → Node) : (s.updNode g n f).mem = s.mem := rfl

@[simp] theorem State.partUsed_mem (s : State) (c va : Nat) : (s.partUsed c va).mem = s.mem := by
  unfold partUsed
  split <;> rfl

theorem State.recordWrite_canon {s : State} (h : s.Canon) (c va : Nat) (mask val : BitVec 64) : (s.recordWrite c va mask val).2.Canon := by
  grind -linarith [recordWrite, CRes.Canon, !ctxRead_canon, faultCtx_canon, partUsed_mem, !ctxWrite_canon]

theorem State.marWrite_canon {s : State} (h : s.Canon) (c va : Nat) (mask val : BitVec 64) : (s.marWrite c va mask val).Canon := by
  grind -linarith [marWrite, !recordWrite_canon]

theorem State.retryRecords_canon {s : State} (h : s.Canon) : s.retryRecords.Canon := by
  grind -linarith [retryRecords, marWrite_canon, foldl_canon]

theorem State.marChange_canon {s : State} (h : s.Canon) (c va : Nat) (mask old new : BitVec 64) :
    (s.marChange c va mask old new).Canon := by
  grind -linarith [marChange, marWrite_canon]

theorem State.putNode_canon {s : State} (h : s.Canon) (g n : Nat) (new : Node) : (s.putNode g n new).Canon := by
  grind -linarith [putNode, updGraph_mem, marChange_canon]

theorem State.nodeWord_canon {s : State} (h : s.Canon) (g n off : Nat) (v : BitVec 64) : (s.nodeWord g n off v).Canon := by
  grind -linarith [nodeWord, marWrite_canon]

theorem State.putGraph_canon {s : State} (h : s.Canon) (g : Nat) (new : Graph) : (s.putGraph g new).Canon := by
  grind -linarith [putGraph, marChange_canon]

theorem State.token_canon {s : State} (h : s.Canon) (g n : Nat) : (s.token g n).Canon := by
  grind -linarith [token, putNode_canon]

theorem State.sendTokens_canon {s : State} (h : s.Canon) (g n : Nat) : (s.sendTokens g n).Canon := by
  grind -linarith [sendTokens, token_canon, putNode_canon, foldl_canon]

theorem State.walkAppend_canon {s : State} (h : s.Canon) (g n : Nat) : (s.walkAppend g n).Canon := by
  grind -linarith [walkAppend, putNode_canon, putGraph_canon]

theorem State.startWalk_canon {s : State} (h : s.Canon) (g n : Nat) : (s.startWalk g n).Canon := by
  grind -linarith [startWalk, walkAppend_canon, foldl_canon]

@[simp] theorem State.discardGrid_mem (s : State) (grid : Nat) : (s.discardGrid grid).mem = s.mem := rfl
@[simp] theorem State.setGrid_mem (s : State) (grid : Nat) (st : GridState) : (s.setGrid grid st).mem = s.mem := rfl
theorem State.nodeDoneClk_canon {s : State} (h : s.Canon) (g n : Nat) : (s.nodeDoneClk g n).Canon := nodeWord_canon h ..

theorem State.markRoot_canon {s : State} (h : s.Canon) (g n : Nat) : (s.markRoot g n).Canon := by
  grind -linarith [markRoot, putGraph_canon]

theorem State.cancelChildren_canon {s : State} (h : s.Canon) (st fuel g : Nat) : (s.cancelChildren st fuel g).Canon := by
  induction fuel generalizing s g with
  | zero => exact h
  | succ fuel ih =>
    rw [cancelChildren]
    split
    · exact h
    · refine foldl_canon (fun u n hu => ?_) _ (putGraph_canon h ..)
      grind -linarith [nodeDoneClk_canon, putNode_canon, setGrid_mem]

theorem State.coneVisit_canon {s : State} (h : s.Canon) (g n st : Nat) : (s.coneVisit g n st).Canon := by
  grind -linarith [coneVisit, nodeDoneClk_canon, putNode_canon, setGrid_mem, cancelChildren_canon]

theorem State.haltGraph_canon {s : State} (h : s.Canon) (g n : Nat) : (s.haltGraph g n).Canon := by
  grind -linarith [haltGraph, coneVisit_canon, putGraph_canon, startWalk_canon, foldl_canon]

theorem State.faultPolicy_canon {s : State} (h : s.Canon) (g n policy : Nat) : (s.faultPolicy g n policy).Canon := by
  grind -linarith [faultPolicy, updGraph_mem, startWalk_canon, markRoot_canon]

theorem State.faultNow_canon {s : State} (h : s.Canon) (g n cause : Nat) : (s.faultNow g n cause).Canon := by
  grind -linarith [faultNow, putNode_canon, faultPolicy_canon, nodeDoneClk_canon]

theorem State.nodeFault_canon {s : State} (h : s.Canon) (g n cause : Nat) : (s.nodeFault g n cause).Canon := by
  grind -linarith [nodeFault, discardGrid_mem, setGrid_mem, updNode_mem, faultNow_canon, disarm_mem]

theorem State.recordTime_canon {s : State} (h : s.Canon) (g n : Nat) (x : Node) : (s.recordTime g n x).Canon := by
  grind -linarith [recordTime, updNode_mem, marWrite_canon]

theorem State.recordPlacement_canon {s : State} (h : s.Canon) (x : Node) : (s.recordPlacement x).Canon := by
  grind -linarith [recordPlacement, marWrite_canon, foldl_canon]

theorem State.nodeFinish_canon {s : State} (h : s.Canon) (g n : Nat) : (s.nodeFinish g n).Canon := by
  grind -linarith [nodeFinish, disarm_mem, nodeDoneClk_canon, putNode_canon, recordPlacement_canon, recordTime_canon, sendTokens_canon]

theorem State.nextLseq_mem (s : State) : s.nextLseq.2.mem = s.mem := rfl

/-! ### Grids, clusters and blocks (`Machine/Kernel.lean`) -/

theorem State.admitBlock_mem (s : State) (core grid cl bid rank : Nat) (k : Grid) (p : Nat × Nat × Option (Nat × Nat)) :
    (s.admitBlock core grid cl bid rank k p).2.mem = s.mem :=
  rfl

theorem packRanks_mem (grid : Nat) (k : Grid) (fuel : Nat) (s : State) (cs : List Nat) (n : Nat) :
    (packRanks grid k fuel s cs n).2.mem = s.mem := by
  fun_induction packRanks <;> grind -linarith [admitBlock_mem]

theorem State.packDie_canon {s : State} (h : s.Canon) (die n grid : Nat) (k : Grid) {x : List Nat × State}
    (hx : s.packDie die n grid k = some x) : x.2.Canon := by
  grind -linarith [packDie, !packRanks_mem]

theorem admitAll_mem (grid cl : Nat) (k : Grid) (rs : List (Nat × Nat)) (s : State) : (admitAll grid cl k rs s).2.mem = s.mem := by
  fun_induction admitAll <;> grind -linarith [admitBlock_mem]

@[simp] theorem State.admitCluster_mem (s : State) (grid : Nat) (k : Grid) (cores : List Nat) :
    (s.admitCluster grid k cores).mem = s.mem := by
  grind -linarith [admitCluster, !fresh_mem, !admitAll_mem, updGrid_mem]

@[simp] theorem State.offer_mem (s : State) (die : Nat) : (s.offer die).mem = s.mem := by
  grind -linarith [offer, setDie_mem, admitCluster_mem, updGrid_mem]

@[simp] theorem State.reserve_mem (s : State) (grid : Nat) : (s.reserve grid).mem = s.mem := by
  grind -linarith [reserve, updGrid_mem]

theorem State.doRecut_canon {s : State} (h : s.Canon) (core : Nat) : (s.doRecut core).Canon := by
  grind -linarith [doRecut, drainCore_canon, updCore_mem]

@[simp] theorem State.launch_mem (s : State) (block : Nat) : (s.launch block).mem = s.mem := by
  unfold launch
  split <;> rfl

@[simp] theorem State.freeSlot_mem (s : State) (a : Nat) : (s.freeSlot a).mem = s.mem := by
  grind -linarith [freeSlot, leaveSlot_mem, dropWaits_mem]

@[simp] theorem State.freeBlock_mem (s : State) (block : Nat) : (s.freeBlock block).mem = s.mem := by
  have hslots (l : List Nat) : (l.foldl freeSlot s).mem = s.mem := foldl_mem freeSlot_mem l s
  grind -linarith [freeBlock, updCore_mem]

theorem State.drainEnd_canon {s : State} (h : s.Canon) (c : Nat) : (s.drainEnd c).Canon := by
  grind -linarith [drainEnd, updCtx_mem, setCtxState_canon]

theorem State.blockExit_canon {s : State} (h : s.Canon) (block : Nat) : (s.blockExit block).Canon := by
  grind -linarith [blockExit, drainCore_canon, accDrain_mem, updCtx_mem, freeBlock_mem, mark_mem, drainMarks_canon, drainEnd_canon,
    foldl_canon]

/-! ### Events at barriers (`Machine/BarEv.lean`) -/

theorem State.applyBatch_canon {s : State} (h : s.Canon) (x : BarId) : (s.applyBatch x).Canon := by
  grind -linarith [applyBatch, applyHeld_canon, foldl_canon]

@[simp] theorem State.exchangeHalves_mem (s : State) (x : BarId) : (s.exchangeHalves x).mem = s.mem := by
  unfold exchangeHalves
  split <;> rfl

@[simp] theorem State.moveObject_mem (s : State) (c old pa : Nat) : (s.moveObject c old pa).mem = s.mem := rfl

@[simp] theorem State.followObjects_mem (s : State) : s.followObjects.mem = s.mem := by
  unfold followObjects
  exact foldl_mem (fun s _ => s.moveObject_mem ..) _ s

@[simp] theorem State.tickDogs_mem (s : State) : s.tickDogs.mem = s.mem := rfl

@[simp] theorem State.dogRestart_mem (s : State) (x : BarId) : (s.dogRestart x).mem = s.mem := by
  cases x <;> grind -linarith [dogRestart, setBar_mem]

@[simp] theorem State.giveFate_mem (s : State) (x : BarId) (t : BitVec 32) (f : Fate) : (s.giveFate x t f).mem = s.mem := rfl

@[simp] theorem State.dogExpire_mem (s : State) (x : BarId) : (s.dogExpire x).mem = s.mem := by
  grind -linarith [dogExpire, dogRestart_mem, giveFate_mem]

@[simp] theorem State.collect_mem (s : State) (check slice : Nat) : (s.collect check slice).mem = s.mem := by
  unfold collect
  split <;> rfl

theorem State.recordFailures_canon {s : State} (h : s.Canon) (pa : Nat) (bad : List (Nat × Nat)) : (s.recordFailures pa bad).Canon := by
  grind -linarith [recordFailures, write64_canon, objAdvance_canon, setObjFlags_canon]

@[simp] theorem State.trapAction_mem (s : State) (pa : Nat) (bad : List (Nat × Nat)) (phase : Nat) (trap : Bool) :
    (s.trapAction pa bad phase trap).mem = s.mem := by
  unfold trapAction
  split <;> rfl

theorem State.judge_canon {s : State} (h : s.Canon) (check : Nat) : (s.judge check).Canon := by
  grind -linarith [judge, !evalAll_canon, trapAction_mem, recordFailures_canon, faultCtx_canon]

/-! ### Barrier instructions (`Machine/Barrier.lean`) -/

@[simp] theorem State.objDog_mem (s : State) (x : BarId) : (s.objDog x).mem = s.mem := by
  cases x <;> grind -linarith [objDog]

theorem Iss.waitPhase_canon {s : State} (h : s.Canon) (i : Iss) (x : BarId) (scope : Nat) (va : BitVec 64) (dest : Bool) (t : BitVec 32) :
    (i.waitPhase s x scope va dest t).Canon := by
  unfold Iss.waitPhase
  grind -linarith [Res.Canon, acquire_mem, updGrp_mem, !Iss.fin_canon, objDog_mem]

theorem Iss.arriveOnce_canon {s : State} (h : s.Canon) (i : Iss) (x : BarId) (scope : Nat) (va : BitVec 64) (act : BarAct)
    (w : Option PhaseWait) (k : State → BitVec 32 → Res) (hk : ∀ t x, t.Canon → (k t x).Canon) :
    (i.arriveOnce s x scope va act w k).Canon := by
  grind -linarith [Iss.arriveOnce, Res.Canon, !release_canon, reach_mem]

theorem Iss.arriveOnly_canon {s : State} (h : s.Canon) (i : Iss) (x : BarId) (scope : Nat) (va : BitVec 64) (act : BarAct) :
    (i.arriveOnly s x scope va act).Canon := by
  unfold Iss.arriveOnly
  grind -linarith [!Iss.fin_canon, reach_mem, !release_canon, !Iss.arriveOnce_canon, updGrp_mem]

theorem Iss.arriveWait_canon {s : State} (h : s.Canon) (i : Iss) (x : BarId) (scope : Nat) (va : BitVec 64) :
    (i.arriveWait s x scope va).Canon := by
  grind -linarith [Iss.arriveWait, !Iss.arriveOnce_canon, !Iss.waitPhase_canon]

theorem baraBody_canon {s : State} (h : s.Canon) (i : Iss) : (baraBody s i).Canon := Iss.arriveOnly_canon h ..
theorem barawBody_canon {s : State} (h : s.Canon) (i : Iss) : (barawBody s i).Canon := Iss.arriveWait_canon h ..
theorem bardBody_canon {s : State} (h : s.Canon) (i : Iss) : (bardBody s i).Canon := Iss.arriveOnly_canon h ..

theorem barwBody_canon {s : State} (h : s.Canon) (i : Iss) : (barwBody s i).Canon := by
  grind -linarith [barwBody, !Iss.illegal_canon, !Iss.waitPhase_canon]

theorem barxBody_canon {s : State} (h : s.Canon) (i : Iss) : (barxBody s i).Canon := by
  grind -linarith [barxBody, !Iss.illegal_canon, !Iss.fin_canon, reach_mem]

theorem barqBody_canon {s : State} (h : s.Canon) (i : Iss) : (barqBody s i).Canon := by
  grind -linarith [barqBody, !Iss.finS_canon]

theorem Iss.withObject_canon {s : State} (h : s.Canon) (i : Iss) (kind : Access) (take : Bool) (va : BitVec 64) (k : State → Nat → Res)
    (hk : ∀ t x, t.Canon → (k t x).Canon) : (i.withObject s kind take va k).Canon := by
  grind -linarith [Iss.withObject, Res.Canon, !Iss.guarded_canon, drainCore_canon, snoopBack_mem]

theorem barmaBody_canon {s : State} (h : s.Canon) (i : Iss) : (barmaBody s i).Canon := by
  grind -linarith [barmaBody, !Iss.withObject_canon, !Iss.arriveOnly_canon]

theorem barmawBody_canon {s : State} (h : s.Canon) (i : Iss) : (barmawBody s i).Canon := by
  grind -linarith [barmawBody, !Iss.withObject_canon, !Iss.arriveWait_canon]

theorem barmdBody_canon {s : State} (h : s.Canon) (i : Iss) : (barmdBody s i).Canon := by
  grind -linarith [barmdBody, !Iss.withObject_canon, !Iss.arriveOnly_canon]

theorem barmwBody_canon {s : State} (h : s.Canon) (i : Iss) : (barmwBody s i).Canon := by
  grind -linarith [barmwBody, !Iss.withObject_canon, !Iss.illegal_canon, !Iss.waitPhase_canon]

theorem barmxBody_canon {s : State} (h : s.Canon) (i : Iss) : (barmxBody s i).Canon := by
  grind -linarith [barmxBody, !Iss.withObject_canon, !Iss.illegal_canon, !Iss.fin_canon, reach_mem]

theorem barmqBody_canon {s : State} (h : s.Canon) (i : Iss) : (barmqBody s i).Canon := by
  grind -linarith [barmqBody, !Iss.withObject_canon, !Iss.finS_canon, acquire_mem]

/-! ### Capsule instructions (`Machine/Capsule.lean`) -/

theorem Iss.withLine_canon {s : State} (h : s.Canon) (i : Iss) (kind : Access) (k : State → Nat → Res)
    (hk : ∀ t x, t.Canon → (k t x).Canon) : (i.withLine s kind k).Canon := by
  grind -linarith [Iss.withLine, Res.Canon, !Iss.guarded_canon, drainMarks_canon, drainCore_canon, snoopBack_mem]

theorem Iss.lastOfClock_canon {s : State} (h : s.Canon) (i : Iss) (k : Res) (hk : k.Canon) : (i.lastOfClock s k).Canon := by
  unfold lastOfClock
  split
  · exact hk
  · exact h

theorem capbBody_canon {s : State} (h : s.Canon) (i : Iss) : (capbBody s i).Canon := by
  grind -linarith [capbBody, Res.Canon, !Iss.lastOfClock_canon, !Iss.withLine_canon, !capAcquire_canon, !Iss.finS_canon, updGrp_mem,
    acquire_mem, !Iss.jump_canon, countUp_mem, arm_mem]

theorem caprBody_canon {s : State} (h : s.Canon) (i : Iss) : (caprBody s i).Canon := by
  grind -linarith [caprBody, Res.Canon, !Iss.lastOfClock_canon, !Iss.withLine_canon, settleLine_canon, !Iss.finS_canon, acquire_mem]

theorem Iss.commit_canon {s : State} (h : s.Canon) (i : Iss) (last : Bool) (done : State → Res) (hdone : ∀ t, t.Canon → (done t).Canon) :
    (i.commit s last done).Canon := by
  grind -linarith [Iss.commit, Res.Canon, !release_canon, settleLine_canon, !capCommit_canon]

theorem capsBody_canon {s : State} (h : s.Canon) (i : Iss) : (capsBody s i).Canon := by
  grind -linarith [capsBody, !Iss.commit_canon, !Iss.fin_canon, updGrp_mem]

theorem capeBody_canon {s : State} (h : s.Canon) (i : Iss) : (capeBody s i).Canon := by
  grind -linarith [capeBody, !Iss.commit_canon, updGrp_mem, !Iss.fin_canon, !Iss.jump_canon]

/-! ### Moves, permutes, predicates, reductions (`Machine/VecMove.lean`) -/

theorem moveLanes_canon {s : State} (h : s.Canon) (m : Iss → Nat → Nat) (i : Iss) : (moveLanes m s i).Canon := by
  grind -linarith [moveLanes, !Iss.fin_canon, updGrp_mem]

theorem byIndex_canon {s : State} (h : s.Canon) (f : Iss → Nat → Nat → Nat) (i : Iss) : (byIndex f s i).Canon := Iss.vecOut_canon h ..

theorem vinsBody_canon {s : State} (h : s.Canon) (i : Iss) : (vinsBody s i).Canon := by
  grind -linarith [vinsBody, !Iss.illegal_canon, !Iss.fin_canon, updGrp_mem]

theorem vrotlBody_canon {s : State} (h : s.Canon) (i : Iss) : (vrotlBody s i).Canon := by
  grind -linarith [vrotlBody, !Iss.illegal_canon, !elementwise_canon]

theorem vpackBody_canon {s : State} (h : s.Canon) (i : Iss) : (vpackBody s i).Canon := Iss.vecOut_canon h ..

theorem Iss.pairOut_canon {s : State} (h : s.Canon) (i : Iss) (et : Nat) (f : Nat → List Nat) : (i.pairOut s et f).Canon := by
  grind -linarith [Iss.pairOut, !Iss.fin_canon, updGrp_mem]

theorem vunpkBody_canon {s : State} (h : s.Canon) (i : Iss) : (vunpkBody s i).Canon := Iss.pairOut_canon h ..
theorem vzipBody_canon {s : State} (h : s.Canon) (i : Iss) : (vzipBody s i).Canon := Iss.pairOut_canon h ..
theorem vunzipBody_canon {s : State} (h : s.Canon) (i : Iss) : (vunzipBody s i).Canon := Iss.pairOut_canon h ..

theorem predAB_canon {s : State} (h : s.Canon) (f : BitVec 8 → BitVec 8 → BitVec 8) (i : Iss) : (predAB f s i).Canon := by
  grind -linarith [predAB, !Iss.fin_canon, updGrp_mem]

theorem pmovBody_canon {s : State} (h : s.Canon) (i : Iss) : (pmovBody s i).Canon := by
  grind -linarith [pmovBody, !Iss.illegal_canon, !Iss.fin_canon, updGrp_mem]

theorem pgetBody_canon {s : State} (h : s.Canon) (i : Iss) : (pgetBody s i).Canon := Iss.finS_canon h ..

theorem Iss.reduceOut_canon {s : State} (h : s.Canon) (i : Iss) (value : BitVec 64) (flags : FpFlags) (g : Group) :
    (i.reduceOut s value flags g).Canon := by
  grind -linarith [Iss.reduceOut, Res.Canon, !Iss.finG_canon]

theorem vredAddBody_canon {s : State} (h : s.Canon) (i : Iss) : (vredAddBody s i).Canon := by
  grind -linarith [vredAddBody, !Iss.reduceOut_canon]

theorem vredPickBody_canon {s : State} (h : s.Canon) (greater : Bool) (i : Iss) : (vredPickBody greater s i).Canon := by
  grind -linarith [vredPickBody, !Iss.reduceOut_canon]

theorem vredBitsBody_canon {s : State} (h : s.Canon) (all : Bool) (i : Iss) : (vredBitsBody all s i).Canon := Iss.reduceOut_canon h ..

theorem Iss.floatOut_canon {s : State} (h : s.Canon) (i : Iss) (outs : List (Nat × LaneOut)) (write : Group → Nat → Nat → Group) :
    (i.floatOut s outs write).Canon := by
  grind -linarith [Iss.floatOut, Res.Canon, !Iss.fin_canon, updGrp_mem]

theorem vredlBody_canon {s : State} (h : s.Canon) (i : Iss) : (vredlBody s i).Canon := by
  grind -linarith [vredlBody, !Iss.vecOut_canon, !Iss.floatOut_canon]

theorem vscanBody_canon {s : State} (h : s.Canon) (i : Iss) : (vscanBody s i).Canon := by
  grind -linarith [vscanBody, !Iss.vecOut_canon, !Iss.floatOut_canon]

theorem ygetBody_canon {s : State} (h : s.Canon) (i : Iss) : (ygetBody s i).Canon := by
  grind -linarith [ygetBody, Res.Canon, !Iss.finS_canon]

theorem yseqBody_canon {s : State} (h : s.Canon) (i : Iss) : (yseqBody s i).Canon := Iss.finS_canon h ..

/-! ### Floating-point words (`Machine/Float.lean`) -/

theorem arith_canon {s : State} (h : s.Canon) (f : ExactOp) (i : Iss) : (arith f s i).Canon := Iss.floatOut_canon h ..

theorem frndBody_canon {s : State} (h : s.Canon) (i : Iss) : (frndBody s i).Canon := by
  grind -linarith [frndBody, !Iss.fin_canon, updGrp_mem]

/-! ### Accumulator words (`Machine/Tile.lean`) -/

theorem Iss.accDone_canon {s : State} (h : s.Canon) (i : Iss) (cls : Nat) : (i.accDone s cls).Canon := by
  grind -linarith [Iss.accDone, Res.Canon]

theorem Iss.bound_canon {s : State} (h : s.Canon) (i : Iss) (f : Nat) (k : Nat → Nat → Res) (hk : ∀ x y, (k x y).Canon) :
    (i.bound s f k).Canon := by
  grind -linarith [Iss.bound, Res.Canon]

@[simp] theorem Iss.accept_mem (i : Iss) (s : State) (cls first : Nat) (w : AccWork) : (i.accept s cls first w).mem = s.mem := rfl

theorem Iss.withRoom_canon {s : State} (h : s.Canon) (i : Iss) (k : Res) (hk : k.Canon) : (i.withRoom s k).Canon := by
  grind -linarith [Iss.withRoom, Res.Canon]

theorem Iss.reading_canon {s : State} (h : s.Canon) (i : Iss) (cls first : Nat) (w : AccWork) (n : Nat) :
    (i.reading s cls first w n).Canon := by
  grind -linarith [Iss.reading, Res.Canon, !Iss.withRoom_canon, !Iss.accDone_canon, Iss.accept_mem]

theorem Iss.writeTile_canon {s : State} (h : s.Canon) (i : Iss) (f cls : Nat) (k : State → Nat → Nat → Res)
    (hk : ∀ t x y, t.Canon → (k t x y).Canon) : (i.writeTile s f cls k).Canon := by
  grind -linarith [Iss.writeTile, Res.Canon, !Iss.withRoom_canon, updGrp_mem, setCore_mem]

theorem Iss.releaseHandle_canon {s : State} (h : s.Canon) (i : Iss) (k : State → Res) (hk : ∀ t, t.Canon → (k t).Canon) :
    (i.releaseHandle s k).Canon := by
  grind -linarith [Iss.releaseHandle, Res.Canon, updCore_mem, updGrp_mem]

theorem arelBody_canon {s : State} (h : s.Canon) (i : Iss) : (arelBody s i).Canon := by
  grind -linarith [arelBody, Res.Canon, !Iss.releaseHandle_canon, !Iss.accDone_canon]

theorem Iss.bindHandle_canon {s : State} (h : s.Canon) (i : Iss) (w : BitVec 16) : (i.bindHandle s w).Canon := by
  grind -linarith [Iss.bindHandle, Res.Canon, updGrp_mem, updCore_mem]

theorem ahndBody_canon {s : State} (h : s.Canon) (i : Iss) : (ahndBody s i).Canon := by
  grind -linarith [ahndBody, Res.Canon, updGrp_mem, !Iss.illegal_canon, !Iss.releaseHandle_canon, !Iss.bindHandle_canon]

theorem azeroBody_canon {s : State} (h : s.Canon) (i : Iss) : (azeroBody s i).Canon := by
  grind -linarith [azeroBody, !Iss.illegal_canon, !Iss.writeTile_canon, !Iss.accDone_canon, Iss.accept_mem]

theorem agetBody_canon {s : State} (h : s.Canon) (i : Iss) : (agetBody s i).Canon := by
  grind -linarith [agetBody, !Iss.illegal_canon, !Iss.bound_canon, !Iss.reading_canon]

theorem apatchBody_canon {s : State} (h : s.Canon) (i : Iss) : (apatchBody s i).Canon := by
  grind -linarith [apatchBody, !Iss.illegal_canon, !Iss.bound_canon, !Iss.withRoom_canon, !Iss.accDone_canon, Iss.accept_mem]

theorem aldBody_canon {s : State} (h : s.Canon) (i : Iss) : (aldBody s i).Canon := by
  grind -linarith [aldBody, Res.Canon, !Iss.illegal_canon, !Iss.writeTile_canon, !Iss.accDone_canon, Iss.accept_mem]

theorem astBody_canon {s : State} (h : s.Canon) (i : Iss) : (astBody s i).Canon := by
  grind -linarith [astBody, !Iss.illegal_canon, !Iss.bound_canon, !Iss.reading_canon]

theorem requant_canon {s : State} (h : s.Canon) (cols : Bool) (i : Iss) : (requant cols s i).Canon := by
  grind -linarith [requant, !Iss.illegal_canon, !Iss.bound_canon, !Iss.reading_canon]

theorem mmaBody_canon {s : State} (h : s.Canon) (code tb : Nat) (z n : Bool) (i : Iss) : (mmaBody code tb z n s i).Canon := by
  grind -linarith [mmaBody, Res.Canon, !Iss.illegal_canon, !Iss.writeTile_canon, Iss.accept_mem, countUp_mem]

/-! ### Completions of the array and of capsules (`Machine/CapEv.lean`) -/

theorem State.deliverMark_canon {s : State} (h : s.Canon) (index : Nat) : (s.deliverMark index).Canon := by
  grind -linarith [deliverMark, capMark_canon]

theorem State.endLog_canon {s : State} (h : s.Canon) (index : Nat) : (s.endLog index).Canon := by
  grind -linarith [endLog, finishLog_canon]

/-! ### Graph words (`Machine/GraphWords.lean`) -/

theorem gtokBody_canon {s : State} (h : s.Canon) (i : Iss) : (gtokBody s i).Canon := by
  grind -linarith [gtokBody, Res.Canon, !release_canon, !Iss.fin_canon, sendTokens_canon]

theorem State.writeTail_canon {s : State} (h : s.Canon) (i : Iss) (pa v : Nat) : (s.writeTail i pa v).Canon := by
  grind -linarith [writeTail, performBytes_canon, dropGuest_mem, performWrite_canon]

theorem glaunchAppend_canon {s : State} (h : s.Canon) (i : Iss) (q : Nat) : (glaunchAppend s i q).Canon := by
  unfold glaunchAppend
  dsimp only
  rcases s.readTail i (s.tailPa q) with _ | ⟨_ | _, n⟩
  · exact extAsk_canon h ..
  · dsimp only
    split_ifs
    · exact h
    · exact Iss.finS_canon h ..
    · exact Iss.store_canon h _ _ _ fun t ht => Iss.finS_canon (writeTail_canon (drainCore_canon ht _) ..) ..
  · exact h

theorem glaunchBody_canon {s : State} (h : s.Canon) (i : Iss) : (glaunchBody s i).Canon := by
  grind -linarith [glaunchBody, Res.Canon, !release_canon, !Iss.finS_canon, !glaunchAppend_canon]

theorem Iss.graphRead_canon {s : State} (h : s.Canon) (i : Iss) (vas : List Nat) (k : State → List Nat → Res)
    (hk : ∀ t x, t.Canon → (k t x).Canon) : (i.graphRead s vas k).Canon := by
  grind -linarith [Iss.graphRead, !Iss.load_canon, acquire_mem]

theorem gstatBody_canon {s : State} (h : s.Canon) (i : Iss) : (gstatBody s i).Canon := by
  grind -linarith [gstatBody, !Iss.graphRead_canon, !Iss.finS_canon]

theorem gcancelGraph_canon {s : State} (h : s.Canon) (i : Iss) (g : Nat) (x : Graph) : (gcancelGraph s i g x).Canon := by
  grind -linarith [gcancelGraph, !Iss.finS_canon, cancelChildren_canon, markRoot_canon, startWalk_canon, coneVisit_canon]

theorem Iss.afterVisits_canon {s : State} (h : s.Canon) (i : Iss) (k : Res) (hk : k.Canon) : (i.afterVisits s k).Canon := by
  unfold afterVisits
  split
  · exact hk
  · exact h

theorem gcancelBody_canon {s : State} (h : s.Canon) (i : Iss) : (gcancelBody s i).Canon := by
  grind -linarith [gcancelBody, Res.Canon, !Iss.afterVisits_canon, !Iss.graphRead_canon, !Iss.finS_canon, !gcancelGraph_canon]

theorem gfailBody_canon {s : State} (h : s.Canon) (i : Iss) : (gfailBody s i).Canon := by
  grind -linarith [gfailBody, Res.Canon, !Iss.illegal_canon, !Iss.fin_canon, nodeFault_canon]

/-! ### Queues and admission (`Machine/Queue.lean`) -/

theorem State.readRecords_canon {s : State} (h : s.Canon) (c va n : Nat) : (s.readRecords c va n).Canon := by
  induction n generalizing s va with
  | zero => exact h
  | succ n ih =>
    grind -linarith [readRecords, Records.Canon, CReads.Canon, CRes.Canon, !ctxRead_canon, !ctxReads_canon]

theorem State.writeAdmitted_canon {s : State} (h : s.Canon) (x : Graph) (gseq : BitVec 64) : (s.writeAdmitted x gseq).Canon := by
  grind -linarith [writeAdmitted, marWrite_canon, foldl_canon]

theorem State.graphTouched_canon {s : State} (h : s.Canon) (c va : Nat) : (s.graphTouched c va).Canon := by
  grind -linarith [graphTouched, !direct_canon]

theorem State.admitGraph_canon {s : State} (h : s.Canon) (c va die : Nat) (queue : Option Nat) (parent : Option (Nat × Nat)) :
    (s.admitGraph c va die queue parent).Canon := by
  grind -linarith [admitGraph, CRes.Canon, Records.Canon, Admission.Canon, !ctxRead_canon, !readRecords_canon, !nextLseq_mem, partDone_mem,
    !fresh_mem, writeAdmitted_canon]

theorem State.putQueue_canon {s : State} (h : s.Canon) (q : Nat) (x : Queue) : (s.putQueue q x).Canon := by
  grind -linarith [putQueue, setQueue_mem, write64_canon]

@[simp] theorem State.queueResult_mem (s : State) (q code : Nat) : (s.queueResult q code).mem = s.mem := rfl

@[simp] theorem State.endDrain_mem (s : State) (q : Nat) : (s.endDrain q).mem = s.mem := by
  unfold endDrain
  split <;> rfl

theorem State.faultQueue_canon {s : State} (h : s.Canon) (q code : Nat) : (s.faultQueue q code).Canon := by
  grind -linarith [faultQueue, putQueue_canon, endDrain_mem, disarm_mem]

theorem State.closeQueue_canon {s : State} (h : s.Canon) (q : Nat) : (s.closeQueue q).Canon := by
  grind -linarith [closeQueue, putQueue_canon, endDrain_mem, disarm_mem]

theorem State.countDone_canon {s : State} (h : s.Canon) (q : Nat) : (s.countDone q).Canon := putQueue_canon h ..

theorem State.complFault_canon {s : State} (h : s.Canon) (q : Nat) : (s.complFault q).Canon := by
  grind -linarith [complFault, faultQueue_canon]

theorem State.completeEntry_canon {s : State} (h : s.Canon) (q c : Nat) (counts : Bool) (compl cval : BitVec 64) :
    (s.completeEntry q c counts compl cval).Canon := by
  grind -linarith [completeEntry, CRes.Canon, countDone_canon, complFault_canon, !ctxWrite_canon]

theorem State.launchDone_canon {s : State} (h : s.Canon) (q g : Nat) (x : Graph) : (s.launchDone q g x).Canon := by
  grind -linarith [launchDone, putQueue_canon, completeEntry_canon]

theorem State.takeEntry_canon {s : State} (h : s.Canon) (q : Nat) {t : State} (ht : s.takeEntry q = some t) : t.Canon := by
  grind -linarith [takeEntry, CRes.Canon, !ctxRead_canon, faultQueue_canon, partDone_mem, graphTouched_canon, putQueue_canon,
    completeEntry_canon]

theorem State.badGraph_canon {s : State} (h : s.Canon) (q : Nat) : (s.badGraph q).Canon := by
  grind -linarith [badGraph, graphTouched_canon, setQueue_mem, faultQueue_canon, putQueue_canon]

@[simp] theorem State.tailUsed_mem (s : State) (q : Nat) : (s.tailUsed q).mem = s.mem := rfl

theorem State.classify_canon {s : State} (h : s.Canon) (q : Nat) (tail : BitVec 64) : (s.classify q tail).Canon := by
  grind -linarith [classify, faultQueue_canon, putQueue_canon]

theorem State.readTailOf_canon {s : State} (h : s.Canon) (q : Nat) (act : State → BitVec 64 → State) (wait : State → State)
    (hact : ∀ t x, t.Canon → (act t x).Canon) (hwait : ∀ t, t.Canon → (wait t).Canon) : (s.readTailOf q act wait).Canon := by
  grind -linarith [readTailOf, arm_mem, disarm_mem, tailUsed_mem, extAsk_canon]

theorem State.drainTo_canon {s : State} (h : s.Canon) (q : Nat) (tail : BitVec 64) : (s.drainTo q tail).Canon := by
  grind -linarith [drainTo, disarm_mem, queueResult_mem, faultQueue_canon, setQueue_mem, putQueue_canon]

theorem State.drainQueue_canon {s : State} (h : s.Canon) (q : Nat) : (s.drainQueue q).Canon := by
  grind -linarith [drainQueue, readTailOf_canon, drainTo_canon, setQueue_mem]

theorem State.observe_canon {s : State} (h : s.Canon) (q : Nat) : (s.observe q).Canon := by
  grind -linarith [observe, badGraph_canon, drainQueue_canon, readTailOf_canon, classify_canon, putQueue_canon, disarm_mem,
    closeQueue_canon]

theorem State.serveQueue_canon {s : State} (h : s.Canon) (q : Nat) : (s.serveQueue q).Canon := by
  unfold serveQueue
  split
  · exact observe_canon h q
  · exact getD_canon h fun ht => takeEntry_canon h q ht

theorem State.admitNext_canon {s : State} (h : s.Canon) (die : Nat) : (s.admitNext die).Canon := by
  grind -linarith [admitNext, Admission.Canon, !admitGraph_canon, setDie_mem, setQueue_mem, badGraph_canon, partDone_mem]

theorem State.queueCmd_canon {s : State} (h : s.Canon) (q : Nat) (states : List QState) (act : State → State)
    (hact : ∀ t, t.Canon → (act t).Canon) : (s.queueCmd q states act).Canon := by
  grind -linarith [queueCmd, queueResult_mem]

theorem State.openQueue_canon {s : State} (h : s.Canon) (q : Nat) : (s.openQueue q).Canon := by
  grind -linarith [openQueue, queueResult_mem, performBytes_canon, write64_canon, setQueue_mem]

/-! ### Events of running graphs (`Machine/Graph.lean`) -/

theorem State.writeCompleted_canon {s : State} (h : s.Canon) (x : Graph) : (s.writeCompleted x).Canon := by
  grind -linarith [writeCompleted, marWrite_canon]

theorem State.writeCompletion_canon {s : State} (h : s.Canon) (g : Nat) (x : Graph) : (s.writeCompletion g x).Canon := by
  grind -linarith [writeCompletion, updGraph_mem, marWrite_canon]

theorem State.endGraph_canon {s : State} (h : s.Canon) (g : Nat) (x : Graph) : (s.endGraph g x).Canon := by
  grind -linarith [endGraph, nodeFinish_canon, nodeFault_canon, launchDone_canon]

theorem State.headerDone_canon {s : State} (h : s.Canon) (g : Nat) (x : Graph) : (s.headerDone g x).Canon := by
  grind -linarith [headerDone, updGraph_mem, writeCompleted_canon]

theorem State.completeGraph_canon {s : State} (h : s.Canon) (g : Nat) : (s.completeGraph g).Canon := by
  grind -linarith [completeGraph, headerDone_canon, writeCompletion_canon, endGraph_canon]

theorem State.readKernel_canon {s : State} (h : s.Canon) (x : Graph) (va : Nat) : (s.readKernel x va).Canon := by
  grind -linarith [readKernel, CRes.Canon, CReads.Canon, !ctxRead_canon, !ctxReads_canon]

theorem State.readPayload_canon {s : State} (h : s.Canon) (x : Graph) (n : Node) : (s.readPayload x n).Canon := by
  grind -linarith [readPayload, CReads.Canon, !ctxReads_canon]

theorem State.fireReads_canon {s : State} (h : s.Canon) (x : Graph) (n : Node) : (s.fireReads x n).Canon := by
  grind -linarith [fireReads, CReads.Canon, !readKernel_canon, !readPayload_canon]

theorem State.fireChild_canon {s : State} (h : s.Canon) (g n : Nat) (x : Graph) (nd : Node) : (s.fireChild g n x nd).Canon := by
  grind -linarith [fireChild, Admission.Canon, nodeFault_canon, !admitGraph_canon, updNode_mem, partDone_mem, graphTouched_canon]

theorem State.watchNode_canon {s : State} (h : s.Canon) (g n c va : Nat) : (s.watchNode g n c va).Canon := by
  grind -linarith [watchNode, updNode_mem, arm_mem, nodeFault_canon]

theorem State.startWork_canon {s : State} (h : s.Canon) (g n : Nat) (x : Graph) (nd : Node) (lseq : BitVec 64) (vals : List Nat) :
    (s.startWork g n x nd lseq vals).Canon := by
  grind -linarith [startWork, CRes.Canon, !fresh_mem, updNode_mem, watchNode_canon, fireChild_canon, !ctxWrite_canon, nodeFault_canon,
    nodeFinish_canon, setEngine_mem]

theorem State.childAsked_canon {s : State} (h : s.Canon) (x : Graph) (nd : Node) {t : State} (ht : s.childAsked x nd = some t) :
    t.Canon := by
  grind -linarith [childAsked, Admission.Canon, !admitGraph_canon]

theorem State.beginWork_canon {s : State} (h : s.Canon) (g n : Nat) (x : Graph) (nd : Node) (vals : List Nat) :
    (s.beginWork g n x nd vals).Canon := by
  grind -linarith [beginWork, startWork_canon, updNode_mem]

theorem State.fireNode_canon {s : State} (h : s.Canon) (g n : Nat) (x : Graph) (nd : Node) : (s.fireNode g n x nd).Canon := by
  grind -linarith [fireNode, CReads.Canon, !nextLseq_mem, partDone_mem, nodeWord_canon, marWrite_canon, putNode_canon, nodeFault_canon,
    beginWork_canon, !fireReads_canon]

theorem State.askChild_canon {s : State} (h : s.Canon) (x : Graph) (nd : Node) {t : State} (ht : s.askChild x nd = some t) : t.Canon := by
  grind -linarith [askChild, childAsked_canon, Option.filter_eq_some_iff]

theorem State.fire_canon {s : State} (h : s.Canon) (die : Nat) : (s.fire die).Canon := by
  grind -linarith [fire, setDie_mem, → askChild_canon, fireNode_canon]

@[simp] theorem State.raise_mem (s : State) (g n : Nat) : (s.raise g n).mem = s.mem := rfl

theorem State.watchedWord_canon {s : State} (h : s.Canon) (x : Graph) (nd : Node) : (s.watchedWord x nd).Canon := by
  grind -linarith [watchedWord, !ctxRead_canon]

theorem State.workEnd_canon {s : State} (h : s.Canon) (x : Graph) (nd : Node) : (s.workEnd x nd).Canon := by
  grind -linarith [workEnd, CRes.Canon, WorkEnd.Canon, → askChild_canon, !watchedWord_canon, partDone_mem]

@[simp] theorem State.dropGrid_mem (s : State) (k : Option Nat) : (s.dropGrid k).mem = s.mem := by
  unfold dropGrid
  split <;> rfl

theorem State.finishNode_canon {s : State} (h : s.Canon) (g n : Nat) : (s.finishNode g n).Canon := by
  grind -linarith [finishNode, WorkEnd.Canon, !workEnd_canon, beginWork_canon, dropGrid_mem, nodeFinish_canon, partDone_mem, faultNow_canon,
    nodeFault_canon]

theorem State.haltNext_canon {s : State} (h : s.Canon) (g : Nat) (x : Graph) : (s.haltNext g x).Canon := by
  grind -linarith [haltNext, haltGraph_canon, updGraph_mem]

theorem State.visit_canon {s : State} (h : s.Canon) (g : Nat) : (s.visit g).Canon := by
  grind -linarith [visit, haltNext_canon, putGraph_canon, setDie_mem, coneVisit_canon, walkAppend_canon, foldl_canon]

/-! ### Lacer and ring words (`Machine/Lacer.lean`) -/

theorem laceAccept_canon {s : State} (h : s.Canon) (i : Iss) (e : LEntry) : (laceAccept s i e).Canon := by
  grind -linarith [laceAccept, !release_canon, updBlk_mem, !fresh_mem, updCore_mem, !Iss.finS_canon]

theorem laceBody_canon {s : State} (h : s.Canon) (i : Iss) : (laceBody s i).Canon := by
  grind -linarith [laceBody, Res.Canon, !Iss.load_canon, !laceAccept_canon]

theorem lacewEnd_canon {s : State} (h : s.Canon) (i : Iss) : (lacewEnd s i).Canon := by
  grind -linarith [lacewEnd, !Iss.fin_canon, acquire_mem]

@[simp] theorem State.clearWatchRec_mem (s : State) (i : Iss) (r : LRec) : (s.clearWatchRec i r).mem = s.mem := rfl

theorem lacewBody_canon {s : State} (h : s.Canon) (i : Iss) : (lacewBody s i).Canon := by
  grind -linarith [lacewBody, Res.Canon, clearWatchRec_mem, updBlk_mem, !lacewEnd_canon, !Iss.illegal_canon]

theorem laceqBody_canon {s : State} (h : s.Canon) (i : Iss) : (laceqBody s i).Canon := Iss.finS_canon h ..

@[simp] theorem State.cancelCmds_mem (s : State) (core l blk a : Nat) : (s.cancelCmds core l blk a).mem = s.mem := by
  unfold cancelCmds
  exact foldl_mem (fun s k => by grind -linarith [endCmd_mem, updCore_mem]) _ _

theorem lacekBody_canon {s : State} (h : s.Canon) (i : Iss) : (lacekBody s i).Canon := by
  grind -linarith [lacekBody, Res.Canon, updGrp_mem, cancelCmds_mem, !Iss.fin_canon, acquire_mem, !Iss.illegal_canon]

theorem townBody_canon {s : State} (h : s.Canon) (i : Iss) : (townBody s i).Canon := by
  grind -linarith [townBody, Res.Canon, !Iss.finS_canon, acquire_mem]

theorem ringError_canon {s : State} (h : s.Canon) : (ringError s).Canon := by
  grind -linarith [ringError, Res.Canon]

@[simp] theorem Iss.putRing_mem (i : Iss) (s : State) (r : Ring) : (i.putRing s r).mem = s.mem := rfl

theorem rnggetBody_canon {s : State} (h : s.Canon) (i : Iss) : (rnggetBody s i).Canon := by
  grind -linarith [rnggetBody, Res.Canon, !ringError_canon, !Iss.finS_canon, Iss.putRing_mem]

theorem rngputBody_canon {s : State} (h : s.Canon) (i : Iss) : (rngputBody s i).Canon := by
  grind -linarith [rngputBody, !ringError_canon, !Iss.fin_canon, Iss.putRing_mem, !release_canon]

theorem rngacqBody_canon {s : State} (h : s.Canon) (i : Iss) : (rngacqBody s i).Canon := by
  grind -linarith [rngacqBody, Res.Canon, !ringError_canon, !Iss.finS_canon, Iss.putRing_mem, acquire_mem]

theorem rngrelBody_canon {s : State} (h : s.Canon) (i : Iss) : (rngrelBody s i).Canon := by
  grind -linarith [rngrelBody, !ringError_canon, !Iss.fin_canon, Iss.putRing_mem, !release_canon]

theorem rngputInitBody_canon {s : State} (h : s.Canon) (i : Iss) : (rngputInitBody s i).Canon := by
  grind -linarith [rngputInitBody, !ringError_canon, !Iss.fin_canon, updBlk_mem, Iss.putRing_mem]

/-! ### Lacers and DMA engines at work (`Machine/Dma.lean`) -/

@[simp] theorem State.putCmd_mem (s : State) (core l : Nat) (k : LCmd) : (s.putCmd core l k).mem = s.mem := rfl

@[simp] theorem State.watchStop_mem (s : State) (l : Nat) (k : LCmd) (i : Nat) (kind : Access) (addr : Nat) :
    (s.watchStop l k i kind addr).mem = s.mem :=
  rfl

theorem State.fillSlot_canon {s : State} (h : s.Canon) (core l : Nat) (k : LCmd) (b : Block) {t : State}
    (ht : s.fillSlot core l k b = some t) : t.Canon := by
  grind -linarith [fillSlot, watchStop_mem, scrWrite_mem, updBlk_mem, putCmd_mem, countUp_mem]

@[simp] theorem State.lacerFail_mem (s : State) (core l : Nat) (k : LCmd) (code addr : Nat) :
    (s.lacerFail core l k code addr).mem = s.mem :=
  foldl_mem (fun s x => by rw [endCmd_mem, chargeLacer_mem]) _ _

@[simp] theorem State.lacerFault_mem (s : State) (core l : Nat) (k : LCmd) (cause addr : Nat) :
    (s.lacerFault core l k cause addr).mem = s.mem :=
  rfl

@[simp] theorem State.stampReqs_mem (s : State) (before agent : Nat) (tag : Nat × Nat) : (s.stampReqs before agent tag).mem = s.mem := by
  unfold stampReqs
  split <;> rfl

theorem State.cmdStep_canon {s : State} (h : s.Canon) (core l : Nat) (k : LCmd) {t : State} (ht : s.cmdStep core l k = some t) :
    t.Canon := by
  grind -linarith [cmdStep, UnitRes.Canon, → fillSlot_canon, !unitRun_canon, putCmd_mem, stampReqs_mem, countUp_mem, lacerFault_mem,
    watchStop_mem]

theorem State.lacerUnit_canon {s : State} (h : s.Canon) (core l : Nat) : (s.lacerUnit core l).Canon := by
  unfold lacerUnit
  split
  · exact getD_canon h fun ht => cmdStep_canon h core l _ ht
  · exact h

@[simp] theorem State.lacerEnd_mem (s : State) (core l : Nat) : (s.lacerEnd core l).mem = s.mem := by
  grind -linarith [lacerEnd, lacerFail_mem, endCmd_mem, chargeLacer_mem]

@[simp] theorem State.freezeEngine_mem (s : State) (e addr : Nat) : (s.freezeEngine e addr).mem = s.mem := rfl

/-- Units of a walk one after another keep the form where each one does. -/
theorem State.engineUnits_canon {s : State} (h : s.Canon) (e : Nat) (run : State → Nat → UnitRes) (n : Nat)
    (hrun : ∀ t x, t.Canon → (run t x).Canon) : (s.engineUnits e run n).Canon := by
  induction n generalizing s with
  | zero => exact h
  | succ n ih => grind -linarith [engineUnits, EngRes.Canon, UnitRes.Canon, setEngine_mem]

theorem State.fillUnit_canon {s : State} (h : s.Canon) (w : Walker) (nd : Node) (u : Nat) : (s.fillUnit w nd u).Canon := by
  grind -linarith [fillUnit, UnitRes.Canon, !storeRuns_canon]

theorem State.signalUnit_canon {s : State} (h : s.Canon) (w : Walker) (nd : Node) : (s.signalUnit w nd).Canon := by
  grind -linarith [signalUnit, UnitRes.Canon, !storeRuns_canon, !runCheck_canon, → walkShut_canon, performWrite_canon]

theorem State.nodeEntry_canon {s : State} (h : s.Canon) (e : Nat) (x : Graph) (nd : Node) :
    match s.nodeEntry e x nd with
    | .ok x => x.2.Canon
    | .error r => r.Canon := by
  grind -linarith [nodeEntry, UnitRes.Canon, EngRes.Canon, !fetchRuns_canon, setEngine_mem, usedReplies_mem]

theorem State.nodeWork_canon {s : State} (h : s.Canon) (e : Nat) (x : Graph) (nd : Node) : (s.nodeWork e x nd).Canon := by
  grind -linarith [nodeWork, EngRes.Canon, !nodeEntry_canon, !engineUnits_canon, !unitRun_canon, !fillUnit_canon, !signalUnit_canon]

@[simp] theorem State.dropWork_mem (s : State) (e : Nat) (w : Nat × Nat) : (s.dropWork e w).mem = s.mem := rfl

theorem State.workFault_canon {s : State} (h : s.Canon) (w : Nat × Nat) (cause : Nat) : (s.workFault w cause).Canon := by
  grind -linarith [workFault, nodeFinish_canon, nodeFault_canon]

@[simp] theorem State.chooseWork_mem (s : State) (e : Nat) (w : Nat × Nat) : (s.chooseWork e w).mem = s.mem := rfl

theorem State.engineStep_canon {s : State} (h : s.Canon) (e : Nat) {t : State} (ht : s.engineStep e = some t) : t.Canon := by
  grind -linarith [engineStep, EngRes.Canon, nodeFinish_canon, dropWork_mem, !nodeWork_canon, chooseWork_mem, stampReqs_mem,
    freezeEngine_mem, workFault_canon]

@[simp] theorem State.dmaSubmit_mem (s : State) (v : BitVec 64) : (s.dmaSubmit v).mem = s.mem := by
  grind -linarith [dmaSubmit, setEngine_mem]

@[simp] theorem State.dropDesc_mem (s : State) (e : Nat) : (s.dropDesc e).mem = s.mem := rfl

theorem State.descEnd_canon {s : State} (h : s.Canon) (e status code faddr : Nat) : (s.descEnd e status code faddr).Canon := by
  grind -linarith [descEnd, write64_canon, setEngine_mem]

theorem State.descClose_canon {s : State} (h : s.Canon) (e : Nat) {t : State} (ht : s.descClose e = some t) : t.Canon := by
  have hrun := s.runNoted_mem (privWalker e) .write (s.engine e).compl 8
  rw [descClose] at ht
  generalize s.runNoted (privWalker e) .write (s.engine e).compl 8 = r at hrun ht
  obtain ⟨c, u⟩ := r
  have hu : u.Canon := canon_of_mem hrun h
  cases c with
  | ok p =>
    dsimp only at ht
    generalize s.walkOpen (privWalker e) p = o at ht
    cases p <;> grind -linarith [dropDesc_mem, performBytes_canon, chipWrite_mem, performWrite_canon]
  | _ => grind -linarith [dropDesc_mem, freezeEngine_mem]

theorem State.descDone_canon {s : State} (h : s.Canon) (e status code faddr : Nat) : (s.descDone e status code faddr).Canon :=
  getD_canon (descEnd_canon h ..) fun ht => descClose_canon (descEnd_canon h ..) e ht

theorem State.descStart_canon {s : State} (h : s.Canon) (e : Nat) : (s.descStart e).Canon := by
  grind -linarith [descStart, setEngine_mem, freezeEngine_mem, descDone_canon]

theorem State.descStep_canon {s : State} (h : s.Canon) (e : Nat) {t : State} (ht : s.descStep e = some t) : t.Canon := by
  grind -linarith [descStep, EngRes.Canon, → descClose_canon, !engineUnits_canon, !unitRun_canon, descDone_canon, freezeEngine_mem]

theorem State.releaseEngine_canon {s : State} (h : s.Canon) (e : Nat) : (s.releaseEngine e).Canon := by
  grind -linarith [releaseEngine, descDone_canon, setEngine_mem, workFault_canon, dropWork_mem]

/-! ### The fetch of a word (`Machine/Fetch.lean`) -/

@[simp] theorem State.countFetch_mem (s : State) (core ctx va : Nat) : (s.countFetch core ctx va).mem = s.mem := by
  unfold countFetch
  split <;> rfl

theorem State.fetchGot_canon {s : State} (h : s.Canon) (a : Nat) (g : Group) (b : Block) (w : Nat) (bad : Bool) :
    (s.fetchGot a g b w bad).Canon := by
  grind -linarith [fetchGot, Fetched.Canon, takeTrap_canon, countFetch_mem]

theorem State.fetchExt_canon {s : State} (h : s.Canon) (a pa : Nat) (g : Group) (b : Block) : (s.fetchExt a pa g b).Canon := by
  grind -linarith [fetchExt, Fetched.Canon, !fetchGot_canon, noteRefused_mem, suspendAt_mem, extAsk_canon]

theorem State.fetch_canon {s : State} (h : s.Canon) (a : Nat) (g : Group) (b : Block) : (s.fetch a g b).Canon := by
  rw [fetch]
  dsimp only
  generalize s.translate (coreOf a) b.ctx g.pc.toNat .fetch g.trapMode = x
  cases x with
  | ok pa =>
    dsimp only
    have hchip := s.chipRead_mem pa 4
    generalize s.chipRead pa 4 = r at hchip ⊢
    generalize s.region pa = q, s.chipHole pa 4 = hole
    grind -linarith [Fetched.Canon, takeTrap_canon, suspendAt_mem, snoopBack_mem, settlePoison_canon, fetchGot_canon, fetchExt_canon]
  | _ =>
    grind -linarith [Fetched.Canon, takeTrap_canon, setRevoked_canon, suspendAt_mem, addMiss_mem, arm_mem]

@[simp] theorem State.takeTurn_mem (s : State) (a : Nat) : (s.takeTurn a).mem = s.mem := rfl

theorem State.fetchNext_canon {s : State} (h : s.Canon) {r : Fetched} (hr : s.fetchNext = some r) : r.Canon := by
  grind -linarith [fetchNext, !fetch_canon, takeTurn_mem]

/-! ### Events of groups (`Machine/GroupEv.lean`) -/

@[simp] theorem State.arbitrate_mem (s : State) (core quadrant : Nat) : (s.arbitrate core quadrant).mem = s.mem := by
  grind -linarith [arbitrate]

@[simp] theorem State.waitEnds_mem (s : State) (a : Nat) : (s.waitEnds a).mem = s.mem := by
  grind -linarith [waitEnds, updCtx_mem, updGrp_mem]

theorem State.fateTrap_canon {s : State} (h : s.Canon) (a : Nat) (g : Group) (x : BarId) (t : BitVec 32) (w : PhaseWait) (f : Fate) :
    (s.fateTrap a g x t w f).Canon := by
  unfold fateTrap
  grind -linarith [countWords_mem, charge_mem, updGrp_mem, takeTrap_canon, acquire_mem]

theorem State.resolve_canon {s : State} (h : s.Canon) (a : Nat) : (s.resolve a).Canon := by
  grind -linarith [resolve, fateTrap_canon, finishEntry_canon, updGrp_mem, waitEnds_mem]

theorem State.wake_canon {s : State} (h : s.Canon) (a : Nat) : (s.wake a).Canon := by
  grind -linarith [wake, disarm_mem, finishEntry_canon, updGrp_mem]

theorem State.fireWatch_canon {s : State} (h : s.Canon) (index : Nat) : (s.fireWatch index).Canon := by
  grind -linarith [fireWatch, wake_canon]

theorem State.poll_canon {s : State} (h : s.Canon) (a : Nat) : (s.poll a).Canon := by
  grind -linarith [poll, extAsk_canon]

theorem State.deliverTrap_canon {s : State} (h : s.Canon) (a : Nat) : (s.deliverTrap a).Canon := by
  grind -linarith [deliverTrap, takeBetween_canon, updGrp_mem]

@[simp] theorem State.unpark_mem (s : State) (a : Nat) (g : Group) : (s.unpark a g).mem = s.mem := by
  grind -linarith [unpark, updCtx_mem, setGrp_mem]

theorem State.stopGroup_canon {s : State} (h : s.Canon) (a : Nat) : (s.stopGroup a).Canon := by
  grind -linarith [stopGroup, unpark_mem, enterHalted_canon]

theorem State.reenter_canon {s : State} (h : s.Canon) (a : Nat) : (s.reenter a).Canon := by
  grind -linarith [reenter, !capReenter_canon, acquire_mem, updGrp_mem, arm_mem, takeTrap_canon]

/-! ### The save area (`Machine/Save.lean`) -/

theorem State.putPage_canon {s : State} (h : s.Canon) (base i data : Nat) : (s.putPage base i data).Canon := by
  grind -linarith [putPage, performBytes_canon]

theorem State.putTag_canon {s : State} (h : s.Canon) (base c i : Nat) (gen : BitVec 64) : (s.putTag base c i gen).Canon :=
  performBytes_canon h ..

@[simp] theorem State.taintPages_mem (s : State) (base : Nat) (ks : List (Nat × Nat)) : (s.taintPages base ks).mem = s.mem := by
  unfold taintPages
  split <;> rfl

theorem State.headerPage_mem (s : State) (c : Nat) : (s.headerPage c).2.mem = s.mem := rfl
theorem State.recordPage_mem (s : State) (core : Nat) : (s.recordPage core).2.mem = s.mem := rfl

/-! ### Contexts (`Machine/Context.lean`) -/

@[simp] theorem State.ctxResult_mem (s : State) (c code : Nat) : (s.ctxResult c code).mem = s.mem := rfl

theorem State.ctxCmd_canon {s : State} (h : s.Canon) (c : Nat) (states : List CState) (act : State → State)
    (hact : ∀ t, t.Canon → (act t).Canon) : (s.ctxCmd c states act).Canon := by
  grind -linarith [ctxCmd, ctxResult_mem]

theorem State.createCtx_canon {s : State} (h : s.Canon) (c : Nat) : (s.createCtx c).Canon := by
  grind -linarith [createCtx, ctxResult_mem, setCtxState_canon, setCtx_mem]

theorem State.loadCtx_canon {s : State} (h : s.Canon) (c : Nat) : (s.loadCtx c).Canon := by
  grind -linarith [loadCtx, ctxResult_mem, setCtxState_canon, setCtx_mem]

theorem State.startPark_canon {s : State} (h : s.Canon) (c : Nat) : (s.startPark c).Canon := by
  grind -linarith [startPark, updCtx_mem, setCtxState_canon]

theorem State.drainCtx_canon {s : State} (h : s.Canon) (c : Nat) : (s.drainCtx c).Canon := by
  grind -linarith [drainCtx, updCtx_mem, setCtxState_canon, startPark_canon, ctxResult_mem]

theorem State.startReset_canon {s : State} (h : s.Canon) (c : Nat) : (s.startReset c).Canon := by
  grind -linarith [startReset, setCtxState_canon, updCtx_mem, nodeFault_canon, foldl_canon]

theorem State.endReset_canon {s : State} (h : s.Canon) (c : Nat) : (s.endReset c).Canon := by
  grind -linarith [endReset, setCtxState_canon, updCtx_mem]

theorem State.destroyCtx_canon {s : State} (h : s.Canon) (c : Nat) : (s.destroyCtx c).Canon := by
  grind -linarith [destroyCtx, closeQueue_canon, updCtx_mem, ctxResult_mem, setCtxState_canon, foldl_canon]

theorem State.parkGroup_canon {s : State} (h : s.Canon) (a : Nat) : (s.parkGroup a).Canon := by
  grind -linarith [parkGroup, mark_mem, drainCore_canon, accDrain_mem, leaveSlot_mem, dropWaits_mem, updCtx_mem, setGrp_mem]

theorem State.save_canon {s : State} (h : s.Canon) (c : Nat) : (s.save c).Canon := by
  grind -linarith [save, drainCore_canon, accDrain_mem, write64_canon, updCtx_mem, !headerPage_mem, !recordPage_mem, taintPages_mem,
    putTag_canon, putPage_canon, freeBlock_mem, setCtxState_canon, foldl_canon, !foldl_snd_mem]

@[simp] theorem State.loadMonitors_mem (s : State) (c : Nat) : (s.loadMonitors c).mem = s.mem := by
  grind -linarith [loadMonitors]

theorem State.loseBlocks_canon {s : State} (h : s.Canon) (c : Nat) : (s.loseBlocks c).Canon := by
  grind -linarith [loseBlocks, updCtx_mem, nodeFault_canon, foldl_canon]

theorem State.restore_canon {s : State} (h : s.Canon) (c : Nat) : (s.restore c).Canon := by
  grind -linarith [restore, updCtx_mem, setCtxState_canon, loadMonitors_mem, loseBlocks_canon, write64_canon]

theorem State.runCtx_canon {s : State} (h : s.Canon) (c : Nat) : (s.runCtx c).Canon := by
  grind -linarith [runCtx, ctxResult_mem, updCtx_mem, restore_canon, setCtxState_canon]

@[simp] theorem State.loadPages_mem (s : State) (c : Nat) (x : SavedBlock) : (s.loadPages c x).mem = s.mem := by
  unfold loadPages
  grind -linarith [foldl_mem, scrWrite_mem, updCore_mem]

@[simp] theorem State.reload_mem (s : State) (c : Nat) (x : SavedBlock) : (s.reload c x).mem = s.mem := by
  grind -linarith [reload, updCore_mem, loadPages_mem, updCtx_mem]

theorem State.reloadNext_canon {s : State} (h : s.Canon) (c : Nat) : (s.reloadNext c).Canon := by
  grind -linarith [reloadNext, loseBlocks_canon, reload_mem, drainEnd_canon, updCtx_mem]

/-! ### Conversions (`Machine/Conv.lean`) -/

theorem convert_canon {s : State} (h : s.Canon) (f : Iss → Nat → Nat → ConvOp) (i : Iss) : (convert f s i).Canon := by
  grind -linarith [convert, Res.Canon, !Iss.fin_canon, updGrp_mem]

theorem mxqBody_canon {s : State} (h : s.Canon) (i : Iss) : (mxqBody s i).Canon := by
  grind -linarith [mxqBody, !Iss.illegal_canon, !Iss.fin_canon, updGrp_mem]

theorem xcvtBody_canon {s : State} (h : s.Canon) (i : Iss) : (xcvtBody s i).Canon := Iss.floatOut_canon h ..
theorem kgetBody_canon {s : State} (h : s.Canon) (i : Iss) : (kgetBody s i).Canon := Iss.vecOut_canon h ..

theorem Iss.scaleOut_canon {s : State} (h : s.Canon) (i : Iss) (f : Nat → Nat) : (i.scaleOut s f).Canon := by
  grind -linarith [Iss.scaleOut, !Iss.fin_canon, updGrp_mem]

theorem ksetBody_canon {s : State} (h : s.Canon) (i : Iss) : (ksetBody s i).Canon := Iss.scaleOut_canon h ..

theorem kaddBody_canon {s : State} (h : s.Canon) (i : Iss) : (kaddBody s i).Canon := by
  grind -linarith [kaddBody, !Iss.illegal_canon, !Iss.scaleOut_canon]

theorem kmaxBody_canon {s : State} (h : s.Canon) (i : Iss) : (kmaxBody s i).Canon := Iss.scaleOut_canon h ..

/-! ### Halt, dump, snapshot (`Machine/Debug.lean`) -/

@[simp] theorem State.dbgResult_mem (s : State) (c code : Nat) : (s.dbgResult c code).mem = s.mem := rfl
@[simp] theorem State.resumeCtx_mem (s : State) (c : Nat) : (s.resumeCtx c).mem = s.mem := rfl

@[simp] theorem State.broadcastEnd_mem (s : State) (c : Nat) : (s.broadcastEnd c).mem = s.mem := by
  grind -linarith [broadcastEnd, updCtx_mem, resumeCtx_mem, dbgResult_mem]

@[simp] theorem State.haltCmd_mem (s : State) (c : Nat) : (s.haltCmd c).mem = s.mem := by
  unfold haltCmd
  split <;> rfl

@[simp] theorem State.resumeCmd_mem (s : State) (c : Nat) : (s.resumeCmd c).mem = s.mem := by
  grind -linarith [resumeCmd, updCtx_mem, dbgResult_mem, resumeCtx_mem]

@[simp] theorem State.dumpCmd_mem (s : State) (c : Nat) : (s.dumpCmd c).mem = s.mem := by
  unfold dumpCmd
  split <;> rfl

theorem State.dumpHeader_mem (s : State) (c : Nat) (start : BitVec 64) (result : Nat) : (s.dumpHeader c start result).2.mem = s.mem := rfl

theorem State.dumpPage_canon {s : State} (h : s.Canon) (base i data : Nat) (bad : Bool) : (s.dumpPage base i data bad).Canon := by
  grind -linarith [dumpPage, performBytes_canon, putPage_canon]

theorem State.dump_canon {s : State} (h : s.Canon) (c : Nat) : (s.dump c).Canon := by
  unfold dump
  split
  · exact h
  · dsimp only
    rw [State.Canon, dbgResult_mem]
    dsimp only
    rw [updCtx_mem]
    refine foldl_canon (fun _ _ hs => dumpPage_canon hs ..) _ (dumpPage_canon ?_ ..)
    rw [State.Canon, foldl_snd_mem fun x k => ?_]
    · dsimp only
      rw [dumpHeader_mem]
      exact foldl_canon (fun _ _ hs => drainCore_canon (canon_of_mem (accDrain_mem ..) hs) _) _ h
    · simp only [recordPage_mem]

theorem State.putLatch_canon {s : State} (h : s.Canon) (core : Nat) : (s.putLatch core).Canon := by
  grind -linarith [putLatch, updCore_mem, performBytes_canon, drainCore_canon, snoopBack_mem]

@[simp] theorem State.latchCore_mem (s : State) (core : Nat) : (s.latchCore core).mem = s.mem := by
  unfold latchCore
  split <;> rfl

theorem State.snapCore_canon {s : State} (h : s.Canon) (core : Nat) : (s.snapCore core).Canon := by
  grind -linarith [snapCore, putLatch_canon, latchCore_mem]

theorem State.retryLatches_canon {s : State} (h : s.Canon) : s.retryLatches.Canon := by
  grind -linarith [retryLatches, putLatch_canon, foldl_canon]

theorem State.snapshot_canon {s : State} (h : s.Canon) : s.snapshot.Canon := by
  grind -linarith [snapshot, snapCore_canon, foldl_canon]

/-! ### Walks, invalidations, leases (`Machine/PageEv.lean`) -/

@[simp] theorem State.fillPointers_mem (s : State) (die ctx va : Nat) : (s.fillPointers die ctx va).mem = s.mem := rfl

theorem State.endWalk_canon {s : State} (h : s.Canon) (index : Nat) : (s.endWalk index).Canon := by
  grind -linarith [endWalk, setAD_canon, fillTlb_mem, fillPointers_mem, foldl_canon]

@[simp] theorem State.leaseEnds_mem (s : State) (l : Nat) : (s.leaseEnds l).mem = s.mem := rfl
@[simp] theorem State.dropTlb_mem (s : State) (p : TlbEntry → Bool) : (s.dropTlb p).mem = s.mem := rfl
@[simp] theorem State.dropPointers_mem (s : State) (p : Nat → Bool) : (s.dropPointers p).mem = s.mem := rfl

theorem State.settleAll_canon {s : State} (h : s.Canon) : s.settleAll.Canon := by
  grind -linarith [settleAll, drainCore_canon, finishLog_canon, foldl_canon]

@[simp] theorem State.tlbDone_mem (s : State) (ctx : Nat) : (s.tlbDone ctx).mem = s.mem := rfl

@[simp] theorem State.settled_mem (s : State) (e : Settled) : (s.settled e).mem = s.mem := by
  unfold settled
  split <;> rfl

@[simp] theorem State.settle_mem (s : State) (p : ExtReq → Bool) (w : Settled) : (s.settle p w).mem = s.mem := by
  grind -linarith [settle, settled_mem]

@[simp] theorem State.settleNow_mem (s : State) : s.settleNow.mem = s.mem := by
  unfold settleNow
  exact foldl_mem (fun s _ => s.settled_mem _) _ _

theorem State.invalidatePage_canon {s : State} (h : s.Canon) (ctx va : Nat) : (s.invalidatePage ctx va).Canon := by
  grind -linarith [invalidatePage, dropPointers_mem, dropTlb_mem, settleAll_canon]

theorem State.invalidateContext_canon {s : State} (h : s.Canon) (ctx : Nat) : (s.invalidateContext ctx).Canon := by
  grind -linarith [invalidateContext, dropPointers_mem, dropTlb_mem, settleAll_canon]

theorem State.invalidateLease_canon {s : State} (h : s.Canon) (lease : Nat) : (s.invalidateLease lease).Canon := by
  grind -linarith [invalidateLease, dropTlb_mem, settleAll_canon]

theorem State.setLease_canon {s : State} (h : s.Canon) (l st : Nat) : (s.setLease l st).Canon := write64_canon h ..

theorem State.startRevoke_canon {s : State} (h : s.Canon) (l : Nat) : (s.startRevoke l).Canon := by
  grind -linarith [startRevoke, setLease_canon, write64_canon]

theorem State.endBorrow_canon {s : State} (h : s.Canon) (l : Nat) : (s.endBorrow l).Canon := by
  grind -linarith [endBorrow, settle_mem, invalidateLease_canon, setLease_canon]

theorem State.retireFrame_canon {s : State} (h : s.Canon) (leafPa : Nat) : (s.retireFrame leafPa).Canon := by
  grind -linarith [retireFrame, dropTlb_mem, write64_canon, settleAll_canon]

/-! ### Requests on their way and host accesses (`Machine/Traffic.lean`) -/

theorem State.performIf_canon {s : State} (h : s.Canon) (c : Bool) (w : PendWrite) : (s.performIf c w).Canon := by
  grind -linarith [performIf, performWrite_canon]

theorem State.consume_canon {s : State} (h : s.Canon) (index : Nat) : (s.consume index).Canon := by
  grind -linarith [consume, performWrite_canon, performIf_canon, foldl_canon]

@[simp] theorem State.respond_mem (s : State) (index : Nat) : (s.respond index).mem = s.mem := by
  grind -linarith [respond]

@[simp] theorem State.invalidated_mem (s : State) (index : Nat) : (s.invalidated index).mem = s.mem := by
  unfold invalidated
  split <;> rfl

@[simp] theorem State.lacerRefused_mem (s : State) (core l : Nat) (r : ExtReq) : (s.lacerRefused core l r).mem = s.mem := by
  unfold lacerRefused
  split <;> rfl

theorem State.engineRefused_canon {s : State} (h : s.Canon) (e : Nat) (r : ExtReq) : (s.engineRefused e r).Canon := by
  grind -linarith [engineRefused, descDone_canon, workFault_canon, dropWork_mem]

theorem State.writeRefused_canon {s : State} (h : s.Canon) (r : ExtReq) : (s.writeRefused r).Canon := by
  grind -linarith [writeRefused, lacerRefused_mem, engineRefused_canon]

@[simp] theorem State.answered_mem (s : State) (r : ExtReq) : (s.answered r).mem = s.mem := by
  grind -linarith [answered, updGrp_mem, disarm_mem]

theorem State.completion_canon {s : State} (h : s.Canon) (id : Nat) (refused : Bool) (data : Nat) :
    (s.completion id refused data).Canon := by
  grind -linarith [completion, setRefused_mem, settleNow_mem, writeRefused_canon, answered_mem]

@[simp] theorem State.snoop_mem (s : State) (line : Nat) : (s.snoop line).mem = s.mem := by
  unfold snoop
  split <;> rfl

theorem State.cxlMem_canon {s : State} (h : s.Canon) (xd off : Nat) (write : Bool) (data : Nat) : (s.cxlMem xd off write data).Canon := by
  grind -linarith [cxlMem, send_mem, performBytes_canon]

@[simp] theorem State.answer_mem (s : State) (xd fn : Nat) (refused : Bool) (data : Nat) : (s.answer xd fn refused data).mem = s.mem := by
  unfold answer
  split <;> rfl

@[simp] theorem State.freezeHost_mem (s : State) (xd fn pa : Nat) : (s.freezeHost xd fn pa).mem = s.mem := rfl

theorem State.hostPut_canon {s : State} (h : s.Canon) (pa size data : Nat) : (s.hostPut pa size data).Canon := by
  grind -linarith [hostPut, chipWrite_mem, performBytes_canon]

theorem State.hostGet_mem (s : State) (pa size : Nat) : (s.hostGet pa size).2.mem = s.mem := by
  grind -linarith [hostGet, !chipRead_mem, touchHome_mem]

theorem State.hostAtomicAt_canon {s : State} (h : s.Canon) (xd fn pa : Nat) (op : AtomOp) (size data : Nat) :
    (s.hostAtomicAt xd fn pa op size data).Canon := by
  grind -linarith [hostAtomicAt, !hostGet_mem, answer_mem, hostPut_canon]

theorem State.hostAt_canon {s : State} (h : s.Canon) (xd fn pa : Nat) (op : HostOp) (size data : Nat) :
    (s.hostAt xd fn pa op size data).Canon := by
  unfold hostAt
  grind -linarith [send_mem, answer_mem, hostPut_canon, !hostGet_mem, hostAtomicAt_canon]

theorem State.hostPhys_canon {s : State} (h : s.Canon) (xd fn pa : Nat) (op : HostOp) (size data : Nat) :
    (s.hostPhys xd fn pa op size data).Canon := by
  rw [hostPhys]
  generalize s.chipHole pa size = hole
  split <;> grind -linarith [freezeHost_mem, hostAt_canon]

@[simp] theorem State.hostBar0_mem (s : State) (xd off : Nat) (write : Bool) (size data : Nat) :
    (s.hostBar0 xd off write size data).mem = s.mem := by
  grind -linarith [hostBar0, answer_mem]

theorem State.hostWindow_canon {s : State} (h : s.Canon) (xd off : Nat) (op : HostOp) (size data : Nat) :
    (s.hostWindow xd off op size data).Canon := by
  grind -linarith [hostWindow, answer_mem, hostAt_canon, freezeHost_mem]

/-- A write of the recovery image buffer (R375) reaches memory at once. -/
theorem State.hostBuffer_canon {s : State} (h : s.Canon) (xd off : Nat) (write : Bool) (size data : Nat) :
    (s.hostBuffer xd off write size data).Canon := by
  grind -linarith [hostBuffer, writeLE_wf, answer_mem, send_mem]

@[simp] theorem State.hostConfig_mem (s : State) (xd fn : Nat) (write : Bool) (size : Nat) :
    (s.hostConfig xd fn write size).mem = s.mem := by
  unfold hostConfig
  split <;> rfl

theorem State.hostAccess_canon {s : State} (h : s.Canon) (xd fn bar off : Nat) (op : HostOp) (size data : Nat) :
    (s.hostAccess xd fn bar off op size data).Canon := by
  unfold hostAccess
  grind -linarith [answer_mem, hostConfig_mem, hostBar0_mem, hostBuffer_canon, hostPhys_canon, hostWindow_canon]

@[simp] theorem State.portReply_mem (s : State) (port : Nat) (refused : Bool) (data : Nat) :
    (s.portReply port refused data).mem = s.mem := by
  unfold portReply
  split <;> rfl

theorem State.fabricServe_canon {s : State} (h : s.Canon) (port peer kind op et addr size data cmp : Nat) :
    (s.fabricServe port peer kind op et addr size data cmp).Canon := by
  grind -linarith [fabricServe, portReply_mem, send_mem, touchHome_mem, performBytes_canon]

@[simp] theorem State.windowServe_mem (s : State) (write : Bool) (pa size data : Nat) : (s.windowServe write pa size data).mem = s.mem := by
  grind -linarith [windowServe, chipWrite_mem, !chipRead_mem, send_mem]

/-! ### Links (`Machine/LinkEv.lean`) -/

theorem State.resetActive_canon {s : State} (h : s.Canon) : s.resetActive.Canon := by
  grind -linarith [resetActive, startReset_canon, foldl_canon]

theorem State.refuseOutstanding_canon {s : State} (h : s.Canon) (l : Nat) : (s.refuseOutstanding l).Canon := by
  grind -linarith [refuseOutstanding, completion_canon, foldl_canon]

@[simp] theorem State.dropHostLines_mem (s : State) (xd : Nat) : (s.dropHostLines xd).mem = s.mem := by
  grind -linarith [dropHostLines, foldl_mem]

@[simp] theorem State.dropHeldLines_mem (s : State) (xd : Nat) : (s.dropHeldLines xd).mem = s.mem := rfl

theorem State.loseLink_canon {s : State} (h : s.Canon) (l : Nat) (st : LState) : (s.loseLink l st).Canon := by
  grind -linarith [loseLink, refuseOutstanding_canon, setLink_mem, dropHeldLines_mem, dropHostLines_mem, resetActive_canon]

@[simp] theorem State.enableLink_mem (s : State) (l : Nat) : (s.enableLink l).mem = s.mem := by
  unfold enableLink
  split <;> rfl

theorem State.disableLink_canon {s : State} (h : s.Canon) (l : Nat) : (s.disableLink l).Canon := by
  grind -linarith [disableLink, setLink_mem, loseLink_canon]

@[simp] theorem State.retrainLink_mem (s : State) (l : Nat) : (s.retrainLink l).mem = s.mem := by
  grind -linarith [retrainLink, setLink_mem]

@[simp] theorem State.dropHeld_mem (s : State) (xd : Nat) : (s.dropHeld xd).mem = s.mem := by
  grind -linarith [dropHeld, dropHeldLines_mem, dropHostLines_mem]

@[simp] theorem State.trained_mem (s : State) (l : Nat) (half fast cxlMem cxlCache : Bool) :
    (s.trained l half fast cxlMem cxlCache).mem = s.mem := by
  grind -linarith [trained, setLink_mem, dropHeld_mem]

@[simp] theorem State.trainDone_mem (s : State) (l : Nat) (half fast cxlMem cxlCache : Bool) :
    (s.trainDone l half fast cxlMem cxlCache).mem = s.mem := by
  grind -linarith [trainDone, postHeld_mem, trained_mem, setLink_mem]

theorem State.trainFailed_canon {s : State} (h : s.Canon) (l : Nat) : (s.trainFailed l).Canon := by
  grind -linarith [trainFailed, loseLink_canon]

@[simp] theorem State.replayed_mem (s : State) (l : Nat) : (s.replayed l).mem = s.mem := by
  grind -linarith [replayed, setLink_mem]

/-! ### The control page and the device (`Machine/Device.lean`) -/

@[simp] theorem State.bringLinks_mem (s : State) (half : BitVec 9) : (s.bringLinks half).mem = s.mem := by
  unfold bringLinks
  grind -linarith [foldl_mem, setLink_mem]

/-- DRAM zeroing at bring-up (R403) takes cells away. -/
theorem State.zeroMemory_canon {s : State} (h : s.Canon) : s.zeroMemory.Canon := filter_wf _ h

@[simp] theorem State.clearSram_mem (s : State) : s.clearSram.mem = s.mem := rfl

theorem State.bringUpFrom2_canon {s : State} (h : s.Canon) (b : BringUp) : (s.bringUpFrom2 b).Canon := by
  grind -linarith [bringUpFrom2, bringLinks_mem, clearSram_mem, zeroMemory_canon]

@[simp] theorem State.enterRecovery_mem (s : State) (cdOk linkOk : Bool) : (s.enterRecovery cdOk linkOk).mem = s.mem := rfl

theorem State.bringUpRun_canon {s : State} (h : s.Canon) (b : BringUp) : (s.bringUpRun b).Canon := by
  grind -linarith [bringUpRun, bringUpFrom2_canon, enterRecovery_mem]

/-- Memory outlives a reset of the part until bring-up clears it. -/
theorem State.partReset_canon {s : State} (h : s.Canon) (b : BringUp) : (s.partReset b).Canon := by
  refine bringUpRun_canon ?_ b
  exact h

@[simp] theorem State.commit_mem (s : State) : s.commit.mem = s.mem := by
  grind -linarith [State.commit]

theorem State.recoveryDone_canon {s : State} (h : s.Canon) (pass : Bool) (cdOk : BitVec 4) (xdOk : BitVec 2) :
    (s.recoveryDone pass cdOk xdOk).Canon := by
  grind -linarith [recoveryDone, bringUpRun_canon]

@[simp] theorem State.dieOut_mem (s : State) (die : Nat) : (s.dieOut die).mem = s.mem := by
  unfold dieOut
  split <;> rfl

@[simp] theorem State.powerTick_mem (s : State) (watts : Nat) : (s.powerTick watts).mem = s.mem := rfl
@[simp] theorem State.writePwrlim_mem (s : State) (v : BitVec 64) : (s.writePwrlim v).mem = s.mem := rfl

theorem State.masterRelease_canon {s : State} (h : s.Canon) (off : Nat) (v : BitVec 64) : (s.masterRelease off v).Canon := by
  unfold masterRelease
  grind -linarith [releaseEngine_canon, foldl_canon]

@[simp] theorem State.attest_mem (s : State) (nonce : Nat) : (s.attest nonce).mem = s.mem := by
  unfold attest
  split <;> rfl

@[simp] theorem State.certify_mem (s : State) : s.certify.mem = s.mem := by
  unfold certify
  split <;> rfl

@[simp] theorem State.writeCtxtab_mem (s : State) (v : BitVec 64) : (s.writeCtxtab v).mem = s.mem := by
  unfold writeCtxtab
  split <;> rfl

@[simp] theorem State.writeQtab_mem (s : State) (v : BitVec 64) : (s.writeQtab v).mem = s.mem := by
  unfold writeQtab
  split <;> rfl

@[simp] theorem State.overrun_mem (s : State) (off : Nat) : (s.overrun off).mem = s.mem := by
  unfold overrun
  split <;> rfl

@[simp] theorem State.push_mem (s : State) (e : Instr) : (s.push e).mem = s.mem := rfl

@[simp] theorem State.writeCtxcmd_mem (s : State) (v : BitVec 64) : (s.writeCtxcmd v).mem = s.mem := by
  grind -linarith [writeCtxcmd, overrun_mem, push_mem]

@[simp] theorem State.writeQcmd_mem (s : State) (v : BitVec 64) : (s.writeQcmd v).mem = s.mem := by
  grind -linarith [writeQcmd, overrun_mem, push_mem]

@[simp] theorem State.writeTlbcmd_mem (s : State) (v : BitVec 64) : (s.writeTlbcmd v).mem = s.mem := by
  grind -linarith [writeTlbcmd, overrun_mem, push_mem]

@[simp] theorem State.writeDbgcmd_mem (s : State) (v : BitVec 64) : (s.writeDbgcmd v).mem = s.mem := by
  grind -linarith [writeDbgcmd, overrun_mem, push_mem]

@[simp] theorem State.writeLsrev_mem (s : State) (v : BitVec 64) : (s.writeLsrev v).mem = s.mem := by
  grind -linarith [writeLsrev, push_mem]

@[simp] theorem State.writeLnkctl_mem (s : State) (l : Nat) (v : BitVec 64) : (s.writeLnkctl l v).mem = s.mem := by
  grind -linarith [writeLnkctl, setLink_mem, push_mem]

@[simp] theorem State.writeParts_mem (s : State) (off n width : Nat) (v : BitVec 64) : (s.writeParts off n width v).mem = s.mem := by
  unfold writeParts
  grind -linarith [foldl_mem, setReg_mem]

@[simp] theorem State.traceOn_mem (s old : State) : (s.traceOn old).mem = s.mem := by
  grind -linarith [traceOn]

@[simp] theorem State.writeRegister_mem (s : State) (off : Nat) (v : BitVec 64) : (s.writeRegister off v).mem = s.mem := by
  simp only [writeRegister, apply_ite State.mem, push_mem, setReg_mem, writeLsrev_mem, writeCtxcmd_mem, writeQcmd_mem, writeTlbcmd_mem,
    writeDbgcmd_mem, traceOn_mem, writeParts_mem, writeLnkctl_mem, setLink_mem, ite_self]

/-! ### Balance monitor words (`Machine/Monitor.lean`) -/

theorem bmsetBody_canon {s : State} (h : s.Canon) (i : Iss) : (bmsetBody s i).Canon := by
  grind -linarith [bmsetBody, Res.Canon, !Iss.load_canon, !Iss.illegal_canon, montabWrite_canon, zeroPartials_mem, !Iss.fin_canon,
    updCtx_mem]

theorem bmclrBody_canon {s : State} (h : s.Canon) (i : Iss) : (bmclrBody s i).Canon := by
  grind -linarith [bmclrBody, Res.Canon, montabWrite_canon, zeroPartials_mem, !Iss.fin_canon, updCtx_mem]

theorem bmrefBody_canon {s : State} (h : s.Canon) (i : Iss) : (bmrefBody s i).Canon := by
  grind -linarith [bmrefBody, montabWrite_canon, !Iss.fin_canon, updCtx_mem, !Iss.illegal_canon]

@[simp] theorem State.setBound_mem (s : State) (c m : Nat) (o : Option Nat) : (s.setBound c m o).mem = s.mem := rfl

theorem bmbindBody_canon {s : State} (h : s.Canon) (i : Iss) : (bmbindBody s i).Canon := by
  grind -linarith [bmbindBody, Res.Canon, !Iss.withObject_canon, !Iss.fin_canon, !Iss.illegal_canon, setBound_mem, reach_mem]

theorem bmunbindBody_canon {s : State} (h : s.Canon) (i : Iss) : (bmunbindBody s i).Canon := by
  grind -linarith [bmunbindBody, Res.Canon, !Iss.withObject_canon, !Iss.fin_canon, setBound_mem, reach_mem]

theorem bmrdBody_canon {s : State} (h : s.Canon) (i : Iss) : (bmrdBody s i).Canon := by
  grind -linarith [bmrdBody, Res.Canon, !Iss.finS_canon, updGrp_mem, drainCore_canon]

/-! ### The passing of a clock (`Machine/Tick.lean`) -/

theorem State.retryTrace_canon {s : State} (h : s.Canon) : s.retryTrace.Canon := by
  grind -linarith [retryTrace, traceFlush_canon, foldl_canon]

theorem State.retryAll_canon {s : State} (h : s.Canon) : s.retryAll.Canon := by
  grind -linarith [retryAll, settleNow_mem, followObjects_mem, retryLatches_canon, retryTrace_canon, retryStops_canon, retryRecords_canon,
    retryLater_canon]

theorem State.tick_canon {s : State} (h : s.Canon) : s.tick.Canon := by
  grind -linarith [tick, retryAll_canon, tickDogs_mem]

/-! ### The event that comes next (`Machine/Due.lean`) -/

theorem State.followed_canon {s : State} (h : s.Canon) {x : Instr × State} (hx : s.followed = some x) : x.2.Canon := by
  grind -linarith [followed]

@[simp] theorem State.without_mem (s : State) (e : Instr) : (s.without e).mem = s.mem := by
  unfold without
  split <;> rfl

theorem State.incoming_canon {s : State} (h : s.Canon) {x : Instr × State} (hx : s.incoming = some x) : x.2.Canon := by
  grind -linarith [incoming, without_mem]

theorem State.debugNext_canon {s : State} (h : s.Canon) {x : Instr × State} (hx : s.debugNext = some x) : x.2.Canon := by
  obtain ⟨e, -, rfl⟩ := Option.map_eq_some_iff.mp hx
  exact canon_of_mem (s.without_mem e) h

theorem State.afterWords_canon {s : State} (h : s.Canon) {x : Instr × State} (hx : s.afterWords = some x) : x.2.Canon := by
  unfold afterWords at hx
  grind -linarith [debugNext_canon, Option.map_eq_some_iff]

theorem State.nextEvent_canon {s : State} (h : s.Canon) {x : Instr × State} (hx : s.nextEvent = some x) : x.2.Canon := by
  grind -linarith [nextEvent, → followed_canon, → incoming_canon, → afterWords_canon]

/-! ### One instruction, one step -/

theorem next_canon {s t : State} (h : s.Canon) (ht : (Host.Outcome.next s : Out) = .next t) : t.Canon := by
  obtain rfl := Host.Outcome.next.inj ht
  exact h

theorem issueWord_canon {s : State} (h : s.Canon) (x : Insn) (ok : Iss → Bool) {body : State → Iss → Res}
    (hbody : ∀ t i, t.Canon → (body t i).Canon) {t : State} (ht : issueWord x ok body s = .next t) : t.Canon := by
  unfold issueWord at ht
  grind -linarith [runWord_canon]

theorem withIssuing_canon {s : State} (h : s.Canon) {f : State → Nat → Group → State}
    (hf : ∀ t a g, t.Canon → (f t a g).Canon) {t : State} (ht : withIssuing f s = .next t) : t.Canon := by
  unfold withIssuing at ht
  grind -linarith

/-- Every instruction keeps the form: a word by the lemma of its body, an event by the lemma of what it does where it is due. -/
theorem exec_canon {s : State} (h : s.Canon) (i : Instr) {t : State} (ht : exec i s = .next t) : t.Canon := by
  cases i with
  | sadd | ssub | smul | smulh | smulhu | sdiv | sdivu | srem | sremu | sand | sor | sxor | sshl | sshr | ssra | smin | smax | sminu
    | smaxu | sseq | sslt | ssltu | slea =>
    exact issueWord_canon h _ _ (fun _ _ hu => scalarAB_canon hu ..) ht
  | ssel => exact issueWord_canon h _ _ (fun _ _ hu => selectBody_canon hu ..) ht
  | sclz | spopc | sbrev => exact issueWord_canon h _ _ (fun _ _ hu => scalarA_canon hu ..) ht
  | sext | saddi | sandi | sori | sxori | sshli | sshri | ssrai => exact issueWord_canon h _ _ (fun _ _ hu => scalarAI_canon hu ..) ht
  | sli => exact issueWord_canon h _ _ (fun _ _ hu => loadImmBody_canon hu ..) ht
  | br => exact issueWord_canon h _ _ (fun _ _ hu => brBody_canon hu ..) ht
  | brz | brnz | brany | brall => exact issueWord_canon h _ _ (fun _ _ hu => branchIf_canon hu ..) ht
  | call => exact issueWord_canon h _ _ (fun _ _ hu => callBody_canon hu ..) ht
  | ret => exact issueWord_canon h _ _ (fun _ _ hu => retBody_canon hu ..) ht
  | jmp => exact issueWord_canon h _ _ (fun _ _ hu => jmpBody_canon hu ..) ht
  | vbr => exact issueWord_canon h _ _ (fun _ _ hu => vbrBody_canon hu ..) ht
  | vjoin => exact issueWord_canon h _ _ (fun _ _ hu => vjoinBody_canon hu ..) ht
  | exit => exact issueWord_canon h _ _ (fun _ _ hu => exitBody_canon hu ..) ht
  | nop => exact issueWord_canon h _ _ (fun _ _ hu => nopBody_canon hu ..) ht
  | phase => exact issueWord_canon h _ _ (fun _ _ hu => phaseBody_canon hu ..) ht
  | setmode => exact issueWord_canon h _ _ (fun _ _ hu => setmodeBody_canon hu ..) ht
  | modei => exact issueWord_canon h _ _ (fun _ _ hu => modeiBody_canon hu ..) ht
  | getmode => exact issueWord_canon h _ _ (fun _ _ hu => getmodeBody_canon hu ..) ht
  | srd => exact issueWord_canon h _ _ (fun _ _ hu => srdBody_canon hu ..) ht
  | swr => exact issueWord_canon h _ _ (fun _ _ hu => swrBody_canon hu ..) ht
  | trap => exact issueWord_canon h _ _ (fun _ _ hu => trapBody_canon hu ..) ht
  | tret => exact issueWord_canon h _ _ (fun _ _ hu => tretBody_canon hu ..) ht
  | bkpt => exact issueWord_canon h _ _ (fun _ _ hu => bkptBody_canon hu ..) ht
  | haltInsn => exact issueWord_canon h _ _ (fun _ _ hu => haltBody_canon hu ..) ht
  | wpset => exact issueWord_canon h _ _ (fun _ _ hu => wpsetBody_canon hu ..) ht
  | wpclr => exact issueWord_canon h _ _ (fun _ _ hu => wpclrBody_canon hu ..) ht
  | trc => exact issueWord_canon h _ _ (fun _ _ hu => trcBody_canon hu ..) ht
  | gget => exact issueWord_canon h _ _ (fun _ _ hu => ggetBody_canon hu ..) ht
  | gput => exact issueWord_canon h _ _ (fun _ _ hu => gputBody_canon hu ..) ht
  | mbox => exact issueWord_canon h _ _ (fun _ _ hu => mboxBody_canon hu ..) ht
  | perfrd => exact issueWord_canon h _ _ (fun _ _ hu => perfrdBody_canon hu ..) ht
  | enrd => exact issueWord_canon h _ _ (fun _ _ hu => enrdBody_canon hu ..) ht
  | sldB | sldH | sldW | sldD | slduB | slduH | slduW | sldDAcq | sldWAcq | pldW | pldD =>
    exact issueWord_canon h _ _ (fun _ _ hu => loadBody_canon hu ..) ht
  | sstB | sstH | sstW | sstD | sstDRel | sstWRel | pstW | pstD => exact issueWord_canon h _ _ (fun _ _ hu => storeBody_canon hu ..) ht
  | fence => exact issueWord_canon h _ _ (fun _ _ hu => fenceBody_canon hu ..) ht
  | waitv => exact issueWord_canon h _ _ (fun _ _ hu => waitvBody_canon hu ..) ht
  | atomAdd | atomAnd | atomOr | atomXor | atomMin | atomMax | atomMinu | atomMaxu | atomExch | atomCas | atomFadd =>
    exact issueWord_canon h _ _ (fun _ _ hu => atomBody_canon hu ..) ht
  | vadd | vsub | vmul | vmulh | vmulhu | vmad | vmin | vmax | vminu | vmaxu | vabs | vneg | vshl | vshr | vsra | vclz | vpopc | vsel
    | vaddi | vandi | fmin | fmax | fabs | fneg | fcpys | fclass | fsel =>
    exact issueWord_canon h _ _ (fun _ _ hu => elementwise_canon hu ..) ht
  | vand | vor | vxor | vnot => exact issueWord_canon h _ _ (fun _ _ hu => wholeLane_canon hu ..) ht
  | vcmpeq | vcmplt | vcmpltu | vcmple | fcmpeq | fcmplt | fcmple | fcmpun =>
    exact issueWord_canon h _ _ (fun _ _ hu => compareAll_canon hu ..) ht
  | vshli | vshri | vsrai => exact issueWord_canon h _ _ (fun _ _ hu => shiftImm_canon hu ..) ht
  | vmov | vshfl | vbcast => exact issueWord_canon h _ _ (fun _ _ hu => moveLanes_canon hu ..) ht
  | vsplat | vperm | viota => exact issueWord_canon h _ _ (fun _ _ hu => byIndex_canon hu ..) ht
  | vins => exact issueWord_canon h _ _ (fun _ _ hu => vinsBody_canon hu ..) ht
  | vrotl => exact issueWord_canon h _ _ (fun _ _ hu => vrotlBody_canon hu ..) ht
  | vpack => exact issueWord_canon h _ _ (fun _ _ hu => vpackBody_canon hu ..) ht
  | vunpk => exact issueWord_canon h _ _ (fun _ _ hu => vunpkBody_canon hu ..) ht
  | vzip => exact issueWord_canon h _ _ (fun _ _ hu => vzipBody_canon hu ..) ht
  | vunzip => exact issueWord_canon h _ _ (fun _ _ hu => vunzipBody_canon hu ..) ht
  | pand | por | pxor | pnot => exact issueWord_canon h _ _ (fun _ _ hu => predAB_canon hu ..) ht
  | pmov => exact issueWord_canon h _ _ (fun _ _ hu => pmovBody_canon hu ..) ht
  | pget => exact issueWord_canon h _ _ (fun _ _ hu => pgetBody_canon hu ..) ht
  | vredAdd => exact issueWord_canon h _ _ (fun _ _ hu => vredAddBody_canon hu ..) ht
  | vredMax | vredMin => exact issueWord_canon h _ _ (fun _ _ hu => vredPickBody_canon hu ..) ht
  | vredAnd | vredOr => exact issueWord_canon h _ _ (fun _ _ hu => vredBitsBody_canon hu ..) ht
  | vredlAdd => exact issueWord_canon h _ _ (fun _ _ hu => vredlBody_canon hu ..) ht
  | vscanAdd => exact issueWord_canon h _ _ (fun _ _ hu => vscanBody_canon hu ..) ht
  | yget => exact issueWord_canon h _ _ (fun _ _ hu => ygetBody_canon hu ..) ht
  | yseq => exact issueWord_canon h _ _ (fun _ _ hu => yseqBody_canon hu ..) ht
  | vsrd => exact issueWord_canon h _ _ (fun _ _ hu => vsrdBody_canon hu ..) ht
  | fadd | fsub | fmul | ffma | ffms | fnma | frcp | frsq | fsqrt | fexp2 | flog2 | ftanh =>
    exact issueWord_canon h _ _ (fun _ _ hu => arith_canon hu ..) ht
  | frnd => exact issueWord_canon h _ _ (fun _ _ hu => frndBody_canon hu ..) ht
  | fcvt | ftoi | itof | mxdq => exact issueWord_canon h _ _ (fun _ _ hu => convert_canon hu ..) ht
  | mxq => exact issueWord_canon h _ _ (fun _ _ hu => mxqBody_canon hu ..) ht
  | kget => exact issueWord_canon h _ _ (fun _ _ hu => kgetBody_canon hu ..) ht
  | kset => exact issueWord_canon h _ _ (fun _ _ hu => ksetBody_canon hu ..) ht
  | kadd => exact issueWord_canon h _ _ (fun _ _ hu => kaddBody_canon hu ..) ht
  | kmax => exact issueWord_canon h _ _ (fun _ _ hu => kmaxBody_canon hu ..) ht
  | xcvt => exact issueWord_canon h _ _ (fun _ _ hu => xcvtBody_canon hu ..) ht
  | vldW | vldD | vldQ | vldO | vldsW | vldsD | vldsQ | vldsO | vldOAcq | vldQAcq =>
    exact issueWord_canon h _ _ (fun _ _ hu => vecLoad_canon hu ..) ht
  | vstW | vstD | vstQ | vstO | vstsW | vstsD | vstsQ | vstsO | vstORel | vstQRel =>
    exact issueWord_canon h _ _ (fun _ _ hu => vecStore_canon hu ..) ht
  | vldmx | pldmx => exact issueWord_canon h _ _ (fun _ _ hu => mxLoad_canon hu ..) ht
  | vstmx | pstmx => exact issueWord_canon h _ _ (fun _ _ hu => mxStore_canon hu ..) ht
  | pldO => exact issueWord_canon h _ _ (fun _ _ hu => rowLoad_canon hu ..) ht
  | pstO => exact issueWord_canon h _ _ (fun _ _ hu => rowStore_canon hu ..) ht
  | vatomAdd | vatomMin | vatomMax | vatomExch | vatomCas | vatomFadd =>
    exact issueWord_canon h _ _ (fun _ _ hu => vatomBody_canon hu ..) ht
  | redstAdd | redstMin | redstMax | redstFadd => exact issueWord_canon h _ _ (fun _ _ hu => redstBody_canon hu ..) ht
  | redstX => exact issueWord_canon h _ _ (fun _ _ hu => redstCell_canon hu ..) ht
  | vprefetch => exact issueWord_canon h _ _ (fun _ _ hu => prefetchBody_canon hu ..) ht
  | lace => exact issueWord_canon h _ _ (fun _ _ hu => laceBody_canon hu ..) ht
  | lacew => exact issueWord_canon h _ _ (fun _ _ hu => lacewBody_canon hu ..) ht
  | laceq => exact issueWord_canon h _ _ (fun _ _ hu => laceqBody_canon hu ..) ht
  | lacek => exact issueWord_canon h _ _ (fun _ _ hu => lacekBody_canon hu ..) ht
  | rngget => exact issueWord_canon h _ _ (fun _ _ hu => rnggetBody_canon hu ..) ht
  | rngput => exact issueWord_canon h _ _ (fun _ _ hu => rngputBody_canon hu ..) ht
  | rngputInit => exact issueWord_canon h _ _ (fun _ _ hu => rngputInitBody_canon hu ..) ht
  | rngacq => exact issueWord_canon h _ _ (fun _ _ hu => rngacqBody_canon hu ..) ht
  | rngrel => exact issueWord_canon h _ _ (fun _ _ hu => rngrelBody_canon hu ..) ht
  | town => exact issueWord_canon h _ _ (fun _ _ hu => townBody_canon hu ..) ht
  | bara => exact issueWord_canon h _ _ (fun _ _ hu => baraBody_canon hu ..) ht
  | baraw => exact issueWord_canon h _ _ (fun _ _ hu => barawBody_canon hu ..) ht
  | barw => exact issueWord_canon h _ _ (fun _ _ hu => barwBody_canon hu ..) ht
  | bard => exact issueWord_canon h _ _ (fun _ _ hu => bardBody_canon hu ..) ht
  | barx => exact issueWord_canon h _ _ (fun _ _ hu => barxBody_canon hu ..) ht
  | barq => exact issueWord_canon h _ _ (fun _ _ hu => barqBody_canon hu ..) ht
  | barma => exact issueWord_canon h _ _ (fun _ _ hu => barmaBody_canon hu ..) ht
  | barmaw => exact issueWord_canon h _ _ (fun _ _ hu => barmawBody_canon hu ..) ht
  | barmw => exact issueWord_canon h _ _ (fun _ _ hu => barmwBody_canon hu ..) ht
  | barmd => exact issueWord_canon h _ _ (fun _ _ hu => barmdBody_canon hu ..) ht
  | barmx => exact issueWord_canon h _ _ (fun _ _ hu => barmxBody_canon hu ..) ht
  | barmq => exact issueWord_canon h _ _ (fun _ _ hu => barmqBody_canon hu ..) ht
  | capb => exact issueWord_canon h _ _ (fun _ _ hu => capbBody_canon hu ..) ht
  | caps => exact issueWord_canon h _ _ (fun _ _ hu => capsBody_canon hu ..) ht
  | cape => exact issueWord_canon h _ _ (fun _ _ hu => capeBody_canon hu ..) ht
  | capr => exact issueWord_canon h _ _ (fun _ _ hu => caprBody_canon hu ..) ht
  | bmset => exact issueWord_canon h _ _ (fun _ _ hu => bmsetBody_canon hu ..) ht
  | bmref => exact issueWord_canon h _ _ (fun _ _ hu => bmrefBody_canon hu ..) ht
  | bmbind => exact issueWord_canon h _ _ (fun _ _ hu => bmbindBody_canon hu ..) ht
  | bmunbind => exact issueWord_canon h _ _ (fun _ _ hu => bmunbindBody_canon hu ..) ht
  | bmrd => exact issueWord_canon h _ _ (fun _ _ hu => bmrdBody_canon hu ..) ht
  | bmclr => exact issueWord_canon h _ _ (fun _ _ hu => bmclrBody_canon hu ..) ht
  | gtok => exact issueWord_canon h _ _ (fun _ _ hu => gtokBody_canon hu ..) ht
  | glaunch => exact issueWord_canon h _ _ (fun _ _ hu => glaunchBody_canon hu ..) ht
  | gstat => exact issueWord_canon h _ _ (fun _ _ hu => gstatBody_canon hu ..) ht
  | gcancel => exact issueWord_canon h _ _ (fun _ _ hu => gcancelBody_canon hu ..) ht
  | gfail => exact issueWord_canon h _ _ (fun _ _ hu => gfailBody_canon hu ..) ht
  | yield => exact issueWord_canon h _ _ (fun _ _ hu => yieldBody_canon hu ..) ht
  | arel => exact issueWord_canon h _ _ (fun _ _ hu => arelBody_canon hu ..) ht
  | rqnt | rqntt => exact issueWord_canon h _ _ (fun _ _ hu => requant_canon hu ..) ht
  | ald => exact issueWord_canon h _ _ (fun _ _ hu => aldBody_canon hu ..) ht
  | ast => exact issueWord_canon h _ _ (fun _ _ hu => astBody_canon hu ..) ht
  | azero => exact issueWord_canon h _ _ (fun _ _ hu => azeroBody_canon hu ..) ht
  | apatch => exact issueWord_canon h _ _ (fun _ _ hu => apatchBody_canon hu ..) ht
  | aget => exact issueWord_canon h _ _ (fun _ _ hu => agetBody_canon hu ..) ht
  | ahnd => exact issueWord_canon h _ _ (fun _ _ hu => ahndBody_canon hu ..) ht
  | mma => exact issueWord_canon h _ _ (fun _ _ hu => mmaBody_canon hu ..) ht
  | partReset => exact next_canon (partReset_canon h ..) ht
  | dieOutOfService => exact next_canon (canon_of_mem (s.dieOut_mem ..) h) ht
  | rcvcmdCommit => exact next_canon (canon_of_mem (s.commit_mem ..) h) ht
  | recoveryCheckDone => exact next_canon (recoveryDone_canon h ..) ht
  | powerTick watts => exact next_canon (by split; exacts [canon_of_mem (s.powerTick_mem watts) h, h]) ht
  | pwrlimWrite => exact next_canon (canon_of_mem (s.writePwrlim_mem ..) h) ht
  | scrub => exact next_canon (h) ht
  | frameRetire => exact next_canon (ite_canon (retireFrame_canon h ..) h) ht
  | masterRelease => exact next_canon (masterRelease_canon h ..) ht
  | attestationReport => exact next_canon (canon_of_mem (s.attest_mem ..) h) ht
  | registerWrite => exact next_canon (canon_of_mem (s.writeRegister_mem ..) h) ht
  | commandWriteDropped => exact next_canon (canon_of_mem (s.overrun_mem ..) h) ht
  | ctxtabWrite => exact next_canon (canon_of_mem (s.writeCtxtab_mem ..) h) ht
  | qtabWrite => exact next_canon (canon_of_mem (s.writeQtab_mem ..) h) ht
  | windowAccess => exact next_canon (canon_of_mem (s.windowServe_mem ..) h) ht
  | ctxCreate => exact next_canon (ctxCmd_canon h _ _ _ fun _ hu => createCtx_canon hu _) ht
  | ctxLoad => exact next_canon (ctxCmd_canon h _ _ _ fun _ hu => loadCtx_canon hu _) ht
  | ctxRun => exact next_canon (ctxCmd_canon h _ _ _ fun _ hu => runCtx_canon hu _) ht
  | restoreReload => exact next_canon (ite_canon (reloadNext_canon h ..) h) ht
  | ctxDrain => exact next_canon (ctxCmd_canon h _ _ _ fun _ hu => drainCtx_canon hu _) ht
  | ctxPark => exact next_canon (ctxCmd_canon h _ _ _ fun _ hu => canon_of_mem (ctxResult_mem ..) (startPark_canon hu _)) ht
  | ctxReset => exact next_canon (ctxCmd_canon h _ _ _ fun _ hu => canon_of_mem (ctxResult_mem ..) (startReset_canon hu _)) ht
  | ctxDestroy => exact next_canon (ctxCmd_canon h _ _ _ fun _ hu => destroyCtx_canon hu _) ht
  | d1Expire => exact next_canon (ite_canon (startPark_canon h ..) h) ht
  | d2Expire => exact next_canon (ite_canon (startReset_canon h ..) h) ht
  | saveComplete => exact next_canon (ite_canon (save_canon h ..) h) ht
  | resetComplete => exact next_canon (ite_canon (endReset_canon h ..) h) ht
  | groupParkStop => exact next_canon (ite_canon (parkGroup_canon h ..) h) ht
  | queueOpen => exact next_canon (openQueue_canon h ..) ht
  | queuePause => exact next_canon (queueCmd_canon h _ _ _ fun _ hu => putQueue_canon (canon_of_mem (disarm_mem ..) hu) ..) ht
  | queueResume => exact next_canon (queueCmd_canon h _ _ _ fun _ hu => putQueue_canon hu ..) ht
  | queueDrain => exact next_canon (by split; exacts [drainQueue_canon h _, canon_of_mem (s.queueResult_mem ..) h]) ht
  | queueClose => exact next_canon (queueCmd_canon h _ _ _ fun _ hu => closeQueue_canon hu _) ht
  | queueClear => exact next_canon (queueCmd_canon h _ _ _ fun _ hu => putQueue_canon hu ..) ht
  | tailObservation => exact next_canon (serveQueue_canon h ..) ht
  | queueAdmit => exact next_canon (ite_canon (admitNext_canon h ..) h) ht
  | queuePriorityAging => exact next_canon (ite_canon (canon_of_mem (s.setQueue_mem ..) h) h) ht
  | graphComplete => exact next_canon (ite_canon (completeGraph_canon h ..) h) ht
  | nodeFire => exact next_canon (ite_canon (fire_canon h ..) h) ht
  | nodeAging => exact next_canon (ite_canon (canon_of_mem (s.raise_mem ..) h) h) ht
  | nodeWorkDone => exact next_canon (ite_canon (finishNode_canon h ..) h) ht
  | coneVisit => exact next_canon (ite_canon (visit_canon h ..) h) ht
  | nodeTimeout => exact next_canon (ite_canon (nodeFault_canon h ..) h) ht
  | nodeEngineDone => exact next_canon (getD_canon h (engineStep_canon h _)) ht
  | clusterOffer => exact next_canon (ite_canon (canon_of_mem (s.offer_mem ..) h) h) ht
  | clusterReserve => exact next_canon (ite_canon (canon_of_mem (s.reserve_mem ..) h) h) ht
  | recut => exact next_canon (ite_canon (doRecut_canon h ..) h) ht
  | blockLaunchDone => exact next_canon (ite_canon (canon_of_mem (s.launch_mem ..) h) h) ht
  | blockExit => exact next_canon (ite_canon (blockExit_canon h ..) h) ht
  | issueArbitration => exact next_canon (ite_canon (canon_of_mem (s.arbitrate_mem ..) h) h) ht
  | issuePromotion => exact next_canon (ite_canon (canon_of_mem (s.updGrp_mem ..) h) h) ht
  | dependenceResolved => exact next_canon (ite_canon (resolve_canon h ..) h) ht
  | phaseOverrun => exact next_canon (ite_canon (canon_of_mem (s.updGrp_mem ..) h) h) ht
  | asyncTrapDelivery => exact next_canon (ite_canon (deliverTrap_canon h ..) h) ht
  | vredLand => exact next_canon (ite_canon (canon_of_mem (s.updGrp_mem ..) h) h) ht
  | accComplete => exact next_canon (ite_canon (canon_of_mem (s.accStep_mem ..) h) h) ht
  | homeReq => exact next_canon (ite_canon (consume_canon h ..) h) ht
  | homeRsp => exact next_canon (ite_canon (canon_of_mem (s.respond_mem ..) h) h) ht
  | homeInv => exact next_canon (ite_canon (canon_of_mem (s.invalidated_mem ..) h) h) ht
  | watchFire => exact next_canon (ite_canon (fireWatch_canon h ..) h) ht
  | vwaitExpire => exact next_canon (ite_canon (wake_canon h ..) h) ht
  | lacerUnit => exact next_canon (ite_canon (lacerUnit_canon h ..) h) ht
  | lacerCommandEnd => exact next_canon (ite_canon (canon_of_mem (s.lacerEnd_mem ..) h) h) ht
  | dmasub => exact next_canon (canon_of_mem (s.dmaSubmit_mem ..) h) ht
  | dmaDescriptorStart => exact next_canon (ite_canon (descStart_canon h ..) h) ht
  | dmaDescriptorComplete => exact next_canon (getD_canon h (descStep_canon h _)) ht
  | barrierBatch => exact next_canon (ite_canon (applyBatch_canon h ..) h) ht
  | monitorCollect => exact next_canon (ite_canon (canon_of_mem (s.collect_mem ..) h) h) ht
  | monitorCheckDone => exact next_canon (ite_canon (judge_canon h ..) h) ht
  | barrierWatchdog => exact next_canon (ite_canon (canon_of_mem (s.dogExpire_mem ..) h) h) ht
  | clusterBarrierExchange => exact next_canon (ite_canon (canon_of_mem (s.exchangeHalves_mem ..) h) h) ht
  | stopMarking => exact next_canon (ite_canon (deliverMark_canon h ..) h) ht
  | reentry => exact next_canon (ite_canon (reenter_canon h ..) h) ht
  | logApplied => exact next_canon (endLog_canon h ..) ht
  | pageWalkDone => exact next_canon (ite_canon (endWalk_canon h ..) h) ht
  | tlbInvalidatePage => exact next_canon (canon_of_mem (settle_mem ..) (invalidatePage_canon h ..)) ht
  | tlbInvalidateContext => exact next_canon (canon_of_mem (settle_mem ..) (invalidateContext_canon h ..)) ht
  | tlbInvalidateLease => exact next_canon (canon_of_mem (settle_mem ..) (invalidateLease_canon h ..)) ht
  | leaseRevoke => exact next_canon (ite_canon (canon_of_mem (send_mem ..) (startRevoke_canon h _)) h) ht
  | leaseReturn => exact next_canon (ite_canon (endBorrow_canon h ..) h) ht
  | revocationMessage => exact next_canon (ite_canon (canon_of_mem (send_mem ..) (startRevoke_canon h _)) h) ht
  | leaseDeadline => exact next_canon (ite_canon (endBorrow_canon h ..) h) ht
  | leaseAcknowledge => exact next_canon (ite_canon (setLease_canon h ..) h) ht
  | leaseAckTimeout => exact next_canon (ite_canon (setLease_canon h ..) h) ht
  | linkEnable => exact next_canon (canon_of_mem (s.enableLink_mem ..) h) ht
  | linkDisable => exact next_canon (disableLink_canon h ..) ht
  | retrain => exact next_canon (canon_of_mem (s.retrainLink_mem ..) h) ht
  | linkTrained => exact next_canon (canon_of_mem (s.trainDone_mem ..) h) ht
  | linkTrainFailed => exact next_canon (trainFailed_canon h ..) ht
  | replayFailure => exact next_canon (canon_of_mem (s.retrainLink_mem ..) h) ht
  | hostAccess => exact next_canon (hostAccess_canon h ..) ht
  | cxlMemAccess => exact next_canon (cxlMem_canon h ..) ht
  | cxlCacheSnoop => exact next_canon (canon_of_mem (s.snoop_mem ..) h) ht
  | fabricRequest => exact next_canon (fabricServe_canon h ..) ht
  | dbgHalt => exact next_canon (canon_of_mem (s.haltCmd_mem ..) h) ht
  | dbgResume => exact next_canon (canon_of_mem (s.resumeCmd_mem ..) h) ht
  | dbgDump => exact next_canon (canon_of_mem (s.dumpCmd_mem ..) h) ht
  | dumpDone => exact next_canon (ite_canon (dump_canon h ..) h) ht
  | groupBroadcastStop => exact next_canon (ite_canon (stopGroup_canon h ..) h) ht
  | broadcastComplete => exact next_canon (ite_canon (canon_of_mem (s.broadcastEnd_mem ..) h) h) ht
  | snapshotTick => exact next_canon (ite_canon (snapshot_canon h ..) h) ht
  | ext p => exact withIssuing_canon (f := fun s a g => s.prefixWord a g p) h (fun _ _ _ hu => prefixWord_canon hu ..) ht
  | unassignedOpcode word =>
    exact withIssuing_canon (f := fun s a g => s.badWord a g cIllegalOpcode) h (fun _ _ _ hu => badWord_canon hu ..) ht
  | reservedFieldWord word =>
    exact withIssuing_canon (f := fun s a g => s.badWord a g (if privilegedWord word && !g.trapMode then cPrivilege else cIllegalOperand))
      h (fun _ _ _ hu => badWord_canon hu ..) ht
  | hostWindowPoll => exact next_canon (ite_canon (poll_canon h ..) h) ht
  | linkLevelReplay => exact next_canon (canon_of_mem (s.replayed_mem ..) h) ht
  | hostOrPeerCompletion => exact next_canon (completion_canon h ..) ht
  | attestationKeyCertify => exact next_canon (canon_of_mem (s.certify_mem ..) h) ht

/-- Settles O5 (01 R27, 00 R4, R10): a step is the next event, the next word of the clock, or the passing of the clock, and each
keeps the form. -/
theorem memoryKeepsItsForm : Obligations.MemoryKeepsItsForm := by
  intro s t h ht
  unfold step at ht
  split at ht
  next hevent => exact exec_canon (nextEvent_canon h hevent) _ ht
  next =>
    split at ht
    next hword => exact exec_canon (fetchNext_canon h hword) _ ht
    next hstop => exact next_canon (fetchNext_canon h hstop) ht
    next => exact next_canon (tick_canon h) ht

end Sys2Proof.Machine

/-!
The encoding (03 R61, R79), decode and encode: fields and words as numbers; of each shape of word, what its reader gives for the word of
an instruction, and that the instruction it gives has the word it was read from; then the tables of readers, by which both are collected
over the opcode map (O3). Single words of the map (O2, O60) follow from the first direction.
-/

namespace Sys2Proof

open Sys2Proof.Machine

/-! ### Fields and words as numbers -/

theorem append_toNat {n m : Nat} (x : BitVec n) (y : BitVec m) : (x ++ y).toNat = x.toNat * 2 ^ m + y.toNat := by
  rw [BitVec.toNat_append, ← Nat.shiftLeft_add_eq_or_of_lt y.isLt, Nat.shiftLeft_eq]

theorem slice_toNat {n : Nat} (w : BitVec n) (lo len : Nat) : (w.extractLsb' lo len).toNat = w.toNat / 2 ^ lo % 2 ^ len := by
  rw [BitVec.extractLsb'_toNat, Nat.shiftRight_eq_div_pow]

theorem bit_toNat {n : Nat} (w : BitVec n) (k : Nat) : (w.getLsbD k).toNat = w.toNat / 2 ^ k % 2 := by
  rw [BitVec.getLsbD, Nat.toNat_testBit]

theorem bit_eq {x y : Bool} (h : x.toNat = y.toNat) : x = y := by cases x <;> cases y <;> simp_all

theorem slice_eq_zero {n : Nat} {w : BitVec n} {lo len : Nat} : w.extractLsb' lo len = 0#len ↔ w.toNat / 2 ^ lo % 2 ^ len = 0 := by
  rw [← BitVec.toNat_inj, slice_toNat, BitVec.toNat_ofNat, Nat.zero_mod]

/-- A field whose bits are zero is zero, as the readers ask of reserved fields (R61). -/
theorem reserved {n : Nat} {w : BitVec n} {lo len : Nat} (h : w.toNat / 2 ^ lo % 2 ^ len = 0) : w.extractLsb' lo len = 0 :=
  slice_eq_zero.2 h

theorem fieldE_toNat (w : Word) : (fieldE w).toNat = w.toNat / 2 ^ 31 := by rw [fieldE, bit_toNat]; omega
theorem fieldOp_toNat (w : Word) : (fieldOp w).toNat = w.toNat / 2 ^ 21 % 2 ^ 10 := slice_toNat ..
theorem fieldD_toNat (w : Word) : (fieldD w).toNat = w.toNat / 2 ^ 14 % 2 ^ 7 := slice_toNat ..
theorem fieldA_toNat (w : Word) : (fieldA w).toNat = w.toNat / 2 ^ 7 % 2 ^ 7 := slice_toNat ..
theorem fieldB_toNat (w : Word) : (fieldB w).toNat = w.toNat / 2 ^ 0 % 2 ^ 7 := slice_toNat ..
theorem field14_toNat (w : Word) : (field14 w).toNat = w.toNat / 2 ^ 0 % 2 ^ 14 := slice_toNat ..
theorem field21_toNat (w : Word) : (field21 w).toNat = w.toNat / 2 ^ 0 % 2 ^ 21 := slice_toNat ..

theorem word777_toNat (e : Bool) (op : BitVec 10) (d a b : Field) :
    (word777 e op d a b).toNat = e.toNat * 2 ^ 31 + op.toNat * 2 ^ 21 + (d.toNat * 2 ^ 14 + a.toNat * 2 ^ 7 + b.toNat) := by
  simp only [word777, append_toNat, BitVec.toNat_ofBool]; omega

/-! The codes narrower than a field, with the zeros above them. -/

theorem pad1_toNat (k : BitVec 1) : (0#6 ++ k : Field).toNat = k.toNat := by rw [append_toNat]; simp
theorem pad2_toNat (k : BitVec 2) : (0#5 ++ k : Field).toNat = k.toNat := by rw [append_toNat]; simp
theorem pad4_toNat (k : BitVec 4) : (0#3 ++ k : Field).toNat = k.toNat := by rw [append_toNat]; simp
theorem pad5_toNat (k : BitVec 5) : (0#2 ++ k : Field).toNat = k.toNat := by rw [append_toNat]; simp
theorem pad24_toNat (s : BitVec 2) (k : BitVec 4) : (0#1 ++ s ++ k : Field).toNat = s.toNat * 2 ^ 4 + k.toNat := by
  rw [append_toNat, append_toNat]; simp
theorem set4_toNat (k : BitVec 4) : (1#1 ++ 0#2 ++ k : Field).toNat = 2 ^ 6 + k.toNat := by
  rw [append_toNat, append_toNat]; simp

/-- A word of format C is one of three fields. -/
theorem wordC_eq (e : Bool) (op : BitVec 10) (d : Field) (i : BitVec 14) :
    wordC e op d i = word777 e op d (i.extractLsb' 7 7) (i.extractLsb' 0 7) := by
  apply BitVec.eq_of_toNat_eq
  simp only [wordC, word777_toNat, append_toNat, slice_toNat, BitVec.toNat_ofBool]; omega

/-- A word of one field is one of three. -/
theorem wordL_eq (e : Bool) (op : BitVec 10) (i : BitVec 21) :
    wordL e op i = word777 e op (i.extractLsb' 14 7) (i.extractLsb' 7 7) (i.extractLsb' 0 7) := by
  apply BitVec.eq_of_toNat_eq
  simp only [wordL, word777_toNat, append_toNat, slice_toNat, BitVec.toNat_ofBool]; omega

/-! ### The fields of a word -/

section
variable (e : Bool) (op : BitVec 10) (d a b : Field)

@[simp] theorem fieldE_word777 : fieldE (word777 e op d a b) = e := by
  have h : (fieldE (word777 e op d a b)).toNat = e.toNat := by rw [fieldE_toNat, word777_toNat]; omega
  cases e <;> simpa using h
@[simp] theorem fieldOp_word777 : fieldOp (word777 e op d a b) = op := by
  apply BitVec.eq_of_toNat_eq; rw [fieldOp_toNat, word777_toNat]; have := e.toNat_le; omega
@[simp] theorem fieldD_word777 : fieldD (word777 e op d a b) = d := by
  apply BitVec.eq_of_toNat_eq; rw [fieldD_toNat, word777_toNat]; omega
@[simp] theorem fieldA_word777 : fieldA (word777 e op d a b) = a := by
  apply BitVec.eq_of_toNat_eq; rw [fieldA_toNat, word777_toNat]; omega
@[simp] theorem fieldB_word777 : fieldB (word777 e op d a b) = b := by
  apply BitVec.eq_of_toNat_eq; rw [fieldB_toNat, word777_toNat]; omega
end

section
variable (e : Bool) (op : BitVec 10) (d : Field) (i : BitVec 14) (l : BitVec 21)

@[simp] theorem fieldE_wordC : fieldE (wordC e op d i) = e := by rw [wordC_eq, fieldE_word777]
@[simp] theorem fieldOp_wordC : fieldOp (wordC e op d i) = op := by rw [wordC_eq, fieldOp_word777]
@[simp] theorem fieldD_wordC : fieldD (wordC e op d i) = d := by rw [wordC_eq, fieldD_word777]
@[simp] theorem field14_wordC : field14 (wordC e op d i) = i := by
  apply BitVec.eq_of_toNat_eq; rw [field14_toNat, wordC_eq, word777_toNat, slice_toNat, slice_toNat]; omega
@[simp] theorem fieldE_wordL : fieldE (wordL e op l) = e := by rw [wordL_eq, fieldE_word777]
@[simp] theorem fieldOp_wordL : fieldOp (wordL e op l) = op := by rw [wordL_eq, fieldOp_word777]
@[simp] theorem field21_wordL : field21 (wordL e op l) = l := by
  apply BitVec.eq_of_toNat_eq; rw [field21_toNat, wordL_eq, word777_toNat, slice_toNat, slice_toNat, slice_toNat]; omega
end

/-- A code in the last bits of a word is read there. -/
theorem low_word777 {n : Nat} {e : Bool} {op : BitVec 10} {d a b : Field} {k : BitVec n} (hn : n ≤ 7) (hk : b.toNat = k.toNat) :
    (word777 e op d a b).extractLsb' 0 n = k := by
  apply BitVec.eq_of_toNat_eq
  have hdvd : 2 ^ n ∣ 2 ^ 7 := Nat.pow_dvd_pow 2 hn
  rw [slice_toNat, pow_zero, Nat.div_one, ← Nat.mod_mod_of_dvd _ hdvd, word777_toNat, show
    (e.toNat * 2 ^ 31 + op.toNat * 2 ^ 21 + (d.toNat * 2 ^ 14 + a.toNat * 2 ^ 7 + b.toNat)) % 2 ^ 7 = b.toNat by omega, hk,
    Nat.mod_eq_of_lt k.isLt]

/-- A word is its E, its opcode and its low 21 bits, as they are cut into fields. -/
theorem word777_fields {w : Word} {d a b : Field} (h : w.toNat % 2 ^ 21 = d.toNat * 2 ^ 14 + a.toNat * 2 ^ 7 + b.toNat) :
    word777 (fieldE w) (fieldOp w) d a b = w := by
  apply BitVec.eq_of_toNat_eq
  rw [word777_toNat, fieldE_toNat, fieldOp_toNat, ← h]
  clear h
  omega

/-- Of every word of the opcode, the instruction that the reader gives has that word. -/
def ReadsBack (op : BitVec 10) (read : Word → Option Instr) : Prop :=
  ∀ (w : Word) (i : Instr), fieldOp w = op → read w = some i → encode i = some w

/-! ### What a reader gives for the word of an instruction -/

section
variable {e : Bool} {op : BitVec 10} {d a b : Field} {i : BitVec 14} {l : BitVec 21}

theorem readEDAB_word {f : Bool → Field → Field → Field → Instr} : readEDAB f (word777 e op d a b) = some (f e d a b) := by
  simp [readEDAB]

theorem readEDA_word {f : Bool → Field → Field → Instr} : readEDA f (word777 e op d a 0#7) = some (f e d a) := by simp [readEDA]

theorem readEAB_word {f : Bool → Field → Field → Instr} : readEAB f (word777 e op 0#7 a b) = some (f e a b) := by simp [readEAB]

theorem readEDI7_word {f : Bool → Field → Field → Instr} : readEDI7 f (word777 e op d 0#7 b) = some (f e d b) := by simp [readEDI7]

theorem readEA_word {f : Bool → Field → Instr} : readEA f (word777 e op 0#7 a 0#7) = some (f e a) := by simp [readEA]

theorem readED_word {f : Bool → Field → Instr} : readED f (word777 e op d 0#7 0#7) = some (f e d) := by
  rw [readED, field14, if_pos (reserved (by simp only [word777_toNat, BitVec.toNat_zero]; omega))]; simp

theorem readEI7_word {f : Bool → Field → Instr} : readEI7 f (word777 e op 0#7 0#7 b) = some (f e b) := by
  rw [readEI7, if_pos (reserved (by simp only [word777_toNat, BitVec.toNat_zero]; omega))]; simp

theorem field21_bare : field21 (word777 e op 0#7 0#7 0#7) = 0 :=
  reserved (by simp only [word777_toNat, BitVec.toNat_zero]; omega)

theorem readE_word {f : Bool → Instr} : readE f (word777 e op 0#7 0#7 0#7) = some (f e) := by
  rw [readE, if_pos field21_bare, fieldE_word777]

theorem readBareEnd_word {x : Instr} : readBareEnd x (word777 true op 0#7 0#7 0#7) = some x := by
  rw [readBareEnd, if_pos ⟨fieldE_word777 .., field21_bare⟩]

theorem readEDI14_word {f : Bool → Field → BitVec 14 → Instr} : readEDI14 f (wordC e op d i) = some (f e d i) := by simp [readEDI14]

theorem readEI14_word {f : Bool → BitVec 14 → Instr} : readEI14 f (wordC e op 0#7 i) = some (f e i) := by simp [readEI14]

theorem readAO14End_word {f : Field → BitVec 14 → Instr} : readAO14End f (wordC true op d i) = some (f d i) := by simp [readAO14End]

theorem readI21End_word {f : BitVec 21 → Instr} : readI21End f (wordL true op l) = some (f l) := by simp [readI21End]

theorem readP21_word {f : BitVec 21 → Instr} : readP21 f (wordL false op l) = some (f l) := by simp [readP21]

theorem readEDAI1_word {f : Bool → Field → Field → BitVec 1 → Instr} {k : BitVec 1} :
    readEDAI1 f (word777 e op d a (0#6 ++ k)) = some (f e d a k) := by
  rw [readEDAI1, if_pos (reserved (by simp only [word777_toNat, pad1_toNat]; omega)), low_word777 (by decide) (pad1_toNat k)]; simp

theorem readEDAI2_word {f : Bool → Field → Field → BitVec 2 → Instr} {k : BitVec 2} :
    readEDAI2 f (word777 e op d a (0#5 ++ k)) = some (f e d a k) := by
  rw [readEDAI2, if_pos (reserved (by simp only [word777_toNat, pad2_toNat]; omega)), low_word777 (by decide) (pad2_toNat k)]; simp

theorem readEAI2_word {f : Bool → Field → BitVec 2 → Instr} {k : BitVec 2} :
    readEAI2 f (word777 e op 0#7 a (0#5 ++ k)) = some (f e a k) := by
  rw [readEAI2, if_pos ⟨reserved (by simp only [word777_toNat, pad2_toNat]; omega), fieldD_word777 ..⟩,
    low_word777 (by decide) (pad2_toNat k)]
  simp

theorem readEDI2_word {f : Bool → Field → BitVec 2 → Instr} {k : BitVec 2} :
    readEDI2 f (word777 e op d 0#7 (0#5 ++ k)) = some (f e d k) := by
  rw [readEDI2, if_pos (reserved (by simp only [word777_toNat, pad2_toNat, BitVec.toNat_zero]; omega)),
    low_word777 (by decide) (pad2_toNat k)]
  simp

theorem readEDI4_word {f : Bool → Field → BitVec 4 → Instr} {k : BitVec 4} :
    readEDI4 f (word777 e op d 0#7 (0#3 ++ k)) = some (f e d k) := by
  rw [readEDI4, if_pos (reserved (by simp only [word777_toNat, pad4_toNat, BitVec.toNat_zero]; omega)),
    low_word777 (by decide) (pad4_toNat k)]
  simp

theorem readEI4_word {f : Bool → BitVec 4 → Instr} {k : BitVec 4} :
    readEI4 f (word777 e op 0#7 0#7 (0#3 ++ k)) = some (f e k) := by
  rw [readEI4, if_pos (reserved (by simp only [word777_toNat, pad4_toNat, BitVec.toNat_zero]; omega)),
    low_word777 (by decide) (pad4_toNat k)]
  simp

theorem readEAI4_word {f : Bool → Field → BitVec 4 → Instr} {k : BitVec 4} :
    readEAI4 f (word777 e op 0#7 a (0#3 ++ k)) = some (f e a k) := by
  rw [readEAI4, if_pos ⟨reserved (by simp only [word777_toNat, pad4_toNat]; omega), fieldD_word777 ..⟩,
    low_word777 (by decide) (pad4_toNat k)]
  simp

theorem readEDI5_word {f : Bool → Field → BitVec 5 → Instr} {k : BitVec 5} :
    readEDI5 f (word777 e op d 0#7 (0#2 ++ k)) = some (f e d k) := by
  rw [readEDI5, if_pos (reserved (by simp only [word777_toNat, pad5_toNat, BitVec.toNat_zero]; omega)),
    low_word777 (by decide) (pad5_toNat k)]
  simp

theorem readEAI5_word {f : Bool → Field → BitVec 5 → Instr} {k : BitVec 5} :
    readEAI5 f (word777 e op 0#7 a (0#2 ++ k)) = some (f e a k) := by
  rw [readEAI5, if_pos ⟨reserved (by simp only [word777_toNat, pad5_toNat]; omega), fieldD_word777 ..⟩,
    low_word777 (by decide) (pad5_toNat k)]
  simp

theorem readEDS2I4_word {f : Bool → Field → BitVec 2 → BitVec 4 → Instr} {s : BitVec 2} {k : BitVec 4} :
    readEDS2I4 f (word777 e op d 0#7 (0#1 ++ s ++ k)) = some (f e d s k) := by
  have hs : (word777 e op d 0#7 (0#1 ++ s ++ k)).extractLsb' 4 2 = s := BitVec.eq_of_toNat_eq (by
    rw [slice_toNat, word777_toNat, pad24_toNat, BitVec.toNat_zero]; omega)
  have hk : (word777 e op d 0#7 (0#1 ++ s ++ k)).extractLsb' 0 4 = k := BitVec.eq_of_toNat_eq (by
    rw [slice_toNat, word777_toNat, pad24_toNat, BitVec.toNat_zero]; omega)
  rw [readEDS2I4, if_pos (reserved (by simp only [word777_toNat, pad24_toNat, BitVec.toNat_zero]; omega)), hs, hk]
  simp

/-- Bit 6 of a word is that of its last field. -/
theorem bit6_word777 : (word777 e op d a b).getLsbD 6 = b.getLsbD 6 :=
  bit_eq (by simp only [bit_toNat, word777_toNat]; omega)

/-- A word with bit 6 cleared is the word of its fields with that bit cleared. -/
theorem clear6_word777 : word777 e op d a b &&& 0xFFFFFFBF#32 = word777 e op d a (b &&& 0x3F#7) := by
  have hmask : 0xFFFFFFBF#32 = BitVec.allOnes (1 + 10 + 7 + 7) ++ 0x3F#7 := by decide
  rw [hmask, word777, word777, BitVec.and_append, BitVec.and_allOnes]

/-- Of two shapes told apart by bit 6 of the immediate (R275, R324), the one without it. -/
theorem readBit6_plain {plain set : Word → Option Instr} {k : BitVec 4} :
    readBit6 plain set (word777 e op d a (0#3 ++ k)) = plain (word777 e op d a (0#3 ++ k)) := by
  have hk : (0#3 ++ k : Field).getLsbD 6 = false := by revert k; decide
  rw [readBit6, bit6_word777, hk, if_neg Bool.false_ne_true]

theorem readBit6_set {plain set : Word → Option Instr} {k : BitVec 4} :
    readBit6 plain set (word777 e op d a (1#1 ++ 0#2 ++ k)) = set (word777 e op d a (0#3 ++ k)) := by
  have hk : (1#1 ++ 0#2 ++ k : Field).getLsbD 6 = true := by revert k; decide
  have hmask : (1#1 ++ 0#2 ++ k : Field) &&& 0x3F#7 = 0#3 ++ k := by revert k; decide
  rw [readBit6, bit6_word777, hk, if_pos rfl, clear6_word777, hmask]

/-- The word of an `mma` (R61, format M). -/
theorem mma_word (s : BitVec 3) (h : BitVec 4) (z n : Bool) :
    BitVec.ofBool e ++ 0b1111000#7 ++ s ++ h ++ BitVec.ofBool z ++ BitVec.ofBool n ++ 0#1 ++ a ++ b =
      word777 e (0b1111000#7 ++ s) (h ++ BitVec.ofBool z ++ BitVec.ofBool n ++ 0#1) a b := by
  apply BitVec.eq_of_toNat_eq
  simp only [word777_toNat, append_toNat, BitVec.toNat_ofBool]
  omega

theorem readMma_word {f : Bool → BitVec 3 → BitVec 4 → Bool → Bool → Field → Field → Instr} {s : BitVec 3} {h : BitVec 4}
    {z n : Bool} :
    readES3HZNAB f (word777 e (0b1111000#7 ++ s) (h ++ BitVec.ofBool z ++ BitVec.ofBool n ++ 0#1) a b) =
      some (f e s h z n a b) := by
  have hd : (h ++ BitVec.ofBool z ++ BitVec.ofBool n ++ 0#1 : Field).toNat = h.toNat * 8 + z.toNat * 4 + n.toNat * 2 := by
    simp only [append_toNat, BitVec.toNat_ofBool, BitVec.toNat_zero]; omega
  have hop : (0b1111000#7 ++ s : BitVec 10).toNat = 0x3C0 + s.toNat := by rw [append_toNat]; rfl
  have hz1 := z.toNat_le
  have hn1 := n.toNat_le
  set w := word777 e (0b1111000#7 ++ s) (h ++ BitVec.ofBool z ++ BitVec.ofBool n ++ 0#1) a b with hw
  have hn : w.toNat = e.toNat * 2 ^ 31 + (0x3C0 + s.toNat) * 2 ^ 21 +
      ((h.toNat * 8 + z.toNat * 4 + n.toNat * 2) * 2 ^ 14 + a.toNat * 2 ^ 7 + b.toNat) := by
    rw [hw, word777_toNat, hd, hop]
  have hsel : w.extractLsb' 21 3 = s := BitVec.eq_of_toNat_eq (by rw [slice_toNat, hn]; omega)
  have hh : w.extractLsb' 17 4 = h := BitVec.eq_of_toNat_eq (by rw [slice_toNat, hn]; omega)
  have hz : w.getLsbD 16 = z := bit_eq (by rw [bit_toNat, hn]; omega)
  have hneg : w.getLsbD 15 = n := bit_eq (by rw [bit_toNat, hn]; omega)
  rw [readES3HZNAB, if_pos (reserved (by rw [hn]; omega)), hsel, hh, hz, hneg, hw]
  simp

end

/-! ### The instruction that a reader gives has the word it was read from -/

section
variable {op : BitVec 10}

theorem readsBack_EDAB {f : Bool → Field → Field → Field → Instr} (h : ∀ e d a b, encode (f e d a b) = some (word777 e op d a b)) :
    ReadsBack op (readEDAB f) := by
  rintro w i rfl ⟨⟩
  rw [h, word777_fields]
  simp only [fieldD_toNat, fieldA_toNat, fieldB_toNat]
  omega

theorem readsBack_EDA {f : Bool → Field → Field → Instr} (h : ∀ e d a, encode (f e d a) = some (word777 e op d a 0#7)) :
    ReadsBack op (readEDA f) := by
  rintro w i rfl hr
  obtain ⟨hz, ⟨⟩⟩ := Option.ite_none_right_eq_some.1 hr
  replace hz := slice_eq_zero.1 hz
  rw [h, word777_fields]
  simp only [fieldD_toNat, fieldA_toNat, BitVec.toNat_zero]
  omega

theorem readsBack_EAB {f : Bool → Field → Field → Instr} (h : ∀ e a b, encode (f e a b) = some (word777 e op 0#7 a b)) :
    ReadsBack op (readEAB f) := by
  rintro w i rfl hr
  obtain ⟨hz, ⟨⟩⟩ := Option.ite_none_right_eq_some.1 hr
  replace hz := slice_eq_zero.1 hz
  rw [h, word777_fields]
  simp only [fieldA_toNat, fieldB_toNat, BitVec.toNat_zero]
  omega

theorem readsBack_EDI7 {f : Bool → Field → Field → Instr} (h : ∀ e d b, encode (f e d b) = some (word777 e op d 0#7 b)) :
    ReadsBack op (readEDI7 f) := by
  rintro w i rfl hr
  obtain ⟨hz, ⟨⟩⟩ := Option.ite_none_right_eq_some.1 hr
  replace hz := slice_eq_zero.1 hz
  rw [h, word777_fields]
  simp only [fieldD_toNat, fieldB_toNat, BitVec.toNat_zero]
  omega

theorem readsBack_EA {f : Bool → Field → Instr} (h : ∀ e a, encode (f e a) = some (word777 e op 0#7 a 0#7)) :
    ReadsBack op (readEA f) := by
  rintro w i rfl hr
  obtain ⟨⟨hz, hd⟩, ⟨⟩⟩ := Option.ite_none_right_eq_some.1 hr
  replace hz := slice_eq_zero.1 hz
  replace hd := slice_eq_zero.1 hd
  rw [h, word777_fields]
  simp only [fieldA_toNat, BitVec.toNat_zero]
  omega

theorem readsBack_ED {f : Bool → Field → Instr} (h : ∀ e d, encode (f e d) = some (word777 e op d 0#7 0#7)) :
    ReadsBack op (readED f) := by
  rintro w i rfl hr
  obtain ⟨hz, ⟨⟩⟩ := Option.ite_none_right_eq_some.1 hr
  replace hz := slice_eq_zero.1 hz
  rw [h, word777_fields]
  simp only [fieldD_toNat, BitVec.toNat_zero]
  omega

theorem readsBack_EI7 {f : Bool → Field → Instr} (h : ∀ e b, encode (f e b) = some (word777 e op 0#7 0#7 b)) :
    ReadsBack op (readEI7 f) := by
  rintro w i rfl hr
  obtain ⟨hz, ⟨⟩⟩ := Option.ite_none_right_eq_some.1 hr
  replace hz := slice_eq_zero.1 hz
  rw [h, word777_fields]
  simp only [fieldB_toNat, BitVec.toNat_zero]
  omega

theorem readsBack_E {f : Bool → Instr} (h : ∀ e, encode (f e) = some (word777 e op 0#7 0#7 0#7)) :
    ReadsBack op (readE f) := by
  rintro w i rfl hr
  obtain ⟨hz, ⟨⟩⟩ := Option.ite_none_right_eq_some.1 hr
  replace hz := slice_eq_zero.1 hz
  rw [h, word777_fields]
  simp only [BitVec.toNat_zero]
  omega

theorem readsBack_BareEnd {x : Instr} (h : encode x = some (word777 true op 0#7 0#7 0#7)) :
    ReadsBack op (readBareEnd x) := by
  rintro w i rfl hr
  obtain ⟨⟨he, hz⟩, ⟨⟩⟩ := Option.ite_none_right_eq_some.1 hr
  replace hz := slice_eq_zero.1 hz
  rw [h, ← he, word777_fields]
  simp only [BitVec.toNat_zero]
  omega

theorem readsBack_EDI14 {f : Bool → Field → BitVec 14 → Instr} (h : ∀ e d k, encode (f e d k) = some (wordC e op d k)) :
    ReadsBack op (readEDI14 f) := by
  rintro w i rfl ⟨⟩
  rw [h, wordC_eq, word777_fields]
  simp only [fieldD_toNat, slice_toNat, field14_toNat]
  omega

theorem readsBack_EI14 {f : Bool → BitVec 14 → Instr} (h : ∀ e k, encode (f e k) = some (wordC e op 0#7 k)) :
    ReadsBack op (readEI14 f) := by
  rintro w i rfl hr
  obtain ⟨hz, ⟨⟩⟩ := Option.ite_none_right_eq_some.1 hr
  replace hz := slice_eq_zero.1 hz
  rw [h, wordC_eq, word777_fields]
  simp only [slice_toNat, field14_toNat, BitVec.toNat_zero]
  omega

theorem readsBack_AO14End {f : Field → BitVec 14 → Instr} (h : ∀ d k, encode (f d k) = some (wordC true op d k)) :
    ReadsBack op (readAO14End f) := by
  rintro w i rfl hr
  obtain ⟨he, ⟨⟩⟩ := Option.ite_none_right_eq_some.1 hr
  rw [h, wordC_eq, ← he, word777_fields]
  simp only [fieldD_toNat, slice_toNat, field14_toNat]
  omega

theorem readsBack_I21End {f : BitVec 21 → Instr} (h : ∀ k, encode (f k) = some (wordL true op k)) :
    ReadsBack op (readI21End f) := by
  rintro w i rfl hr
  obtain ⟨he, ⟨⟩⟩ := Option.ite_none_right_eq_some.1 hr
  rw [h, wordL_eq, ← he, word777_fields]
  simp only [slice_toNat, field21_toNat]
  omega

theorem readsBack_P21 {f : BitVec 21 → Instr} (h : ∀ k, encode (f k) = some (wordL false op k)) :
    ReadsBack op (readP21 f) := by
  rintro w i rfl hr
  obtain ⟨he, ⟨⟩⟩ := Option.ite_none_right_eq_some.1 hr
  rw [h, wordL_eq, ← he, word777_fields]
  simp only [slice_toNat, field21_toNat]
  omega

theorem readsBack_EDAI1 {f : Bool → Field → Field → BitVec 1 → Instr}
    (h : ∀ e d a k, encode (f e d a k) = some (word777 e op d a (0#6 ++ k))) :
    ReadsBack op (readEDAI1 f) := by
  rintro w i rfl hr
  obtain ⟨hz, ⟨⟩⟩ := Option.ite_none_right_eq_some.1 hr
  replace hz := slice_eq_zero.1 hz
  rw [h, word777_fields]
  simp only [fieldD_toNat, fieldA_toNat, pad1_toNat, slice_toNat]
  omega

theorem readsBack_EDAI2 {f : Bool → Field → Field → BitVec 2 → Instr}
    (h : ∀ e d a k, encode (f e d a k) = some (word777 e op d a (0#5 ++ k))) :
    ReadsBack op (readEDAI2 f) := by
  rintro w i rfl hr
  obtain ⟨hz, ⟨⟩⟩ := Option.ite_none_right_eq_some.1 hr
  replace hz := slice_eq_zero.1 hz
  rw [h, word777_fields]
  simp only [fieldD_toNat, fieldA_toNat, pad2_toNat, slice_toNat]
  omega

theorem readsBack_EAI2 {f : Bool → Field → BitVec 2 → Instr} (h : ∀ e a k, encode (f e a k) = some (word777 e op 0#7 a (0#5 ++ k))) :
    ReadsBack op (readEAI2 f) := by
  rintro w i rfl hr
  obtain ⟨⟨hz, hd⟩, ⟨⟩⟩ := Option.ite_none_right_eq_some.1 hr
  replace hz := slice_eq_zero.1 hz
  replace hd := slice_eq_zero.1 hd
  rw [h, word777_fields]
  simp only [fieldA_toNat, pad2_toNat, slice_toNat, BitVec.toNat_zero]
  omega

theorem readsBack_EDI2 {f : Bool → Field → BitVec 2 → Instr} (h : ∀ e d k, encode (f e d k) = some (word777 e op d 0#7 (0#5 ++ k))) :
    ReadsBack op (readEDI2 f) := by
  rintro w i rfl hr
  obtain ⟨hz, ⟨⟩⟩ := Option.ite_none_right_eq_some.1 hr
  replace hz := slice_eq_zero.1 hz
  rw [h, word777_fields]
  simp only [fieldD_toNat, pad2_toNat, slice_toNat, BitVec.toNat_zero]
  omega

theorem readsBack_EDI4 {f : Bool → Field → BitVec 4 → Instr} (h : ∀ e d k, encode (f e d k) = some (word777 e op d 0#7 (0#3 ++ k))) :
    ReadsBack op (readEDI4 f) := by
  rintro w i rfl hr
  obtain ⟨hz, ⟨⟩⟩ := Option.ite_none_right_eq_some.1 hr
  replace hz := slice_eq_zero.1 hz
  rw [h, word777_fields]
  simp only [fieldD_toNat, pad4_toNat, slice_toNat, BitVec.toNat_zero]
  omega

theorem readsBack_EI4 {f : Bool → BitVec 4 → Instr} (h : ∀ e k, encode (f e k) = some (word777 e op 0#7 0#7 (0#3 ++ k))) :
    ReadsBack op (readEI4 f) := by
  rintro w i rfl hr
  obtain ⟨hz, ⟨⟩⟩ := Option.ite_none_right_eq_some.1 hr
  replace hz := slice_eq_zero.1 hz
  rw [h, word777_fields]
  simp only [pad4_toNat, slice_toNat, BitVec.toNat_zero]
  omega

theorem readsBack_EAI4 {f : Bool → Field → BitVec 4 → Instr} (h : ∀ e a k, encode (f e a k) = some (word777 e op 0#7 a (0#3 ++ k))) :
    ReadsBack op (readEAI4 f) := by
  rintro w i rfl hr
  obtain ⟨⟨hz, hd⟩, ⟨⟩⟩ := Option.ite_none_right_eq_some.1 hr
  replace hz := slice_eq_zero.1 hz
  replace hd := slice_eq_zero.1 hd
  rw [h, word777_fields]
  simp only [fieldA_toNat, pad4_toNat, slice_toNat, BitVec.toNat_zero]
  omega

theorem readsBack_EDI5 {f : Bool → Field → BitVec 5 → Instr} (h : ∀ e d k, encode (f e d k) = some (word777 e op d 0#7 (0#2 ++ k))) :
    ReadsBack op (readEDI5 f) := by
  rintro w i rfl hr
  obtain ⟨hz, ⟨⟩⟩ := Option.ite_none_right_eq_some.1 hr
  replace hz := slice_eq_zero.1 hz
  rw [h, word777_fields]
  simp only [fieldD_toNat, pad5_toNat, slice_toNat, BitVec.toNat_zero]
  omega

theorem readsBack_EAI5 {f : Bool → Field → BitVec 5 → Instr} (h : ∀ e a k, encode (f e a k) = some (word777 e op 0#7 a (0#2 ++ k))) :
    ReadsBack op (readEAI5 f) := by
  rintro w i rfl hr
  obtain ⟨⟨hz, hd⟩, ⟨⟩⟩ := Option.ite_none_right_eq_some.1 hr
  replace hz := slice_eq_zero.1 hz
  replace hd := slice_eq_zero.1 hd
  rw [h, word777_fields]
  simp only [fieldA_toNat, pad5_toNat, slice_toNat, BitVec.toNat_zero]
  omega

theorem readsBack_EDS2I4 {f : Bool → Field → BitVec 2 → BitVec 4 → Instr}
    (h : ∀ e d s k, encode (f e d s k) = some (word777 e op d 0#7 (0#1 ++ s ++ k))) :
    ReadsBack op (readEDS2I4 f) := by
  rintro w i rfl hr
  obtain ⟨hz, ⟨⟩⟩ := Option.ite_none_right_eq_some.1 hr
  replace hz := slice_eq_zero.1 hz
  rw [h, word777_fields]
  simp only [fieldD_toNat, pad24_toNat, slice_toNat, BitVec.toNat_zero]
  omega

/-- A word with bit 6 set is read as the word without it is, by the second shape. -/
theorem readsBack_bit6 {plain : Word → Option Instr} {f : Bool → Field → BitVec 4 → Instr} (hp : ReadsBack op plain)
    (h : ∀ e a k, encode (f e a k) = some (word777 e op 0#7 a (1#1 ++ 0#2 ++ k))) : ReadsBack op (readBit6 plain (readEAI4 f)) := by
  rintro w i rfl hr
  cases hbit : w.getLsbD 6 with
  | false =>
    rw [readBit6, hbit, if_neg Bool.false_ne_true] at hr
    exact hp w i rfl hr
  | true =>
    have hw : word777 (fieldE w) (fieldOp w) (fieldD w) (fieldA w) (fieldB w) = w :=
      word777_fields (by simp only [fieldD_toNat, fieldA_toNat, fieldB_toNat]; omega)
    have hclear : ∀ b : Field, b.getLsbD 6 = true → (b &&& 0x3F#7).toNat + 64 = b.toNat := by decide
    have hlow := hclear (fieldB w) (by rw [← bit6_word777, hw, hbit])
    rw [readBit6, hbit, if_pos rfl, ← hw, clear6_word777] at hr
    obtain ⟨⟨hz, hd⟩, ⟨⟩⟩ := Option.ite_none_right_eq_some.1 hr
    rw [fieldD_word777] at hd
    replace hz := slice_eq_zero.1 hz
    rw [fieldE_word777, fieldA_word777, h, word777_fields]
    simp only [word777_toNat] at hz
    simp only [set4_toNat, slice_toNat, word777_toNat, fieldA_toNat, BitVec.toNat_zero]
    replace hd := slice_eq_zero.1 hd
    rw [fieldB_toNat] at hlow
    omega

theorem encode_mma (e : Bool) (s : BitVec 3) (h : BitVec 4) (z n : Bool) (a b : Field) : encode (.mma e s h z n a b) =
    some (word777 e (0b1111000#7 ++ s) (h ++ BitVec.ofBool z ++ BitVec.ofBool n ++ 0#1) a b) := congrArg some (mma_word ..)

theorem readsBack_mma (hop : op.toNat / 8 = 0x78) : ReadsBack op (readES3HZNAB .mma) := by
  rintro w i rfl hr
  obtain ⟨hz, ⟨⟩⟩ := Option.ite_none_right_eq_some.1 hr
  replace hz := slice_eq_zero.1 hz
  have hw : 0b1111000#7 ++ w.extractLsb' 21 3 = fieldOp w := BitVec.eq_of_toNat_eq (by
    rw [fieldOp_toNat] at hop ⊢; rw [append_toNat, slice_toNat, BitVec.toNat_ofNat]; omega)
  rw [encode_mma, hw, word777_fields]
  simp only [append_toNat, BitVec.toNat_ofBool, bit_toNat, slice_toNat, fieldA_toNat, fieldB_toNat, BitVec.toNat_zero]
  omega

theorem readsBack_bit6_EI4 {g : Bool → BitVec 4 → Instr} {f : Bool → Field → BitVec 4 → Instr}
    (hg : ∀ e k, encode (g e k) = some (word777 e op 0#7 0#7 (0#3 ++ k)))
    (h : ∀ e a k, encode (f e a k) = some (word777 e op 0#7 a (1#1 ++ 0#2 ++ k))) :
    ReadsBack op (readBit6 (readEI4 g) (readEAI4 f)) := readsBack_bit6 (readsBack_EI4 hg) h

theorem readsBack_bit6_EAI4 {g f : Bool → Field → BitVec 4 → Instr}
    (hg : ∀ e a k, encode (g e a k) = some (word777 e op 0#7 a (0#3 ++ k)))
    (h : ∀ e a k, encode (f e a k) = some (word777 e op 0#7 a (1#1 ++ 0#2 ++ k))) :
    ReadsBack op (readBit6 (readEAI4 g) (readEAI4 f)) := readsBack_bit6 (readsBack_EAI4 hg) h

theorem readsBack_EDAI7 {f : Bool → Field → Field → Field → Instr} (h : ∀ e d a b, encode (f e d a b) = some (word777 e op d a b)) :
    ReadsBack op (readEDAI7 f) := readsBack_EDAB h

theorem readsBack_EAI7 {f : Bool → Field → Field → Instr} (h : ∀ e a b, encode (f e a b) = some (word777 e op 0#7 a b)) :
    ReadsBack op (readEAI7 f) := readsBack_EAB h

end

/-! ### The tables of readers -/

/-- The opcodes of the readers rise, so each opcode has one reader. -/
theorem readers_rise : (readers.map Prod.fst).Pairwise (· < ·) := List.isChain_iff_pairwise.1 (by decide +kernel)

/-- The opcodes that are read are those with a form (R79). -/
theorem readers_opcodes : readers.map Prod.fst = opSigs.map Prod.fst := by decide +kernel

/-- Every reader of the opcode map reads back: row by row, by the lemma of its shape, whose hypothesis on `encode` holds by `rfl`. -/
theorem readers_readBack : ∀ x ∈ readers, ReadsBack (BitVec.ofNat 10 x.1) x.2 := by
  simp (disch := intros; with_unfolding_all exact id rfl) only [readers, readersScalar, readersControl, readersSystem, readersMemory,
    readersVecInt, readersVecMove, readersFloat, readersConv, readersVecMem, readersLacer, readersBarrier, readersObject, readersTile,
    List.forall_mem_append, List.forall_mem_cons, readsBack_EDAB, readsBack_EDA, readsBack_EAB, readsBack_EDI7, readsBack_EA,
    readsBack_ED, readsBack_EI7, readsBack_E, readsBack_BareEnd, readsBack_EDI14, readsBack_EI14, readsBack_AO14End, readsBack_I21End,
    readsBack_P21, readsBack_EDAI1, readsBack_EDAI2, readsBack_EAI2, readsBack_EDI2, readsBack_EDI4, readsBack_EI4, readsBack_EAI4,
    readsBack_EDI5, readsBack_EAI5, readsBack_EDS2I4, readsBack_mma, readsBack_bit6_EI4, readsBack_bit6_EAI4, readsBack_EDAI7,
    readsBack_EAI7, List.not_mem_nil, false_imp_iff, implies_true, and_self]

/-- A reader in the tables is the one of its opcode. -/
theorem lookup_of_mem {k : Nat} {r : Word → Option Instr} (h : (k, r) ∈ readers) : readers.lookup k = some r := by
  obtain ⟨l₁, l₂, hl⟩ := List.append_of_mem h
  have hrise := readers_rise
  rw [hl, List.map_append, List.pairwise_append] at hrise
  obtain ⟨-, -, hbelow⟩ := hrise
  refine List.lookup_eq_some_iff.2 ⟨l₁, l₂, hl, fun p hp => bne_iff_ne.2 ?_⟩
  exact (hbelow p.1 (List.mem_map_of_mem hp) k (by simp)).ne'

theorem mem_of_lookup {l : List (Nat × (Word → Option Instr))} {k : Nat} {r : Word → Option Instr} (h : l.lookup k = some r) :
    (k, r) ∈ l := by
  obtain ⟨l₁, l₂, rfl, -⟩ := List.lookup_eq_some_iff.1 h
  simp

/-- A reader found in one of the tables is the one of its opcode. -/
theorem lookup_of_table (l : List (Nat × (Word → Option Instr))) {k : Nat} {r : Word → Option Instr} (h : l.lookup k = some r)
    (hl : ∀ x ∈ l, x ∈ readers := by simp +contextual [readers]) : readers.lookup k = some r :=
  lookup_of_mem (hl _ (mem_of_lookup h))

/-! ### Decode after encode -/

/-- Not one of the two names of words that are no instruction (R79, R61). -/
def Instr.meaningful : Instr → Bool
  | .unassignedOpcode _ => false
  | .reservedFieldWord _ => false
  | _ => true

theorem eq_of_not_meaningful {i : Instr} (h : i.meaningful = false) :
    (∃ w, i = .unassignedOpcode w) ∨ ∃ w, i = .reservedFieldWord w := by
  unfold Instr.meaningful at h
  split at h
  · exact .inl ⟨_, rfl⟩
  · exact .inr ⟨_, rfl⟩
  · cases h

theorem decodeWord_of_reader {w : Word} {i : Instr} {r : Word → Option Instr} (hl : readers.lookup (fieldOp w).toNat = some r)
    (hr : r w = some i) : decodeWord w = i := by
  simp only [decodeWord, hl, hr, Option.getD_some]

section
variable {e : Bool} {op : BitVec 10} {d a b : Field} {k : BitVec 14} {l : BitVec 21} {w : Word} {i : Instr} {r : Word → Option Instr}

theorem decodeWord_word777 (hw : some (word777 e op d a b) = some w) (hl : readers.lookup op.toNat = some r)
    (hr : r (word777 e op d a b) = some i) : decodeWord w = i := by
  cases hw
  exact decodeWord_of_reader (by rwa [fieldOp_word777]) hr

theorem decodeWord_wordC (hw : some (wordC e op d k) = some w) (hl : readers.lookup op.toNat = some r)
    (hr : r (wordC e op d k) = some i) : decodeWord w = i := by
  cases hw
  exact decodeWord_of_reader (by rwa [fieldOp_wordC]) hr

theorem decodeWord_wordL (hw : some (wordL e op l) = some w) (hl : readers.lookup op.toNat = some r)
    (hr : r (wordL e op l) = some i) : decodeWord w = i := by
  cases hw
  exact decodeWord_of_reader (by rwa [fieldOp_wordL]) hr

/-- The eight opcodes of `mma` have one reader. -/
theorem decodeWord_mma {s : BitVec 3} {h : BitVec 4} {z n : Bool} (hw : encode (.mma e s h z n a b) = some w) :
    decodeWord w = .mma e s h z n a b := by
  refine decodeWord_word777 (hw := (encode_mma ..).symm.trans hw) (hl := ?_) readMma_word
  have hop : (0b1111000#7 ++ s : BitVec 10).toNat = 0x3C0 + s.toNat := by rw [append_toNat]; rfl
  have hs : s.toNat < 8 := s.isLt
  rw [hop]
  interval_cases s.toNat <;> exact lookup_of_table readersTile rfl
end

/-- The word of an instruction of the map decodes to it, whether its operands are well-formed or not. -/
theorem decodeWord_of_encode {i : Instr} {w : Word} (hi : i.meaningful = true) (hw : encode i = some w) : decodeWord w = i := by
  cases i with
  | sadd | ssub | smul | smulh | smulhu | sdiv | sdivu | srem | sremu | sand | sor | sxor | sshl | sshr | ssra | smin | smax | sminu |
    smaxu | sseq | sslt | ssltu | ssel | slea =>
    exact decodeWord_word777 hw (lookup_of_table readersScalar rfl) readEDAB_word
  | sclz | spopc | sbrev =>
    exact decodeWord_word777 hw (lookup_of_table readersScalar rfl) readEDA_word
  | sext | saddi | sandi | sori | sxori | sshli | sshri | ssrai =>
    exact decodeWord_word777 hw (lookup_of_table readersScalar rfl) readEDAB_word
  | sli =>
    exact decodeWord_wordC hw (lookup_of_table readersScalar rfl) readEDI14_word
  | br | call =>
    exact decodeWord_wordL hw (lookup_of_table readersControl rfl) readI21End_word
  | brz | brnz | brany | brall | jmp | vbr =>
    exact decodeWord_wordC hw (lookup_of_table readersControl rfl) readAO14End_word
  | ret | vjoin | exit =>
    exact decodeWord_word777 hw (lookup_of_table readersControl rfl) readBareEnd_word
  | nop =>
    exact decodeWord_word777 hw (lookup_of_table readersControl rfl) readE_word
  | phase =>
    exact decodeWord_wordC hw (lookup_of_table readersControl rfl) readEI14_word
  | setmode =>
    exact decodeWord_word777 hw (lookup_of_table readersControl rfl) readEA_word
  | modei | srd | swr =>
    exact decodeWord_wordC hw (lookup_of_table readersControl rfl) readEDI14_word
  | getmode =>
    exact decodeWord_word777 hw (lookup_of_table readersControl rfl) readED_word
  | trap | bkpt =>
    exact decodeWord_wordC hw (lookup_of_table readersSystem rfl) readEI14_word
  | tret =>
    exact decodeWord_word777 hw (lookup_of_table readersSystem rfl) readBareEnd_word
  | haltInsn =>
    exact decodeWord_word777 hw (lookup_of_table readersSystem rfl) readE_word
  | wpset =>
    exact decodeWord_word777 hw (lookup_of_table readersSystem rfl) readEAB_word
  | wpclr =>
    exact decodeWord_word777 hw (lookup_of_table readersSystem rfl) readEI7_word
  | trc =>
    exact decodeWord_word777 hw (lookup_of_table readersSystem rfl) readEAB_word
  | gget | gput =>
    exact decodeWord_word777 hw (lookup_of_table readersSystem rfl) readEDAB_word
  | mbox =>
    exact decodeWord_word777 hw (lookup_of_table readersSystem rfl) readEDAB_word
  | perfrd =>
    exact decodeWord_word777 hw (lookup_of_table readersSystem rfl) readEDI7_word
  | enrd =>
    exact decodeWord_word777 hw (lookup_of_table readersSystem rfl) readEDA_word
  | sldB | sldH | sldW | sldD | slduB | slduH | slduW | sstB | sstH | sstW | sstD | sldDAcq | sstDRel | sldWAcq | sstWRel | pldW | pldD |
    pstW | pstD =>
    exact decodeWord_word777 hw (lookup_of_table readersMemory rfl) readEDAB_word
  | fence =>
    exact decodeWord_wordC hw (lookup_of_table readersMemory rfl) readEI14_word
  | waitv | atomAdd | atomAnd | atomOr | atomXor | atomMin | atomMax | atomMinu | atomMaxu | atomExch | atomCas | atomFadd =>
    exact decodeWord_word777 hw (lookup_of_table readersMemory rfl) readEDAB_word
  | vadd | vsub | vmul | vmulh | vmulhu | vmad | vmin | vmax | vminu | vmaxu | vand | vor | vxor | vshl | vshr | vsra | vcmpeq | vcmplt |
    vcmpltu | vcmple | vsel =>
    exact decodeWord_word777 hw (lookup_of_table readersVecInt rfl) readEDAB_word
  | vabs | vneg | vnot | vclz | vpopc =>
    exact decodeWord_word777 hw (lookup_of_table readersVecInt rfl) readEDA_word
  | vaddi | vshli | vshri | vsrai | vandi =>
    exact decodeWord_word777 hw (lookup_of_table readersVecInt rfl) readEDAB_word
  | vmov | vsplat | vunpk | pnot | pmov | pget | vredAdd | vredMax | vredMin | vredAnd | vredOr | vredlAdd | vscanAdd | yseq =>
    exact decodeWord_word777 hw (lookup_of_table readersVecMove rfl) readEDA_word
  | vins | vperm | vshfl | vpack | vzip | vunzip | pand | por | pxor =>
    exact decodeWord_word777 hw (lookup_of_table readersVecMove rfl) readEDAB_word
  | vbcast | vrotl | yget =>
    exact decodeWord_word777 hw (lookup_of_table readersVecMove rfl) readEDAB_word
  | viota =>
    exact decodeWord_word777 hw (lookup_of_table readersVecMove rfl) readED_word
  | vsrd =>
    exact decodeWord_wordC hw (lookup_of_table readersVecMove rfl) readEDI14_word
  | fadd | fsub | fmul | ffma | ffms | fnma | fmin | fmax | fcpys | fcmpeq | fcmplt | fcmple | fcmpun | fsel =>
    exact decodeWord_word777 hw (lookup_of_table readersFloat rfl) readEDAB_word
  | fabs | fneg | frcp | frsq | fsqrt | fexp2 | flog2 | ftanh | fclass | frnd =>
    exact decodeWord_word777 hw (lookup_of_table readersFloat rfl) readEDA_word
  | fcvt | ftoi | itof | mxdq | kget | kset | xcvt =>
    exact decodeWord_word777 hw (lookup_of_table readersConv rfl) readEDA_word
  | mxq | kadd | kmax =>
    exact decodeWord_word777 hw (lookup_of_table readersConv rfl) readEDAB_word
  | vldW | vldD | vldQ | vldO | vstW | vstD | vstQ | vstO | vldsW | vldsD | vldsQ | vldsO | vstsW | vstsD | vstsQ | vstsO | vldOAcq |
    vstORel | vldQAcq | vstQRel | vldmx | vstmx | pldmx | pstmx | vatomAdd | vatomMin | vatomMax | vatomExch | vatomCas | vatomFadd |
    redstAdd | redstMin | redstMax | redstFadd | redstX =>
    exact decodeWord_word777 hw (lookup_of_table readersVecMem rfl) readEDAB_word
  | pldO | pstO =>
    exact decodeWord_word777 hw (lookup_of_table readersVecMem rfl) readEDA_word
  | vprefetch =>
    exact decodeWord_word777 hw (lookup_of_table readersVecMem rfl) readEAB_word
  | lace =>
    exact decodeWord_word777 hw (lookup_of_table readersLacer rfl) readEDAI2_word
  | lacew | lacek =>
    exact decodeWord_word777 hw (lookup_of_table readersLacer rfl) readEAI2_word
  | laceq =>
    exact decodeWord_word777 hw (lookup_of_table readersLacer rfl) readEDI2_word
  | rngget | rngacq =>
    exact decodeWord_word777 hw (lookup_of_table readersLacer rfl) readEDI4_word
  | rngput => exact decodeWord_word777 hw (lookup_of_table readersLacer rfl) (readBit6_plain.trans readEI4_word)
  | rngputInit => exact decodeWord_word777 hw (lookup_of_table readersLacer rfl) (readBit6_set.trans readEAI4_word)
  | rngrel =>
    exact decodeWord_word777 hw (lookup_of_table readersLacer rfl) readEI4_word
  | town =>
    exact decodeWord_word777 hw (lookup_of_table readersLacer rfl) readEDAI1_word
  | bara | baraw | bard | barq =>
    exact decodeWord_word777 hw (lookup_of_table readersBarrier rfl) readEDI5_word
  | barw | barx =>
    exact decodeWord_word777 hw (lookup_of_table readersBarrier rfl) readEAI5_word
  | barma | barmaw | barmd | barmq =>
    exact decodeWord_word777 hw (lookup_of_table readersBarrier rfl) readEDA_word
  | barmw | barmx =>
    exact decodeWord_word777 hw (lookup_of_table readersBarrier rfl) readEAB_word
  | capb | capr =>
    exact decodeWord_word777 hw (lookup_of_table readersObject rfl) readEDA_word
  | caps | cape | yield =>
    exact decodeWord_word777 hw (lookup_of_table readersObject rfl) readBareEnd_word
  | bmset | bmref =>
    exact decodeWord_word777 hw (lookup_of_table readersObject rfl) readEAI4_word
  | bmbind => exact decodeWord_word777 hw (lookup_of_table readersObject rfl) (readBit6_plain.trans readEAI4_word)
  | bmunbind => exact decodeWord_word777 hw (lookup_of_table readersObject rfl) (readBit6_set.trans readEAI4_word)
  | bmrd =>
    exact decodeWord_word777 hw (lookup_of_table readersObject rfl) readEDS2I4_word
  | bmclr =>
    exact decodeWord_word777 hw (lookup_of_table readersObject rfl) readEI4_word
  | gtok =>
    exact decodeWord_word777 hw (lookup_of_table readersObject rfl) readE_word
  | glaunch | gstat | gcancel =>
    exact decodeWord_word777 hw (lookup_of_table readersObject rfl) readEDAB_word
  | gfail =>
    exact decodeWord_word777 hw (lookup_of_table readersObject rfl) readEA_word
  | arel =>
    exact decodeWord_word777 hw (lookup_of_table readersTile rfl) readEA_word
  | rqnt | rqntt | ald | ast | apatch | aget | ahnd =>
    exact decodeWord_word777 hw (lookup_of_table readersTile rfl) readEDAB_word
  | azero =>
    exact decodeWord_word777 hw (lookup_of_table readersTile rfl) readEDA_word
  | ext =>
    exact decodeWord_wordL hw (lookup_of_table readersTile rfl) readP21_word
  | mma => exact decodeWord_mma hw
  | unassignedOpcode | reservedFieldWord => cases hi
  | _ => cases hw

/-! ### Encode after decode -/

/-- Decode loses no bit of a word. -/
theorem encode_decodeWord (w : Word) : encode (decodeWord w) = some w := by
  unfold decodeWord
  split
  · rfl
  · next read hl =>
    cases hr : read w with
    | none => rfl
    | some i => exact readers_readBack _ (mem_of_lookup hl) w i (by simp) hr

/-- A word whose opcode has no form decodes as unassigned. -/
theorem decodeWord_of_unassigned {w : Word} (h : unassigned w = true) : decodeWord w = .unassignedOpcode w := by
  have hsig : opSigs.lookup (fieldOp w).toNat = none := Option.isNone_iff_eq_none.1 h
  have hread : readers.lookup (fieldOp w).toNat = none := by
    rw [List.lookup_eq_none_iff] at hsig ⊢
    intro p hp
    obtain ⟨q, hq, hqp⟩ := List.mem_map.1 (readers_opcodes ▸ List.mem_map_of_mem hp : p.1 ∈ opSigs.map Prod.fst)
    exact hqp ▸ hsig q hq
  simp only [decodeWord, hread]

/-- A word of an assigned opcode that no form admits decodes as such. -/
theorem decodeWord_of_malformed {w : Word} (h : malformed w = true) : decodeWord w = .reservedFieldWord w := by
  unfold malformed at h
  unfold decodeWord
  split at h
  · next read hl => simp [hl, Option.isNone_iff_eq_none.1 h]
  · cases h

/-- Settles O3: instructions of the map by `decodeWord_of_encode`, the two names of words without meaning by the checks that
well-formedness puts on them, and every word by `encode_decodeWord`. -/
theorem decodeAndEncodeAgree : Obligations.DecodeAndEncodeAgree := by
  refine ⟨fun i w hi hw => ?_, encode_decodeWord⟩
  cases hm : i.meaningful with
  | true => exact decodeWord_of_encode hm hw
  | false =>
    obtain ⟨v, rfl⟩ | ⟨v, rfl⟩ := eq_of_not_meaningful hm
    · cases hw
      exact decodeWord_of_unassigned hi
    · cases hw
      exact decodeWord_of_malformed hi

/-! ### Single words of the map -/

/-- Settles O2: seven words by what they encode, two by their unassigned opcode. -/
theorem wordsOfTheSpecDecode : Obligations.WordsOfTheSpecDecode := by
  have map : ∀ {i w}, i.meaningful = true → encode i = some w → decodeWord w = i := decodeWord_of_encode
  exact ⟨map rfl rfl, map rfl rfl, map rfl rfl, map rfl rfl, map rfl rfl, map rfl rfl, map rfl rfl,
    decodeWord_of_unassigned (by decide), decodeWord_of_unassigned (by decide)⟩

/-- Settles O60: each row is an instruction of the map with the word that encodes it, which is evaluated table by table. -/
theorem opcodesOfTheTable : Obligations.OpcodesOfTheTable := by
  suffices h : ∀ x ∈ Claims.opcodeWords1 ++ Claims.opcodeWords2 ++ Claims.opcodeWords3 ++ Claims.opcodeWords4 ++ Claims.opcodeWords5 ++
      Claims.opcodeWords6 ++ Claims.opcodeWords7 ++ Claims.opcodeWords8, x.2.meaningful = true ∧ encode x.2 = some x.1 from
    fun x hx => have ⟨hi, hw⟩ := h x hx; decodeWord_of_encode hi hw
  simp only [List.forall_mem_append]
  and_intros <;> decide

end Sys2Proof

/-!
A step as one word (03 R62, R63): the branches of `step`, and the fetch of a word of memory (O1).
-/

namespace Sys2Proof.Machine

theorem step_of_event {s t : State} {i : Instr} (h : s.nextEvent = some (i, t)) : step s = exec i t := by
  rw [step, h]

theorem step_of_word {s t : State} {w : BitVec 32} (hev : s.nextEvent = none) (h : s.fetchNext = some (.word w t)) :
    step s = exec (decodeWord w) t := by
  rw [step, hev, h]

theorem step_of_stop {s t : State} (hev : s.nextEvent = none) (h : s.fetchNext = some (.stop t)) : step s = .next t := by
  rw [step, hev, h]

theorem step_of_idle {s : State} (hev : s.nextEvent = none) (h : s.fetchNext = none) : step s = .next s.tick := by
  rw [step, hev, h]

theorem fetchNext_of_turn {s : State} {a : Nat} {g : Group} {b : Block} (ht : s.turn = some a) (hg : s.grp a = some g)
    (hb : s.blk g.block = some b) : s.fetchNext = some ((s.takeTurn a).fetch a g b) := by
  simp only [State.fetchNext, ht, Option.orElse_some, hg, hb]

/-- No write of the core on its way covers the word. -/
theorem textWord_of_quiet {s : State} {c : Nat} (pa : Nat) (h : ∀ w ∈ s.writes, w.core ≠ c) : s.textWord c pa = readLE s.mem pa 4 := by
  have hnone : s.writes.filter (fun w => w.core == c) = [] :=
    List.filter_eq_nil_iff.2 fun w hw => by simpa using h w hw
  rw [State.textWord, hnone]
  rfl

theorem fetch_of_memory {s : State} {a pa : Nat} {g : Group} {b : Block}
    (htr : s.translate (coreOf a) b.ctx g.pc.toNat .fetch g.trapMode = .ok pa) (hmem : s.isMemory pa = true)
    (hreach : s.inReach (coreOf a) pa = true) (hclean : s.poisoned pa 4 = false) (hw : ∀ w ∈ s.writes, w.core ≠ coreOf a) :
    s.fetch a g b = s.fetchGot a g b (readLE s.mem pa 4) false := by
  have hsettle : s.settlePoison (coreOf a) pa 4 = s := by simp [State.settlePoison, hclean]
  simp only [State.fetch, htr, hreach, hmem, hsettle, textWord_of_quiet pa hw, hclean, Bool.true_eq_false, if_false, if_true]

theorem fetchGot_of_unwatched {s : State} {a w : Nat} {g : Group} {b : Block}
    (hwp : g.trapMode = true ∨ (s.ctx b.ctx).wpHit .fetch g.pc.toNat 4 none false = none) :
    s.fetchGot a g b w false = .word (BitVec.ofNat 32 w) (s.countFetch (coreOf a) b.ctx g.pc.toNat) := by
  have hnone : (if g.trapMode then none else (s.ctx b.ctx).wpHit .fetch g.pc.toNat 4 none false) = none := by
    rcases hwp with hmode | hmiss
    · exact if_pos hmode
    · rw [hmiss, ite_self]
  simp [State.fetchGot, hnone]

/-- Settles O1: the branches of `step`, the first through the fetch of a word in memory. -/
theorem stepRunsTheDecodedWord : Obligations.StepRunsTheDecodedWord := by
  refine ⟨?_, fun _ _ _ => step_of_word, fun _ _ => step_of_stop, fun _ _ _ => step_of_event, fun _ => step_of_idle⟩
  intro s a pa g b hev hturn hg hb htr hmem hreach hclean hw hwp
  refine step_of_word hev ?_
  rw [fetchNext_of_turn hturn hg hb, fetch_of_memory htr hmem hreach hclean hw, fetchGot_of_unwatched (s := s.takeTurn a) hwp]
  rfl

end Sys2Proof.Machine

/-!
Words without a form of their own (03 R67, R78 to R80): prefixes (O7) and words without a meaning (O6).
-/

namespace Sys2Proof.Machine

theorem withIssuing_run {s : State} {a : Nat} {g : Group} {b : Block} (h : s.Issues a g b) (f : State → Nat → Group → State) :
    withIssuing f s = .next (f s a g) := by
  obtain ⟨r, hr⟩ := h.list
  simp [withIssuing, hr, h.group]

theorem exec_ext {s : State} {a : Nat} {g : Group} {b : Block} (h : s.Issues a g b) (p : BitVec 21) :
    exec (.ext p) s = .next (s.prefixWord a g p) := withIssuing_run h fun s a g => s.prefixWord a g p

/-- Settles O7: the two branches of `State.prefixWord`. -/
theorem prefixIsKept : Obligations.PrefixIsKept := by
  intro p s a g b h words
  refine ⟨fun hfew hrun => ?kept, fun hmany => ?trapped⟩
  case kept =>
    have hroom : ¬(2 ≤ g.exts.length ∨ Config.runWords ≤ (if g.inStep then g.cap.words else g.runWords) + g.exts.length + 1) :=
      not_or.2 ⟨not_le.2 hfew, not_le.2 hrun⟩
    refine ⟨_, (exec_ext h p).trans (congrArg Host.Outcome.next (if_neg hroom)), ?_, fun k hk => State.updGrp_grp_ne _ _ hk,
      rfl, rfl, rfl, rfl⟩
    exact (State.updGrp_grp_self ..).trans (by rw [h.group]; rfl)
  case trapped =>
    exact (exec_ext h p).trans (congrArg Host.Outcome.next (if_pos hmany))

theorem exec_unassignedOpcode (w : BitVec 32) (s : State) :
    exec (.unassignedOpcode w) s = withIssuing (fun s a g => s.badWord a g cIllegalOpcode) s := rfl

/-- A state in which a group in trap mode issues next. -/
def trapModeState : State := (State.reset.placeWord 0).updGrp 0 fun g => { g with trapMode := true }
def trapModeGroup : Group := { placeGroup with trapMode := true }

theorem trapModeState_issues : trapModeState.Issues 0 trapModeGroup placeBlock where
  slot := by decide +kernel
  group := by decide +kernel
  block := by decide +kernel
  live := by decide +kernel
  results := by decide +kernel
  clean := by decide +kernel

/-- The word `sadd` with the register number 32 in its field d. -/
def saddOf32 : Word := word777 false 0x001 32 0 0

/-- Refutes O6: its third part asks no well-formedness of the instruction. `.unassignedOpcode saddOf32` has a word, whose opcode is that of
`sadd` and whose field d names no scalar register, but it is not what that word decodes to, and it raises ILLEGAL_OPCODE and not
ILLEGAL_OPERAND, which XAUX of the trap in trap mode shows. -/
theorem not_wordsThatTrap : ¬ Obligations.WordsThatTrap := by
  rintro ⟨-, -, hforms⟩
  have hoperand : Traps (.unassignedOpcode saddOf32) trapModeState 0 trapModeGroup cIllegalOperand 0 0 :=
    hforms _ saddOf32 (sigA .scalar .scalar .scalar) _ _ _ placeBlock rfl (by decide) (by decide) trapModeState_issues (fun _ => rfl)
      (.inr (.inl (by decide)))
  rw [Traps, exec_unassignedOpcode, withIssuing_run trapModeState_issues] at hoperand
  have hxaux := congrArg (fun t : State => (t.grp 0).map Group.xaux) (Host.Outcome.next.inj hoperand)
  revert hxaux
  decide +kernel
end Sys2Proof.Machine

/-!
Special registers (03 R76, R77, 09 R183, 10 R206): `srd`, `swr` and `vsrd`, each by the tables of codes that the model reads (O15).
-/

namespace Sys2Proof.Machine

/-! ### Ways in which a word ends -/

theorem Passes.privilege_false {x : Insn} {g : Group} {imm : BitVec 64} (hp : Passes x g imm) :
    (x.sig.privileged && !g.trapMode) = false := by
  cases hs : x.sig.privileged
  · rfl
  · rw [hp.privilege hs]; rfl

theorem Passes.step_none {x : Insn} {g : Group} {imm : BitVec 64} (hp : Passes x g imm) :
    (if g.inStep = true then stepCheck x g imm else none) = none := by
  split
  next h => exact hp.step h
  next => rfl

section
variable {i : Instr} {s : State} {a : Nat} {g : Group} {b : Block} {x : Insn} {imm : BitVec 64} {ok : Iss → Bool} {body : State → Iss → Res}

/-- A word whose meaning changes its group alone, and neither its path nor its state, writes what the meaning says. -/
theorem writes_of_body {f : Group → Group} (hi : exec i s = issueWord x ok body s) (h : s.Issues a g b) (hp : Passes x g imm)
    (hok : ok ⟨a, g, b, x, imm, g.pc⟩ = true)
    (hb : body s ⟨a, g, b, x, imm, g.pc⟩ = (⟨a, g, b, x, imm, g.pc⟩ : Iss).fin (s.updGrp a f)) (hpc : (f g).pc = g.pc)
    (hst : (f g).state = g.state) : Writes i s a (f g) := by
  have hg : (s.updGrp a f).grp a = some (f g) := by rw [State.updGrp_grp_self, h.group]; rfl
  have hc := (completes_of hi h hp hok hb hg (hst ▸ h.live)).of_group
  rwa [Writes, hpc]

/-- A word whose meaning traps before it has changed anything. -/
theorem traps_of_body {cause : Nat} {addr aux : BitVec 64} (hi : exec i s = issueWord x ok body s) (h : s.Issues a g b)
    (hp : Passes x g imm) (hok : ok ⟨a, g, b, x, imm, g.pc⟩ = true) (hb : body s ⟨a, g, b, x, imm, g.pc⟩ = .trap s cause addr aux) :
    Traps i s a g cause addr aux := by
  rw [Traps, hi, issueWord_trap h hp hok hb, uncount_self]

/-- A word that its own static check refuses (R78). -/
theorem traps_of_check (hi : exec i s = issueWord x ok body s) (h : s.Issues a g b) (hp : Passes x g imm)
    (hok : ok ⟨a, g, b, x, imm, g.pc⟩ = false) : Traps i s a g cIllegalOperand 0 0 := by
  rw [Traps, hi, issueWord_run h]
  simp only [State.runWord, hp.privilege_false, hp.immediate, hok]
  simp
  rfl

end

/-! ### Words of a code of a special register -/

theorem toNat_ofNat_of_lt {w n : Nat} (h : n < 2 ^ w) : (BitVec.ofNat w n).toNat = n := by rw [BitVec.toNat_ofNat, Nat.mod_eq_of_lt h]

theorem code_toNat {n : Nat} (h : n < 2 ^ 56) : (BitVec.ofNat 64 n).toNat = n := toNat_ofNat_of_lt (h.trans (by decide))

theorem RegKind.code_fits (n f : Nat) : RegKind.code.fits n f = true := rfl

theorem unsignedImm_of_lt {exts : List (BitVec 21)} {w f : Nat} (h : rawImm exts w f < 2 ^ 56) :
    unsignedImm exts w f = some (BitVec.ofNat 64 (rawImm exts w f)) := if_pos h

/-- The words of format C with a code pass the checks before their own, outside capsule steps. -/
theorem passes_code {op : Nat} {k : RegKind} {e : Bool} {d : BitVec 7} {o : BitVec 14} {g : Group} (hd : k.fits g.kregs d.toNat = true)
    (hstep : g.inStep = false) (hraw : rawImm g.exts 14 o.toNat < 2 ^ 56) :
    Passes (insnC op (sigC k) e d o (some (2 ^ 56))) g (BitVec.ofNat 64 (rawImm g.exts 14 o.toNat)) where
  privilege := nofun
  immediate := by
    simp only [Insn.immediate, insnC, sigC, Format.immWidth, unsignedImm_of_lt hraw, code_toNat hraw, if_pos hraw.le]
    rfl
  form := by simp [Insn.formOk, insnC, sigC, Format.immWidth, hd, RegKind.code_fits]
  step := fun h => absurd h (by rw [hstep]; exact Bool.false_ne_true)

/-- The special register of a code is one that a scalar can hold, readable where the group stands, and holds v. -/
structure Readable (s : State) (a : Nat) (g : Group) (b : Block) (code : Nat) (v : BitVec 64) : Prop where
  value : ∀ x imm pc, s.special ⟨a, g, b, x, imm, pc⟩ code = some v
  scalar : scalarCode code = true
  mode : (exceptionCode code && !g.trapMode) = false

theorem some_ofNat_toNat {n : Nat} (x : BitVec n) : some (BitVec.ofNat 64 x.toNat) = some (x.zeroExtend 64) := by
  rw [BitVec.ofNat_toNat]

theorem specials_readable (s : State) (a : Nat) (g : Group) (b : Block) : ∀ x ∈ Claims.specials s a g b, Readable s a g b x.1 x.2 := by
  have row : ∀ {code v}, (∀ x imm pc, s.special ⟨a, g, b, x, imm, pc⟩ code = some v) → scalarCode code = true →
      exceptionCode code = false → Readable s a g b code v :=
    fun hv hc he => ⟨hv, hc, by rw [he]; rfl⟩
  simp only [Claims.specials, List.forall_mem_cons]
  and_intros
  iterate 16 exact row (fun _ _ _ => rfl) rfl rfl
  · exact row (fun _ _ _ => some_ofNat_toNat _) rfl rfl
  · exact row (fun _ _ _ => some_ofNat_toNat _) rfl rfl
  · exact List.forall_mem_nil _

theorem exceptions_readable {s : State} {a : Nat} {g : Group} {b : Block} (ht : g.trapMode = true) :
    ∀ x ∈ Claims.exceptions g, Readable s a g b x.1 x.2 := by
  have row : ∀ {code v}, (∀ x imm pc, s.special ⟨a, g, b, x, imm, pc⟩ code = some v) → scalarCode code = true → Readable s a g b code v :=
    fun hv hc => ⟨hv, hc, by rw [ht, Bool.not_true, Bool.and_false]⟩
  simp only [Claims.exceptions, List.forall_mem_cons]
  and_intros
  iterate 3 exact row (fun _ _ _ => some_ofNat_toNat _) rfl
  iterate 2 exact row (fun _ _ _ => rfl) rfl
  exact List.forall_mem_nil _

theorem exceptionCode_of_isException {code : Nat} (h : Claims.isException code) : exceptionCode code = true := decide_eq_true h

theorem scalarCode_lt {code : Nat} (h : scalarCode code = true) : code < 0x025 := by
  simp only [scalarCode, exceptionCode, Bool.or_eq_true, decide_eq_true_eq] at h
  omega

/-! ### `srd` -/

theorem exec_srd (e : Bool) (d : BitVec 7) (o : BitVec 14) (s : State) :
    exec (.srd e d o) s = issueWord (insnC 0x053 (sigC .scalar) e d o (some (2 ^ 56))) srdOk srdBody s := rfl

section
variable {s : State} {a : Nat} {g : Group} {b : Block} {e : Bool} {d : BitVec 7} {o : BitVec 14} {v : BitVec 64}

theorem srd_writes (h : s.Issues a g b) (hstep : g.inStep = false) (hd : d.toNat < 32)
    (hv : Readable s a g b (rawImm g.exts 14 o.toNat) v) : Writes (.srd e d o) s a (g.setS d.toNat v) := by
  have hraw : rawImm g.exts 14 o.toNat < 2 ^ 56 := (scalarCode_lt hv.scalar).trans (by decide)
  refine writes_of_body (f := fun g => g.setS d.toNat v) (exec_srd e d o s) h (passes_code (decide_eq_true hd) hstep hraw) ?_ ?_ rfl rfl
  · rw [srdOk, code_toNat hraw]; exact hv.scalar
  · simp only [srdBody, code_toNat hraw, hv.mode, hv.value]; rfl

theorem srd_traps (h : s.Issues a g b) (hstep : g.inStep = false) (hd : d.toNat < 32) (hx : Claims.isException (rawImm g.exts 14 o.toNat))
    (ht : g.trapMode = false) : Traps (.srd e d o) s a g cPrivilege 0 0 := by
  have hcode := exceptionCode_of_isException hx
  have hraw : rawImm g.exts 14 o.toNat < 2 ^ 56 := hx.2.trans_lt (by decide)
  refine traps_of_body (exec_srd e d o s) h (passes_code (decide_eq_true hd) hstep hraw) ?_ ?_
  · rw [srdOk, code_toNat hraw, scalarCode, hcode, Bool.or_true]
  · simp only [srdBody, code_toNat hraw, hcode, ht]; rfl

theorem specialRegistersAreRead : Claims.SpecialRegistersAreRead := by
  intro s a g b e d o h hstep hd
  exact ⟨fun x hx hc => srd_writes h hstep hd (hc ▸ specials_readable s a g b x hx),
    fun x hx hc ht => srd_writes h hstep hd (hc ▸ exceptions_readable ht x hx), srd_traps h hstep hd⟩

/-! ### `swr` -/

theorem exec_swr (e : Bool) (d : BitVec 7) (o : BitVec 14) (s : State) :
    exec (.swr e d o) s = issueWord (insnC 0x054 (sigC .scalar) e d o (some (2 ^ 56))) swrOk swrBody s := rfl

/-- A row of `Claims.writables` is a code of the model's own tables, and what it writes leaves the group's path and state. -/
structure Writable (x : Nat × Nat × (Group → BitVec 64 → Group)) : Prop where
  width : writableWidth x.1 = some x.2.1
  put : ∀ (g : Group) (v : BitVec 64), g.putSpecial x.1 v = x.2.2 g v
  pc : ∀ (g : Group) (v : BitVec 64), (x.2.2 g v).pc = g.pc
  state : ∀ (g : Group) (v : BitVec 64), (x.2.2 g v).state = g.state

theorem writables_writable : ∀ x ∈ Claims.writables, Writable x := by
  simp only [Claims.writables, List.forall_mem_cons]
  and_intros
  iterate 7 exact ⟨rfl, fun _ _ => rfl, fun _ _ => rfl, fun _ _ => rfl⟩
  exact List.forall_mem_nil _

theorem writableWidth_of_unlisted {code : Nat} (h : ∀ x ∈ Claims.writables, code ≠ x.1) : writableWidth code = none := by
  simp only [Claims.writables, List.forall_mem_cons] at h
  unfold writableWidth
  split <;> simp_all

theorem writableWidth_of_isException {code : Nat} (h : Claims.isException code) : (writableWidth code).isSome = true := by
  obtain ⟨hlow, hhigh⟩ := h
  interval_cases code <;> rfl

theorem exceptionCode_mode {code : Nat} {g : Group} (h : Claims.isException code → g.trapMode = true) :
    (exceptionCode code && !g.trapMode) = false := by
  cases hc : exceptionCode code
  · rfl
  · rw [h ((decide_eq_true_iff (p := _ ∧ _)).1 hc)]; rfl

theorem swrBody_of_width {i : Iss} {code w : Nat} (hc : i.imm.toNat = code) (ht : (exceptionCode code && !i.g.trapMode) = false)
    (hw : writableWidth code = some w) :
    swrBody s i = if 2 ^ w ≤ i.sd.toNat then i.illegal s else i.fin (s.updGrp i.agent fun g => g.putSpecial code i.sd) := by
  simp only [swrBody, hc, ht, hw]
  rfl

theorem swr_traps_exception (h : s.Issues a g b) (hstep : g.inStep = false) (hd : d.toNat < 32)
    (hx : Claims.isException (rawImm g.exts 14 o.toNat)) (ht : g.trapMode = false) : Traps (.swr e d o) s a g cPrivilege 0 0 := by
  have hraw : rawImm g.exts 14 o.toNat < 2 ^ 56 := hx.2.trans_lt (by decide)
  refine traps_of_body (exec_swr e d o s) h (passes_code (decide_eq_true hd) hstep hraw) ?_ ?_
  · rw [swrOk, code_toNat hraw]; exact writableWidth_of_isException hx
  · simp only [swrBody, code_toNat hraw, exceptionCode_of_isException hx, ht]; rfl

/-- Of a code of a writable register the value decides: it is written, or it is ILLEGAL_OPERAND. -/
theorem swr_of_writable {x : Nat × Nat × (Group → BitVec 64 → Group)} (h : s.Issues a g b) (hstep : g.inStep = false) (hd : d.toNat < 32)
    (hraw : rawImm g.exts 14 o.toNat < 2 ^ 56) (hx : Writable x) (hc : rawImm g.exts 14 o.toNat = x.1)
    (ht : Claims.isException x.1 → g.trapMode = true) :
    ((g.sreg d.toNat).toNat < 2 ^ x.2.1 → Writes (.swr e d o) s a (x.2.2 g (g.sreg d.toNat))) ∧
    (2 ^ x.2.1 ≤ (g.sreg d.toNat).toNat → Traps (.swr e d o) s a g cIllegalOperand 0 0) := by
  have hcode := (code_toNat hraw).trans hc
  have hpass := passes_code (op := 0x054) (k := .scalar) (e := e) (decide_eq_true hd) hstep hraw
  have hok : (writableWidth (BitVec.ofNat 64 (rawImm g.exts 14 o.toNat)).toNat).isSome = true := by rw [hcode, hx.width]; rfl
  refine ⟨fun hv => ?writes, fun hv => ?traps⟩
  case writes =>
    refine writes_of_body (f := fun k => x.2.2 k (g.sreg d.toNat)) (exec_swr e d o s) h hpass hok ?_ (hx.pc ..) (hx.state ..)
    rw [swrBody_of_width hcode (exceptionCode_mode ht) hx.width]
    simp only [hx.put]
    exact if_neg (not_le.2 hv)
  case traps =>
    refine traps_of_body (exec_swr e d o s) h hpass hok ?_
    rw [swrBody_of_width hcode (exceptionCode_mode ht) hx.width]
    exact if_pos hv

theorem swr_traps_code (h : s.Issues a g b) (hstep : g.inStep = false) (hd : d.toNat < 32) (hraw : rawImm g.exts 14 o.toNat < 2 ^ 56)
    (hc : ∀ x ∈ Claims.writables, rawImm g.exts 14 o.toNat ≠ x.1) : Traps (.swr e d o) s a g cIllegalOperand 0 0 := by
  refine traps_of_check (exec_swr e d o s) h (passes_code (decide_eq_true hd) hstep hraw) ?_
  rw [swrOk, code_toNat hraw, writableWidth_of_unlisted hc]
  rfl

theorem specialRegistersAreWritten : Claims.SpecialRegistersAreWritten := by
  intro s a g b e d o h hstep hd hraw
  exact ⟨swr_traps_exception h hstep hd, fun x hx => swr_of_writable h hstep hd hraw (writables_writable x hx),
    swr_traps_code h hstep hd hraw⟩

/-! ### `vsrd` -/

theorem exec_vsrd (e : Bool) (d : BitVec 7) (o : BitVec 14) (s : State) :
    exec (.vsrd e d o) s = issueWord (insnC 0x160 (sigC .vector) e d o (some (2 ^ 56))) vsrdOk vsrdBody s := rfl

/-- What every write of a lane keeps, a word that writes the active lanes keeps. -/
theorem putLanes_keeps {α : Type} {p : Group → α} (hp : ∀ h n l v, p (Group.setV h n l v) = p h) (g : Group) (d : Nat) (f : Nat → Nat) :
    p (Claims.putLanes g d f) = p g := by
  rw [Claims.putLanes]
  generalize lanesOf g.active = ls
  induction ls generalizing g with
  | nil => rfl
  | cons l ls ih => exact (ih _).trans (hp ..)

theorem vsrdBody_special {i : Iss} {code : Nat} {v : BitVec 64} (hc : i.imm.toNat = code) (hlow : code < 0x025)
    (ht : (exceptionCode code && !i.g.trapMode) = false) (hv : s.special i code = some v) :
    vsrdBody s i = i.fin (s.updGrp i.agent fun g => Claims.putLanes g i.x.d fun _ => v.toNat) := by
  -- the two codes of the match before its last branch, which simp takes from these
  have hlane : code = 0x030 → False := by omega
  have htid : code = 0x031 → False := by omega
  simp only [vsrdBody, hc, ht, hv]
  rfl

theorem vsrdBody_lane {i : Iss} (hc : i.imm.toNat = 0x030) :
    vsrdBody s i = i.fin (s.updGrp i.agent fun g => Claims.putLanes g i.x.d fun l => l) := by
  simp only [vsrdBody, hc]
  rfl

theorem vsrdBody_tid {i : Iss} (hc : i.imm.toNat = 0x031) :
    vsrdBody s i = i.fin (s.updGrp i.agent fun g => Claims.putLanes g i.x.d fun l => i.g.gid * 8 + l) := by
  simp only [vsrdBody, hc]
  rfl

/-- `vsrd` of a code that its checks admit and whose meaning in lane l is `f l`. -/
theorem vsrd_writes {f : Nat → Nat} (h : s.Issues a g b) (hstep : g.inStep = false) (hd : d.toNat < g.kregs)
    (hraw : rawImm g.exts 14 o.toNat < 2 ^ 56) (hok : ∀ i : Iss, i.imm.toNat = rawImm g.exts 14 o.toNat → vsrdOk i = true)
    (hb : ∀ x imm pc, imm.toNat = rawImm g.exts 14 o.toNat → vsrdBody s ⟨a, g, b, x, imm, pc⟩ =
      Iss.fin ⟨a, g, b, x, imm, pc⟩ (s.updGrp a fun g => Claims.putLanes g x.d f)) :
    Writes (.vsrd e d o) s a (Claims.putLanes g d.toNat f) :=
  writes_of_body (exec_vsrd e d o s) h (passes_code (decide_eq_true hd) hstep hraw) (hok _ (code_toNat hraw)) (hb _ _ _ (code_toNat hraw))
    (putLanes_keeps (p := Group.pc) (fun _ _ _ _ => rfl) ..) (putLanes_keeps (p := Group.state) (fun _ _ _ _ => rfl) ..)

theorem vsrd_writes_special {v : BitVec 64} (h : s.Issues a g b) (hstep : g.inStep = false) (hd : d.toNat < g.kregs)
    (hv : Readable s a g b (rawImm g.exts 14 o.toNat) v) : Writes (.vsrd e d o) s a (Claims.putLanes g d.toNat fun _ => v.toNat) := by
  have hlow := scalarCode_lt hv.scalar
  refine vsrd_writes h hstep hd (hlow.trans (by decide)) (fun i hi => ?_) fun x imm pc hi =>
    vsrdBody_special hi hlow hv.mode (hv.value x imm pc)
  rw [vsrdOk, srdOk, hi, hv.scalar]
  rfl

theorem specialRegistersInLanes : Claims.SpecialRegistersInLanes := by
  intro s a g b e d o h hstep hd
  have hcode : ∀ {n : Nat} {i : Iss}, n < 2 ^ 64 → i.imm.toNat = n → i.imm = BitVec.ofNat 64 n := fun hn hi =>
    BitVec.eq_of_toNat_eq (by rw [hi, BitVec.toNat_ofNat, Nat.mod_eq_of_lt hn])
  refine ⟨fun x hx hc => ?_, fun x hx hc ht => ?_, fun hc => ?_, fun hc => ?_⟩
  · exact vsrd_writes_special h hstep hd (hc ▸ specials_readable s a g b x hx)
  · exact vsrd_writes_special h hstep hd (hc ▸ exceptions_readable ht x hx)
  · refine vsrd_writes h hstep hd (hc ▸ by decide) (fun i hi => ?_) fun x imm pc hi => vsrdBody_lane (hi.trans hc)
    simp [vsrdOk, hcode (by decide) (hi.trans hc)]
  · refine vsrd_writes h hstep hd (hc ▸ by decide) (fun i hi => ?_) fun x imm pc hi => vsrdBody_tid (hi.trans hc)
    simp [vsrdOk, hcode (by decide) (hi.trans hc)]

end

/-- Settles O15: the tables of the claims are those of the model, read by `srd` and `vsrd` and written by `swr`. -/
theorem specialRegisters : Obligations.SpecialRegisters :=
  ⟨specialRegistersAreRead, specialRegistersAreWritten, specialRegistersInLanes⟩

end Sys2Proof.Machine

/-!
Registers written and read (03 R75, 10 R192, 22 R406): what a vector register holds after its active lanes are written, and which words take
POISON (O16).
-/

namespace Sys2Proof.Machine

/-! ### A lane of a register replaced -/

/-- A digit of a number in which digit l has been replaced by x. -/
theorem digit_replaced {B : Nat} (hB : 0 < B) {x : Nat} (hx : x < B) (r l k : Nat) :
    (r % B ^ l + x * B ^ l + r / B ^ (l + 1) * B ^ (l + 1)) / B ^ k % B = if k = l then x else r / B ^ k % B := by
  have hpow : ∀ n, 0 < B ^ n := fun n => Nat.pow_pos hB
  have hlow : r % B ^ l < B ^ l := Nat.mod_lt _ (hpow l)
  have hform : r % B ^ l + x * B ^ l + r / B ^ (l + 1) * B ^ (l + 1) = r % B ^ l + B ^ l * (x + B * (r / B ^ (l + 1))) := by ring
  have digit : ∀ n, n / B ^ k % B = n % B ^ (k + 1) / B ^ k := fun n => by rw [pow_succ, Nat.mod_mul_right_div_self]
  rcases lt_trichotomy k l with hk | rfl | hk
  · have hdvd : B ^ (k + 1) ∣ B ^ l := Nat.pow_dvd_pow B hk
    rw [if_neg hk.ne, digit, digit r, hform, ← Nat.mod_mod_of_dvd _ hdvd, Nat.add_mul_mod_self_left, Nat.mod_mod, Nat.mod_mod_of_dvd _ hdvd]
  · rw [if_pos rfl, hform, Nat.add_mul_div_left _ _ (hpow k), Nat.div_eq_of_lt hlow, Nat.zero_add, Nat.add_mul_mod_self_left,
      Nat.mod_eq_of_lt hx]
  · obtain ⟨m, rfl⟩ := Nat.exists_eq_add_of_lt hk
    have hsmall : r % B ^ l + x * B ^ l < B ^ (l + 1) := by
      rw [pow_succ]; nlinarith [hpow l]
    have hhigh : (r % B ^ l + x * B ^ l + r / B ^ (l + 1) * B ^ (l + 1)) / B ^ (l + 1) = r / B ^ (l + 1) := by
      rw [Nat.add_mul_div_right _ _ (hpow _), Nat.div_eq_of_lt hsmall, Nat.zero_add]
    have hsplit : B ^ (l + m + 1) = B ^ (l + 1) * B ^ m := by ring
    rw [if_neg hk.ne', hsplit, ← Nat.div_div_eq_div_mul, ← Nat.div_div_eq_div_mul, hhigh]

theorem replaced_lt {B : Nat} (hB : 0 < B) {x r l : Nat} (hx : x < B) (hl : l < 8) (hr : r < B ^ 8) :
    r % B ^ l + x * B ^ l + r / B ^ (l + 1) * B ^ (l + 1) < B ^ 8 := by
  obtain ⟨m, hm⟩ : ∃ m, 8 = l + 1 + m := ⟨7 - l, by omega⟩
  have hlow : r % B ^ l < B ^ l := Nat.mod_lt _ (Nat.pow_pos hB)
  have hsmall : r % B ^ l + x * B ^ l < B ^ (l + 1) := by rw [pow_succ]; nlinarith [Nat.pow_pos (n := l) hB]
  have hhigh : r / B ^ (l + 1) < B ^ m := Nat.div_lt_of_lt_mul (by rwa [← pow_add, ← hm])
  rw [hm, pow_add B (l + 1) m]
  nlinarith [Nat.pow_pos (n := l + 1) hB]

/-- Lane k of a register in which lane l is replaced. -/
theorem setLane_lane (r : BitVec (8 * 256)) {l : Nat} (hl : l < 8) (v k : Nat) :
    (setLane 256 r l v).toNat / 2 ^ (256 * k) % 2 ^ 256 = if k = l then v % 2 ^ 256 else r.toNat / 2 ^ (256 * k) % 2 ^ 256 := by
  have hv : v % 2 ^ 256 < 2 ^ 256 := Nat.mod_lt _ (by decide)
  have hr : r.toNat < (2 ^ 256) ^ 8 := by simpa only [pow_mul 2 256, Nat.mul_comm 8 256] using r.isLt
  have hlt : r.toNat % 2 ^ (256 * l) + v % 2 ^ 256 * 2 ^ (256 * l) + r.toNat / 2 ^ (256 * (l + 1)) * 2 ^ (256 * (l + 1)) <
      2 ^ (8 * 256) := by
    simpa only [pow_mul 2 256, Nat.mul_comm 8 256] using replaced_lt (Nat.two_pow_pos 256) hv hl hr
  rw [setLane, toNat_ofNat_of_lt hlt]
  simp only [pow_mul 2 256]
  exact digit_replaced (Nat.two_pow_pos 256) hv ..

theorem vget_vset_self {α : Type} {n : Nat} (v : Vector α n) {i : Nat} (x d : α) (h : i < n) : vget (vset v i x) i d = x := by
  simp [vget, vset, Vector.getD, h]

theorem vget_vset_ne {α : Type} {n : Nat} (v : Vector α n) {i j : Nat} (x d : α) (h : j ≠ i) : vget (vset v i x) j d = vget v j d := by
  simp [vget, vset, Vector.getD, h.symm]

theorem Group.setV_vlane_self (g : Group) {d l : Nat} (v k : Nat) (hd : d < 128) (hl : l < 8) :
    (g.setV d l v).vlane d k = if k = l then v % 2 ^ 256 else g.vlane d k := by
  have hreg : vget (g.setV d l v).v d 0 = setLane 256 (vget g.v d 0) l v := vget_vset_self _ _ _ hd
  rw [Group.vlane, hreg, setLane_lane _ hl]
  rfl

theorem Group.setV_vlane_ne (g : Group) {n d : Nat} (l v k : Nat) (hn : n ≠ d) : (g.setV d l v).vlane n k = g.vlane n k := by
  have hreg : vget (g.setV d l v).v n 0 = vget g.v n 0 := vget_vset_ne _ _ _ hn
  rw [Group.vlane, hreg]
  rfl

/-! ### Lanes of a register written -/

theorem mem_lanesOf {m : BitVec 8} {l : Nat} : l ∈ lanesOf m ↔ l < 8 ∧ m.getLsbD l = true := by
  rw [lanesOf, List.mem_filter, List.mem_range]

/-- Lanes of vector register d written one after another. -/
def Group.setLanes (g : Group) (d : Nat) (f : Nat → Nat) (ls : List Nat) : Group := ls.foldl (fun h l => h.setV d l (f l)) g

theorem putLanes_eq (g : Group) (d : Nat) (f : Nat → Nat) : Claims.putLanes g d f = g.setLanes d f (lanesOf g.active) := rfl

section
variable {d : Nat} (f : Nat → Nat)

theorem Group.setLanes_vlane_self (hd : d < 128) {ls : List Nat} (hls : ∀ l ∈ ls, l < 8) (g : Group) (k : Nat) :
    (g.setLanes d f ls).vlane d k = if k ∈ ls then f k % 2 ^ 256 else g.vlane d k := by
  induction ls generalizing g with
  | nil => rfl
  | cons l ls ih =>
    have hrest : ((g.setV d l (f l)).setLanes d f ls).vlane d k = _ := ih (fun m hm => hls m (.tail _ hm)) _
    rw [Group.setLanes, List.foldl_cons, ← Group.setLanes, hrest, Group.setV_vlane_self g _ k hd (hls l (.head _))]
    by_cases hk : k = l <;> simp [hk]

theorem Group.setLanes_vlane_ne {n : Nat} (hn : n ≠ d) (ls : List Nat) (g : Group) (k : Nat) :
    (g.setLanes d f ls).vlane n k = g.vlane n k := by
  induction ls generalizing g with
  | nil => rfl
  | cons l ls ih => exact (ih _).trans (Group.setV_vlane_ne g l (f l) k hn)

theorem Group.setLanes_poison (ls : List Nat) (g : Group) :
    (g.setLanes d f ls).poison = g.poison.filter fun r => !(r.file == .vector && r.reg == d && decide (r.lane ∈ ls)) := by
  induction ls generalizing g with
  | nil => simp [Group.setLanes]
  | cons l ls ih =>
    rw [Group.setLanes, List.foldl_cons, ← Group.setLanes, ih, Group.setV_poison, Group.cleaned, List.filter_filter]
    refine List.filter_congr fun r _ => ?_
    obtain ⟨file, reg, lane⟩ := r
    rw [Bool.eq_iff_iff]
    simp only [List.mem_cons, Bool.and_eq_true, Bool.not_eq_true', Bool.and_eq_false_iff, beq_eq_false_iff_ne, decide_eq_false_iff_not,
      bne_iff_ne, ne_eq, RegAt.mk.injEq]
    tauto

theorem Group.setLanes_frame (ls : List Nat) (g : Group) :
    g.setLanes d f ls = { g with v := (g.setLanes d f ls).v, poison := (g.setLanes d f ls).poison } := by
  induction ls generalizing g with
  | nil => rfl
  | cons l ls ih => exact (ih (g.setV d l (f l))).trans rfl

end

theorem lanesWritten : Claims.LanesWritten := by
  intro g d f hd
  have hlanes : ∀ l ∈ lanesOf g.active, l < 8 := fun l hl => (mem_lanesOf.1 hl).1
  refine ⟨fun l hl => ?lane, fun n l hn => ?other, (Claims.putLanes g d f).v, ?frame⟩
  case lane => simp [putLanes_eq, Group.setLanes_vlane_self f hd hlanes, mem_lanesOf, hl]
  case other => exact Group.setLanes_vlane_ne f hn _ _ _
  case frame =>
    have hactive : ∀ l, decide (l ∈ lanesOf g.active) = g.active.getLsbD l := fun l => by
      rw [Bool.eq_iff_iff, decide_eq_true_iff, mem_lanesOf, and_iff_right_iff_imp]
      exact BitVec.lt_of_getLsbD
    have hpoison := Group.setLanes_poison (d := d) f (lanesOf g.active) g
    simp only [hactive] at hpoison
    rw [← hpoison]
    exact Group.setLanes_frame ..

/-! ### Poisoned registers -/

theorem issueWord_of_slot {s : State} {a : Nat} {g : Group} {b : Block} (hs : s.issue.head? = some a) (hg : s.grp a = some g)
    (hb : s.blk g.block = some b) (x : Insn) (ok : Iss → Bool) (body : State → Iss → Res) :
    issueWord x ok body s = .next (s.runWord ⟨a, g, b, x, 0, g.pc⟩ ok body) := by
  obtain ⟨r, hr⟩ := List.head?_eq_some_iff.1 hs
  simp [issueWord, hr, hg, hb]

/-- The words of format A pass the checks before their own where they stand alone, outside capsule steps. -/
theorem passes_registers {op : Nat} {kd kx ky : RegKind} {e : Bool} {d x y : BitVec 7} {g : Group} (hc : g.Clear)
    (hd : kd.fits g.kregs d.toNat = true) (hx : kx.fits g.kregs x.toNat = true) (hy : ky.fits g.kregs y.toNat = true) :
    Passes (insnA op (sigA kd kx ky) e d x y) g 0 where
  privilege := nofun
  immediate := rfl
  form := by simp [Insn.formOk, insnA, sigA, hc.1, hd, hx, hy]
  step := fun h => absurd h (by rw [hc.2]; exact Bool.false_ne_true)

section
variable {s : State} {a : Nat} {g : Group} {b : Block} {x : Insn} {imm : BitVec 64} {ok : Iss → Bool} {body : State → Iss → Res}

theorem awaitsResults_false (hr : (s.core (coreOf a)).resultsDue a = []) (pc : BitVec 57) :
    (⟨a, g, b, x, imm, pc⟩ : Iss).awaitsResults s = false := by simp [Iss.awaitsResults, hr]

/-- A word that passes its checks traps where it reads a poisoned register. -/
theorem traps_of_poison {i : Instr} {r : RegAt} (hi : exec i s = issueWord x ok body s) (hs : s.issue.head? = some a)
    (hg : s.grp a = some g) (hb : s.blk g.block = some b) (hr : (s.core (coreOf a)).resultsDue a = []) (hp : Passes x g imm)
    (hok : ok ⟨a, g, b, x, imm, g.pc⟩ = true) (hpoison : r ∈ g.poison) (hreads : (⟨a, g, b, x, imm, g.pc⟩ : Iss).reads r = true) :
    Traps i s a g cPoison 0 0 := by
  have hany : g.poison.any (⟨a, g, b, x, imm, g.pc⟩ : Iss).reads = true := List.any_eq_true.2 ⟨r, hpoison, hreads⟩
  rw [Traps, hi, issueWord_of_slot hs hg hb]
  simp only [State.runWord, hp.privilege_false, hp.immediate, hp.form, hok, hp.step_none, awaitsResults_false hr, hany]
  rfl

/-- A word that passes its checks and reads no poisoned register does what its meaning says. -/
theorem runWord_unread {u : State} {mv : PcMove} {cls n : Nat} (hr : (s.core (coreOf a)).resultsDue a = []) (hp : Passes x g imm)
    (hok : ok ⟨a, g, b, x, imm, g.pc⟩ = true) (hunread : ∀ r ∈ g.poison, (⟨a, g, b, x, imm, g.pc⟩ : Iss).reads r = false)
    (hb : body s ⟨a, g, b, x, imm, g.pc⟩ = .done u mv cls n) :
    s.runWord ⟨a, g, b, x, 0, g.pc⟩ ok body = u.retire ⟨a, g, b, x, imm, g.pc⟩ mv cls n := by
  have hany : g.poison.any (⟨a, g, b, x, imm, g.pc⟩ : Iss).reads = false := List.any_eq_false.2 fun r h => by simp [hunread r h]
  simp only [State.runWord, hp.privilege_false, hp.immediate, hp.form, hok, hp.step_none, awaitsResults_false hr, hany, hb]
  rfl

end

/-! ### What the words of the claim read -/

theorem Iss.spans_of_low {i : Iss} (h : i.x.op < 0x138) : i.spans = (1, 1, 1) := by
  have hne : ∀ n, 0x138 ≤ n → i.x.op ≠ n := fun n hn => by omega
  have hle : ∀ n, 0x138 ≤ n → ¬ n ≤ i.x.op := fun n hn => by omega
  simp [Iss.spans, hne, hle]

theorem Iss.reads_scalarA {i : Iss} (hop : i.x.op < 0x138) (ha : i.x.sig.a = .scalar) (l : Nat) : i.reads ⟨.scalar, i.x.a, l⟩ = true := by
  have hne : i.x.op ≠ 0x245 := by omega
  simp [Iss.reads, Iss.spans_of_low hop, ha, hne]

theorem Iss.reads_vectorA {i : Iss} (hop : i.x.op < 0x130) (hgget : i.x.op ≠ 0x067) (ha : i.x.sig.a = .vector) {l : Nat}
    (hl : i.g.active.getLsbD l = true) : i.reads ⟨.vector, i.x.a, l⟩ = true := by
  have hne : ∀ n, 0x130 ≤ n → i.x.op ≠ n := fun n hn => by omega
  have hle : ¬ 0x380 ≤ i.x.op := by omega
  have hlane : l ∈ lanesOf i.g.active := mem_lanesOf.2 ⟨BitVec.lt_of_getLsbD hl, hl⟩
  simp [Iss.reads, Iss.spans_of_low (hop.trans (by decide)), ha, Iss.scaleOnly, Iss.lanesA, hne, hle, hgget, hlane]

/-- Scalar arithmetic reads no register but those of its fields a and b. -/
theorem Iss.reads_scalar_other {i : Iss} (hop : i.x.op < 0x017) {n l : Nat} (ha : i.x.a ≠ n) (hb : i.x.b ≠ n) :
    i.reads ⟨.scalar, n, l⟩ = false := by
  have hne : ∀ m, 0x017 ≤ m → i.x.op ≠ m := fun m hm => by omega
  have hspan : ∀ m, m ≠ n → decide (m ≤ n ∧ n < m + 1) = false := fun m hm => decide_eq_false (by omega)
  simp only [Iss.reads, Iss.spans_of_low (hop.trans (by decide)), hspan _ ha, hspan _ hb]
  simp [readsD, Iss.readsUpper, hne]

/-- A word of the scalar registers a and b that no check of its own refuses: what the words of `Claims.scalarRows` have in common. -/
def ScalarWord (i : Instr) (e : Bool) (d x y : BitVec 7) : Prop :=
  ∃ op k z body, op < 0x138 ∧ (k = .scalar ∧ z = y ∨ k = .zero ∧ z = 0) ∧
    ∀ s, exec i s = issueWord (insnA op (sigA .scalar .scalar k) e d x z) always body s

theorem scalarRows_scalarWord (e : Bool) (d x y : BitVec 7) : ∀ row ∈ Claims.scalarRows, ScalarWord (row.1 e d x y) e d x y := by
  have two : ∀ {i : Instr} {op : Nat} {body : State → Iss → Res}, op < 0x138 →
      (∀ s, exec i s = issueWord (insnA op (sigA .scalar .scalar .scalar) e d x y) always body s) → ScalarWord i e d x y :=
    fun hop hi => ⟨_, _, _, _, hop, .inl ⟨rfl, rfl⟩, hi⟩
  have one : ∀ {i : Instr} {op : Nat} {body : State → Iss → Res}, op < 0x138 →
      (∀ s, exec i s = issueWord (insnA op (sigA .scalar .scalar .zero) e d x 0) always body s) → ScalarWord i e d x y :=
    fun hop hi => ⟨_, _, _, _, hop, .inr ⟨rfl, rfl⟩, hi⟩
  simp only [Claims.scalarRows, List.forall_mem_cons]
  and_intros
  iterate 24 exact two (by decide) fun _ => rfl
  iterate 3 exact one (by decide) fun _ => rfl
  exact List.forall_mem_nil _

theorem exec_vadd (e : Bool) (d x y : BitVec 7) (s : State) : exec (.vadd e d x y) s =
    issueWord (insnA 0x100 (sigA .vector .vector .vector) e d x y) intEt (elementwise (satOp fun a b _ => a + b)) s := rfl

theorem exec_sadd (e : Bool) (d x y : BitVec 7) (s : State) : exec (.sadd e d x y) s =
    issueWord (insnA 0x001 (sigA .scalar .scalar .scalar) e d x y) always (scalarAB fun a b => a + b) s := rfl

theorem poisonedRegisters : Claims.PoisonedRegisters := by
  intro s a g b e d x y hs hg hb hlive hr hc
  refine ⟨fun hd hx hy => ⟨fun row hrow hpoison => ?source, fun hdx hdy hpoison => ⟨?value, ?cleaned⟩⟩,
    fun het hd hx hy l hl hpoison => ?lane⟩
  case source =>
    obtain ⟨op, k, z, body, hop, hz, hi⟩ := scalarRows_scalarWord e d x y row hrow
    have hfits : k.fits g.kregs z.toNat = true := by
      rcases hz with ⟨rfl, rfl⟩ | ⟨rfl, rfl⟩
      · exact decide_eq_true hy
      · rfl
    have hp := passes_registers (op := op) (e := e) hc (kd := .scalar) (decide_eq_true hd) (kx := .scalar) (decide_eq_true hx) hfits
    exact traps_of_poison (hi s) hs hg hb hr hp rfl hpoison (Iss.reads_scalarA hop rfl 0)
  case value =>
    have hp := passes_registers (op := 0x001) (e := e) hc (kd := .scalar) (decide_eq_true hd) (kx := .scalar) (decide_eq_true hx)
      (ky := .scalar) (decide_eq_true hy)
    have hunread : ∀ r ∈ g.poison, Iss.reads ⟨a, g, b, insnA 0x001 (sigA .scalar .scalar .scalar) e d x y, 0, g.pc⟩ r = false := by
      rw [hpoison, List.forall_mem_singleton]
      exact Iss.reads_scalar_other (by decide : 0x001 < 0x017) (mt BitVec.eq_of_toNat_eq hdx.symm)
        (mt BitVec.eq_of_toNat_eq hdy.symm)
    have hexec := (exec_sadd e d x y s).trans ((issueWord_of_slot hs hg hb ..).trans (congrArg Host.Outcome.next
      (runWord_unread hr hp rfl hunread rfl)))
    have hgroup : (s.updGrp a fun h => h.setS d.toNat (g.sreg x.toNat + g.sreg y.toNat)).grp a =
        some (g.setS d.toNat (g.sreg x.toNat + g.sreg y.toNat)) := by rw [State.updGrp_grp_self, hg]; rfl
    exact Completes.of_group ⟨_, hexec, retire_retired hgroup hlive⟩
  case cleaned => simp [hpoison, Group.cleaned]
  case lane =>
    have hp := passes_registers (op := 0x100) (e := e) hc (kd := .vector) (decide_eq_true hd) (kx := .vector) (decide_eq_true hx)
      (ky := .vector) (decide_eq_true hy)
    exact traps_of_poison (exec_vadd e d x y s) hs hg hb hr hp (decide_eq_true het) hpoison
      (Iss.reads_vectorA (by decide : 0x100 < 0x130) (by decide : 0x100 ≠ 0x067) rfl hl)

/-- Settles O16: the lanes written by induction over their list, the poison by the registers that the words read. -/
theorem inactiveLanesAreKept : Obligations.InactiveLanesAreKept := ⟨lanesWritten, poisonedRegisters⟩

end Sys2Proof.Machine

/-!
Contexts (04, O48): the commands of R92 and what happens to contexts by themselves.

First what leaves the work of contexts alone: the part's reads and writes of memory change no context, graph, grid or block
(`State.work`). Then what a fault of a node keeps of the others (`Keeps`): the attempts under way, ended grids, discarded blocks and what
is held of contexts. A reset and a restore fault several nodes one after another, and `State.Runs.faultNodes` says that each of them takes its
fault. Last the commands and the events.
-/

namespace Sys2Proof.Machine

/-! ### Association lists -/

theorem mem_of_amGet {α : Type} {m : AMap α} {k : Nat} {v : α} (h : amGet m k = some v) : (k, v) ∈ m := by
  induction m with
  | nil => simp at h
  | cons x r ih =>
    obtain ⟨k', v'⟩ := x
    simp only [amGet] at h
    split at h
    · next hk => simp_all
    · split at h
      · simp at h
      · exact List.mem_cons_of_mem _ (ih h)

theorem amGet_amMap {α β : Type} (f : Nat → α → β) (m : AMap α) (k : Nat) : amGet (amMap f m) k = (amGet m k).map (f k) := by
  induction m with
  | nil => rfl
  | cons x r ih =>
    obtain ⟨k', v⟩ := x
    change (if k' = k then some (f k' v) else if k < k' then none else amGet (amMap f r) k) = _
    rw [ih, amGet]
    split
    · next hk => rw [hk]; rfl
    · split <;> rfl

theorem amSet_amSet {α : Type} (m : AMap α) (k : Nat) (v w : α) : amSet (amSet m k v) k w = amSet m k w := by
  induction m with
  | nil => simp [amSet]
  | cons x r ih =>
    obtain ⟨k', v'⟩ := x
    simp only [amSet]
    split
    · simp [amSet]
    · split
      · simp [amSet]
      · next hlt hne => simp [amSet, hlt, hne, ih]

theorem amDel_of_none {α : Type} {m : AMap α} {k : Nat} (h : amGet m k = none) : amDel m k = m := by
  induction m with
  | nil => rfl
  | cons x r ih =>
    obtain ⟨k', v⟩ := x
    simp only [amGet] at h
    simp only [amDel]
    split at h
    · simp at h
    · next hne =>
      rw [if_neg hne]
      split at h
      · next hlt => rw [if_pos hlt]
      · next hlt => rw [if_neg hlt, ih h]

/-- What a sorted list still holds after keys are removed. -/
theorem amGet_foldl_amDel {α : Type} {m : AMap α} {k : Nat} {v : α} (hm : amSorted m = true) (ks : List Nat)
    (h : amGet (ks.foldl amDel m) k = some v) : amGet m k = some v ∧ k ∉ ks := by
  induction ks generalizing m with
  | nil => exact ⟨h, List.not_mem_nil⟩
  | cons j js ih =>
    obtain ⟨hget, hjs⟩ := ih (amSorted_amDel j hm) h
    have hne : k ≠ j := by
      rintro rfl
      simp [amGet_amDel_self k hm] at hget
    exact ⟨amGet_amDel_ne hm hne ▸ hget, by simp [hne, hjs]⟩

/-- After a row of writes of one value, a key that was among them holds it. -/
theorem amGet_foldl_amSet_const {α : Type} {k : Nat} {v : α} (ps : List (Nat × α)) (hv : ∀ x ∈ ps, x.2 = v) (m : AMap α)
    (h : amGet m k = some v ∨ k ∈ ps.map (·.1)) : amGet (ps.foldl (fun m x => amSet m x.1 x.2) m) k = some v := by
  induction ps generalizing m with
  | nil => simpa using h
  | cons x xs ih =>
    refine ih (fun y hy => hv y (.tail _ hy)) _ ?_
    by_cases hx : k = x.1
    · left
      rw [hx, amGet_amSet_self, hv x (.head _)]
    · rw [amGet_amSet_ne _ _ hx]
      exact h.imp_right fun hmem => (List.mem_cons.1 hmem).resolve_left hx

/-! ### What accesses leave alone -/

/-- A projection that a step leaves alone, a row of such steps leaves alone. -/
theorem foldl_fixed {σ α β : Type} {f : σ → α → σ} {p : σ → β} (hf : ∀ s a, p (f s a) = p s) (l : List α) (s : σ) :
    p (l.foldl f s) = p s :=
  List.foldlRecOn l f (motive := fun t => p t = p s) rfl fun t h a _ => (hf t a).trans h

/-- The contexts, their work and CTXSTS: what no access to memory changes. -/
structure Work where
  ctxSts : BitVec 64
  ctxs : AMap Ctx
  graphs : AMap Graph
  grids : AMap Grid
  blocks : AMap Block

def State.work (s : State) : Work := ⟨s.ctxSts, s.ctxs, s.graphs, s.grids, s.blocks⟩

section
variable {s t : State} (h : t.work = s.work)
include h

theorem ctxSts_of_work : t.ctxSts = s.ctxSts := congrArg Work.ctxSts h
theorem ctxs_of_work : t.ctxs = s.ctxs := congrArg Work.ctxs h
theorem graphs_of_work : t.graphs = s.graphs := congrArg Work.graphs h
theorem grids_of_work : t.grids = s.grids := congrArg Work.grids h
theorem blocks_of_work : t.blocks = s.blocks := congrArg Work.blocks h
theorem ctx_of_work (c : Nat) : t.ctx c = s.ctx c := by rw [State.ctx, ctxs_of_work h]; rfl

end

/-- The state that an access of the part leaves. -/
def CRes.state : CRes → State
  | .ok _ s => s
  | .fault _ s => s
  | .wait s => s

namespace State

@[simp] theorem touchHome_work (s : State) (die pa : Nat) : (s.touchHome die pa).work = s.work := rfl
@[simp] theorem performBytes_work (s : State) (who : Option (Nat × Nat)) (pa n data : Nat) :
    (s.performBytes who pa n data).work = s.work := rfl
@[simp] theorem write64_work (s : State) (pa : Nat) (v : BitVec 64) : (s.write64 pa v).work = s.work := rfl
@[simp] theorem disarm_work (s : State) (kind : WatchKind) : (s.disarm kind).work = s.work := rfl
@[simp] theorem leaveSlot_work (s : State) (a : Nat) : (s.leaveSlot a).work = s.work := rfl
@[simp] theorem dropWaits_work (s : State) (a : Nat) : (s.dropWaits a).work = s.work := rfl
@[simp] theorem setRevoked_work (s : State) (at' : Nat) : (s.setRevoked at').work = s.work := rfl

@[simp] theorem post_work (s : State) (l : Nat) (m : OutMsg) : (s.post l m).work = s.work := by
  unfold post
  split <;> rfl

@[simp] theorem setAD_work (s : State) (ctx va : Nat) (d : Bool) : (s.setAD ctx va d).work = s.work := by
  unfold setAD
  split
  · rfl
  · next e _ at' _ =>
    generalize e ||| (if d then 0xC00 else 0x400) = e'
    dsimp only
    split <;> rfl

@[simp] theorem direct_work (s : State) (ctx va : Nat) (k : Access) (priv : Bool) : (s.direct ctx va k priv).2.work = s.work := by
  unfold direct
  split
  · rfl
  · split
    · exact s.setAD_work ..
    · exact s.setRevoked_work _
    · rfl

@[simp] theorem accStep_work (s : State) (core : Nat) : (s.accStep core).work = s.work := by
  unfold accStep
  dsimp only
  split
  · rfl
  · split <;> rfl

@[simp] theorem accDrain_work (s : State) (core : Nat) : (s.accDrain core).work = s.work :=
  foldl_fixed (fun s _ => s.accStep_work core) _ _

@[simp] theorem coreByteSet_work (s : State) (c : Nat) (b : CoreByte) (v : Nat) : (s.coreByteSet c b v).work = s.work := by
  cases b with
  | stat i => simp only [coreByteSet]; split <;> rfl
  | _ => rfl

@[simp] theorem coreByteClean_work (s : State) (c : Nat) (b : CoreByte) : (s.coreByteClean c b).work = s.work := by
  cases b <;> rfl

@[simp] theorem coreWinClean_work (s : State) (c off n : Nat) : (s.coreWinClean c off n).work = s.work :=
  foldl_fixed (fun s i => by
    dsimp only
    split
    · exact s.coreByteClean_work ..
    · rfl) _ _

@[simp] theorem coreWinWrite_work (s : State) (c off n data : Nat) : (s.coreWinWrite c off n data).work = s.work := by
  rw [coreWinWrite, coreWinClean_work, foldl_fixed (p := State.work) fun s i => s.coreByteSet_work c _ _, accDrain_work]

@[simp] theorem chipWrite_work (s : State) (pa n data : Nat) : (s.chipWrite pa n data).work = s.work := by
  have hwrite := congrFun (congrFun (congrFun (congrFun chipWrite_def s) pa) n) data
  beta_reduce at hwrite
  generalize s.chipLoc pa = l at hwrite
  rw [hwrite]
  cases l with
  | core c off => exact s.coreWinWrite_work c off n data
  | _ => rfl

@[simp] theorem noteRefused_work (s : State) (pa : Nat) : (s.noteRefused pa).work = s.work := by
  unfold noteRefused
  split
  · split <;> rfl
  · rfl

@[simp] theorem extSend_work (s : State) (agent ctx : Nat) (write : Bool) (pa n data : Nat) :
    (s.extSend agent ctx write pa n data).work = s.work := post_work ..

@[simp] theorem extAtomic_work (s : State) (agent ctx : Nat) (write : Bool) (pa n : Nat) (op : AtomOp) (et b cmp : Nat) :
    (s.extAtomic agent ctx write pa n op et b cmp).work = s.work := post_work ..

@[simp] theorem extWrite_work (s : State) (w : PendWrite) : (s.extWrite w).work = s.work := by
  unfold extWrite
  split
  · exact s.noteRefused_work _
  · split
    · exact s.extSend_work ..
    · exact s.extAtomic_work ..

@[simp] theorem performWrite_work (s : State) (w : PendWrite) : (s.performWrite w).work = s.work := by
  unfold performWrite
  split
  · rfl
  · exact s.chipWrite_work ..
  · exact s.extWrite_work w
  · split
    · rfl
    · split
      · rfl
      · exact s.extWrite_work w
  · rfl

@[simp] theorem drainCore_work (s : State) (core : Nat) : (s.drainCore core).work = s.work :=
  foldl_fixed performWrite_work _ _

@[simp] theorem extAsk_work (s : State) (agent ctx pa n : Nat) : (s.extAsk agent ctx pa n).work = s.work := by
  unfold extAsk
  dsimp only
  split
  · rfl
  · rw [extSend_work, drainCore_work]

/-- A read of the part, however it ends. -/
@[simp] theorem ctxRead_work (s : State) (c va n : Nat) : (s.ctxRead c va n).state.work = s.work := by
  have hdirect := s.direct_work c va .read true
  unfold ctxRead
  dsimp only
  split
  · exact hdirect
  · exact hdirect
  · rfl
  · rfl
  · split
    · split <;> simp [CRes.state]
    · exact hdirect
    · split
      · split <;> simp [CRes.state]
      · simp [CRes.state]
    · exact hdirect
    · exact hdirect
    · rfl

/-- A write of the part, however it ends. -/
@[simp] theorem ctxWrite_work (s : State) (c va n data : Nat) (count : Bool) : (s.ctxWrite c va n data count).state.work = s.work := by
  have hdirect := s.direct_work c va .write true
  unfold ctxWrite
  dsimp only
  split
  · exact hdirect
  · exact hdirect
  · rfl
  · rfl
  · split
    · exact hdirect
    · exact hdirect
    · simp [CRes.state]
    · exact hdirect
    · exact hdirect
    · rfl

@[simp] theorem partUsed_work (s : State) (c va : Nat) : (s.partUsed c va).work = s.work := by
  unfold partUsed
  split <;> rfl

end State

/-! ### Contexts that change -/

namespace State

@[simp] theorem setCtxState_ctx_self (s : State) (c : Nat) (st : CState) :
    (s.setCtxState c st).ctx c = { s.ctx c with state := st } :=
  s.updCtx_ctx_self c fun x => { x with state := st }

theorem setCtxState_ctx_ne (s : State) {c d : Nat} (st : CState) (h : d ≠ c) : (s.setCtxState c st).ctx d = s.ctx d :=
  s.updCtx_ctx_ne (fun x => { x with state := st }) h

@[simp] theorem setCtxState_ctxSts (s : State) (c : Nat) (st : CState) : (s.setCtxState c st).ctxSts = s.ctxSts := rfl
@[simp] theorem setCtxState_blocks (s : State) (c : Nat) (st : CState) : (s.setCtxState c st).blocks = s.blocks := rfl
@[simp] theorem setCtxState_partials (s : State) (c : Nat) (st : CState) : (s.setCtxState c st).partials = s.partials := rfl
@[simp] theorem write64_ctx (s : State) (pa : Nat) (v : BitVec 64) (c : Nat) : (s.write64 pa v).ctx c = s.ctx c := rfl
@[simp] theorem write64_ctxSts (s : State) (pa : Nat) (v : BitVec 64) : (s.write64 pa v).ctxSts = s.ctxSts := rfl
@[simp] theorem ctxResult_ctx (s : State) (c code d : Nat) : (s.ctxResult c code).ctx d = s.ctx d := rfl

theorem updCtx_updCtx (s : State) (c : Nat) (f g : Ctx → Ctx) : (s.updCtx c f).updCtx c g = s.updCtx c fun x => g (f x) := by
  have hctx : (s.updCtx c f).ctx c = f (s.ctx c) := s.updCtx_ctx_self c f
  rw [updCtx, hctx]
  simp only [updCtx, setCtx, amSet_amSet]

end State

end Sys2Proof.Machine

namespace Sys2Proof.Machine

/-! ### What a fault of a node keeps -/

/-- The attempt of a node: its state, its grid, and the fault that waits for its blocks to leave. -/
def Node.attempt (x : Node) : Nat × Option Nat × Option Nat := (x.state, x.grid, x.ending)

/-- A block, discarded. -/
def Block.discard (b : Block) : Block := { b with discarding := true }

/-- What a context holds that no fault of a node changes: its save and its slot. -/
def Ctx.held (x : Ctx) : List SavedBlock × Bool × Bool := (x.saved, x.restoring, x.active)

/-- Every block of a grid is discarded. -/
def State.GridDiscarded (s : State) (k : Nat) : Prop := ∀ id b, s.blk id = some b → b.grid = k → b.discarding = true

/-- A grid, where there is one, has ended. -/
def State.GridEnded (s : State) (k : Nat) : Prop := ∀ gr, amGet s.grids k = some gr → gr.state = .ended

/-- What faults keep from s to t: CTXSTS, what contexts hold, a reset under way, blocks but for their discard, grids that have ended, grids whose
blocks are discarded, and the attempts of the nodes of which P holds. -/
structure Keeps (P : Nat → Nat → Prop) (s t : State) : Prop where
  ctxSts : t.ctxSts = s.ctxSts
  held : ∀ c, (t.ctx c).held = (s.ctx c).held
  resetting : ∀ c, (s.ctx c).state = .resetting → (t.ctx c).state = .resetting
  attempt : ∀ g n, P g n → (t.node g n).map Node.attempt = (s.node g n).map Node.attempt
  block : ∀ id, (t.blk id).map Block.discard = (s.blk id).map Block.discard
  discarded : ∀ k, s.GridDiscarded k → t.GridDiscarded k
  ended : ∀ k, s.GridEnded k → t.GridEnded k

/-- Every node but one. -/
def AllBut (g n : Nat) : Nat → Nat → Prop := fun g' n' => (g', n') ≠ (g, n)

section
variable {P Q : Nat → Nat → Prop} {s t u : State}

theorem Keeps.refl (s : State) : Keeps P s s :=
  ⟨rfl, fun _ => rfl, fun _ => id, fun _ _ _ => rfl, fun _ => rfl, fun _ => id, fun _ => id⟩

theorem Keeps.trans (h : Keeps P s t) (h' : Keeps P t u) : Keeps P s u where
  ctxSts := h'.ctxSts.trans h.ctxSts
  held c := (h'.held c).trans (h.held c)
  resetting c := h'.resetting c ∘ h.resetting c
  attempt g n hp := (h'.attempt g n hp).trans (h.attempt g n hp)
  block id := (h'.block id).trans (h.block id)
  discarded k := h'.discarded k ∘ h.discarded k
  ended k := h'.ended k ∘ h.ended k

theorem Keeps.of_ctx (hsts : t.ctxSts = s.ctxSts) (hg : t.graphs = s.graphs) (hk : t.grids = s.grids) (hb : t.blocks = s.blocks)
    (held : ∀ c, (t.ctx c).held = (s.ctx c).held) (hres : ∀ c, (s.ctx c).state = .resetting → (t.ctx c).state = .resetting) :
    Keeps P s t where
  ctxSts := hsts
  held := held
  resetting := hres
  attempt g n _ := by simp only [State.node, hg]
  block id := by simp only [State.blk, hb]
  discarded k h := by simpa only [State.GridDiscarded, State.blk, hb] using h
  ended k h := by simpa only [State.GridEnded, hk] using h

theorem Keeps.of_work (h : t.work = s.work) : Keeps P s t :=
  .of_ctx (ctxSts_of_work h) (graphs_of_work h) (grids_of_work h) (blocks_of_work h)
    (fun c => by rw [ctx_of_work h]) fun c => by rw [ctx_of_work h]; exact id

theorem Keeps.foldl {α : Type} {f : State → α → State} (hf : ∀ s a, Keeps P s (f s a)) (l : List α) (s : State) :
    Keeps P s (l.foldl f s) :=
  List.foldlRecOn l f (motive := Keeps P s) (.refl s) fun t h a _ => h.trans (hf t a)

/-- Graphs changed: the attempts must be kept where P holds. -/
theorem Keeps.of_graphs (m : AMap Graph)
    (h : ∀ g n, P g n → (({ s with graphs := m } : State).node g n).map Node.attempt = (s.node g n).map Node.attempt) :
    Keeps P s { s with graphs := m } :=
  ⟨rfl, fun _ => rfl, fun _ => id, h, fun _ => rfl, fun _ => id, fun _ => id⟩

end

/-! ### Writes of records -/

section
variable {P : Nat → Nat → Prop} (s : State)

theorem State.updCtx_keeps {c : Nat} {f : Ctx → Ctx} (hheld : (f (s.ctx c)).held = (s.ctx c).held)
    (hres : (s.ctx c).state = .resetting → (f (s.ctx c)).state = .resetting) : Keeps P s (s.updCtx c f) := by
  have hboth (d : Nat) : ((s.updCtx c f).ctx d).held = (s.ctx d).held ∧
      ((s.ctx d).state = .resetting → ((s.updCtx c f).ctx d).state = .resetting) := by
    by_cases h : d = c
    · rw [h, State.updCtx_ctx_self]
      exact ⟨hheld, hres⟩
    · rw [State.updCtx_ctx_ne _ _ h]
      exact ⟨rfl, id⟩
  exact .of_ctx rfl rfl rfl rfl (fun d => (hboth d).1) fun d => (hboth d).2

theorem State.setCtxState_keeps {c : Nat} (st : CState) (h : (s.ctx c).state ≠ .resetting) : Keeps P s (s.setCtxState c st) :=
  (s.updCtx_keeps (f := fun x => { x with state := st }) rfl fun hres => absurd hres h).trans (.of_work (State.write64_work ..))

theorem State.faultCtx_keeps (c cause detail : Nat) : Keeps P s (s.faultCtx c cause detail) := by
  have hfault (h : (s.ctx c).state ≠ .resetting) {f : Ctx → Ctx} (hheld : (f (s.ctx c)).held = (s.ctx c).held)
      (hstate : (f (s.ctx c)).state = (s.ctx c).state) (pa : Nat) (v : BitVec 64) :
      Keeps P s (((s.updCtx c f).write64 pa v).setCtxState c .faulted) := by
    refine ((s.updCtx_keeps hheld fun hres => absurd hres h).trans (.of_work (State.write64_work ..))).trans
      (State.setCtxState_keeps _ _ ?_)
    rwa [State.write64_ctx, State.updCtx_ctx_self, hstate]
  unfold State.faultCtx
  split
  iterate 3 next h => exact hfault (by rw [h]; decide) rfl rfl _ _
  exact .refl s

theorem State.recordWrite_keeps (c va : Nat) (mask val : BitVec 64) : Keeps P s (s.recordWrite c va mask val).2 := by
  have hread : Keeps P s (s.ctxRead c va 8).state := .of_work (s.ctxRead_work c va 8)
  unfold State.recordWrite
  split
  · next h => rw [h] at hread; exact hread
  · next h =>
    rw [h] at hread
    exact (hread.trans (.of_work (State.partUsed_work ..))).trans (State.faultCtx_keeps ..)
  · next old t h =>
    rw [h] at hread
    have hused := hread.trans (.of_work (t.partUsed_work c va))
    have hwrite := hused.trans (.of_work ((t.partUsed c va).ctxWrite_work c va 8
      ((BitVec.ofNat 64 old &&& ~~~mask) ||| (val &&& mask)).toNat false))
    split
    · next h => rw [h] at hwrite; exact hwrite
    · next h => rw [h] at hwrite; exact hwrite.trans (State.faultCtx_keeps ..)
    · next h => rw [h] at hwrite; exact hwrite

theorem State.marWrite_keeps (c va : Nat) (mask val : BitVec 64) : Keeps P s (s.marWrite c va mask val) := by
  have hr : Keeps P s (if s.recWaits c then (false, s) else s.recordWrite c va mask val).2 := by
    split
    · exact .refl s
    · exact s.recordWrite_keeps ..
  unfold State.marWrite
  generalize (if s.recWaits c then (false, s) else s.recordWrite c va mask val) = r at hr
  dsimp only
  split
  · exact hr
  · exact hr.trans (.of_work rfl)

theorem State.marChange_keeps (c va : Nat) (mask old new : BitVec 64) : Keeps P s (s.marChange c va mask old new) := by
  unfold State.marChange
  split
  · exact .refl s
  · exact s.marWrite_keeps ..

theorem State.nodeWord_keeps (g n off : Nat) (v : BitVec 64) : Keeps P s (s.nodeWord g n off v) := by
  unfold State.nodeWord
  split
  · exact .refl s
  · exact s.marWrite_keeps ..

/-! ### Nodes and graphs put -/

theorem State.node_updGraph_self (g n : Nat) (f : Graph → Graph) :
    (s.updGraph g f).node g n = (amGet s.graphs g).bind fun x => (f x).nodes[n]? := by
  simp only [State.node, State.updGraph, amGet_amUpd_self, Option.bind_map]
  rfl

theorem State.node_updGraph_ne {g h : Nat} (n : Nat) (f : Graph → Graph) (hne : h ≠ g) : (s.updGraph g f).node h n = s.node h n := by
  simp only [State.node, State.updGraph, amGet_amUpd_ne _ _ hne]

/-- A graph changed: the attempts of its nodes must be kept where P holds. -/
theorem State.updGraph_keeps {g : Nat} {f : Graph → Graph}
    (h : ∀ n, P g n → ∀ x, amGet s.graphs g = some x → ((f x).nodes[n]?).map Node.attempt = (x.nodes[n]?).map Node.attempt) :
    Keeps P s (s.updGraph g f) := by
  refine .of_graphs _ fun h' n hp => ?_
  change ((s.updGraph g f).node h' n).map _ = _
  by_cases hne : h' = g
  · subst hne
    rw [State.node_updGraph_self, State.node]
    cases hx : amGet s.graphs h' with
    | none => rfl
    | some x => exact h n hp x hx
  · rw [State.node_updGraph_ne _ _ _ hne]

/-- Node n of a list replaced by one of the same attempt. -/
theorem attempt_set {xs : List Node} {n : Nat} {new : Node} (m : Nat)
    (h : m = n → ∀ old, xs[n]? = some old → new.attempt = old.attempt) :
    ((xs.set n new)[m]?).map Node.attempt = (xs[m]?).map Node.attempt := by
  rw [List.getElem?_set]
  split
  · next hm =>
    subst hm
    cases hx : xs[n]? with
    | none => rw [if_neg (by simpa using hx)]
    | some old =>
      have hlt : n < xs.length := (List.getElem?_eq_some_iff.1 hx).1
      rw [if_pos hlt, Option.map_some, Option.map_some, h rfl old hx]
  · rfl

/-- Where P holds of the node, the one put must be of the same attempt. -/
theorem State.putNode_keeps {g n : Nat} {new : Node} (h : P g n → ∀ old, s.node g n = some old → new.attempt = old.attempt) :
    Keeps P s (s.putNode g n new) := by
  unfold State.putNode
  split
  · next x old hx hold =>
    have hput : Keeps P s (s.updGraph g fun x => { x with nodes := x.nodes.set n new }) := by
      refine s.updGraph_keeps fun m hp y hy => attempt_set m ?_
      rintro rfl o ho
      exact h hp o (by rw [State.node, hy]; exact ho)
    exact ((hput.trans (State.marChange_keeps ..)).trans (State.marChange_keeps ..)).trans (State.marChange_keeps ..)
  · exact .refl s

theorem State.putNode_keeps_of_same {g n : Nat} {old new : Node} (hold : s.node g n = some old) (h : new.attempt = old.attempt) :
    Keeps P s (s.putNode g n new) :=
  s.putNode_keeps fun _ x hx => by rw [h, Option.some.inj (hold.symm.trans hx)]

theorem State.putNode_keeps_others (g n : Nat) (new : Node) : Keeps (AllBut g n) s (s.putNode g n new) :=
  s.putNode_keeps fun h => absurd rfl h

theorem State.putGraph_keeps {g : Nat} {new : Graph} (h : ∀ old, amGet s.graphs g = some old → new.nodes = old.nodes) :
    Keeps P s (s.putGraph g new) := by
  unfold State.putGraph
  split
  · exact .refl s
  · next old hold =>
    have hput : Keeps P s { s with graphs := amSet s.graphs g new } := by
      refine .of_graphs _ fun g' n _ => ?_
      by_cases hne : g' = g
      · subst hne
        simp only [State.node, amGet_amSet_self, hold, Option.bind_some, h old hold]
      · simp only [State.node, amGet_amSet_ne _ _ hne]
    exact (hput.trans (State.marChange_keeps ..)).trans (State.marChange_keeps ..)

/-! ### Walks and the policies of a fault -/

theorem State.walkAppend_keeps (g n : Nat) : Keeps P s (s.walkAppend g n) := by
  unfold State.walkAppend
  split
  · next x nd hx hnd =>
    split
    · exact .refl s
    · have hwalked : Keeps P s (s.putNode g n { nd with walked := true, wlink := 0xFFFF }) := s.putNode_keeps_of_same hnd rfl
      refine Keeps.trans (Keeps.trans hwalked ?tail) (State.putGraph_keeps _ fun old hold => ?_)
      case tail =>
        split
        · next hw =>
          split
          · exact .refl _
          · exact State.putNode_keeps_of_same _ hw rfl
        · exact .refl _
      · rw [hold]
        rfl
  · exact .refl s

theorem State.startWalk_keeps (g n : Nat) : Keeps P s (s.startWalk g n) := by
  unfold State.startWalk
  split
  · exact .refl s
  · exact .foldl (fun s m => s.walkAppend_keeps g m) _ _

theorem State.markRoot_keeps (g n : Nat) : Keeps P s (s.markRoot g n) := by
  unfold State.markRoot
  split
  · exact .refl s
  · next x hx =>
    split
    · exact s.putGraph_keeps fun old hold => by rw [Option.some.inj (hx.symm.trans hold)]
    · exact .refl s

theorem State.faultPolicy_keeps (g n policy : Nat) : Keeps P s (s.faultPolicy g n policy) := by
  unfold State.faultPolicy
  split
  · exact s.updGraph_keeps fun _ _ _ _ => rfl
  · exact (s.markRoot_keeps g n).trans (State.startWalk_keeps ..)

theorem State.faultNow_keeps (g n cause : Nat) : Keeps (AllBut g n) s (s.faultNow g n cause) := by
  unfold State.faultNow
  split
  · exact .refl s
  · dsimp only
    split
    · exact s.putNode_keeps_others g n _
    · exact ((s.putNode_keeps_others g n _).trans (State.nodeWord_keeps ..)).trans (State.faultPolicy_keeps ..)

/-! ### Grids -/

theorem State.amGet_setGrid_self (k : Nat) (st : GridState) : amGet (s.setGrid k st).grids k =
    (amGet s.grids k).map fun g => if g.state = .ended then g else { g with state := st } := amGet_amUpd_self ..

theorem State.setGrid_ended (k : Nat) : (s.setGrid k .ended).GridEnded k := by
  intro gr hgr
  rw [State.amGet_setGrid_self] at hgr
  obtain ⟨x, -, rfl⟩ := Option.map_eq_some_iff.1 hgr
  split
  · assumption
  · rfl

theorem State.setGrid_keeps (k : Nat) : Keeps P s (s.setGrid k .ended) := by
  refine ⟨rfl, fun _ => rfl, fun _ => id, fun _ _ _ => rfl, fun _ => rfl, fun _ => id, fun j hj => ?_⟩
  by_cases hne : j = k
  · exact hne ▸ s.setGrid_ended k
  · intro gr hgr
    exact hj gr ((amGet_amUpd_ne _ _ hne).symm.trans hgr)

theorem State.discardGrid_blk (k id : Nat) : (s.discardGrid k).blk id =
    (s.blk id).map fun b => if b.grid = k then b.discard else b :=
  amGet_amMap (fun _ (b : Block) => if b.grid = k then b.discard else b) _ _

theorem State.discardGrid_discarded (k : Nat) : (s.discardGrid k).GridDiscarded k := by
  intro id b hb hk
  rw [State.discardGrid_blk] at hb
  obtain ⟨x, -, rfl⟩ := Option.map_eq_some_iff.1 hb
  by_cases hx : x.grid = k
  · rw [if_pos hx]
    rfl
  · rw [if_neg hx] at hk
    contradiction

theorem State.discardGrid_keeps (k : Nat) : Keeps P s (s.discardGrid k) := by
  refine ⟨rfl, fun _ => rfl, fun _ => id, fun _ _ _ => rfl, fun id => ?_, fun j hj id b hb hgrid => ?_, fun _ => id⟩
  · rw [State.discardGrid_blk, Option.map_map]
    refine congrArg (Option.map · _) (funext fun b => ?_)
    simp only [Function.comp_apply, Block.discard]
    split <;> rfl
  · rw [State.discardGrid_blk] at hb
    obtain ⟨x, hx, rfl⟩ := Option.map_eq_some_iff.1 hb
    split
    · rfl
    · next hne =>
      rw [if_neg hne] at hgrid
      exact hj id x hx hgrid

/-- The grid of a node has ended and its blocks are discarded. -/
theorem State.endGrid_keeps (k : Nat) : Keeps P s ((s.setGrid k .ended).discardGrid k) :=
  (s.setGrid_keeps k).trans (State.discardGrid_keeps ..)

end

/-! ### Faults of nodes -/

section
variable (s : State)

theorem State.updNode_keeps_others (g n : Nat) (f : Node → Node) : Keeps (AllBut g n) s (s.updNode g n f) := by
  refine s.updGraph_keeps fun m hp x hx => ?_
  split
  · exact attempt_set m fun hm => absurd (by rw [hm]) hp
  · rfl

theorem State.node_updNode_self {g n : Nat} {x : Node} (h : s.node g n = some x) (f : Node → Node) :
    (s.updNode g n f).node g n = some (f x) := by
  obtain ⟨gr, hgr, hx⟩ := Option.bind_eq_some_iff.1 h
  rw [State.updNode, State.node_updGraph_self, hgr, Option.bind_some, hx]
  exact List.getElem?_set_self (List.getElem?_eq_some_iff.1 hx).1

/-- A fault of a node keeps the attempts of all others. -/
theorem State.nodeFault_keeps (g n cause : Nat) : Keeps (AllBut g n) s (s.nodeFault g n cause) := by
  unfold State.nodeFault
  split
  · exact .refl s
  · next x hx =>
    dsimp only
    split
    · split
      · exact .refl s
      · split
        · exact (s.endGrid_keeps _).trans (State.updNode_keeps_others ..)
        · exact Keeps.trans (.of_work (s.disarm_work _)) (State.faultNow_keeps ..)
    · split
      · split
        · exact s.endGrid_keeps _
        · exact .refl s
      · exact .refl s

end

/-- Node n of graph g runs the blocks of grid k, without a fault. -/
def State.Runs (s : State) (g n k : Nat) : Prop := (s.node g n).map Node.attempt = some (2, some k, none)

/-- Node n of graph g keeps a fault until the blocks of grid k have left: `Claims.FaultWaits` by the node's attempt. -/
structure State.FaultHeld (s : State) (g n k cause : Nat) : Prop where
  attempt : (s.node g n).map Node.attempt = some (2, some k, some cause)
  discarded : s.GridDiscarded k
  ended : s.GridEnded k

section
variable {P : Nat → Nat → Prop} {s t : State} {g n k cause : Nat}

theorem State.runs_of_node {x : Node} (hx : s.node g n = some x) (hstate : x.state = 2) (hgrid : x.grid = some k) (hend : x.ending = none) :
    s.Runs g n k := by
  rw [State.Runs, hx, Option.map_some, Node.attempt, hstate, hgrid, hend]

theorem State.exists_node_of_attempt {x : Nat × Option Nat × Option Nat} (h : (s.node g n).map Node.attempt = some x) :
    ∃ y, s.node g n = some y ∧ y.state = x.1 ∧ y.grid = x.2.1 ∧ y.ending = x.2.2 := by
  obtain ⟨y, hy, rfl⟩ := Option.map_eq_some_iff.1 h
  exact ⟨y, hy, rfl, rfl, rfl⟩

theorem State.FaultHeld.faultWaits (h : s.FaultHeld g n k cause) : Claims.FaultWaits s g n k cause :=
  have ⟨y, hy, hstate, _, hend⟩ := State.exists_node_of_attempt h.attempt
  ⟨⟨y, hy, hstate, hend⟩, h.discarded, h.ended⟩

theorem State.FaultHeld.of_keeps (h : s.FaultHeld g n k cause) (hk : Keeps P s t) (hp : P g n) : t.FaultHeld g n k cause :=
  ⟨(hk.attempt g n hp).trans h.attempt, hk.discarded k h.discarded, hk.ended k h.ended⟩

/-- A second fault of an attempt has no effect (06 R127). -/
theorem State.nodeFault_of_ending {x : Node} (hx : s.node g n = some x) (hstate : x.state = 2) (hend : x.ending.isSome = true) :
    s.nodeFault g n cause = s := by
  simp [State.nodeFault, hx, hstate, hend, nRunning]

theorem State.FaultHeld.nodeFault (h : s.FaultHeld g n k cause) (g' n' cause' : Nat) :
    (s.nodeFault g' n' cause').FaultHeld g n k cause := by
  by_cases hp : (g, n) = (g', n')
  · obtain ⟨rfl, rfl⟩ := Prod.mk.inj hp
    obtain ⟨y, hy, hstate, -, hend⟩ := State.exists_node_of_attempt h.attempt
    rwa [State.nodeFault_of_ending hy hstate (by rw [hend]; rfl)]
  · exact h.of_keeps (s.nodeFault_keeps g' n' cause') hp

/-- The first fault of a node with blocks ends its grid, discards its blocks and waits (06 R127, R128). -/
theorem State.Runs.nodeFault (h : s.Runs g n k) (cause : Nat) : (s.nodeFault g n cause).FaultHeld g n k cause := by
  obtain ⟨y, hy, hstate, hgrid, hend⟩ := State.exists_node_of_attempt h
  have heq : s.nodeFault g n cause = ((s.setGrid k .ended).discardGrid k).updNode g n fun y => { y with ending := some cause } := by
    simp [State.nodeFault, hy, hstate, hgrid, hend, nRunning]
  rw [heq]
  have hothers := State.updNode_keeps_others ((s.setGrid k .ended).discardGrid k) g n fun y => { y with ending := some cause }
  refine ⟨?_, hothers.discarded k (State.discardGrid_discarded _ k),
    hothers.ended k ((State.discardGrid_keeps (P := AllBut g n) _ k).ended k (s.setGrid_ended k))⟩
  have hnode : ((s.setGrid k .ended).discardGrid k).node g n = some y := hy
  rw [State.node_updNode_self _ hnode, Option.map_some, Node.attempt, hstate, hgrid]

end

/-- Nodes faulted one after another, for one cause. -/
def State.faultNodes (s : State) (cause : Nat) (ps : List (Nat × Nat)) : State := ps.foldl (fun s p => s.nodeFault p.1 p.2 cause) s

theorem State.faultNodes_keeps (s : State) (cause : Nat) (ps : List (Nat × Nat)) :
    Keeps (fun _ _ => False) s (s.faultNodes cause ps) :=
  .foldl (fun s (p : Nat × Nat) =>
    have h := s.nodeFault_keeps p.1 p.2 cause
    ⟨h.ctxSts, h.held, h.resetting, fun _ _ => False.elim, h.block, h.discarded, h.ended⟩) _ _

theorem State.FaultHeld.faultNodes {s : State} {g n k cause : Nat} (h : s.FaultHeld g n k cause) (cause' : Nat) (ps : List (Nat × Nat)) :
    (s.faultNodes cause' ps).FaultHeld g n k cause :=
  List.foldlRecOn ps _ (motive := fun t : State => t.FaultHeld g n k cause) h fun _ ht p _ => ht.nodeFault p.1 p.2 cause'

/-- Each node of the row takes its fault: the ones before it keep its attempt, the ones after it keep its fault. -/
theorem State.Runs.faultNodes {s : State} {g n k : Nat} (h : s.Runs g n k) (cause : Nat) {ps : List (Nat × Nat)} (hp : (g, n) ∈ ps) :
    (s.faultNodes cause ps).FaultHeld g n k cause := by
  induction ps generalizing s with
  | nil => exact absurd hp List.not_mem_nil
  | cons p ps ih =>
    by_cases heq : (g, n) = p
    · subst heq
      exact (h.nodeFault cause).faultNodes cause ps
    · have hkept : (s.nodeFault p.1 p.2 cause).Runs g n k := ((s.nodeFault_keeps p.1 p.2 cause).attempt g n heq).trans h
      exact ih hkept ((List.mem_cons.1 hp).resolve_left heq)

end Sys2Proof.Machine

namespace Sys2Proof.Machine

/-! ### Commands on contexts (04 R89, R92) -/

section
variable {i : Instr} {s u : State} {c : Nat} {states : List CState} {act : State → State}

/-- A command on a context of the table in a state that accepts it. -/
theorem exec_of_accepted (hi : exec i s = .next (s.ctxCmd c states act)) (hc : c < 256) (h : (s.ctx c).state ∈ states) :
    exec i s = .next (act s) := by
  rw [hi, State.ctxCmd, if_pos ⟨hc, h⟩]

theorem ctxRefused_of_result {code : Nat} (h : exec i s = .next (s.ctxResult c code)) : Claims.CtxRefused i s c code := h

/-- A command on a context in a state that does not accept it. -/
theorem ctxRefused_of_state (hi : exec i s = .next (s.ctxCmd c states act)) (h : (s.ctx c).state ∉ states) : Claims.CtxRefused i s c 1 :=
  ctxRefused_of_result (by rw [hi, State.ctxCmd, if_neg fun hok => h hok.2])

theorem State.ctxResult_ctxSts (u : State) (c : Nat) :
    (u.ctxResult c 0).ctxSts = (u.ctxSts &&& 16#64) ||| BitVec.ofNat 64 (c % 256 * 2 ^ 8) := by
  rw [State.ctxResult, Nat.zero_mul, Nat.zero_add]

/-- A command that changes context c alone, to a state, and ends with RESULT 0. -/
theorem moves_of_result {new : CState} (h : exec i s = .next (u.ctxResult c 0)) (hnew : (u.ctx c).state = new)
    (hothers : ∀ d, d ≠ c → u.ctx d = s.ctx d) (hsts : u.ctxSts = s.ctxSts) : Claims.Moves i s c new :=
  ⟨_, h, hnew, hothers, by rw [State.ctxResult_ctxSts, hsts]⟩

end

/-! ### CREATE, LOAD, DRAIN, PARK -/

theorem State.startPark_ctx_self (s : State) (c : Nat) :
    (s.startPark c).ctx c = { s.ctx c with state := .parking, dcnt := 0, sealed := true } := by
  rw [State.startPark, State.updCtx_ctx_self, State.setCtxState_ctx_self]

theorem State.startPark_ctx_ne (s : State) {c d : Nat} (h : d ≠ c) : (s.startPark c).ctx d = s.ctx d := by
  rw [State.startPark, State.updCtx_ctx_ne _ _ h, State.setCtxState_ctx_ne _ _ h]

/-- What a park begins with, as the end of a command. -/
theorem moves_parking {i : Instr} {s : State} {c : Nat} (h : exec i s = .next ((s.startPark c).ctxResult c 0)) : Claims.Moves i s c .parking :=
  moves_of_result h (by rw [State.startPark_ctx_self]) (fun _ hd => s.startPark_ctx_ne hd) rfl

section
variable {s : State} {c : Nat} (hc : c < 256)
include hc

theorem exec_ctxCreate (h : (s.ctx c).state = .destroyed) : exec (.ctxCreate c) s =
    .next (((s.setCtx c { Ctx.reset with gen := (s.ctx c).gen }).setCtxState c .created).ctxResult c 0) :=
  exec_of_accepted (act := fun s => s.createCtx c) rfl hc (h ▸ List.mem_singleton_self _)

theorem createClauses (h : (s.ctx c).state = .destroyed) : Claims.Moves (.ctxCreate c) s c .created ∧
    Claims.Does (.ctxCreate c) s fun t => (t.ctx c).gen = (s.ctx c).gen ∧ (t.ctx c).active = false := by
  refine ⟨moves_of_result (exec_ctxCreate hc h) ?_ (fun d hd => ?_) rfl, _, exec_ctxCreate hc h, ?_⟩
  · rw [State.setCtxState_ctx_self]
  · rw [State.setCtxState_ctx_ne _ _ hd, State.setCtx_ctx_ne _ _ hd]
  · beta_reduce
    rw [State.ctxResult_ctx, State.setCtxState_ctx_self, State.setCtx_ctx_self]
    exact ⟨rfl, rfl⟩

theorem exec_ctxLoad (h : (s.ctx c).state = .created) : exec (.ctxLoad c) s = .next (s.loadCtx c) :=
  exec_of_accepted (act := fun s => s.loadCtx c) rfl hc (h ▸ List.mem_singleton_self _)

theorem load_refused (h : (s.ctx c).state = .created) (hbad : s.loadBad (s.latched (s.ctx c) (s.ctxDesc c)) = true) :
    Claims.CtxRefused (.ctxLoad c) s c 2 :=
  ctxRefused_of_result (by rw [exec_ctxLoad hc h, State.loadCtx, if_pos hbad])

theorem exec_ctxLoad_good (h : (s.ctx c).state = .created) (hgood : s.loadBad (s.latched (s.ctx c) (s.ctxDesc c)) = false) :
    exec (.ctxLoad c) s = .next (((s.setCtx c (s.latched (s.ctx c) (s.ctxDesc c))).setCtxState c .loaded).ctxResult c 0) := by
  rw [exec_ctxLoad hc h, State.loadCtx, if_neg (by rw [hgood]; exact Bool.false_ne_true)]

theorem loadClauses (h : (s.ctx c).state = .created) (hgood : s.loadBad (s.latched (s.ctx c) (s.ctxDesc c)) = false) :
    Claims.Moves (.ctxLoad c) s c .loaded ∧ Claims.Does (.ctxLoad c) s fun t =>
      (t.ctx c).tvec = s.read64 (s.ctxDesc c + 0x20) ∧ (t.ctx c).cvec = s.read64 (s.ctxDesc c + 0x28) ∧
        (t.ctx c).ptroot = bitsOf (s.read64 (s.ctxDesc c + 8)) 51 12 * 2 ^ 12 ∧ (t.ctx c).seed0 = s.read64 (s.ctxDesc c + 0x58) := by
  refine ⟨moves_of_result (exec_ctxLoad_good hc h hgood) ?_ (fun d hd => ?_) rfl, _, exec_ctxLoad_good hc h hgood, ?_⟩
  · rw [State.setCtxState_ctx_self]
  · rw [State.setCtxState_ctx_ne _ _ hd, State.setCtx_ctx_ne _ _ hd]
  · beta_reduce
    rw [State.ctxResult_ctx, State.setCtxState_ctx_self, State.setCtx_ctx_self]
    exact ⟨rfl, rfl, rfl, rfl⟩

theorem exec_ctxDrain (h : (s.ctx c).state = .running) : exec (.ctxDrain c) s = .next (s.drainCtx c) :=
  exec_of_accepted (act := fun s => s.drainCtx c) rfl hc (h ▸ List.mem_singleton_self _)

theorem drain_moves_draining (h : (s.ctx c).state = .running) (hb : s.hasBlocks c = true) :
    Claims.Moves (.ctxDrain c) s c .draining := by
  have hexec := exec_ctxDrain hc h
  rw [State.drainCtx, if_pos hb] at hexec
  refine moves_of_result hexec ?_ (fun d hd => ?_) rfl
  · rw [State.updCtx_ctx_self, State.setCtxState_ctx_self]
  · rw [State.updCtx_ctx_ne _ _ hd, State.setCtxState_ctx_ne _ _ hd]

theorem drain_moves_parking (h : (s.ctx c).state = .running) (hb : s.hasBlocks c = false) : Claims.Moves (.ctxDrain c) s c .parking := by
  have hexec := exec_ctxDrain hc h
  rw [State.drainCtx, if_neg (by rw [hb]; exact Bool.false_ne_true)] at hexec
  exact moves_parking hexec

theorem park_moves (h : (s.ctx c).state = .running ∨ (s.ctx c).state = .draining) : Claims.Moves (.ctxPark c) s c .parking :=
  moves_parking (exec_of_accepted (act := fun s => (s.startPark c).ctxResult c 0) (states := [.running, .draining]) rfl hc (by simpa using h))

end

/-! ### Reset (04 R97) -/

/-- The grids whose nodes a reset faults. -/
def State.ResetsGrid (s : State) (c k : Nat) (gr : Grid) : Prop :=
  (∃ id b, s.blk id = some b ∧ b.ctx = c ∧ b.grid = k) ∨ (∃ y ∈ (s.ctx c).saved, y.block.grid = k) ∨ (gr.ctx = c ∧ gr.state ≠ .ended)

theorem State.mem_blockNodes {s : State} {c k : Nat} {gr : Grid} (hk : amGet s.grids k = some gr) (h : s.ResetsGrid c k gr) :
    (gr.graph, gr.node) ∈ s.blockNodes c := by
  rw [State.blockNodes, List.mem_eraseDups, List.mem_filterMap]
  refine ⟨k, ?_, by rw [hk]; rfl⟩
  simp only [List.mem_append, List.mem_map, List.mem_filter, Bool.and_eq_true, beq_iff_eq, bne_iff_ne]
  rcases h with ⟨id, b, hb, hbc, hbk⟩ | ⟨y, hy, hyk⟩ | ⟨hgc, hge⟩
  · exact .inl (.inl ⟨(id, b), ⟨mem_of_amGet hb, hbc⟩, hbk⟩)
  · exact .inl (.inr ⟨y, hy, hyk⟩)
  · exact .inr ⟨(k, gr), ⟨mem_of_amGet hk, hgc, hge⟩, rfl⟩

/-- A context enters RESETTING and its save is abandoned: the reset before the faults of its nodes. -/
def State.enterReset (s : State) (c : Nat) : State :=
  (s.setCtxState c .resetting).updCtx c fun x => { x with saved := [], restoring := false, bcast := false, resumeDue := false }

/-- The blocks of a context are discarded and its partials zero: the reset after them. -/
def State.dropAll (s : State) (c : Nat) : State :=
  { s with
    blocks := amMap (fun _ b => if b.ctx = c then { b with discarding := true } else b) s.blocks
    partials := s.partials.filter fun x => x.1 / 4096 != c }

theorem State.startReset_eq (s : State) (c : Nat) :
    s.startReset c = ((s.enterReset c).faultNodes 0x42 (s.blockNodes c)).dropAll c := rfl

theorem State.enterReset_ctx (s : State) (c : Nat) : (s.enterReset c).ctx c =
    { s.ctx c with state := .resetting, saved := [], restoring := false, bcast := false, resumeDue := false } := by
  rw [State.enterReset, State.updCtx_ctx_self, State.setCtxState_ctx_self]

theorem State.dropAll_blk (s : State) (c id : Nat) : (s.dropAll c).blk id =
    (s.blk id).map fun b => if b.ctx = c then b.discard else b :=
  amGet_amMap (fun _ (b : Block) => if b.ctx = c then b.discard else b) _ _

theorem State.FaultHeld.dropAll {s : State} {g n k cause : Nat} (h : s.FaultHeld g n k cause) (c : Nat) :
    (s.dropAll c).FaultHeld g n k cause := by
  refine ⟨h.attempt, fun id b hb hgrid => ?_, h.ended⟩
  rw [State.dropAll_blk] at hb
  obtain ⟨x, hx, rfl⟩ := Option.map_eq_some_iff.1 hb
  split
  · rfl
  · next hne =>
    rw [if_neg hne] at hgrid
    exact h.discarded id x hx hgrid

theorem State.mem_filter_partials {ps : AMap Partial} {c : Nat} {x : Nat × Partial} (h : x ∈ ps.filter fun x => x.1 / 4096 != c) :
    x.1 / 4096 ≠ c := by
  simpa using (List.mem_filter.1 h).2

/-- A block of which the faults of nodes keep all but the discard. -/
theorem Keeps.blk_discard {P : Nat → Nat → Prop} {s t : State} (h : Keeps P s t) {id : Nat} {b : Block} (hb : s.blk id = some b) :
    ∃ b', t.blk id = some b' ∧ b'.discard = b.discard := by
  have hmap := h.block id
  rw [hb, Option.map_some] at hmap
  exact Option.map_eq_some_iff.1 hmap

theorem State.startReset_resetBegins (s : State) (c : Nat) : Claims.ResetBegins s (s.startReset c) c := by
  have hkeeps := (s.enterReset c).faultNodes_keeps 0x42 (s.blockNodes c)
  have hheld := hkeeps.held c
  rw [State.enterReset_ctx] at hheld
  obtain ⟨hsaved, hrest⟩ := Prod.mk.inj hheld
  obtain ⟨hrestoring, hactive⟩ := Prod.mk.inj hrest
  have hstate := hkeeps.resetting c (by rw [State.enterReset_ctx])
  rw [State.startReset_eq]
  refine ⟨hstate, hsaved, hrestoring, hactive, fun id b hb hbc => ?_, fun x hx => State.mem_filter_partials hx, ?_⟩
  · obtain ⟨b', hb', hdiscard⟩ := hkeeps.blk_discard (id := id) (b := b) hb
    have hctx : b'.ctx = c := (congrArg Block.ctx hdiscard).trans hbc
    rw [State.dropAll_blk, hb', Option.map_some, if_pos hctx]
    exact congrArg some hdiscard
  · intro k gr nd hk hgrid hnd hrun hndk hend
    have hruns : (s.enterReset c).Runs gr.graph gr.node k := State.runs_of_node (s := s) hnd hrun hndk hend
    exact ((hruns.faultNodes 0x42 (State.mem_blockNodes hk hgrid)).dropAll c).faultWaits

theorem resetBegins_ctxResult {s t : State} {c : Nat} (h : Claims.ResetBegins s t c) (code : Nat) :
    Claims.ResetBegins s (t.ctxResult c code) c := h

theorem State.startReset_ctxSts (s : State) (c : Nat) : (s.startReset c).ctxSts = s.ctxSts :=
  ((s.enterReset c).faultNodes_keeps 0x42 (s.blockNodes c)).ctxSts

theorem resetClauses {s : State} {c : Nat} (hc : c < 256)
    (h : (s.ctx c).state = .running ∨ (s.ctx c).state = .draining ∨ (s.ctx c).state = .parking ∨ (s.ctx c).state = .parked ∨
      (s.ctx c).state = .faulted) :
    Claims.Does (.ctxReset c) s fun t => Claims.ResetBegins s t c ∧ t.ctxSts = (s.ctxSts &&& 16#64) ||| BitVec.ofNat 64 (c % 256 * 2 ^ 8) := by
  have hexec := exec_of_accepted (i := .ctxReset c) (act := fun s => (s.startReset c).ctxResult c 0)
    (states := [.running, .draining, .parking, .parked, .faulted]) rfl hc (by simpa using h)
  refine ⟨_, hexec, resetBegins_ctxResult (s.startReset_resetBegins c) 0, ?_⟩
  rw [State.ctxResult_ctxSts, State.startReset_ctxSts]

end Sys2Proof.Machine

namespace Sys2Proof.Machine

/-! ### RUN and the restore (04 R92, R100, R101) -/

/-- RUN ends tier 2's hold on the windows of the context's groups. -/
def State.unseal (s : State) (c : Nat) : State := s.updCtx c fun x => { x with sealed := false }

section
variable {s : State} {c : Nat}

theorem State.unseal_ctx (s : State) (c : Nat) : (s.unseal c).ctx c = { s.ctx c with sealed := false } :=
  s.updCtx_ctx_self c fun x => { x with sealed := false }

theorem State.runCtx_of_full (h : 16 ≤ s.activeCount) : s.runCtx c = s.ctxResult c 3 := if_pos h

theorem State.runCtx_of_free (h : s.activeCount < 16) : s.runCtx c =
    if ((s.unseal c).ctx c).state = .parked then ((s.unseal c).restore c).ctxResult c 0
    else (((s.unseal c).updCtx c fun x => { x with active := true }).setCtxState c .running).ctxResult c 0 :=
  if_neg (Nat.not_le.2 h)

theorem State.unseal_ctxSts (s : State) (c : Nat) : (s.unseal c).ctxSts = s.ctxSts := s.updCtx_ctxSts c _

theorem State.unseal_ctx_ne (s : State) {c d : Nat} (h : d ≠ c) : (s.unseal c).ctx d = s.ctx d := s.updCtx_ctx_ne _ h

variable (hc : c < 256)
include hc

theorem exec_ctxRun (h : (s.ctx c).state = .loaded ∨ (s.ctx c).state = .parked) : exec (.ctxRun c) s = .next (s.runCtx c) :=
  exec_of_accepted (act := fun s => s.runCtx c) (states := [.loaded, .parked]) rfl hc (by simpa using h)

theorem run_refused (h : (s.ctx c).state = .loaded ∨ (s.ctx c).state = .parked) (hfull : 16 ≤ s.activeCount) :
    Claims.CtxRefused (.ctxRun c) s c 3 :=
  ctxRefused_of_result (by rw [exec_ctxRun hc h, State.runCtx_of_full hfull])

theorem exec_ctxRun_loaded (h : (s.ctx c).state = .loaded) (hfree : s.activeCount < 16) : exec (.ctxRun c) s =
    .next ((((s.unseal c).updCtx c fun x => { x with active := true }).setCtxState c .running).ctxResult c 0) := by
  have hstate : ((s.unseal c).ctx c).state ≠ .parked := by
    rw [State.unseal_ctx, h]
    decide
  rw [exec_ctxRun hc (.inl h), State.runCtx_of_free hfree, if_neg hstate]

theorem runClauses_loaded (h : (s.ctx c).state = .loaded) (hfree : s.activeCount < 16) :
    Claims.Moves (.ctxRun c) s c .running ∧ Claims.Does (.ctxRun c) s fun t => (t.ctx c).active = true := by
  refine ⟨moves_of_result (exec_ctxRun_loaded hc h hfree) ?_ (fun d hd => ?_) ?_, _, exec_ctxRun_loaded hc h hfree, ?_⟩
  · rw [State.setCtxState_ctx_self]
  · rw [State.setCtxState_ctx_ne _ _ hd, State.updCtx_ctx_ne _ _ hd, State.unseal_ctx_ne _ hd]
  · rw [State.setCtxState_ctxSts, State.updCtx_ctxSts, State.unseal_ctxSts]
  · beta_reduce
    rw [State.ctxResult_ctx, State.setCtxState_ctx_self, State.updCtx_ctx_self]

theorem exec_ctxRun_parked (h : (s.ctx c).state = .parked) (hfree : s.activeCount < 16) : exec (.ctxRun c) s =
    .next (((s.unseal c).restore c).ctxResult c 0) := by
  rw [exec_ctxRun hc (.inr h), State.runCtx_of_free hfree, if_pos (by rw [State.unseal_ctx, h])]

end

/-- The state in which a restore has loaded the monitor region and looks for bad pages. -/
def State.resumed (s : State) (c : Nat) : State :=
  ((s.updCtx c fun x => { x with sealed := false, active := true, restoring := true }).loadMonitors c).setCtxState c .running

section
variable (s : State) (c : Nat)

theorem State.withPartials_work (s : State) (ps : AMap Partial) : ({ s with partials := ps } : State).work = s.work := rfl

theorem State.loadMonitors_work : (s.loadMonitors c).work = s.work := by
  unfold State.loadMonitors
  exact s.withPartials_work _

theorem State.resumed_ctx :
    (s.resumed c).ctx c = { s.ctx c with sealed := false, active := true, restoring := true, state := .running } := by
  rw [State.resumed, State.setCtxState_ctx_self, ctx_of_work (State.loadMonitors_work ..), State.updCtx_ctx_self]

theorem State.unseal_pageOk : (s.unseal c).pageOk ((s.unseal c).ctx c).savepa c 0 ((s.unseal c).ctx c).gen =
    s.pageOk (s.ctx c).savepa c 0 (s.ctx c).gen := by
  rw [State.unseal_ctx]
  rfl

theorem State.restore_of_good (h : s.pageOk (s.ctx c).savepa c 0 (s.ctx c).gen = true) :
    (s.unseal c).restore c = (s.resumed c).loseBlocks c := by
  rw [State.restore, if_pos ((s.unseal_pageOk c).trans h), State.unseal, State.updCtx_updCtx, State.resumed]

theorem State.restore_of_bad (h : s.pageOk (s.ctx c).savepa c 0 (s.ctx c).gen = false) :
    (s.unseal c).restore c = (((s.unseal c).updCtx c fun x => { x with active := true, fcause := 0x19, fdetail := 0 }).write64
      (s.ctxDesc c + 0x60) 0x19).setCtxState c .faulted := by
  rw [State.restore, if_neg (by rw [s.unseal_pageOk c, h]; exact Bool.false_ne_true)]
  rfl

/-! ### Blocks that a restore loses -/

/-- A saved block that is lost: a page of one of its cluster is bad. -/
def State.lost (x : SavedBlock) : Bool := (s.ctx c).saved.any fun z => s.pagesBad c z && z.block.cluster == x.block.cluster

/-- The nodes of lost blocks. -/
def State.lostNodes : List (Nat × Nat) :=
  (((s.ctx c).saved.filter (s.lost c)).filterMap fun x => (amGet s.grids x.block.grid).map fun k => (k.graph, k.node)).eraseDups

/-- What the grids of lost blocks have saved is given up. -/
def State.dropLost : State :=
  s.updCtx c fun x => { x with saved := x.saved.filter fun y => !((s.ctx c).saved.any fun z => s.lost c z && z.block.grid == y.block.grid) }

theorem State.loseBlocks_eq : s.loseBlocks c = (s.dropLost c).faultNodes cRestoreCorrupt (s.lostNodes c) := by
  simp only [State.loseBlocks, List.any_filter]
  rfl

theorem State.dropLost_ctx : (s.dropLost c).ctx c =
    { s.ctx c with saved := (s.ctx c).saved.filter fun y => !((s.ctx c).saved.any fun z => s.lost c z && z.block.grid == y.block.grid) } :=
  s.updCtx_ctx_self c _

theorem State.mem_lostNodes {z : SavedBlock} {gr : Grid} (hz : z ∈ (s.ctx c).saved) (hlost : s.lost c z = true)
    (hgr : amGet s.grids z.block.grid = some gr) : (gr.graph, gr.node) ∈ s.lostNodes c := by
  rw [State.lostNodes, List.mem_eraseDups, List.mem_filterMap]
  exact ⟨z, List.mem_filter.2 ⟨hz, hlost⟩, by rw [hgr]; rfl⟩

theorem State.loseBlocks_held : ((s.loseBlocks c).ctx c).held =
    ((s.ctx c).saved.filter fun y => !((s.ctx c).saved.any fun z => s.lost c z && z.block.grid == y.block.grid),
      (s.ctx c).restoring, (s.ctx c).active) := by
  rw [State.loseBlocks_eq, ((s.dropLost c).faultNodes_keeps _ _).held c, State.dropLost_ctx]
  rfl

theorem State.loseBlocks_blocksLost : Claims.BlocksLost s (s.loseBlocks c) c := by
  refine ⟨congrArg Prod.fst (s.loseBlocks_held c), fun z hz hlost gr nd hgr hnd hrun hgrid hend => ?_⟩
  have hruns : (s.dropLost c).Runs gr.graph gr.node z.block.grid := State.runs_of_node (s := s) hnd hrun hgrid hend
  rw [State.loseBlocks_eq]
  exact (hruns.faultNodes cRestoreCorrupt (s.mem_lostNodes c hz hlost hgr)).faultWaits

theorem State.blocksLost_ctxResult {r t : State} {c : Nat} (h : Claims.BlocksLost r t c) (code : Nat) :
    Claims.BlocksLost r (t.ctxResult c code) c := h

/-! ### Monitor cells of bad pages -/

/-- The pages of the monitor region that are bad, and the cells that lie in them. -/
def State.badMonitorPages : List Nat :=
  (monitorPages 0).filterMap fun p => if s.pageOk (s.ctx c).savepa c p.1 (s.ctx c).gen then none else some p.1

def State.lostCells : List (Nat × Partial) :=
  ((List.range 4096).filter fun k =>
    (s.badMonitorPages c).contains (1 + k * 40 / 4096) || (s.badMonitorPages c).contains (1 + (k * 40 + 35) / 4096)).map fun k =>
      (partialKey c (k % 16) (k / 16), ⟨cellInvalid, 0⟩)

theorem State.mem_badMonitorPages {p : Nat} (hp : p < 40) (h : s.pageOk (s.ctx c).savepa c (1 + p) (s.ctx c).gen = false) :
    1 + p ∈ s.badMonitorPages c := by
  rw [State.badMonitorPages, List.mem_filterMap]
  exact ⟨_, List.mem_map.2 ⟨p, List.mem_range.2 hp, rfl⟩, by rw [h]; rfl⟩

/-- The cells of its good pages. -/
def State.goodCells : List (Nat × Partial) :=
  (s.monitorCells (s.ctx c).savepa c).filter fun x =>
    !((s.badMonitorPages c).contains (1 + (x.1 % 256 * 16 + x.1 / 256 % 16) * 40 / 4096)) &&
      !((s.badMonitorPages c).contains (1 + ((x.1 % 256 * 16 + x.1 / 256 % 16) * 40 + 35) / 4096))

theorem State.loadMonitors_partials : (s.loadMonitors c).partials =
    (s.lostCells c).foldl (fun ps x => amSet ps x.1 x.2) ((s.goodCells c).foldl (fun ps x => amSet ps x.1 x.2) s.partials) := by
  rw [← List.foldl_append]
  unfold State.loadMonitors State.lostCells State.goodCells State.badMonitorPages
  with_reducible rfl

theorem State.loadMonitors_lost {k : Nat} (hk : k < 4096) (h : s.pageOk (s.ctx c).savepa c (1 + k * 40 / 4096) (s.ctx c).gen = false) :
    amGet (s.loadMonitors c).partials (partialKey c (k % 16) (k / 16)) = some ⟨cellInvalid, 0⟩ := by
  rw [State.loadMonitors_partials]
  refine amGet_foldl_amSet_const _ (fun x hx => ?_) _ (.inr ?_)
  · obtain ⟨j, -, rfl⟩ := List.mem_map.1 hx
    rfl
  · have hbad := s.mem_badMonitorPages c (p := k * 40 / 4096) (by omega) h
    rw [State.lostCells, List.map_map]
    refine List.mem_map.2 ⟨k, List.mem_filter.2 ⟨List.mem_range.2 hk, ?_⟩, rfl⟩
    rw [List.contains_iff_mem.2 hbad, Bool.true_or]

end

section
variable {s : State} {c : Nat} (hc : c < 256)
include hc

theorem runClauses_restored (h : (s.ctx c).state = .parked) (hfree : s.activeCount < 16)
    (hgood : s.pageOk (s.ctx c).savepa c 0 (s.ctx c).gen = true) :
    Claims.Does (.ctxRun c) s fun t => (t.ctx c).active = true ∧ (t.ctx c).restoring = true ∧ Claims.BlocksLost (s.resumed c) t c ∧
      ∀ k, k < 4096 → s.pageOk (s.ctx c).savepa c (1 + k * 40 / 4096) (s.ctx c).gen = false →
        amGet (s.resumed c).partials (partialKey c (k % 16) (k / 16)) = some ⟨cellInvalid, 0⟩ := by
  have hexec := exec_ctxRun_parked hc h hfree
  rw [s.restore_of_good c hgood] at hexec
  have hheld := (s.resumed c).loseBlocks_held c
  rw [State.resumed_ctx] at hheld
  obtain ⟨-, hrest⟩ := Prod.mk.inj hheld
  obtain ⟨hrestoring, hactive⟩ := Prod.mk.inj hrest
  refine ⟨_, hexec, ?_, ?_, State.blocksLost_ctxResult ((s.resumed c).loseBlocks_blocksLost c) 0, fun k hk hbad => ?_⟩
  · rw [State.ctxResult_ctx, hactive]
  · rw [State.ctxResult_ctx, hrestoring]
  · rw [State.resumed, State.setCtxState_partials]
    refine State.loadMonitors_lost _ c hk ?_
    rw [State.updCtx_ctx_self]
    exact hbad

theorem runClauses_bad (h : (s.ctx c).state = .parked) (hfree : s.activeCount < 16)
    (hbad : s.pageOk (s.ctx c).savepa c 0 (s.ctx c).gen = false) :
    Claims.Moves (.ctxRun c) s c .faulted ∧ Claims.Does (.ctxRun c) s fun t => (t.ctx c).fcause = 0x19 := by
  have hexec := exec_ctxRun_parked hc h hfree
  rw [s.restore_of_bad c hbad] at hexec
  refine ⟨moves_of_result hexec ?_ (fun d hd => ?_) ?_, _, hexec, ?_⟩
  · rw [State.setCtxState_ctx_self]
  · rw [State.setCtxState_ctx_ne _ _ hd, State.write64_ctx, State.updCtx_ctx_ne _ _ hd, State.unseal_ctx_ne _ hd]
  · rw [State.setCtxState_ctxSts, State.write64_ctxSts, State.updCtx_ctxSts, State.unseal_ctxSts]
  · beta_reduce
    rw [State.ctxResult_ctx, State.setCtxState_ctx_self, State.write64_ctx, State.updCtx_ctx_self]

end

end Sys2Proof.Machine

namespace Sys2Proof.Machine

/-! ### DESTROY (04 R92) -/

theorem destroyClauses {s : State} {c : Nat} (hc : c < 256)
    (h : (s.ctx c).state = .created ∨ (s.ctx c).state = .loaded ∨ (s.ctx c).state = .parked) :
    Claims.Does (.ctxDestroy c) s fun t =>
      (t.ctx c).state = .destroyed ∧ (∀ g ∈ t.graphs, g.2.ctx ≠ c) ∧ (∀ k ∈ t.grids, k.2.ctx ≠ c) ∧ ∀ w ∈ t.recWrites, w.1 ≠ c := by
  have hexec := exec_of_accepted (i := .ctxDestroy c) (act := fun s => s.destroyCtx c) (states := [.created, .loaded, .parked]) rfl hc
    (by simpa using h)
  refine ⟨_, hexec, ?_, fun g hg => ?_, fun k hk => ?_, fun w hw => ?_⟩
  · rw [State.destroyCtx, State.ctxResult_ctx, State.setCtxState_ctx_self]
  · exact bne_iff_ne.1 (List.mem_filter.1 hg).2
  · exact bne_iff_ne.1 (List.mem_filter.1 hk).2
  · exact bne_iff_ne.1 (List.mem_filter.1 hw).2

theorem contextCommands : Claims.ContextCommands := by
  intro s c hc
  refine ⟨createClauses hc, fun h => ?create, load_refused hc, loadClauses hc, fun h => ?load, run_refused hc, runClauses_loaded hc,
    runClauses_restored hc, runClauses_bad hc, fun h h' => ?run, drain_moves_draining hc, drain_moves_parking hc, fun h => ?drain,
    park_moves hc, fun h h' => ?park, resetClauses hc, fun h => ?reset, destroyClauses hc, fun h h' h'' => ?destroy⟩
  case create => exact ctxRefused_of_state (act := fun s => s.createCtx c) (states := [.destroyed]) rfl (by simpa using h)
  case load => exact ctxRefused_of_state (act := fun s => s.loadCtx c) (states := [.created]) rfl (by simpa using h)
  case run => exact ctxRefused_of_state (act := fun s => s.runCtx c) (states := [.loaded, .parked]) rfl (by simp [h, h'])
  case drain => exact ctxRefused_of_state (act := fun s => s.drainCtx c) (states := [.running]) rfl (by simpa using h)
  case park =>
    exact ctxRefused_of_state (act := fun s => (s.startPark c).ctxResult c 0) (states := [.running, .draining]) rfl (by simp [h, h'])
  case reset =>
    refine ctxRefused_of_state (act := fun s => (s.startReset c).ctxResult c 0)
      (states := [.running, .draining, .parking, .parked, .faulted]) rfl ?_
    rcases h with h | h | h | h <;> simp [h]
  case destroy =>
    exact ctxRefused_of_state (act := fun s => s.destroyCtx c) (states := [.created, .loaded, .parked]) rfl (by simp [h, h', h''])

/-! ### Deadlines and the end of a reset (04 R92, R97) -/

theorem d1Expire_parks {s : State} {c : Nat} (hstate : (s.ctx c).state = .draining) (hd1 : (s.ctx c).d1 ≠ 0)
    (hdue : (s.ctx c).d1 ≤ (s.ctx c).dcnt) :
    Claims.Does (.d1Expire c) s fun t => (t.ctx c).state = .parking ∧ (t.ctx c).dcnt = 0 := by
  have hcan : s.canD1 c = true := by simp [State.canD1, hstate, hd1, hdue]
  refine ⟨s.startPark c, congrArg Host.Outcome.next (if_pos hcan), ?_⟩
  beta_reduce
  rw [State.startPark_ctx_self]
  exact ⟨rfl, rfl⟩

theorem d2Expire_resets {s : State} {c : Nat} (hstate : (s.ctx c).state = .parking) (hdue : (s.ctx c).d2 ≤ (s.ctx c).dcnt) :
    Claims.Does (.d2Expire c) s fun t => Claims.ResetBegins s t c := by
  have hcan : s.canD2 c = true := by simp [State.canD2, hstate, hdue]
  exact ⟨s.startReset c, congrArg Host.Outcome.next (if_pos hcan), s.startReset_resetBegins c⟩

theorem resetComplete_loads {s : State} {c : Nat} (hstate : (s.ctx c).state = .resetting) (hb : s.hasBlocks c = false) :
    Claims.Does (.resetComplete c) s fun t => (t.ctx c).state = .loaded ∧ (t.ctx c).active = false ∧ ∀ x ∈ t.partials, x.1 / 4096 ≠ c := by
  have hcan : s.canEndReset c = true := by simp [State.canEndReset, hstate, hb]
  have hctx : (s.endReset c).ctx c = { s.ctx c with active := false, noFire := false, sealed := false, state := .loaded } := by
    rw [State.endReset, ctx_of_work (State.withPartials_work ..), State.setCtxState_ctx_self, State.updCtx_ctx_self]
  refine ⟨s.endReset c, congrArg Host.Outcome.next (if_pos hcan), ?_, ?_, fun x hx => State.mem_filter_partials hx⟩
  · rw [hctx]
  · rw [hctx]

/-! ### A group parked at a run boundary (04 R96) -/

theorem Group.landOne_vreds (g : Group) : g.landOne.vreds = g.vreds.tail := by
  unfold Group.landOne
  split
  · next h => rw [h]; rfl
  · next h =>
    dsimp only
    split <;> rw [h] <;> rfl

theorem Group.landAll_vreds (g : Group) : g.landAll.vreds = [] := by
  suffices H : ∀ (l : List PendVred) (g : Group), g.vreds.length = l.length → (l.foldl (fun g _ => g.landOne) g).vreds = [] from H _ g rfl
  intro l
  induction l with
  | nil => exact fun g h => List.length_eq_zero_iff.1 h
  | cons r l ih => exact fun g h => ih _ (by rw [Group.landOne_vreds, List.length_tail, h]; rfl)

/-- What the save of a parked group leaves: the group PARKED, with its results landed, out of the issue slot. -/
theorem State.parkGroup_parked {s : State} {a : Nat} {g : Group} {b : Block} (hg : s.grp a = some g) (hb : s.blk g.block = some b) :
    (s.parkGroup a).grp a = some { g.stopped with state := .parked, dep := none } ∧ a ∉ (s.parkGroup a).issue := by
  unfold State.parkGroup
  rw [hg]
  dsimp only
  rw [hb]
  exact ⟨amGet_amSet_self .., fun ha => by simpa using (List.mem_filter.1 ha).2⟩

theorem groupParkStop_parks {s : State} {a : Nat} {g : Group} {b : Block} (hg : s.grp a = some g) (hb : s.blk g.block = some b)
    (hcan : s.canPark a = true) :
    Claims.Does (.groupParkStop a) s fun t => ∃ h, t.grp a = some h ∧ h.state = .parked ∧ h.dep = none ∧ h.vreds = [] ∧ a ∉ t.issue :=
  have ⟨hgrp, hissue⟩ := State.parkGroup_parked hg hb
  ⟨s.parkGroup a, congrArg Host.Outcome.next (if_pos hcan), _, hgrp, rfl, rfl, g.landAll_vreds, hissue⟩

/-! ### The end of a save (04 R96, R98) -/

section
variable (s : State)

@[simp] theorem State.putPage_work (base i data : Nat) : (s.putPage base i data).work = s.work := by
  unfold State.putPage
  split
  · rw [State.performBytes_work, State.performBytes_work]
  · rw [State.performBytes_work]

@[simp] theorem State.putTag_work (base c i : Nat) (gen : BitVec 64) : (s.putTag base c i gen).work = s.work :=
  s.performBytes_work ..

@[simp] theorem State.taintPages_work (base : Nat) (ks : List (Nat × Nat)) : (s.taintPages base ks).work = s.work := by
  unfold State.taintPages
  split <;> rfl

theorem State.freeSlot_work (a : Nat) : (s.freeSlot a).work = s.work := by
  have hu : ((s.dropWaits a).leaveSlot a).work = s.work := by rw [State.leaveSlot_work, State.dropWaits_work]
  unfold State.freeSlot
  generalize (s.dropWaits a).leaveSlot a = u at hu ⊢
  exact hu

/-- A block that leaves takes nothing from the contexts, and itself alone from the blocks. -/
theorem State.freeBlock_fields (block : Nat) :
    (s.freeBlock block).ctxs = s.ctxs ∧ (s.freeBlock block).blocks = amDel s.blocks block := by
  unfold State.freeBlock
  split
  · next h => exact ⟨rfl, (amDel_of_none h).symm⟩
  · generalize (s.groups.filter fun ag => ag.2.block == block).map (·.1) = agents
    have hu := foldl_fixed State.freeSlot_work agents s
    dsimp only
    generalize agents.foldl State.freeSlot s = u at hu ⊢
    rw [← ctxs_of_work hu, ← blocks_of_work hu]
    split <;> exact ⟨rfl, rfl⟩

theorem State.headerPage_work (c : Nat) : (s.headerPage c).2.work = s.work := rfl

theorem State.recordPage_work (core : Nat) : (s.recordPage core).2.work = s.work := rfl

/-- The end of a save: of the state whose pages are written and whose blocks have left, the context takes what it has saved. -/
theorem State.save_ends (c : Nat) : ∃ (u : State) (saved : List SavedBlock),
    s.save c = (({ u with partials := u.partials.filter fun x => x.1 / 4096 != c } : State).updCtx c fun x =>
      { x with saved := saved, restoring := false, active := false }).setCtxState c .parked ∧
    (u.ctx c).gen = (s.ctx c).gen + 1 ∧
    u.blocks = ((s.blocks.filter fun x => x.2.ctx == c).map (·.1)).foldl amDel s.blocks ∧
    ∀ x ∈ s.blocks, x.2.ctx = c → ∃ y ∈ saved, y.id = x.1 ∧ y.block = x.2 := by
  generalize hsave : s.save c = t
  unfold State.save at hsave
  extract_lets mine drained saved left base gen counted header records rec0 recorded pages bad written tagged freed zeroed at hsave
  have hdrained : drained.work = s.work := foldl_fixed (fun s k => by rw [State.drainCore_work, State.accDrain_work]) _ _
  have hwritten : tagged.work = (drained.updCtx c fun x => { x with gen := gen }).work :=
    calc tagged.work
      _ = written.work := foldl_fixed (fun s p => s.putTag_work ..) _ _
      _ = recorded.work :=
        (State.taintPages_work ..).trans (foldl_fixed (fun s p => by rw [State.putTag_work, State.putPage_work]) _ _)
      _ = header.2.work := List.foldlRecOn (motive := fun acc : List (Nat × Nat) × State => acc.2.work = header.2.work) records _ rfl
        fun acc h k _ => (acc.2.recordPage_work k).trans h
      _ = counted.work := counted.headerPage_work c
      _ = (drained.updCtx c fun x => { x with gen := gen }).work := State.write64_work _ _ _
  have hctxs : freed.ctxs = tagged.ctxs := foldl_fixed (p := State.ctxs) (fun s (x : Nat × Block) => (s.freeBlock_fields x.1).1) _ _
  have hblocks : freed.blocks = mine.foldl (fun m x => amDel m x.1) tagged.blocks :=
    (List.foldl_hom State.blocks fun s x => ((s.freeBlock_fields x.1).2).symm).symm
  refine ⟨freed, saved ++ left, hsave.symm, ?_, ?_, fun x hx hxc => ?_⟩
  · rw [State.ctx, hctxs, ← State.ctx, ctx_of_work hwritten, State.updCtx_ctx_self]
    exact congrArg (fun x : Ctx => x.gen + 1) (ctx_of_work hdrained c)
  · rw [hblocks, List.foldl_map, blocks_of_work hwritten, State.updCtx_blocks, blocks_of_work hdrained]
  · have hmine : x ∈ mine := List.mem_filter.2 ⟨hx, beq_iff_eq.2 hxc⟩
    exact ⟨_, List.mem_append_left _ (List.mem_map.2 ⟨x, hmine, rfl⟩), rfl, rfl⟩

end

theorem saveComplete_parks {s : State} {c : Nat} (hcan : s.canSave c = true) :
    Claims.Does (.saveComplete c) s fun t => (t.ctx c).state = .parked ∧ (t.ctx c).active = false ∧ (t.ctx c).restoring = false ∧
      (t.ctx c).gen = (s.ctx c).gen + 1 ∧ (∀ y ∈ t.partials, y.1 / 4096 ≠ c) ∧
      (∀ id b, s.blk id = some b → b.ctx = c → ∃ y ∈ (t.ctx c).saved, y.id = id ∧ y.block.core = b.core) ∧
      (amSorted s.blocks = true → ∀ id b, t.blk id = some b → b.ctx ≠ c) := by
  obtain ⟨u, saved, hsave, hgen, hblocks, hsaved⟩ := s.save_ends c
  have hctx : (s.save c).ctx c = { u.ctx c with saved := saved, restoring := false, active := false, state := .parked } := by
    rw [hsave, State.setCtxState_ctx_self, State.updCtx_ctx_self, ctx_of_work (State.withPartials_work ..)]
  have hleft : (s.save c).blocks = u.blocks := by rw [hsave, State.setCtxState_blocks, State.updCtx_blocks]
  refine ⟨s.save c, congrArg Host.Outcome.next (if_pos hcan), ?_, ?_, ?_, ?_, fun y hy => ?_, fun id b hb hbc => ?_,
    fun hsorted id b hb hbc => ?_⟩
  · rw [hctx]
  · rw [hctx]
  · rw [hctx]
  · rw [hctx, hgen]
  · rw [hsave, State.setCtxState_partials, State.updCtx_partials] at hy
    exact State.mem_filter_partials hy
  · obtain ⟨y, hy, hid, hblock⟩ := hsaved (id, b) (mem_of_amGet hb) hbc
    rw [hctx]
    exact ⟨y, hy, hid, congrArg Block.core hblock⟩
  · rw [State.blk, hleft, hblocks] at hb
    obtain ⟨hget, hnot⟩ := amGet_foldl_amDel hsorted _ hb
    exact hnot (List.mem_map.2 ⟨(id, b), List.mem_filter.2 ⟨mem_of_amGet hget, beq_iff_eq.2 hbc⟩, rfl⟩)

/-! ### The return of saved blocks (04 R100, R101) -/

section
variable {s : State} {c : Nat} (hcan : s.canReload c = true)
include hcan

theorem exec_restoreReload : exec (.restoreReload c) s = .next (s.reloadNext c) := congrArg Host.Outcome.next (if_pos hcan)

omit hcan in
theorem State.reload_returns (s : State) (c : Nat) (x : SavedBlock) :
    (s.reload c x).blk x.id = some x.block ∧ ∀ y ∈ ((s.reload c x).ctx c).saved, y.id ≠ x.id := by
  refine ⟨amGet_amSet_self .., fun y hy => ?_⟩
  rw [State.reload, State.updCtx_ctx_self] at hy
  exact bne_iff_ne.1 (List.mem_filter.1 hy).2

theorem restoreReload_returns {k : SavedBlock} (hk : (s.ctx c).saved.find? (s.canReturnTo c) = some k) (hgood : s.pagesBad c k = false) :
    Claims.Does (.restoreReload c) s fun t => t.blk k.id = some k.block ∧ ∀ y ∈ (t.ctx c).saved, y.id ≠ k.id := by
  refine ⟨s.reload c k, ?_, s.reload_returns c k⟩
  rw [exec_restoreReload hcan, State.reloadNext, hk]
  dsimp only
  rw [if_neg (by rw [hgood]; exact Bool.false_ne_true)]

theorem restoreReload_loses {k : SavedBlock} (hk : (s.ctx c).saved.find? (s.canReturnTo c) = some k) (hbad : s.pagesBad c k = true) :
    Claims.Does (.restoreReload c) s fun t => Claims.BlocksLost s t c := by
  refine ⟨s.loseBlocks c, ?_, s.loseBlocks_blocksLost c⟩
  rw [exec_restoreReload hcan, State.reloadNext, hk]
  dsimp only
  rw [if_pos hbad]

omit hcan in
theorem State.drainEnd_restoring (s : State) (c : Nat) : ((s.drainEnd c).ctx c).restoring = (s.ctx c).restoring := by
  unfold State.drainEnd
  split
  · rw [State.updCtx_ctx_self, State.setCtxState_ctx_self]
  · rfl

theorem restoreReload_ends (hnone : (s.ctx c).saved = []) : Claims.Does (.restoreReload c) s fun t => (t.ctx c).restoring = false := by
  refine ⟨(s.updCtx c fun k => { k with restoring := false }).drainEnd c, ?_, ?_⟩
  · rw [exec_restoreReload hcan, State.reloadNext, hnone]
    rfl
  · beta_reduce
    rw [State.drainEnd_restoring, State.updCtx_ctx_self]

end

theorem contextEvents : Claims.ContextEvents := fun _ _ =>
  ⟨d1Expire_parks, d2Expire_resets, resetComplete_loads, fun _ _ _ => groupParkStop_parks, saveComplete_parks,
    fun hcan _ => restoreReload_returns hcan, fun hcan _ => restoreReload_loses hcan, restoreReload_ends⟩

/-- Settles O48: each command and event by the equation of its function. -/
theorem contexts : Obligations.Contexts := ⟨contextCommands, contextEvents⟩

end Sys2Proof.Machine

/-!
Queues (05, O49): the commands of R103 and R112, and what queues do by themselves (R107 to R111).

First what the part's accesses to memory leave alone, as the state with the fields blanked that an access can change (`State.kept`): the
queues and QSTS are not among those. Then one relation for what a command or an event does to the queues (`State.Puts`): queue q becomes a
given one, every other stays, and a command on q that ends now leaves the same QSTS. Each function of the model that puts a queue has one
lemma in this form, and the clauses are read off it.
-/

namespace Sys2Proof.Machine

/-! ### What accesses leave of the whole state -/

/-- A state without what accesses of the part to memory, hosts, peers and the on-chip range can change. -/
def State.kept (s : State) : State :=
  { s with
    mem := [], poison := [], hostLines := [], hdmHeld := [], guests := [], writes := [], fills := [], invs := [], clLines := [],
    extReqs := [], heldMsgs := [], watches := [], partials := [], links := [], cores := [], groups := [], regWrites := [], outbox := [],
    nextId := 0 }

section
variable {s t u : State}

theorem queues_of_kept (h : t.kept = s.kept) : t.queues = s.queues := (congrArg State.queues h :)

theorem qSts_of_kept (h : t.kept = s.kept) : t.qSts = s.qSts := (congrArg State.qSts h :)

theorem queue_of_kept (h : t.kept = s.kept) (q : Nat) : t.queue q = s.queue q := by
  rw [State.queue, queues_of_kept h, State.queue]

theorem ite_kept {c : Prop} [Decidable c] (ht : t.kept = u.kept) (hs : s.kept = u.kept) : (if c then t else s).kept = u.kept := by
  split
  · exact ht
  · exact hs

end

namespace State

@[simp] theorem touchHome_kept (s : State) (die pa : Nat) : (s.touchHome die pa).kept = s.kept := by
  cases s
  rfl
@[simp] theorem performBytes_kept (s : State) (who : Option (Nat × Nat)) (pa n data : Nat) :
    (s.performBytes who pa n data).kept = s.kept := rfl
@[simp] theorem write64_kept (s : State) (pa : Nat) (v : BitVec 64) : (s.write64 pa v).kept = s.kept := rfl
@[simp] theorem setRevoked_kept (s : State) (at' : Nat) : (s.setRevoked at').kept = s.kept := rfl
@[simp] theorem disarm_kept (s : State) (kind : WatchKind) : (s.disarm kind).kept = s.kept := rfl
@[simp] theorem arm_kept (s : State) (kind : WatchKind) (pa size : Nat) : (s.arm kind pa size).kept = s.kept := rfl
@[simp] theorem partDone_kept (s : State) : s.partDone.kept = s.kept := rfl
@[simp] theorem tailUsed_kept (s : State) (q : Nat) : (s.tailUsed q).kept = s.kept := rfl

@[simp] theorem post_kept (s : State) (l : Nat) (m : OutMsg) : (s.post l m).kept = s.kept := ite_kept rfl rfl

@[simp] theorem setAD_kept (s : State) (ctx va : Nat) (d : Bool) : (s.setAD ctx va d).kept = s.kept := by
  unfold setAD
  split
  · rfl
  · exact ite_kept rfl (s.write64_kept ..)

@[simp] theorem direct_kept (s : State) (ctx va : Nat) (k : Access) (priv : Bool) : (s.direct ctx va k priv).2.kept = s.kept := by
  unfold direct
  split
  · rfl
  · split
    · exact s.setAD_kept ..
    · exact s.setRevoked_kept _
    · rfl

@[simp] theorem accStep_kept (s : State) (core : Nat) : (s.accStep core).kept = s.kept := by
  unfold accStep
  dsimp only
  split
  · rfl
  · split <;> rfl

@[simp] theorem coreByteSet_kept (s : State) (c : Nat) (b : CoreByte) (v : Nat) : (s.coreByteSet c b v).kept = s.kept := by
  cases b with
  | stat i => exact ite_kept rfl rfl
  | _ => rfl

@[simp] theorem coreByteClean_kept (s : State) (c : Nat) (b : CoreByte) : (s.coreByteClean c b).kept = s.kept := by
  cases b <;> rfl

@[simp] theorem coreWinWrite_kept (s : State) (c off n data : Nat) : (s.coreWinWrite c off n data).kept = s.kept := by
  unfold coreWinWrite coreWinClean
  rw [foldl_fixed (p := kept) fun s i => ite_kept (s.coreByteClean_kept c _) rfl,
    foldl_fixed (p := kept) fun s i => s.coreByteSet_kept c _ _]
  exact foldl_fixed (fun s _ => s.accStep_kept c) _ _

@[simp] theorem chipWrite_kept (s : State) (pa n data : Nat) : (s.chipWrite pa n data).kept = s.kept := by
  have hwrite := congrFun (congrFun (congrFun (congrFun chipWrite_def s) pa) n) data
  beta_reduce at hwrite
  generalize s.chipLoc pa = l at hwrite
  rw [hwrite]
  cases l with
  | core c off => exact s.coreWinWrite_kept c off n data
  | _ => rfl

@[simp] theorem noteRefused_kept (s : State) (pa : Nat) : (s.noteRefused pa).kept = s.kept := by
  unfold noteRefused
  split
  · exact ite_kept rfl rfl
  · rfl

@[simp] theorem extSend_kept (s : State) (agent ctx : Nat) (write : Bool) (pa n data : Nat) :
    (s.extSend agent ctx write pa n data).kept = s.kept := post_kept ..

@[simp] theorem extWrite_kept (s : State) (w : PendWrite) : (s.extWrite w).kept = s.kept := by
  unfold extWrite
  refine ite_kept (s.noteRefused_kept _) ?_
  split <;> exact post_kept ..

@[simp] theorem performWrite_kept (s : State) (w : PendWrite) : (s.performWrite w).kept = s.kept := by
  unfold performWrite
  split
  · rfl
  · exact s.chipWrite_kept ..
  · exact s.extWrite_kept w
  · refine ite_kept rfl ?_
    split
    · rfl
    · exact s.extWrite_kept w
  · rfl

@[simp] theorem drainCore_kept (s : State) (core : Nat) : (s.drainCore core).kept = s.kept := foldl_fixed performWrite_kept _ _

@[simp] theorem extAsk_kept (s : State) (agent ctx pa n : Nat) : (s.extAsk agent ctx pa n).kept = s.kept :=
  ite_kept rfl ((extSend_kept ..).trans (s.drainCore_kept _))

theorem ctxRead_kept (s : State) (c va n : Nat) : (s.ctxRead c va n).state.kept = s.kept := by
  have hdirect := s.direct_kept c va .read true
  unfold ctxRead
  dsimp only
  split
  · exact hdirect
  · exact hdirect
  · rfl
  · rfl
  · split
    · split <;> simp [CRes.state]
    · exact hdirect
    · split
      · split <;> simp [CRes.state]
      · simp [CRes.state]
    · exact hdirect
    · exact hdirect
    · rfl

end State

/-! ### An admission that is refused (06 R119) -/

/-- The state that reads of the part leave. -/
def CReads.state : CReads → State
  | .ok _ s => s
  | .fault _ s => s
  | .wait s => s

/-- The state that reads of a graph's records leave. -/
def Records.state : Records → State
  | .ok _ s => s
  | .refused s => s
  | .wait s => s

theorem State.ctxReads_kept (s : State) (c : Nat) (l : List (Nat × Nat)) : (s.ctxReads c l).state.kept = s.kept := by
  induction l generalizing s with
  | nil => rfl
  | cons x rest ih =>
    have hread := s.ctxRead_kept c x.1 x.2
    unfold State.ctxReads
    generalize s.ctxRead c x.1 x.2 = r at hread
    cases r with
    | fault cause t => exact hread
    | wait t => exact hread
    | ok v t =>
      have hrest := (ih t).trans hread
      dsimp only
      generalize t.ctxReads c rest = rs at hrest
      cases rs <;> exact hrest

theorem State.readRecords_kept (s : State) (c va n : Nat) : (s.readRecords c va n).state.kept = s.kept := by
  induction n generalizing s va with
  | zero => rfl
  | succ n ih =>
    have hread := s.ctxRead_kept c va 128
    unfold State.readRecords
    generalize s.ctxRead c va 128 = r at hread
    cases r with
    | fault cause t => exact hread
    | wait t => exact hread
    | ok x t =>
      dsimp only
      split_ifs
      · exact hread
      · exact hread
      · generalize (List.range (recordLists x).2.1).map (fun k => (((recordLists x).2.2 + 2 * k) % 2 ^ 64, 2)) = vas
        have hlists := (t.ctxReads_kept c vas).trans hread
        generalize t.ctxReads c vas = rs at hlists
        cases rs with
        | fault cause u => exact hlists
        | wait u => exact hlists
        | ok os u =>
          have hrest := (ih u (va + 128)).trans hlists
          dsimp only
          generalize u.readRecords c (va + 128) n = rs at hrest
          cases rs <;> exact hrest

theorem State.admitGraph_refused_kept {s t : State} {c va die : Nat} {queue : Option Nat} {parent : Option (Nat × Nat)}
    (h : s.admitGraph c va die queue parent = .refused t) : t.kept = s.kept := by
  have hread := s.ctxRead_kept c va 40
  unfold State.admitGraph at h
  generalize s.ctxRead c va 40 = r at h hread
  split_ifs at h
  · cases h
    rfl
  · cases r with
    | fault cause u => cases h; exact hread
    | wait u => cases h
    | ok x u =>
      dsimp only at h
      split_ifs at h
      · cases h
        exact hread
      · have hrecords := (u.readRecords_kept c (x / 2 ^ 64 % 2 ^ 64) (x / 2 ^ 128 % 2 ^ 16)).trans hread
        generalize u.readRecords c (x / 2 ^ 64 % 2 ^ 64) (x / 2 ^ 128 % 2 ^ 16) = rs at h hrecords
        cases rs with
        | refused v => cases h; exact hrecords
        | wait v => cases h
        | ok nodes v =>
          dsimp only at h
          split_ifs at h
          · cases h
            exact hrecords

/-! ### A queue put -/

namespace State

@[simp] theorem setQueue_queue_self (s : State) (q : Nat) (x : Queue) : (s.setQueue q x).queue q = x := by simp [setQueue, queue]

theorem setQueue_queue_ne (s : State) {p q : Nat} (x : Queue) (h : p ≠ q) : (s.setQueue q x).queue p = s.queue p := by
  simp [setQueue, queue, amGet_amSet_ne _ _ h]

@[simp] theorem queueResult_queue (s : State) (q code p : Nat) : (s.queueResult q code).queue p = s.queue p := rfl

@[simp] theorem setDie_queue (s : State) (d : Nat) (x : Die) (q : Nat) : (s.setDie d x).queue q = s.queue q := rfl

@[simp] theorem setDie_die_self (s : State) (d : Nat) (x : Die) : (s.setDie d x).die d = x := by simp [setDie, die]

/-- From s to t queue q becomes x, every other queue stays, and a command on q that now ends with RESULT 0 leaves the same QSTS. -/
structure Puts (s t : State) (q : Nat) (x : Queue) : Prop where
  self : t.queue q = x
  others : ∀ p, p ≠ q → t.queue p = s.queue p
  result : (t.queueResult q 0).qSts = (s.queueResult q 0).qSts

section
variable {s t u : State} {q : Nat} {x y : Queue}

theorem queueResult_qSts_congr (h : t.qSts = s.qSts) : (t.queueResult q 0).qSts = (s.queueResult q 0).qSts := by
  rw [queueResult, h, queueResult]

theorem Puts.trans (h : s.Puts t q x) (h' : t.Puts u q y) : s.Puts u q y :=
  ⟨h'.self, fun p hp => (h'.others p hp).trans (h.others p hp), h'.result.trans h.result⟩

theorem Puts.of_kept (h : t.kept = s.kept) : s.Puts t q (s.queue q) :=
  ⟨queue_of_kept h q, fun p _ => queue_of_kept h p, queueResult_qSts_congr (qSts_of_kept h)⟩

theorem setQueue_puts (s : State) (q : Nat) (x : Queue) : s.Puts (s.setQueue q x) q x :=
  ⟨s.setQueue_queue_self q x, fun _ hp => s.setQueue_queue_ne x hp, rfl⟩

theorem ite_write64_kept {c : Prop} [Decidable c] {pa : Nat} {v : BitVec 64} (h : t.kept = u.kept) :
    (if c then t else t.write64 pa v).kept = u.kept := ite_kept h h

/-- What `putQueue` writes beside the queue are words of its header. -/
theorem putQueue_kept (s : State) (q : Nat) (x : Queue) : (s.putQueue q x).kept = (s.setQueue q x).kept :=
  ite_write64_kept (ite_write64_kept (ite_write64_kept (ite_write64_kept rfl)))

theorem putQueue_puts (s : State) (q : Nat) (x : Queue) : s.Puts (s.putQueue q x) q x := by
  have h := (s.setQueue_puts q x).trans (.of_kept (s.putQueue_kept q x))
  rwa [setQueue_queue_self] at h

/-- A QSTS that keeps OVR and shows a result, made into the same again. -/
theorem mask_or_mask_or (a m r : BitVec 64) : ((a &&& m ||| r) &&& m) ||| r = a &&& m ||| r := by
  ext k
  simp only [BitVec.getElem_or, BitVec.getElem_and]
  cases a[k] <;> cases m[k] <;> cases r[k] <;> rfl

theorem endDrain_puts (s : State) (q : Nat) : s.Puts (s.endDrain q) q (s.queue q) := by
  unfold endDrain
  split
  · exact ⟨rfl, fun _ _ => rfl, mask_or_mask_or ..⟩
  · exact .of_kept rfl

/-- A queue that leaves its state for good: its watch is dropped and a DRAIN of it ends. -/
theorem endDrain_putQueue_puts (s : State) (q : Nat) (x : Queue) : s.Puts (((s.disarm (.queue q)).endDrain q).putQueue q x) q x :=
  (Puts.of_kept (s.disarm_kept _)).trans (((s.disarm (.queue q)).endDrain_puts q).trans (putQueue_puts ..))

theorem faultQueue_puts (s : State) (q code : Nat) :
    s.Puts (s.faultQueue q code) q { s.queue q with state := .faulted, fcode := BitVec.ofNat 8 code, drainDue := false } :=
  s.endDrain_putQueue_puts q _

theorem closeQueue_puts (s : State) (q : Nat) : s.Puts (s.closeQueue q) q { s.queue q with state := .closed, drainDue := false } :=
  s.endDrain_putQueue_puts q _

end

end State

/-! ### Commands on queues (05 R103, R112) -/

section
variable {i : Instr} {s u : State} {q : Nat} {x : Queue} {states : List QState} {act : State → State}

theorem queueMoves_of_puts {new : QState} (hexec : exec i s = .next (u.queueResult q 0)) (h : s.Puts u q x) (hnew : x.state = new) :
    Claims.QueueMoves i s q new :=
  ⟨_, hexec, hnew ▸ congrArg Queue.state h.self, h.others, h.result.trans (by rw [State.queueResult, Nat.zero_mul, Nat.zero_add])⟩

/-- What a command leaves in a field of the queue that it has put. -/
theorem does_of_puts {α : Type} (f : Queue → α) (hexec : exec i s = .next (u.queueResult q 0)) (h : s.Puts u q x) :
    Claims.Does i s fun t => f (t.queue q) = f x :=
  ⟨_, hexec, congrArg f h.self⟩

/-- A command on a queue of the table in a state that accepts it. -/
theorem exec_of_queueCmd (hi : exec i s = .next (s.queueCmd q states act)) (hq : q < 1024) (h : (s.queue q).state ∈ states) :
    exec i s = .next ((act s).queueResult q 0) := by
  rw [hi, State.queueCmd, if_pos ⟨hq, h⟩]

/-- A command on a queue in a state that does not accept it. -/
theorem queueRefused_of_state (hi : exec i s = .next (s.queueCmd q states act)) (h : (s.queue q).state ∉ states) :
    Claims.QueueRefused i s q 1 := by
  rw [Claims.QueueRefused, hi, State.queueCmd, if_neg fun hok => h hok.2]
  rfl

end

section
variable {s : State} {q : Nat} (hq : q < 1024)
include hq

theorem open_refused (h : (s.queue q).state = .closed) (hbad : s.headerBad (s.headerQueue q) = true) :
    Claims.QueueRefused (.queueOpen q) s q 2 := by
  refine congrArg Host.Outcome.next (a₁ := s.openQueue q) ?_
  rw [State.openQueue, if_pos ⟨hq, h⟩]
  exact if_pos hbad

omit hq in
theorem open_refused_of_state (h : (s.queue q).state ≠ .closed) : Claims.QueueRefused (.queueOpen q) s q 1 :=
  congrArg Host.Outcome.next (if_neg fun hok => h hok.2)

/-- OPEN latches the header as it reads it, but for DLIMIT, which the word that it clears FCODE of still holds. -/
theorem openQueue_latches (h : (s.queue q).state = .closed) (hgood : s.headerBad (s.headerQueue q) = false) :
    ∃ u dlimit, exec (.queueOpen q) s = .next (u.queueResult q 0) ∧ s.Puts u q { s.headerQueue q with dlimit := dlimit } := by
  have hopen : exec (.queueOpen q) s = .next (s.openQueue q) := rfl
  rw [State.openQueue, if_pos ⟨hq, h⟩] at hopen
  dsimp only at hopen
  rw [if_neg (by rw [hgood]; exact Bool.false_ne_true)] at hopen
  refine ⟨_, _, hopen, .trans (.of_kept ?_) (State.setQueue_puts ..)⟩
  simp only [State.write64_kept, State.performBytes_kept]

theorem openClauses (h : (s.queue q).state = .closed) (hgood : s.headerBad (s.headerQueue q) = false) :
    Claims.QueueMoves (.queueOpen q) s q .idle ∧ Claims.Does (.queueOpen q) s fun t =>
      (t.queue q).head = 0 ∧ (t.queue q).done = 0 ∧ (t.queue q).fcode = 0 ∧ (t.queue q).ctx = bitsOf (s.read64 (s.queueHdr q)) 23 16 ∧
        (t.queue q).ring = s.read64 (s.queueHdr q + 8) := by
  obtain ⟨u, dlimit, hexec, hputs⟩ := openQueue_latches hq h hgood
  refine ⟨queueMoves_of_puts hexec hputs rfl, _, hexec, ?_⟩
  beta_reduce
  rw [State.queueResult_queue, hputs.self]
  exact ⟨rfl, rfl, rfl, rfl, rfl⟩

theorem pause_moves (h : (s.queue q).state = .idle ∨ (s.queue q).state = .watching ∨ (s.queue q).state = .active) :
    Claims.QueueMoves (.queuePause q) s q .paused :=
  queueMoves_of_puts (exec_of_queueCmd (states := [.idle, .watching, .active]) rfl hq (by simpa using h))
    ((State.Puts.of_kept (s.disarm_kept _)).trans (State.putQueue_puts ..)) rfl

theorem resume_moves (h : (s.queue q).state = .paused) : Claims.QueueMoves (.queueResume q) s q .idle :=
  queueMoves_of_puts (exec_of_queueCmd (states := [.paused]) rfl hq (by simpa using h)) (s.putQueue_puts ..) rfl

theorem close_moves (h : (s.queue q).state = .idle ∨ (s.queue q).state = .watching ∨ (s.queue q).state = .paused ∨
    (s.queue q).state = .faulted) : Claims.QueueMoves (.queueClose q) s q .closed :=
  queueMoves_of_puts (exec_of_queueCmd (states := [.idle, .watching, .paused, .faulted]) rfl hq (by simpa using h))
    (s.closeQueue_puts q) rfl

theorem clearClauses (h : (s.queue q).state = .faulted) :
    Claims.QueueMoves (.queueClear q) s q .paused ∧ Claims.Does (.queueClear q) s fun t => (t.queue q).fcode = 0 := by
  have hexec : exec (.queueClear q) s = .next ((s.putQueue q (s.queue q).cleared).queueResult q 0) :=
    exec_of_queueCmd (act := fun s => s.putQueue q (s.queue q).cleared) (states := [.faulted]) rfl hq (by simpa using h)
  exact ⟨queueMoves_of_puts hexec (s.putQueue_puts ..) rfl, does_of_puts Queue.fcode hexec (s.putQueue_puts ..)⟩

end

end Sys2Proof.Machine

namespace Sys2Proof.Machine

/-! ### TAIL (05 R107, R108) -/

namespace State

/-- A state whose queue q has its watch armed anew, with the answers to a read of TAIL used up: what `readTailOf` goes on from. -/
def rearmed (s : State) (q : Nat) : State := ((s.disarm (.queue q)).arm (.queue q) (s.tailPa q / 256 * 256) 256).tailUsed q

section
variable {s : State} {q : Nat} {act : State → BitVec 64 → State} {wait : State → State} {tail : BitVec 64}

theorem rearmed_kept (s : State) (q : Nat) : (s.rearmed q).kept = s.kept := by
  rw [rearmed, tailUsed_kept, arm_kept, disarm_kept]

/-- The watch is none of what TAIL is read from. -/
theorem tailNow_armed (s : State) (q pa : Nat) : ((s.disarm (.queue q)).arm (.queue q) pa 256).tailNow q = s.tailNow q := by
  cases s
  rfl

theorem tailNow_of_isMemory (h : s.isMemory (s.tailPa q) = true) : s.tailNow q = some (s.read64 (s.tailPa q)) := if_pos h

theorem readTailOf_of_some (h : s.tailNow q = some tail) : s.readTailOf q act wait = act (s.rearmed q) tail := by
  unfold readTailOf
  dsimp only
  rw [tailNow_armed, h]
  rfl

theorem readTailOf_of_none (h : s.tailNow q = none) :
    s.readTailOf q act wait = wait ((s.rearmed q).extAsk partAgent (s.queue q).ctx (s.tailPa q) 8) := by
  unfold readTailOf
  dsimp only
  rw [tailNow_armed, h]
  rfl

theorem overruns_iff {x : Queue} : x.overruns tail = true ↔ tail < x.head ∨ x.done.toNat + 2 ^ x.log2n < tail.toNat := decide_eq_true_iff

end

end State

/-! ### DRAIN (05 R112) -/

/-- A queue after DRAIN has found a TAIL: FAULTED where TAIL is out of order, else DRAINING up to it. -/
def Queue.drainedTo (x : Queue) (tail : BitVec 64) : Queue :=
  if x.overruns tail then { x with drainDue := false, state := .faulted, fcode := 2 }
  else { x with drainDue := false, state := .draining, tail := tail, dlimit := tail.truncate 56 }

theorem State.drainTo_puts (s : State) (q : Nat) (tail : BitVec 64) :
    ∃ u, s.drainTo q tail = u.queueResult q 0 ∧ s.Puts u q ((s.queue q).drainedTo tail) := by
  have hdisarm : s.Puts (s.disarm (.queue q)) q (s.queue q) := .of_kept (s.disarm_kept _)
  by_cases h : (s.queue q).overruns tail = true
  · rw [Queue.drainedTo, if_pos h]
    refine ⟨_, congrArg (State.queueResult · q 0) (if_pos h), ?_⟩
    have hset := hdisarm.trans (State.setQueue_puts _ q { s.queue q with drainDue := false })
    have hfault := hset.trans (State.faultQueue_puts _ q 2)
    rwa [hset.self] at hfault
  · rw [Queue.drainedTo, if_neg h]
    exact ⟨_, congrArg (State.queueResult · q 0) (if_neg h), hdisarm.trans (State.putQueue_puts ..)⟩

section
variable {s : State} {q : Nat} {tail : BitVec 64}

theorem drain_refused (h : (s.queue q).state = .closed ∨ (s.queue q).state = .draining ∨ (s.queue q).state = .faulted) :
    Claims.QueueRefused (.queueDrain q) s q 1 :=
  congrArg Host.Outcome.next (if_neg fun hok => by rcases h with h | h | h <;> simp [h] at hok)

variable (hq : q < 1024) (h : (s.queue q).state = .idle ∨ (s.queue q).state = .watching ∨ (s.queue q).state = .active ∨
  (s.queue q).state = .paused)
include hq h

theorem exec_queueDrain : exec (.queueDrain q) s = .next (s.drainQueue q) :=
  congrArg Host.Outcome.next (if_pos ⟨hq, by simpa using h⟩)

theorem queueDrain_drainedTo (htail : s.tailNow q = some tail) :
    ∃ u, exec (.queueDrain q) s = .next (u.queueResult q 0) ∧ s.Puts u q ((s.queue q).drainedTo tail) := by
  obtain ⟨u, hdrain, hputs⟩ := (s.rearmed q).drainTo_puts q tail
  refine ⟨u, ?_, ?_⟩
  · rw [exec_queueDrain hq h, State.drainQueue, State.readTailOf_of_some htail, hdrain]
  · rw [← queue_of_kept (s.rearmed_kept q)]
    exact (State.Puts.of_kept (s.rearmed_kept q)).trans hputs

theorem drainClauses_overrun (htail : s.tailNow q = some tail)
    (hover : tail < (s.queue q).head ∨ (s.queue q).done.toNat + 2 ^ (s.queue q).log2n < tail.toNat) :
    Claims.QueueMoves (.queueDrain q) s q .faulted ∧ Claims.Does (.queueDrain q) s fun t => (t.queue q).fcode = 2 := by
  obtain ⟨u, hexec, hputs⟩ := queueDrain_drainedTo hq h htail
  rw [Queue.drainedTo, if_pos (State.overruns_iff.2 hover)] at hputs
  exact ⟨queueMoves_of_puts hexec hputs rfl, does_of_puts Queue.fcode hexec hputs⟩

theorem drainClauses_ordered (htail : s.tailNow q = some tail)
    (hover : ¬ (tail < (s.queue q).head ∨ (s.queue q).done.toNat + 2 ^ (s.queue q).log2n < tail.toNat)) :
    Claims.QueueMoves (.queueDrain q) s q .draining ∧ Claims.Does (.queueDrain q) s fun t => (t.queue q).dlimit = tail.truncate 56 := by
  obtain ⟨u, hexec, hputs⟩ := queueDrain_drainedTo hq h htail
  rw [Queue.drainedTo, if_neg (mt State.overruns_iff.1 hover)] at hputs
  exact ⟨queueMoves_of_puts hexec hputs rfl, does_of_puts Queue.dlimit hexec hputs⟩

theorem drain_waits (htail : s.tailNow q = none) : Claims.Does (.queueDrain q) s fun t =>
    t.queue q = { s.queue q with drainDue := true } ∧ t.qSts = s.qSts := by
  have hexec := exec_queueDrain hq h
  rw [State.drainQueue, State.readTailOf_of_none htail] at hexec
  have hkept := ((s.rearmed q).extAsk_kept partAgent (s.queue q).ctx (s.tailPa q) 8).trans (s.rearmed_kept q)
  refine ⟨_, hexec, ?_, (State.setQueue_qSts ..).trans (qSts_of_kept hkept)⟩
  rw [State.setQueue_queue_self, queue_of_kept hkept]

end

theorem queueCommands : Claims.QueueCommands := by
  intro s q hq
  refine ⟨open_refused hq, openClauses hq, open_refused_of_state, pause_moves hq, fun h => ?pause, resume_moves hq, fun h => ?resume,
    State.tailNow_of_isMemory, fun h => ⟨fun _ htail => ⟨drainClauses_overrun hq h htail, drainClauses_ordered hq h htail⟩,
      drain_waits hq h⟩, drain_refused, close_moves hq, fun h => ?close, clearClauses hq, fun h => ?clear⟩
  case pause =>
    refine queueRefused_of_state (states := [.idle, .watching, .active]) rfl ?_
    rcases h with h | h | h | h <;> simp [h]
  case resume => exact queueRefused_of_state (states := [.paused]) rfl (by simpa using h)
  case close =>
    refine queueRefused_of_state (states := [.idle, .watching, .paused, .faulted]) rfl ?_
    rcases h with h | h | h <;> simp [h]
  case clear => exact queueRefused_of_state (states := [.faulted]) rfl (by simpa using h)

/-! ### Tail observation (05 R107, R108, R112) -/

section
variable {s : State} {q : Nat} {host : BitVec 64}

theorem exec_tailObservation (h : s.canObserve q = true ∨ s.canFollow q = true) : exec (.tailObservation q host) s = .next (s.observe q) :=
  congrArg Host.Outcome.next (if_pos (by simpa using h))

/-- A queue that has read a TAIL: FAULTED where TAIL is out of order, else ACTIVE or WATCHING by what is pending. -/
def Queue.observed (x : Queue) (tail : BitVec 64) : Queue :=
  if x.overruns tail then { x with state := .faulted, fcode := 2, drainDue := false }
  else { x with tail := tail, state := if tail ≠ x.head ∨ x.done ≠ x.head then .active else .watching }

theorem State.classify_puts (s : State) (q : Nat) (tail : BitVec 64) :
    s.Puts (s.classify q tail) q ((s.queue q).observed tail) := by
  unfold State.classify Queue.observed
  dsimp only
  split
  · exact s.faultQueue_puts q 2
  · exact s.putQueue_puts q _

section
variable (hgood : s.launchBad (s.queue q) = false) (hdue : (s.queue q).drainDue = false)
include hgood hdue

theorem observe_leaves (hstate : (s.queue q).state = .watching ∨ (s.queue q).state = .active) (hctx : (s.ctx (s.queue q).ctx).state ≠ .running)
    (hfired : s.queueFired q = false) : Claims.Does (.tailObservation q host) s fun t => (t.queue q).state = .idle := by
  have hfollow : s.canFollow q = true := by
    rcases hstate with h | h <;> simp [State.canFollow, h, hctx]
  have hobserve : s.observe q = (s.disarm (.queue q)).putQueue q { s.queue q with state := .idle } := by
    rcases hstate with h | h <;> simp [State.observe, hgood, hdue, h, hctx, hfired]
  refine ⟨_, exec_tailObservation (.inr hfollow), ?_⟩
  beta_reduce
  rw [hobserve, (State.putQueue_puts ..).self]

/-- A queue whose context runs reads TAIL as it arms; one whose watch has fired reads it anew. -/
theorem exec_tailObservation_of_tail {tail : BitVec 64}
    (hstate : (s.queue q).state = .idle ∨ ((s.queue q).state = .watching ∨ (s.queue q).state = .active) ∧ s.queueFired q = true)
    (hctx : (s.ctx (s.queue q).ctx).state = .running) (htail : s.tailNow q = some tail) :
    exec (.tailObservation q host) s = .next ((s.rearmed q).classify q tail) := by
  have hserves : s.canObserve q = true ∨ s.canFollow q = true := by
    rcases hstate with h | ⟨h | h, hfired⟩
    · exact .inr (by simp [State.canFollow, h, hctx])
    · exact .inl (by simp [State.canObserve, hdue, h, hfired])
    · exact .inl (by simp [State.canObserve, hdue, h, hfired])
  have hobserve : s.observe q = s.readTailOf q (fun s tail => s.classify q tail) fun t => t.putQueue q
      { t.queue q with state := if (s.queue q).head = (s.queue q).tail ∧ (s.queue q).done = (s.queue q).head then .watching else .active } := by
    rcases hstate with h | ⟨h | h, -⟩ <;> simp [State.observe, hgood, hdue, h, hctx]
  rw [exec_tailObservation hserves, hobserve, State.readTailOf_of_some htail]

theorem observe_tail
    (hstate : (s.queue q).state = .idle ∨ ((s.queue q).state = .watching ∨ (s.queue q).state = .active) ∧ s.queueFired q = true)
    (hctx : (s.ctx (s.queue q).ctx).state = .running) {tail : BitVec 64} (htail : s.tailNow q = some tail) :
    (tail < (s.queue q).head ∨ (s.queue q).done.toNat + 2 ^ (s.queue q).log2n < tail.toNat →
      Claims.Does (.tailObservation q host) s fun t => (t.queue q).state = .faulted ∧ (t.queue q).fcode = 2) ∧
    (¬ (tail < (s.queue q).head ∨ (s.queue q).done.toNat + 2 ^ (s.queue q).log2n < tail.toNat) →
      Claims.Does (.tailObservation q host) s fun t => (t.queue q).tail = tail ∧
        (t.queue q).state = if tail ≠ (s.queue q).head ∨ (s.queue q).done ≠ (s.queue q).head then .active else .watching) := by
  have hexec := exec_tailObservation_of_tail (host := host) hgood hdue hstate hctx htail
  have hself := ((s.rearmed q).classify_puts q tail).self
  rw [queue_of_kept (s.rearmed_kept q)] at hself
  refine ⟨fun hover => ⟨_, hexec, ?_⟩, fun hover => ⟨_, hexec, ?_⟩⟩
  · beta_reduce
    rw [hself, Queue.observed, if_pos (State.overruns_iff.2 hover)]
    exact ⟨rfl, rfl⟩
  · beta_reduce
    rw [hself, Queue.observed, if_neg (mt State.overruns_iff.1 hover)]
    exact ⟨rfl, rfl⟩

theorem observe_drained (hstate : (s.queue q).state = .draining) (hlimit : (s.queue q).head.truncate 56 = (s.queue q).dlimit)
    (hdone : (s.queue q).done = (s.queue q).head) : Claims.Does (.tailObservation q host) s fun t => (t.queue q).state = .closed := by
  have hcan : s.canObserve q = true := by simp [State.canObserve, hdue, hstate, hlimit, hdone]
  have hobserve : s.observe q = s.closeQueue q := by simp [State.observe, hgood, hdue, hstate, hlimit, hdone]
  refine ⟨_, exec_tailObservation (.inl hcan), ?_⟩
  beta_reduce
  rw [hobserve, (s.closeQueue_puts q).self]

end

/-! ### BAD_GRAPH (05 R110, R111) -/

theorem State.badGraph_faults (h : (s.queue q).state ≠ .closed) : (s.badGraph q).queue q =
    { s.queue q with head := (s.queue q).head - 1, entry := none, state := .faulted, fcode := 4, drainDue := false } := by
  unfold State.badGraph
  dsimp only
  rw [if_neg h, (State.faultQueue_puts ..).self, (State.putQueue_puts ..).self]
  rfl

theorem State.badGraph_drops (h : (s.queue q).state = .closed) : (s.badGraph q).queue q = { s.queue q with entry := none } := by
  unfold State.badGraph
  dsimp only
  rw [if_pos h, State.setQueue_queue_self]

theorem exec_tailObservation_of_launchBad (hbad : s.launchBad (s.queue q) = true) :
    exec (.tailObservation q host) s = .next (s.badGraph q) := by
  have hcan : s.canObserve q = true := by rw [State.canObserve, hbad, Bool.true_or]
  rw [exec_tailObservation (.inl hcan), State.observe, if_pos hbad]

theorem observe_badGraph_open (hbad : s.launchBad (s.queue q) = true) (hstate : (s.queue q).state ≠ .closed) :
    Claims.Does (.tailObservation q host) s fun t =>
      (t.queue q).state = .faulted ∧ (t.queue q).fcode = 4 ∧ (t.queue q).head = (s.queue q).head - 1 ∧ (t.queue q).entry = none := by
  refine ⟨_, exec_tailObservation_of_launchBad hbad, ?_⟩
  beta_reduce
  rw [State.badGraph_faults hstate]
  exact ⟨rfl, rfl, rfl, rfl⟩

theorem observe_badGraph_closed (hbad : s.launchBad (s.queue q) = true) (hstate : (s.queue q).state = .closed) :
    Claims.Does (.tailObservation q host) s fun t => t.queue q = { s.queue q with entry := none } :=
  ⟨_, exec_tailObservation_of_launchBad hbad, State.badGraph_drops hstate⟩

/-! ### Taking entries (05 R105, R109) -/

/-- A queue that may take an entry has no change of its context to follow. -/
theorem State.canFollow_of_mayTake (h : s.mayTake (s.queue q) = true) : s.canFollow q = false := by
  simp only [State.mayTake, Bool.and_eq_true, Bool.or_eq_true, beq_iff_eq] at h
  obtain ⟨⟨⟨⟨⟨hrunning, -⟩, -⟩, -⟩, -⟩, ⟨hactive, -⟩ | ⟨hdraining, -⟩⟩ := h
  · simp [State.canFollow, hactive, hrunning]
  · simp [State.canFollow, hdraining]

section
variable {v : Nat} {u : State} (hobs : s.canObserve q = false) (hmay : s.mayTake (s.queue q) = true)
  (hread : s.ctxRead (s.queue q).ctx (((s.queue q).ring.toNat + (s.queue q).head.toNat % 2 ^ (s.queue q).log2n * 32) % 2 ^ 64) 32 = .ok v u)

include hobs hmay in
theorem exec_tailObservation_of_takeEntry {t : State} (h : s.takeEntry q = some t) : exec (.tailObservation q host) s = .next t := by
  refine congrArg Host.Outcome.next (a₁ := s.serveQueue q) ?_
  rw [State.serveQueue, hobs, State.canFollow_of_mayTake hmay, if_neg (by decide), h, Option.getD_some]

include hmay hread

/-- BAD_ENTRY: a SEQ of another lap, or a reserved KIND. -/
theorem State.takeEntry_of_badEntry (hbad : v / 2 ^ 64 % 2 ^ 32 ≠ (s.queue q).head.toNat % 2 ^ 32 ∨ v / 2 ^ 96 % 2 ^ 8 = 0 ∨
    3 < v / 2 ^ 96 % 2 ^ 8) : s.takeEntry q = some (u.partDone.faultQueue q 1) := by
  rw [State.takeEntry, if_pos hmay, hread]
  exact if_pos hbad

theorem State.takeEntry_of_launch {d : Nat} (hseq : v / 2 ^ 64 % 2 ^ 32 = (s.queue q).head.toNat % 2 ^ 32) (hkind : v / 2 ^ 96 % 2 ^ 8 = 1)
    (hdie : u.partDone.graphDie (s.queue q).ctx (v % 2 ^ 64) = some (some d)) :
    s.takeEntry q = some (u.partDone.putQueue q { s.queue q with
      head := (s.queue q).head + 1, entry := some (BitVec.ofNat 64 v, BitVec.ofNat 64 (v / 2 ^ 128), BitVec.ofNat 64 (v / 2 ^ 192)),
      eff := (s.queue q).prio, waitClk := s.clk.toNat }) := by
  rw [State.takeEntry, if_pos hmay, hread]
  dsimp only
  rw [if_neg (by omega), if_pos hkind, hdie]

include hobs

theorem take_badEntry (hbad : v / 2 ^ 64 % 2 ^ 32 ≠ (s.queue q).head.toNat % 2 ^ 32 ∨ v / 2 ^ 96 % 2 ^ 8 = 0 ∨ 3 < v / 2 ^ 96 % 2 ^ 8) :
    Claims.Does (.tailObservation q host) s fun t => (t.queue q).state = .faulted ∧ (t.queue q).fcode = 1 := by
  refine ⟨_, exec_tailObservation_of_takeEntry hobs hmay (State.takeEntry_of_badEntry hmay hread hbad), ?_⟩
  beta_reduce
  rw [(State.faultQueue_puts ..).self]
  exact ⟨rfl, rfl⟩

theorem take_launch {d : Nat} (hseq : v / 2 ^ 64 % 2 ^ 32 = (s.queue q).head.toNat % 2 ^ 32) (hkind : v / 2 ^ 96 % 2 ^ 8 = 1)
    (hdie : u.partDone.graphDie (s.queue q).ctx (v % 2 ^ 64) = some (some d)) :
    Claims.Does (.tailObservation q host) s fun t => (t.queue q).head = (s.queue q).head + 1 ∧
      (t.queue q).entry = some (BitVec.ofNat 64 v, BitVec.ofNat 64 (v / 2 ^ 128), BitVec.ofNat 64 (v / 2 ^ 192)) := by
  refine ⟨_, exec_tailObservation_of_takeEntry hobs hmay (State.takeEntry_of_launch hmay hread hseq hkind hdie), ?_⟩
  beta_reduce
  rw [(State.putQueue_puts ..).self]
  exact ⟨rfl, rfl⟩

end

end

/-! ### Admission and aging (05 R110) -/

theorem exec_queueAdmit {s : State} {die : Nat} (hcan : s.canAdmit die = true) : exec (.queueAdmit die) s = .next (s.admitNext die) :=
  congrArg Host.Outcome.next (if_pos hcan)

section
variable {s t : State} {q die : Nat} {y : Queue} {va compl cval : BitVec 64} (hcan : s.canAdmit die = true)
  (hwins : s.winner die = some (q, y)) (hentry : y.entry = some (va, compl, cval))
include hcan hwins hentry

theorem admit_launches {g : Nat} (hadmit : s.admitGraph y.ctx va.toNat die (some q) none = .ok g t) :
    Claims.Does (.queueAdmit die) s fun v => (v.queue q).flying = some g ∧ (v.queue q).eff = y.prio ∧ (v.die die).lastQueue = q ∧
      (v.die die).admitClk = s.clk.toNat + 16 := by
  have hexec := exec_queueAdmit hcan
  simp only [State.admitNext, hwins, hentry, hadmit] at hexec
  refine ⟨_, hexec, ?_⟩
  beta_reduce
  rw [State.setDie_queue, State.setQueue_queue_self, State.setDie_die_self]
  exact ⟨rfl, rfl, rfl, rfl⟩

theorem admit_refused (hadmit : s.admitGraph y.ctx va.toNat die (some q) none = .refused t) (hstate : (s.queue q).state ≠ .closed) :
    Claims.Does (.queueAdmit die) s fun v => (v.queue q).state = .faulted ∧ (v.queue q).fcode = 4 := by
  have hexec := exec_queueAdmit hcan
  simp only [State.admitNext, hwins, hentry, hadmit] at hexec
  have hkept : t.partDone.kept = s.kept := t.partDone_kept.trans (State.admitGraph_refused_kept hadmit)
  rw [← queue_of_kept hkept] at hstate
  refine ⟨_, hexec, ?_⟩
  beta_reduce
  rw [State.badGraph_faults hstate]
  exact ⟨rfl, rfl⟩

end

theorem exec_queuePriorityAging {s : State} {q : Nat} (hentry : (s.queue q).entry.isSome = true) (hflying : (s.queue q).flying = none)
    (heff : (s.queue q).eff < 7) (hwait : (s.queue q).waitClk + 4096 ≤ s.clk.toNat) :
    exec (.queuePriorityAging q) s = .next (s.setQueue q (s.queue q).aged) :=
  congrArg Host.Outcome.next (if_pos (by simp [State.canAge, hentry, hflying, heff, hwait]))

theorem queueEvents : Claims.QueueEvents := fun _ _ _ _ =>
  ⟨fun hgood hdue => ⟨observe_leaves hgood hdue, fun hstate hctx _ => observe_tail hgood hdue hstate hctx, observe_drained hgood hdue⟩,
    observe_badGraph_open, observe_badGraph_closed,
    fun _ _ hobs hmay hread => ⟨take_badEntry hobs hmay hread, fun _ => take_launch hobs hmay hread⟩,
    fun _ _ _ _ hcan hwins hentry => ⟨fun _ _ => admit_launches hcan hwins hentry, fun _ => admit_refused hcan hwins hentry⟩,
    exec_queuePriorityAging⟩

/-- Settles O49: each command and event by what its function puts in place of the queue. -/
theorem queues : Obligations.Queues := ⟨queueCommands, queueEvents⟩

end Sys2Proof.Machine

/-!
Launch and exit (07, O51): the distributors' offers (R139 to R141), re-cuts (R145), the end of a launch (R146) and the exit of a block (R148).

A placement is followed through the model's choice of cores: every core of it is a candidate of its die (`State.Usable`, `State.DieCores`),
also when ranks are packed and blocks already placed count, since those are only added (`State.Grows`). The admission of a cluster goes core by
core; where its cores are distinct, a block placed on one leaves the fit of the others (`State.admitBlock_fit_ne`), so every rank gets its block.
For the exit, what completes before a block leaves changes neither the work of contexts (`State.work`) nor whose block each group is of
(`State.owners`).
-/

namespace Sys2Proof.Machine

/-! ### Lists and vectors -/

theorem insertBy_perm {α : Type} (before : α → α → Bool) (x : α) (l : List α) : (insertBy before x l).Perm (x :: l) := by
  induction l with
  | nil => exact .refl _
  | cons y r ih =>
    unfold insertBy
    split
    · exact .refl _
    · exact (ih.cons y).trans (.swap x y r)

theorem sortBy_perm {α : Type} (before : α → α → Bool) (l : List α) : (sortBy before l).Perm l := by
  induction l with
  | nil => exact .refl _
  | cons x r ih => exact (insertBy_perm before x _).trans (ih.cons x)

theorem mem_numsFrom {a n c : Nat} : c ∈ numsFrom a n ↔ a ≤ c ∧ c < a + n := by
  induction n generalizing a with
  | zero => simp only [numsFrom, List.not_mem_nil, false_iff]; omega
  | succ n ih => rw [numsFrom, List.mem_cons, ih]; omega

/-- A key above all others is put at the end. -/
theorem amSet_of_lt {α : Type} {m : AMap α} {k : Nat} (v : α) (h : ∀ x ∈ m, x.1 < k) : amSet m k v = m ++ [(k, v)] := by
  induction m with
  | nil => rfl
  | cons x r ih =>
    have hx : x.1 < k := h x (.head _)
    rw [amSet, if_neg (by omega), if_neg (by omega), ih fun y hy => h y (.tail _ hy), List.cons_append]

theorem amGet_of_mem {α : Type} {m : AMap α} (hm : amSorted m = true) {k : Nat} {v : α} (h : (k, v) ∈ m) : amGet m k = some v := by
  induction m with
  | nil => cases h
  | cons x r ih =>
    obtain ⟨k', v'⟩ := x
    obtain ⟨hr, hk⟩ := amSorted_cons hm
    rw [amGet]
    rcases List.mem_cons.1 h with heq | hmem
    · cases heq
      exact if_pos rfl
    · have hlt : k' < k := hk _ hmem
      rw [if_neg (by omega), if_neg (by omega)]
      exact ih hr hmem

section
variable {α β : Type} (f : Nat → α → β)

theorem amMap_amSet (m : AMap α) (k : Nat) (v : α) : amMap f (amSet m k v) = amSet (amMap f m) k (f k v) := by
  induction m with
  | nil => rfl
  | cons x r ih =>
    obtain ⟨k', v'⟩ := x
    change amMap f (if k < k' then _ else _) = if k < k' then _ else if k' = k then _ else (k', f k' v') :: amSet (amMap f r) k (f k v)
    rw [← ih]
    split_ifs <;> rfl

theorem amMap_amDel (m : AMap α) (k : Nat) : amMap f (amDel m k) = amDel (amMap f m) k := by
  induction m with
  | nil => rfl
  | cons x r ih =>
    obtain ⟨k', v'⟩ := x
    change amMap f (if k' = k then _ else _) = if k' = k then _ else if k < k' then _ else (k', f k' v') :: amDel (amMap f r) k
    rw [← ih]
    split_ifs <;> rfl

theorem amSorted_amMap (m : AMap α) : amSorted (amMap f m) = amSorted m := by
  induction m with
  | nil => rfl
  | cons x r ih =>
    cases r with
    | nil => rfl
    | cons y r => exact congrArg (decide (x.1 < y.1) && ·) ih

end

/-- A value put again where it stands. -/
theorem amSet_of_amGet {α : Type} {m : AMap α} {k : Nat} {v : α} (h : amGet m k = some v) : amSet m k v = m := by
  induction m with
  | nil => simp at h
  | cons x r ih =>
    obtain ⟨k', v'⟩ := x
    rw [amGet] at h
    rw [amSet]
    split_ifs at h with heq hlt
    · subst heq
      cases h
      simp
    · rw [if_neg hlt, if_neg heq, ih h]

theorem vget_map {α β : Type} {n : Nat} (f : α → β) (v : Vector α n) (i : Nat) (d : α) : vget (v.map f) i (f d) = f (vget v i d) := by
  simp only [vget, Vector.getD, Vector.toArray_map, Array.getD_eq_getD_getElem?, Array.getElem?_map, Option.getD_map]

/-! ### Cores that R141 allows -/

/-- A core on a live die that holds blocks of no other context. -/
def State.Usable (s : State) (ctx core : Nat) : Prop :=
  s.liveCd.getLsbD (dieOf core) = true ∧ ∀ b ∈ s.coreBlocks core, b.ctx = ctx

/-- n cores of a die, each of them usable. -/
def State.DieCores (s : State) (ctx die n : Nat) (cores : List Nat) : Prop :=
  cores.length = n ∧ ∀ c ∈ cores, dieOf c = die ∧ s.Usable ctx c

/-- The numbers given so far are below the next. -/
def State.Numbered (s : State) : Prop := ∀ b ∈ s.blocks, b.1 < s.nextId

theorem State.usable_of_admits {s : State} {core ctx grid : Nat} {d : KDesc} (h : s.admits core ctx grid d = true) : s.Usable ctx core := by
  simp only [State.admits, Bool.and_eq_true, List.all_eq_true, beq_iff_eq] at h
  obtain ⟨⟨⟨⟨⟨⟨hlive, -⟩, hblocks⟩, -⟩, -⟩, -⟩, -⟩ := h
  exact ⟨hlive, hblocks⟩

theorem State.candidates_usable {s : State} {die grid c : Nat} {k : Grid} (h : c ∈ s.candidates die grid k) :
    dieOf c = die ∧ s.Usable k.ctx c := by
  simp only [State.candidates, List.mem_map, (sortBy_perm _ _).mem_iff] at h
  obtain ⟨-, ⟨x, hx, rfl⟩, rfl⟩ := h
  obtain ⟨hnum, hadmits⟩ := List.mem_filter.1 hx
  have hrange := mem_numsFrom.1 hnum
  simp only [Config.coresPerDie] at hrange
  refine ⟨?_, State.usable_of_admits hadmits⟩
  simp only [dieOf, Config.coresPerDie]
  omega

theorem State.pick_eq_some {s : State} {k : Grid} {n : Nat} {taken cs r : List Nat} (h : s.pick k n taken cs = some r) :
    r.length = n ∧ ∀ c ∈ r, c ∈ cs := by
  induction cs generalizing n taken r with
  | nil =>
    cases n with
    | zero => cases h; exact ⟨rfl, fun _ hc => hc⟩
    | succ n => cases h
  | cons c cs ih =>
    cases n with
    | zero => cases h; exact ⟨rfl, fun _ hc => absurd hc List.not_mem_nil⟩
    | succ n =>
      rw [State.pick] at h
      split at h
      · obtain ⟨r', hr, rfl⟩ := Option.map_eq_some_iff.1 h
        obtain ⟨hlen, hmem⟩ := ih hr
        exact ⟨congrArg (· + 1) hlen, List.forall_mem_cons.2 ⟨.head _, fun x hx => .tail _ (hmem x hx)⟩⟩
      · obtain ⟨hlen, hmem⟩ := ih h
        exact ⟨hlen, fun x hx => .tail _ (hmem x hx)⟩

theorem State.takeCores_dieCores {s : State} {die n grid : Nat} {k : Grid} {taken x : List Nat}
    (h : s.takeCores die n grid k taken = some x) : s.DieCores k.ctx die n x := by
  obtain ⟨r, hr, rfl⟩ := Option.map_eq_some_iff.1 h
  obtain ⟨hlen, hmem⟩ := State.pick_eq_some hr
  exact ⟨(sortBy_perm _ r).length_eq.trans hlen, fun c hc => State.candidates_usable (hmem c ((sortBy_perm _ r).mem_iff.1 hc))⟩

/-! ### A block placed on a core -/

/-- A block as its core admits it. -/
def Block.Admitted (b : Block) (core grid cl bid rank : Nat) (k : Grid) : Prop :=
  b.core = core ∧ b.ctx = k.ctx ∧ b.grid = grid ∧ b.bid = bid ∧ b.rank = rank ∧ b.cluster = cl ∧ b.launching = true ∧ b.discarding = false

section
variable (s : State) (core grid cl bid rank : Nat) (k : Grid) (p : Nat × Nat × Option (Nat × Nat))

theorem State.admitBlock_blocks : ∃ b : Block, b.Admitted core grid cl bid rank k ∧
    (s.admitBlock core grid cl bid rank k p).2.blocks = amSet s.blocks s.nextId b :=
  ⟨_, ⟨rfl, rfl, rfl, rfl, rfl, rfl, rfl, rfl⟩, rfl⟩

theorem State.admitBlock_blk_self : ∃ b : Block, b.Admitted core grid cl bid rank k ∧
    (s.admitBlock core grid cl bid rank k p).2.blk s.nextId = some b := by
  obtain ⟨b, hb, hblocks⟩ := s.admitBlock_blocks core grid cl bid rank k p
  exact ⟨b, hb, by rw [State.blk, hblocks, amGet_amSet_self]⟩

theorem State.admitBlock_blk_ne {id : Nat} (h : id ≠ s.nextId) : (s.admitBlock core grid cl bid rank k p).2.blk id = s.blk id := by
  obtain ⟨b, -, hblocks⟩ := s.admitBlock_blocks core grid cl bid rank k p
  rw [State.blk, hblocks, amGet_amSet_ne _ _ h, State.blk]

theorem State.admitBlock_core_ne {c : Nat} (h : c ≠ core) : (s.admitBlock core grid cl bid rank k p).2.core c = s.core c :=
  State.setCore_core_ne s.fresh.2 _ h

variable {s}
variable (hs : s.Numbered)
include hs

theorem State.admitBlock_blocks_append : ∃ b : Block, b.Admitted core grid cl bid rank k ∧
    (s.admitBlock core grid cl bid rank k p).2.blocks = s.blocks ++ [(s.nextId, b)] := by
  obtain ⟨b, hb, hblocks⟩ := s.admitBlock_blocks core grid cl bid rank k p
  exact ⟨b, hb, hblocks.trans (amSet_of_lt b hs)⟩

theorem State.admitBlock_numbered : (s.admitBlock core grid cl bid rank k p).2.Numbered := by
  obtain ⟨b, -, hblocks⟩ := State.admitBlock_blocks_append core grid cl bid rank k p hs
  intro x hx
  rw [hblocks, List.mem_append, List.mem_singleton] at hx
  change x.1 < s.nextId + 1
  rcases hx with hx | rfl
  · exact Nat.lt_succ_of_lt (hs x hx)
  · exact Nat.lt_succ_self _

theorem State.admitBlock_coreBlocks_ne {c : Nat} (h : c ≠ core) :
    (s.admitBlock core grid cl bid rank k p).2.coreBlocks c = s.coreBlocks c := by
  obtain ⟨b, ⟨hcore, -⟩, hblocks⟩ := State.admitBlock_blocks_append core grid cl bid rank k p hs
  simp [State.coreBlocks, hblocks, hcore, h.symm]

/-- A block placed on one core leaves where another places a block. -/
theorem State.admitBlock_fit_ne {c : Nat} (h : c ≠ core) (d : KDesc) :
    (s.admitBlock core grid cl bid rank k p).2.fit c d = s.fit c d := by
  rw [State.fit, State.admitBlock_coreBlocks_ne core grid cl bid rank k p hs h, s.admitBlock_core_ne core grid cl bid rank k p h, State.fit]

end

/-! ### Ranks packed on cores -/

/-- From s to t no block has left, new ones have new numbers, and the dies in service are the same. -/
structure State.Grows (s t : State) : Prop where
  liveCd : t.liveCd = s.liveCd
  blocks : ∀ x ∈ s.blocks, x ∈ t.blocks
  numbered : s.Numbered → t.Numbered

theorem State.Grows.refl (s : State) : s.Grows s := ⟨rfl, fun _ hx => hx, id⟩

theorem State.Grows.trans {s t u : State} (h : s.Grows t) (h' : t.Grows u) : s.Grows u :=
  ⟨h'.liveCd.trans h.liveCd, fun x hx => h'.blocks x (h.blocks x hx), h'.numbered ∘ h.numbered⟩

theorem State.admitBlock_grows {s : State} (hs : s.Numbered) (core grid cl bid rank : Nat) (k : Grid) (p : Nat × Nat × Option (Nat × Nat)) :
    s.Grows (s.admitBlock core grid cl bid rank k p).2 := by
  obtain ⟨b, -, hblocks⟩ := State.admitBlock_blocks_append core grid cl bid rank k p hs
  exact ⟨rfl, fun x hx => hblocks ▸ List.mem_append_left _ hx, State.admitBlock_numbered core grid cl bid rank k p⟩

theorem State.Usable.of_grows {s t : State} (h : s.Grows t) {ctx core : Nat} (hu : t.Usable ctx core) : s.Usable ctx core := by
  obtain ⟨hlive, hctx⟩ := hu
  refine ⟨h.liveCd ▸ hlive, fun b hb => hctx b ?_⟩
  obtain ⟨hmem, hcore⟩ := List.mem_filter.1 hb
  obtain ⟨x, hx, rfl⟩ := List.mem_map.1 hmem
  exact List.mem_filter.2 ⟨List.mem_map_of_mem (h.blocks x hx), hcore⟩

theorem State.DieCores.of_grows {s t : State} (h : s.Grows t) {ctx die n : Nat} {x : List Nat} (hx : t.DieCores ctx die n x) :
    s.DieCores ctx die n x :=
  ⟨hx.1, fun c hc => ⟨(hx.2 c hc).1, (hx.2 c hc).2.of_grows h⟩⟩

theorem packRanks_grows (grid : Nat) (k : Grid) (fuel : Nat) {s : State} (hs : s.Numbered) (cs : List Nat) (n : Nat) :
    s.Grows (packRanks grid k fuel s cs n).2 ∧ ∀ c ∈ (packRanks grid k fuel s cs n).1, c ∈ cs := by
  have hnone (s : State) (cs : List Nat) : s.Grows s ∧ ∀ c ∈ ([] : List Nat), c ∈ cs := ⟨.refl s, List.forall_mem_nil _⟩
  induction fuel generalizing s cs n with
  | zero => exact hnone s cs
  | succ fuel ih =>
    cases cs with
    | nil => exact hnone s []
    | cons c cs =>
      cases n with
      | zero => exact hnone s (c :: cs)
      | succ n =>
        rw [packRanks]
        split
        · next p _ =>
          obtain ⟨hgrows, hmem⟩ := ih (State.admitBlock_numbered c grid 0 0 0 k p hs) (c :: cs) n
          exact ⟨(State.admitBlock_grows hs ..).trans hgrows, List.forall_mem_cons.2 ⟨.head _, hmem⟩⟩
        · obtain ⟨hgrows, hmem⟩ := ih hs cs (n + 1)
          exact ⟨hgrows, fun x hx => .tail _ (hmem x hx)⟩

theorem State.packDie_dieCores {s : State} (hs : s.Numbered) {die n grid : Nat} {k : Grid} {x : List Nat × State}
    (h : s.packDie die n grid k = some x) : s.DieCores k.ctx die n x.1 ∧ s.Grows x.2 := by
  obtain ⟨hgrows, hmem⟩ := packRanks_grows grid k ((s.candidates die grid k).length + n) hs (s.candidates die grid k) n
  rw [State.packDie] at h
  split at h
  · next hlen =>
    cases h
    exact ⟨⟨hlen, fun c hc => State.candidates_usable (hmem c hc)⟩, hgrows⟩
  · cases h

/-! ### Placements (R141) -/

section
variable {s : State} {k : Grid}

theorem placementAllowed_of_die (haccs : s.accsOk k = true) {d : Nat} (hd : d < 4) {x : List Nat}
    (hx : s.DieCores k.ctx d k.desc.cldim x) : Claims.PlacementAllowed s k x :=
  ⟨hx.1, haccs, .inl ⟨d, hd, fun c hc => (hx.2 c hc).1⟩, fun c hc => (hx.2 c hc).2⟩

/-- The lower half of the ranks on the first die of a pair, the rest on the second. -/
theorem placementAllowed_of_pair (haccs : s.accsOk k = true) {p : Nat × Nat} (hp : p ∈ if k.desc.straddle then diePairs else [])
    {x y : List Nat} (hx : s.DieCores k.ctx p.1 ((k.desc.cldim + 1) / 2) x)
    (hy : s.DieCores k.ctx p.2 (k.desc.cldim - (k.desc.cldim + 1) / 2) y) : Claims.PlacementAllowed s k (x ++ y) := by
  obtain ⟨hxlen, hxs⟩ := hx
  obtain ⟨hylen, hys⟩ := hy
  have hstraddle : k.desc.straddle = true ∧ p ∈ diePairs := by
    split at hp
    · next h => exact ⟨h, hp⟩
    · cases hp
  refine ⟨?_, haccs, .inr ⟨hstraddle.1, p, hstraddle.2, fun i c hc => ?_⟩, fun c hc => ?_⟩
  · rw [List.length_append, hxlen, hylen]
    omega
  · rw [List.getElem?_append, hxlen] at hc
    split at hc
    · next hi => exact (hxs c (List.mem_of_getElem? hc)).1.trans (if_pos hi).symm
    · next hi => exact (hys c (List.mem_of_getElem? hc)).1.trans (if_neg hi).symm
  · exact (List.mem_append.1 hc).elim (fun h => (hxs c h).2) fun h => (hys c h).2

/-- The cases of R141 in their order: one die, a pair of dies, and both with ranks packed. -/
theorem State.placement_allowed (hs : s.Numbered) {grid : Nat} {cores : List Nat} (h : s.placement grid k = some cores) :
    Claims.PlacementAllowed s k cores := by
  rw [State.placement] at h
  split at h
  · next haccs =>
    split at h
    · next x hone =>
      cases h
      obtain ⟨d, hd, hx⟩ := List.exists_of_findSome?_eq_some hone
      exact placementAllowed_of_die haccs (List.mem_range.1 hd) (State.takeCores_dieCores hx)
    · split at h
      · next x htwo =>
        cases h
        obtain ⟨p, hp, hxy⟩ := List.exists_of_findSome?_eq_some htwo
        split at hxy
        · next x hx =>
          obtain ⟨y, hy, rfl⟩ := Option.map_eq_some_iff.1 hxy
          exact placementAllowed_of_pair haccs hp (State.takeCores_dieCores hx) (State.takeCores_dieCores hy)
        · cases hxy
      · split at h
        · next x hpack =>
          cases h
          obtain ⟨d, hd, hx⟩ := List.exists_of_findSome?_eq_some hpack
          obtain ⟨y, hy, rfl⟩ := Option.map_eq_some_iff.1 hx
          exact placementAllowed_of_die haccs (List.mem_range.1 hd) (State.packDie_dieCores hs hy).1
        · obtain ⟨p, hp, hxy⟩ := List.exists_of_findSome?_eq_some h
          split at hxy
          · next x hx =>
            obtain ⟨hxs, hgrows⟩ := State.packDie_dieCores hs hx
            obtain ⟨y, hy, rfl⟩ := Option.map_eq_some_iff.1 hxy
            exact placementAllowed_of_pair haccs hp hxs ((State.packDie_dieCores (hgrows.numbered hs) hy).1.of_grows hgrows)
          · cases hxy
  · cases h

end

/-! ### A cluster admitted (R139, R146) -/

section
variable (grid cl : Nat) (k : Grid)

/-- One rank of a cluster: its block is admitted, and then those of the ranks after it. -/
theorem admitAll_cons {s : State} {rank core : Nat} {p : Nat × Nat × Option (Nat × Nat)} (rs : List (Nat × Nat))
    (hfit : s.fit core k.desc = some p) :
    admitAll grid cl k ((rank, core) :: rs) s =
      (s.nextId :: (admitAll grid cl k rs (s.admitBlock core grid cl (k.nextCluster * k.desc.cldim + rank) rank k p).2).1,
        (admitAll grid cl k rs (s.admitBlock core grid cl (k.nextCluster * k.desc.cldim + rank) rank k p).2).2) := by
  rw [admitAll, hfit]
  rfl

/-- What the blocks of a cluster leave: the grids, and the blocks with numbers below theirs. -/
theorem admitAll_keeps (rs : List (Nat × Nat)) (s : State) :
    (admitAll grid cl k rs s).2.grids = s.grids ∧ ∀ id, id < s.nextId → (admitAll grid cl k rs s).2.blk id = s.blk id := by
  induction rs generalizing s with
  | nil => exact ⟨rfl, fun _ _ => rfl⟩
  | cons x rs ih =>
    obtain ⟨rank, core⟩ := x
    cases hfit : s.fit core k.desc with
    | none => rw [admitAll, hfit]; exact ⟨rfl, fun _ _ => rfl⟩
    | some p =>
      rw [admitAll_cons grid cl k rs hfit]
      obtain ⟨hgrids, hblk⟩ := ih (s.admitBlock core grid cl (k.nextCluster * k.desc.cldim + rank) rank k p).2
      exact ⟨hgrids, fun id hid => (hblk id (Nat.lt_succ_of_lt hid)).trans (s.admitBlock_blk_ne _ _ _ _ _ _ _ hid.ne)⟩

/-- On distinct cores with room for a block, every rank gets its block. -/
theorem admitAll_blocks (rs : List (Nat × Nat)) {s : State} (hs : s.Numbered) (hnodup : (rs.map (·.2)).Nodup)
    (hfit : ∀ x ∈ rs, (s.fit x.2 k.desc).isSome = true) :
    (admitAll grid cl k rs s).1.length = rs.length ∧ ∀ i rank core id : Nat, rs[i]? = some (rank, core) →
      (admitAll grid cl k rs s).1[i]? = some id → ∃ b : Block,
        (admitAll grid cl k rs s).2.blk id = some b ∧ b.Admitted core grid cl (k.nextCluster * k.desc.cldim + rank) rank k := by
  induction rs generalizing s with
  | nil => exact ⟨rfl, fun _ _ _ _ hi _ => by cases hi⟩
  | cons x rs ih =>
    obtain ⟨rank, core⟩ := x
    obtain ⟨hcore, hnodup⟩ := List.nodup_cons.1 hnodup
    obtain ⟨hhead, htail⟩ := List.forall_mem_cons.1 hfit
    obtain ⟨p, hp⟩ := Option.isSome_iff_exists.1 hhead
    rw [admitAll_cons grid cl k rs hp]
    obtain ⟨hlen, hblocks⟩ := ih (State.admitBlock_numbered core grid cl (k.nextCluster * k.desc.cldim + rank) rank k p hs) hnodup
      fun x hx => by
        have hne : x.2 ≠ core := fun h => hcore (h ▸ List.mem_map_of_mem (f := (·.2)) hx)
        rw [State.admitBlock_fit_ne _ _ _ _ _ _ _ hs hne]
        exact htail x hx
    refine ⟨congrArg (· + 1) hlen, fun i rank' core' id hi hid => ?_⟩
    cases i with
    | zero =>
      cases hi
      cases hid
      obtain ⟨b, hb, hblk⟩ := s.admitBlock_blk_self core grid cl (k.nextCluster * k.desc.cldim + rank) rank k p
      exact ⟨b, ((admitAll_keeps grid cl k rs _).2 _ (Nat.lt_succ_self s.nextId)).trans hblk, hb⟩
    | succ i => exact hblocks i rank' core' id hi hid

end

theorem straddles_iff (cores : List Nat) : straddles cores = true ↔ ∃ x ∈ cores, ∃ y ∈ cores, dieOf x ≠ dieOf y := by
  cases cores with
  | nil => simp [straddles]
  | cons c cs =>
    rw [straddles, List.any_eq_true]
    constructor
    · rintro ⟨x, hx, hne⟩
      exact ⟨x, .tail _ hx, c, .head _, bne_iff_ne.1 hne⟩
    · rintro ⟨x, hx, y, hy, hne⟩
      by_cases hxc : dieOf x = dieOf c
      · have hyc : dieOf y ≠ dieOf c := fun h => hne (hxc.trans h.symm)
        exact ⟨y, (List.mem_cons.1 hy).resolve_left fun h => hyc (h ▸ rfl), bne_iff_ne.2 hyc⟩
      · exact ⟨x, (List.mem_cons.1 hx).resolve_left fun h => hxc (h ▸ rfl), bne_iff_ne.2 hxc⟩

/-- A grid whose cluster has been admitted goes on to the next. -/
def Grid.goesOn (k : Grid) : Grid :=
  { k with nextCluster := k.nextCluster + 1, tried := false, waited := 0, reserved := [], started := true,
           state := if (k.nextCluster + 1) * k.desc.cldim = k.desc.gdim then .resident else .dispatching }

section
variable {s : State} {die grid : Nat} {k : Grid} {cores : List Nat}

theorem State.admitCluster_grid (hk : amGet s.grids grid = some k) :
    amGet (s.admitCluster grid k cores).grids grid = some k.goesOn := by
  have hgrids := (admitAll_keeps grid s.nextId k ((List.range cores.length).zip cores) s.fresh.2).1
  exact (amGet_amUpd_self ..).trans (congrArg (Option.map _) ((congrArg (amGet · grid) hgrids).trans hk))

theorem State.admitCluster_admitted (hs : s.Numbered) (hnodup : cores.Nodup) (hfit : ∀ c ∈ cores, (s.fit c k.desc).isSome = true) :
    Claims.ClusterAdmitted s (s.admitCluster grid k cores) grid k cores := by
  have hsnd : ((List.range cores.length).zip cores).map Prod.snd = cores := List.map_snd_zip (by simp)
  have hs' : s.fresh.2.Numbered := fun b hb => Nat.lt_succ_of_lt (hs b hb)
  obtain ⟨hlen, hblocks⟩ := admitAll_blocks grid s.nextId k ((List.range cores.length).zip cores) hs' (hsnd.symm ▸ hnodup)
    fun x hx => hfit x.2 (List.of_mem_zip hx).2
  refine ⟨⟨s.nextId, _, amGet_amSet_self .., ?_, straddles_iff cores, fun i core id hi hid => ?_⟩,
    fun hk => ⟨k.goesOn, State.admitCluster_grid hk, rfl, rfl, rfl, rfl, rfl, rfl⟩⟩
  · exact hlen.trans (by simp)
  · have hlt : i < cores.length := (List.getElem?_eq_some_iff.1 hi).1
    exact hblocks i i core id (List.getElem?_zip_eq_some.2 ⟨List.getElem?_range hlt, hi⟩) hid

/-! ### Offers and reservations (R139, R140) -/

variable (hat : (s.offerOrder die)[cursorAt ((s.offerOrder die).map (·.1)) (s.die die).cursor]? = some (grid, k))
include hat

theorem State.offer_admits (hp : s.placement grid k = some cores) :
    s.offer die = (s.admitCluster grid k cores).setDie die { s.die die with cursor := [], offerClk := (s.clk.toNat / 8 + 1) * 8 } := by
  simp only [State.offer, hat, hp]

theorem State.offer_passes (hp : s.placement grid k = none) :
    s.offer die = (s.updGrid grid fun k => { k with tried := true }).setDie die
      { s.die die with
        cursor := ((s.offerOrder die).drop (cursorAt ((s.offerOrder die).map (·.1)) (s.die die).cursor)).map (·.1)
        offerClk := (s.clk.toNat / 8 + 1) * 8 } := by
  simp only [State.offer, hat, hp]

variable (hcan : s.canOffer die = true)
include hcan

theorem clusterOffer_admits (hp : s.placement grid k = some cores) :
    Claims.Does (.clusterOffer die) s fun t => (t.die die).cursor = [] ∧ (t.die die).offerClk = (s.clk.toNat / 8 + 1) * 8 ∧
      (cores.Nodup → (∀ c ∈ cores, (s.fit c k.desc).isSome = true) → (∀ b ∈ s.blocks, b.1 < s.nextId) →
        Claims.ClusterAdmitted s t grid k cores) := by
  refine ⟨s.offer die, congrArg Host.Outcome.next (if_pos hcan), ?_⟩
  beta_reduce
  rw [State.offer_admits hat hp, State.setDie_die_self]
  exact ⟨rfl, rfl, fun hnodup hfit hs => State.admitCluster_admitted hs hnodup hfit⟩

theorem clusterOffer_passes (hp : s.placement grid k = none) :
    Claims.Does (.clusterOffer die) s fun t => t.blocks = s.blocks ∧
      (t.die die).cursor = ((s.offerOrder die).drop (cursorAt ((s.offerOrder die).map (·.1)) (s.die die).cursor)).map (·.1) ∧
      (t.die die).offerClk = (s.clk.toNat / 8 + 1) * 8 := by
  refine ⟨s.offer die, congrArg Host.Outcome.next (if_pos hcan), ?_⟩
  beta_reduce
  rw [State.offer_passes hat hp, State.setDie_die_self]
  exact ⟨rfl, rfl, rfl⟩

end

section
variable {s : State} {grid : Nat} {k : Grid}

/-- A reservation changes its grid alone: by the placement on the bare part, or, where that has none, to wait anew. -/
theorem State.reserve_updates (hk : amGet s.grids grid = some k) : ∃ f : Grid → Grid, s.reserve grid = s.updGrid grid f ∧
    (∀ cores, (Claims.bare s).placement grid k = some cores → f k = { k with reserved := cores.eraseDups, resClk := s.clk.toNat }) ∧
    ((Claims.bare s).placement grid k = none → f k = { k with waited := 0 }) := by
  rw [State.reserve, hk]
  dsimp only
  split
  · next x hx =>
    refine ⟨_, rfl, fun cores hcores => ?_, fun hnone => ?_⟩
    · cases hx.symm.trans hcores
      rfl
    · cases hx.symm.trans hnone
  · next hx =>
    refine ⟨_, rfl, fun cores hcores => ?_, fun _ => rfl⟩
    cases hx.symm.trans hcores

theorem clusterReserve_reserves (hk : amGet s.grids grid = some k) (hcan : s.canReserve grid = true) :
    Claims.Does (.clusterReserve grid) s fun t => t.blocks = s.blocks ∧
      (∀ cores, (Claims.bare s).placement grid k = some cores →
        amGet t.grids grid = some { k with reserved := cores.eraseDups, resClk := s.clk.toNat }) ∧
      ((Claims.bare s).placement grid k = none → amGet t.grids grid = some { k with waited := 0 }) := by
  obtain ⟨f, hf, hplaced, hnone⟩ := State.reserve_updates hk
  have hgrid : amGet (s.reserve grid).grids grid = some (f k) := by
    rw [hf]
    exact (amGet_amUpd_self ..).trans (by rw [hk]; rfl)
  exact ⟨s.reserve grid, congrArg Host.Outcome.next (if_pos hcan), by rw [hf]; rfl,
    fun cores h => hplaced cores h ▸ hgrid, fun h => hnone h ▸ hgrid⟩

end

/-! ### Re-cut and launch (R145, R146) -/

theorem recut_cuts {s : State} {core : Nat} (hcan : s.canRecut core = true) {p : Nat × Nat × Nat} {rest : List (Nat × Nat × Nat)}
    (hrecut : ((s.drainCore core).core core).recut = p :: rest) :
    Claims.Does (.recut core) s fun t => (t.core core).rb = p.1 ∧ (t.core core).sb = p.2.1 ∧ (t.core core).lb = 32 ∧
      (t.core core).recut = rest ∧ ∀ x ∈ (t.core core).l1, p.2.1 * 256 ≤ x.2.line := by
  refine ⟨s.doRecut core, congrArg Host.Outcome.next (if_pos hcan), ?_⟩
  simp only [State.doRecut, State.updCore_core_self, hrecut, true_and]
  exact fun x hx => of_decide_eq_true (List.mem_filter.1 hx).2

/-- A block once its launch is done. -/
def Block.launched (b : Block) : Block := { b with launching := false }

/-- A group as its block's launch ends at a clock: READY if it is one of the block's that are LAUNCHING. -/
def Group.readied (block clk : Nat) (g : Group) : Group :=
  if g.block = block ∧ g.state = .launching then { g with state := .ready, readyClk := clk, phTimer := 0 } else g

theorem Group.readied_state {block : Nat} {g : Group} (h : g.block = block) (clk : Nat) :
    (g.readied block clk).state = if g.state = .launching then .ready else g.state := by
  by_cases hstate : g.state = .launching
  · rw [Group.readied, if_pos ⟨h, hstate⟩, if_pos hstate]
  · rw [Group.readied, if_neg fun hg => hstate hg.2, if_neg hstate]

theorem State.launch_of_blk {s : State} {block : Nat} {b : Block} (hb : s.blk block = some b) :
    s.launch block =
      { s.updBlk block Block.launched with groups := amMap (fun _ => Group.readied block s.clk.toNat) s.groups } := by
  rw [State.launch, hb]
  rfl

theorem blockLaunchDone_readies {s : State} {block a : Nat} {b : Block} {g : Group} (hb : s.blk block = some b)
    (hcan : s.canLaunch block = true) (hg : s.grp a = some g) (hblock : g.block = block) :
    Claims.Does (.blockLaunchDone block) s fun t => (∃ c, t.blk block = some c ∧ c.launching = false) ∧
      ∃ h, t.grp a = some h ∧ h.state = (if g.state = .launching then .ready else g.state) := by
  refine ⟨s.launch block, congrArg Host.Outcome.next (if_pos hcan), ?_⟩
  have hblk : (s.launch block).blk block = some b.launched := by
    rw [State.launch_of_blk hb]
    exact (s.updBlk_blk_self block Block.launched).trans (congrArg _ hb)
  have hgrp : (s.launch block).grp a = some (g.readied block s.clk.toNat) := by
    rw [State.launch_of_blk hb]
    exact (amGet_amMap (fun _ => Group.readied block s.clk.toNat) s.groups a).trans (congrArg _ hg)
  exact ⟨⟨_, hblk, rfl⟩, _, hgrp, Group.readied_state hblock _⟩

/-! ### Whose block each resident group is of -/

/-- The block of each group. -/
def State.owners (s : State) : AMap Nat := amMap (fun _ g => g.block) s.groups

theorem State.owners_get (s : State) (a : Nat) : amGet s.owners a = (s.grp a).map Group.block := amGet_amMap ..

theorem State.updGrp_owners (s : State) (a : Nat) {f : Group → Group} (hf : ∀ g, (f g).block = g.block) :
    (s.updGrp a f).owners = s.owners := by
  rw [State.owners, State.updGrp, amUpd]
  dsimp only
  split
  · rfl
  · next g hg =>
    rw [amMap_amSet, hf]
    exact amSet_of_amGet ((s.owners_get a).trans (congrArg _ hg))

theorem Group.taint_block (g : Group) (f : RegFile) (n l : Nat) (bad : Bool) : (g.taint f n l bad).block = g.block := by
  unfold Group.taint
  split <;> rfl

theorem Core.taints_block (c : Core) (op : AccOp) (g : Group) : (c.taints op g).block = g.block := by
  unfold Core.taints
  split
  · rfl
  · split
    · exact g.taint_block ..
    · exact foldl_fixed (fun g _ => g.taint_block ..) _ _
    · exact foldl_fixed (fun g _ => ((g.taint ..).taint_block ..).trans (g.taint_block ..)) _ _
    · rfl

theorem Core.written_block (c : Core) (op : AccOp) (g : Group) : (c.written op g).block = g.block := by
  unfold Core.written
  split
  · rfl
  · exact foldl_fixed (fun g _ => g.setV_block ..) _ _
  · exact foldl_fixed (fun g _ => by rw [Group.setK_block, Group.setV_block]) _ _
  · rfl

theorem Core.results_block (c : Core) (op : AccOp) (g : Group) : (c.results op g).block = g.block :=
  (c.taints_block op _).trans (c.written_block op g)

/-! ### What completes before a block leaves -/

/-- A projection that is the same of both branches. -/
theorem ite_fixed {σ β : Type} {p : σ → β} {c : Prop} [Decidable c] {s t : σ} {x : β} (ht : p t = x) (hs : p s = x) :
    p (if c then t else s) = x := by
  split
  · exact ht
  · exact hs

namespace State

theorem accStep_owners (s : State) (core : Nat) : (s.accStep core).owners = s.owners := by
  unfold accStep
  dsimp only
  split
  · rfl
  · exact ite_fixed (s.updGrp_owners _ ((s.core core).results_block _)) rfl

theorem accDrain_owners (s : State) (core : Nat) : (s.accDrain core).owners = s.owners :=
  foldl_fixed (fun s _ => s.accStep_owners core) _ _

theorem coreByteSet_owners (s : State) (c : Nat) (b : CoreByte) (v : Nat) : (s.coreByteSet c b v).owners = s.owners := by
  cases b with
  | vreg a n i => exact s.updGrp_owners a fun _ => rfl
  | kreg a n i => exact s.updGrp_owners a fun _ => rfl
  | sreg a i => exact s.updGrp_owners a fun _ => rfl
  | stat i => exact ite_fixed rfl rfl
  | _ => rfl

theorem coreByteClean_owners (s : State) (c : Nat) (b : CoreByte) : (s.coreByteClean c b).owners = s.owners := by
  cases b with
  | vreg a n i => exact s.updGrp_owners a fun _ => rfl
  | kreg a n i => exact s.updGrp_owners a fun _ => rfl
  | sreg a i => exact s.updGrp_owners a fun _ => rfl
  | _ => rfl

theorem coreWinWrite_fixed (s : State) (c off n data : Nat) : (s.coreWinWrite c off n data).owners = s.owners := by
  unfold coreWinWrite coreWinClean
  rw [foldl_fixed (p := owners) fun s i => ite_fixed (s.coreByteClean_owners c _) rfl,
    foldl_fixed (p := owners) fun s i => s.coreByteSet_owners c _ _, accDrain_owners]

theorem chipWrite_fixed (s : State) (pa n data : Nat) : (s.chipWrite pa n data).owners = s.owners := by
  have hwrite := congrFun (congrFun (congrFun (congrFun chipWrite_def s) pa) n) data
  beta_reduce at hwrite
  generalize s.chipLoc pa = l at hwrite
  rw [hwrite]
  cases l with
  | core c off => exact s.coreWinWrite_fixed c off n data
  | _ => rfl

theorem extWrite_fixed (s : State) (w : PendWrite) : (s.extWrite w).owners = s.owners := by
  have hnote : (s.noteRefused w.pa).owners = s.owners := by
    unfold noteRefused
    split
    · exact ite_fixed rfl rfl
    · rfl
  unfold extWrite
  refine ite_fixed hnote ?_
  split <;> exact ite_fixed rfl rfl

theorem performWrite_fixed (s : State) (w : PendWrite) : (s.performWrite w).owners = s.owners := by
  unfold performWrite
  split
  · rfl
  · exact s.chipWrite_fixed ..
  · exact s.extWrite_fixed w
  · refine ite_fixed rfl ?_
    split
    · rfl
    · exact s.extWrite_fixed w
  · rfl

theorem drainCore_owners (s : State) (core : Nat) : (s.drainCore core).owners = s.owners := foldl_fixed performWrite_fixed _ _

/-- The work of contexts and whose block each group is of: what no completion before the exit of a block changes. -/
def tenants (s : State) : Work × AMap Nat := (s.work, s.owners)

theorem performBytes_tenants (s : State) (who : Option (Nat × Nat)) (pa n data : Nat) : (s.performBytes who pa n data).tenants = s.tenants :=
  rfl

theorem write64_tenants (s : State) (pa : Nat) (v : BitVec 64) : (s.write64 pa v).tenants = s.tenants := performBytes_tenants ..

theorem applyEntries_tenants (s : State) (line : Nat) (vas : List Nat) : (s.applyEntries line vas).tenants = s.tenants :=
  foldl_fixed (p := tenants) (fun s _ => s.performBytes_tenants ..) _ _

theorem setLock_tenants (s : State) (line st ctx holder adopter : Nat) : (s.setLock line st ctx holder adopter).tenants = s.tenants :=
  write64_tenants ..

theorem freeLine_tenants (s : State) (line : Nat) : (s.freeLine line).tenants = s.tenants := by
  unfold freeLine
  refine ite_fixed ?_ (s.setLock_tenants ..)
  rw [setLock_tenants, deliver, performBytes_tenants]

theorem finishLog_tenants (s : State) (c : CapLog) : (s.finishLog c).tenants = s.tenants := by
  have happlied := applyEntries_tenants { s with capLogs := s.capLogs.filter fun x => x.line != c.line } c.line c.vas
  unfold finishLog
  refine ite_fixed ?_ ?_
  · rw [freeLine_tenants, write64_tenants]
    exact happlied
  · rw [write64_tenants]
    exact happlied

theorem settleLine_tenants (s : State) (line : Nat) : (s.settleLine line).tenants = s.tenants := by
  unfold settleLine
  split
  · exact s.finishLog_tenants _
  · exact ite_fixed (s.finishLog_tenants _) rfl

theorem capMark_tenants (s : State) (me line : Nat) : (s.capMark me line).tenants = s.tenants := by
  unfold capMark
  refine ite_fixed ?_ (ite_fixed ?_ (s.settleLine_tenants line)) <;> rw [setLock_tenants, settleLine_tenants]

theorem drainMarks_tenants (s : State) (me : Nat) : (s.drainMarks me).tenants = s.tenants :=
  foldl_fixed (fun s m => s.capMark_tenants m.1 m.2) _ _

theorem mark_tenants (s : State) (a : Nat) : (s.mark a).tenants = s.tenants := by
  unfold mark
  split
  · rfl
  · exact ite_fixed rfl rfl

end State

/-! ### A block leaves its core (R148) -/

/-- The agents of a block's groups. -/
def State.agentsOf (s : State) (block : Nat) : List Nat := (s.groups.filter fun ag => ag.2.block == block).map (·.1)

theorem State.mem_agentsOf {s : State} {a block : Nat} {g : Group} (hg : s.grp a = some g) (hblock : g.block = block) :
    a ∈ s.agentsOf block :=
  List.mem_map.2 ⟨(a, g), List.mem_filter.2 ⟨mem_of_amGet hg, beq_iff_eq.2 hblock⟩, rfl⟩

theorem State.freeSlot_owners (s : State) (a : Nat) : (s.freeSlot a).owners = amDel s.owners a := by
  have hleft : ((s.dropWaits a).leaveSlot a).owners = s.owners := updGrp_owners _ a fun _ => rfl
  rw [← hleft]
  exact amMap_amDel ..

/-- A core that a block has left: its commands are out of the queues, its accumulator slots are free. -/
def Core.leftBy (block : Nat) (c : Core) : Core :=
  ({ c with lacers := c.lacers.map fun (q : List LCmd) => q.filter fun k => k.block != block } : Core).dropBlockSlots block

theorem Core.leftBy_lacer (block : Nat) (c : Core) (l : Nat) :
    (c.leftBy block).lacer l = (c.lacer l).filter fun k => k.block != block :=
  vget_map (fun q : List LCmd => q.filter fun k : LCmd => k.block != block) c.lacers l []

section
variable {s : State} {block : Nat} {b : Block} (hb : s.blk block = some b)
include hb

/-- Where a resident block leaves, the slots of its groups are freed, and its core. -/
theorem State.freeBlock_leaves : (s.freeBlock block).groups = ((s.agentsOf block).foldl State.freeSlot s).groups ∧
    (s.freeBlock block).cores = (((s.agentsOf block).foldl State.freeSlot s).updCore b.core (Core.leftBy block)).cores := by
  rw [State.freeBlock, hb]
  dsimp only
  split <;> exact ⟨rfl, rfl⟩

theorem State.freeBlock_grp (hsorted : amSorted s.groups = true) {a : Nat} {g : Group} (hg : s.grp a = some g) (hblock : g.block = block) :
    (s.freeBlock block).grp a = none := by
  have howners : (s.freeBlock block).owners = (s.agentsOf block).foldl amDel s.owners := by
    rw [State.owners, (State.freeBlock_leaves hb).1]
    exact (List.foldl_hom State.owners fun s a => (s.freeSlot_owners a).symm).symm
  by_contra hsome
  obtain ⟨h, hh⟩ := Option.ne_none_iff_exists'.1 hsome
  have hget := ((s.freeBlock block).owners_get a).trans (congrArg _ hh)
  rw [howners] at hget
  exact (amGet_foldl_amDel ((amSorted_amMap ..).trans hsorted) _ hget).2 (State.mem_agentsOf hg hblock)

theorem State.freeBlock_lacer (l : Nat) : ∀ k ∈ ((s.freeBlock block).core b.core).lacer l, k.block ≠ block := by
  rw [State.core, (State.freeBlock_leaves hb).2, ← State.core, State.updCore_core_self, Core.leftBy_lacer]
  exact fun k hk => bne_iff_ne.1 (List.mem_filter.1 hk).2

end

/-- A context without what is saved of a block. -/
def Ctx.dropSaved (block : Nat) (c : Ctx) : Ctx := { c with saved := c.saved.filter fun x => x.id != block }

theorem State.blockExit_eq {s : State} {block : Nat} {b : Block} (hb : s.blk block = some b) : ∃ u : State, u.tenants = s.tenants ∧
    s.blockExit block = ((u.freeBlock block).updCtx b.ctx (Ctx.dropSaved block)).drainEnd b.ctx := by
  have hdrained : ((s.accDrain b.core).drainCore b.core).tenants = s.tenants := by
    rw [State.tenants, State.drainCore_work, State.accDrain_work, State.drainCore_owners, State.accDrain_owners, State.tenants]
  rw [State.blockExit, hb]
  refine ⟨_, ?_, rfl⟩
  rw [← hdrained]
  refine foldl_fixed (fun s a => ?_) _ _
  split
  · exact s.mark_tenants a
  · exact s.drainMarks_tenants a

section
variable (s : State) (c : Nat)

theorem State.drainEnd_parks (hstate : (s.ctx c).state = .draining) (hleft : ∀ x ∈ s.blocks, x.2.ctx ≠ c) :
    ((s.drainEnd c).ctx c).state = .parking := by
  have hnone : (s.blocks.any fun x => x.2.ctx == c) = false := List.any_eq_false.2 fun x hx h => hleft x hx (beq_iff_eq.1 h)
  rw [State.drainEnd, if_pos ⟨hstate, hnone⟩, State.updCtx_ctx_self, State.setCtxState_ctx_self]

theorem State.drainEnd_saved : ((s.drainEnd c).ctx c).saved = (s.ctx c).saved := by
  unfold State.drainEnd
  split
  · rw [State.updCtx_ctx_self, State.setCtxState_ctx_self]
  · rfl

theorem State.drainEnd_keeps : (s.drainEnd c).groups = s.groups ∧ (s.drainEnd c).blocks = s.blocks ∧ (s.drainEnd c).cores = s.cores := by
  unfold State.drainEnd
  split <;> exact ⟨rfl, rfl, rfl⟩

end

section
variable {s : State} {block : Nat} {b : Block} (hb : s.blk block = some b)
include hb

theorem State.blockExit_gone : Claims.BlockGone s (s.blockExit block) block b := by
  obtain ⟨u, htenants, hexit⟩ := State.blockExit_eq hb
  have hwork : u.work = s.work := congrArg Prod.fst htenants
  have howners : u.owners = s.owners := congrArg Prod.snd htenants
  have hub : u.blk block = some b := by rw [State.blk, blocks_of_work hwork]; exact hb
  obtain ⟨hctxs, hblocks⟩ := u.freeBlock_fields block
  rw [blocks_of_work hwork] at hblocks
  have hctx : (((u.freeBlock block).updCtx b.ctx (Ctx.dropSaved block)).ctx b.ctx) = (s.ctx b.ctx).dropSaved block := by
    rw [State.updCtx_ctx_self, State.ctx, hctxs, ← State.ctx, ctx_of_work hwork]
  obtain ⟨hgroups, hleft, hcores⟩ := ((u.freeBlock block).updCtx b.ctx (Ctx.dropSaved block)).drainEnd_keeps b.ctx
  rw [← hexit] at hgroups hleft hcores
  rw [State.updCtx_blocks, hblocks] at hleft
  refine ⟨fun hsorted => ?_, fun hsorted a g hg hblock => ?_, fun l => ?_, fun y hy => ?_, fun hsorted hdraining honly => ?_⟩
  · rw [State.blk, hleft]
    exact amGet_amDel_self _ hsorted
  · have hug : (u.grp a).map Group.block = some block := by rw [← u.owners_get, howners, s.owners_get, hg, Option.map_some, hblock]
    obtain ⟨h, hh, hhb⟩ := Option.map_eq_some_iff.1 hug
    have husorted : amSorted u.groups = true := by
      rw [← amSorted_amMap fun _ g => g.block]
      exact (congrArg amSorted howners).trans ((amSorted_amMap ..).trans hsorted)
    rw [State.grp, hgroups]
    exact State.freeBlock_grp hub husorted hh hhb
  · rw [State.core, hcores]
    exact State.freeBlock_lacer hub l
  · rw [hexit, State.drainEnd_saved, hctx] at hy
    exact bne_iff_ne.1 (List.mem_filter.1 hy).2
  · rw [hexit]
    refine State.drainEnd_parks _ _ (hctx ▸ hdraining) fun x hx => ?_
    rw [State.updCtx_blocks, hblocks] at hx
    have hget := amGet_of_mem (amSorted_amDel block hsorted) hx
    have hne : x.1 ≠ block := by
      intro h
      rw [h, amGet_amDel_self block hsorted] at hget
      cases hget
    exact honly x.1 x.2 ((amGet_amDel_ne hsorted hne).symm.trans hget) hne

theorem blockExit_leaves (hcan : s.canExit block = true) :
    Claims.Does (.blockExit block) s fun t => Claims.BlockGone s t block b :=
  ⟨s.blockExit block, congrArg Host.Outcome.next (if_pos hcan), State.blockExit_gone hb⟩

theorem State.canExit_of_done (hdiscarding : b.discarding = false) (hlaunching : b.launching = false)
    (hexited : ∀ x ∈ s.groups, x.2.block = block → x.2.state = .exited)
    (hcmds : ∀ l, l < 4 → ∀ k ∈ (s.core b.core).lacer l, k.block ≠ block) : s.canExit block = true := by
  have hdone : s.blockDone block b = true := by
    simp only [State.blockDone, State.blockCmds, hlaunching, Bool.not_false, Bool.true_and, Bool.and_eq_true, List.all_eq_true,
      List.isEmpty_iff, List.filter_eq_nil_iff, Bool.or_eq_true, bne_iff_ne, beq_iff_eq, List.mem_range]
    exact ⟨fun x hx => (em (x.2.block = block)).symm.imp_right (hexited x hx), hcmds⟩
  rw [State.canExit, hb]
  simpa only [hdiscarding, Bool.false_eq_true, if_false] using hdone

theorem State.canExit_of_stoppable (hdiscarding : b.discarding = true) (hstop : s.blockStoppable block = true) : s.canExit block = true := by
  rw [State.canExit, hb]
  simpa only [hdiscarding, if_true] using hstop

end

/-- Settles O51: placements through the model's choice of cores, and each event by what its function changes. -/
theorem launchEvents : Obligations.LaunchEvents :=
  ⟨fun _ _ _ _ hs => State.placement_allowed hs, fun _ _ _ _ _ _ _ _ _ =>
    ⟨fun hcan hat => ⟨fun _ => clusterOffer_admits hat hcan, clusterOffer_passes hat hcan⟩, clusterReserve_reserves,
      fun hcan _ _ => recut_cuts hcan, blockLaunchDone_readies,
      fun hb => ⟨fun hd hl hexited hcmds => blockExit_leaves hb (State.canExit_of_done hb hd hl hexited hcmds),
        fun hd hstop => blockExit_leaves hb (State.canExit_of_stoppable hb hd hstop)⟩⟩⟩

end Sys2Proof.Machine

/-!
Groups (08 R150 to R168, 09 R178 to R181): what an access to memory, a trace packet and a stop record leave of the groups, and how a word
ends whose meaning has also changed other things than its group. Traps (O8 to O10), `tret` (O18), splits and joins (O13) and the events of
groups (O53) follow.
-/

namespace Sys2Proof.Machine

/-! ### What stores and trace packets leave of the groups -/

namespace State

@[simp] theorem performBytes_groups (s : State) (who : Option (Nat × Nat)) (pa n data : Nat) :
    (s.performBytes who pa n data).groups = s.groups := rfl
@[simp] theorem write64_groups (s : State) (pa : Nat) (v : BitVec 64) : (s.write64 pa v).groups = s.groups := rfl

theorem post_groups (s : State) (l : Nat) (m : OutMsg) : (s.post l m).groups = s.groups := ite_fixed rfl rfl

theorem snoopBack_groups (s : State) (line : Nat) : (s.snoopBack line).groups = s.groups := ite_fixed (post_groups ..) rfl

theorem memStore_groups {s : State} {pa : Nat} (h : s.region pa ≠ .chip) (core agent ctx va n data : Nat) (red : Option (AtomOp × Nat))
    (tie : Nat) : (s.memStore core agent ctx va pa n data red tie).groups = s.groups := by
  unfold memStore
  split
  · next hchip => exact absurd hchip h
  · cases red <;> exact snoopBack_groups ..

/-- A store in one piece (12 R240). -/
theorem storePieces_groups {s : State} {va pa n : Nat} (h : s.region pa ≠ .chip) (hone : piecesOf va n = [(0, n)])
    (core agent ctx data : Nat) : (s.storePieces core agent ctx va pa n data).groups = s.groups := by
  rw [storePieces, hone, List.foldl_cons, List.foldl_nil]
  exact memStore_groups (s := s.fresh.2) h ..

section
variable (s : State) (a : Nat) (f : Group → Group) (core : Nat)

theorem ite_updGrp (c : Prop) [Decidable c] (t : State) :
    (if c then s.updGrp a f else t.updGrp a f) = (if c then s else t).updGrp a f :=
  (apply_ite (fun t : State => t.updGrp a f) c s t).symm

theorem traceWord_updGrp (v : BitVec 64) : (s.updGrp a f).traceWord core v = (s.traceWord core v).updGrp a f := by
  unfold traceWord
  dsimp only
  rw [← ite_updGrp]
  rfl

theorem traceWrite_updGrp (p : BitVec 64 × Option (BitVec 64)) :
    (s.updGrp a f).traceWrite core p = (s.traceWrite core p).updGrp a f := by
  obtain ⟨w0, _ | w1⟩ := p
  · exact s.traceWord_updGrp a f core w0
  · have hpad : (if (s.core core).trace.wptr % 16 = 0 then s.updGrp a f else (s.updGrp a f).traceWord core 0) =
        (if (s.core core).trace.wptr % 16 = 0 then s else s.traceWord core 0).updGrp a f := by
      rw [traceWord_updGrp, ite_updGrp]
    calc _ = ((if (s.core core).trace.wptr % 16 = 0 then s.updGrp a f else (s.updGrp a f).traceWord core 0).traceWord core w0).traceWord
          core w1 := rfl
      _ = _ := by rw [hpad, traceWord_updGrp, traceWord_updGrp]; rfl

theorem traceOut_updGrp (ps : List (BitVec 64 × Option (BitVec 64))) :
    (s.updGrp a f).traceOut core ps = (s.traceOut core ps).updGrp a f := by
  induction ps generalizing s with
  | nil => rfl
  | cons p r ih =>
    have hopen : (s.updGrp a f).reqOpen core ((s.updGrp a f).traceAt core) = s.reqOpen core (s.traceAt core) := rfl
    simp only [traceOut, hopen, traceWrite_updGrp, ih]
    rw [← ite_updGrp]
    rfl

/-- A trace packet does not look at the groups (21 R397). -/
theorem tracePacket_updGrp (ctx slot : Nat) (pcSlot : Bool) (type payload : Nat) (w1 : Option (BitVec 64)) :
    (s.updGrp a f).tracePacket core ctx slot pcSlot type payload w1 = (s.tracePacket core ctx slot pcSlot type payload w1).updGrp a f := by
  have hflush : ∀ t : State, (t.updGrp a f).traceFlush core = (t.traceFlush core).updGrp a f := fun t => t.traceOut_updGrp a f core _
  unfold tracePacket
  rw [← ite_updGrp, ← hflush]
  rfl

end

section
variable {β : Type} {p : State → β} (hbytes : ∀ (s : State) (pa : Nat) (v : BitVec 64), p (s.write64 pa v) = p s)
  (hcore : ∀ (s : State) (c : Nat) (f : Core → Core), p (s.updCore c f) = p s) (s : State) (core : Nat)
include hbytes hcore

theorem traceWord_fixed (v : BitVec 64) : p (s.traceWord core v) = p s :=
  have hword := (hcore _ _ _).trans (hbytes s _ v)
  ite_fixed ((hbytes ..).trans hword) hword

theorem traceWrite_fixed (x : BitVec 64 × Option (BitVec 64)) : p (s.traceWrite core x) = p s := by
  have hword := fun t => traceWord_fixed hbytes hcore t core
  obtain ⟨w0, _ | w1⟩ := x
  · exact hword ..
  · have hpad : p (if (s.core core).trace.wptr % 16 = 0 then s else s.traceWord core 0) = p s := ite_fixed rfl (hword ..)
    exact (hword ..).trans ((hword ..).trans hpad)

theorem traceOut_fixed (xs : List (BitVec 64 × Option (BitVec 64))) : p (s.traceOut core xs) = p s := by
  induction xs generalizing s with
  | nil => exact hcore ..
  | cons x r ih => exact ite_fixed ((ih _).trans (traceWrite_fixed hbytes hcore s core x)) (hcore ..)

/-- What the writes of a core's trace leave alone (21 R397). -/
theorem tracePacket_fixed (ctx slot : Nat) (pcSlot : Bool) (type payload : Nat) (w1 : Option (BitVec 64)) :
    p (s.tracePacket core ctx slot pcSlot type payload w1) = p s :=
  ite_fixed ((traceOut_fixed hbytes hcore ..).trans (hcore ..)) rfl

end

theorem tracePacket_of_untraced {s : State} {ctx : Nat} (h : s.traced ctx = false) (core slot : Nat) (pcSlot : Bool) (type payload : Nat)
    (w1 : Option (BitVec 64)) : s.tracePacket core ctx slot pcSlot type payload w1 = s :=
  if_neg (by rw [h]; exact Bool.false_ne_true)

theorem grp_of_groups {s t : State} (h : t.groups = s.groups) (a : Nat) : t.grp a = s.grp a := congrArg (amGet · a) h

end State

theorem packet_grp (s : State) (a : Nat) (g : Group) (b : Block) (type payload : Nat) (w1 : Option (BitVec 64)) (k : Nat) :
    (Claims.packet s a g b type payload w1).grp k = s.grp k :=
  State.grp_of_groups (State.tracePacket_fixed (fun _ _ _ => rfl) (fun _ _ _ => rfl) ..) k

/-! ### Words that change more than their group -/

theorem Touch.refl (u : State) (a : Nat) : Touch u u a id where
  rest := ⟨_, _, _, _, rfl⟩
  others := fun _ _ => rfl
  cores := fun _ => rfl
  requests := fun _ h => h
  group := by rw [Option.map_id, id]

/-- What a word leaves on top of a state u is what it leaves on top of a state that differs from u in its group and in counters. -/
theorem Retired.of_touch {u v t : State} {a : Nat} {f : Group → Group} {g : Group} (x : Touch u v a f) (y : Retired v t a g) :
    Retired u t a g where
  rest := by
    obtain ⟨_, _, _, _, rfl⟩ := x.rest
    obtain ⟨gs, cs, rs, l, e⟩ := y.rest
    exact ⟨gs, cs, rs, l, e⟩
  others := fun b hb => (y.others b hb).trans (x.others b hb)
  cores := fun c => by rw [← x.cores c, ← y.cores c]
  requests := fun r hr => x.requests r (y.requests r hr)
  group := y.group

/-- A meaning completes with group a of u changed by f, and counters raised. -/
def Res.Ends (r : Res) (u : State) (a : Nat) (mv : PcMove) (f : Group → Group) : Prop :=
  ∃ v cls n, r = .done v mv cls n ∧ Touch u v a f

section
variable {u : State} {a : Nat} {mv : PcMove} {f : Group → Group}

theorem Res.ends_updGrp (u : State) (a : Nat) (mv : PcMove) (f : Group → Group) (cls n : Nat) :
    (Res.done (u.updGrp a f) mv cls n).Ends u a mv f := ⟨_, _, _, rfl, Touch.updGrp u a f⟩

theorem Res.ends_done (u : State) (a : Nat) (mv : PcMove) (cls n : Nat) : (Res.done u mv cls n).Ends u a mv id :=
  ⟨_, _, _, rfl, Touch.refl u a⟩

theorem Res.Ends.counting {r : Res} (h : r.Ends u a mv f) (core i n : Nat) : (r.counting core i n).Ends u a mv f := by
  obtain ⟨v, cls, m, rfl, x⟩ := h
  refine ⟨_, cls, m, rfl, ?_⟩
  split
  · exact x
  · exact x.trans (Touch.countUp v a core i n)

theorem completes_of_ends {i : Instr} {s : State} {g : Group} {b : Block} {x : Insn} {imm : BitVec 64} {ok : Iss → Bool}
    {body : State → Iss → Res} {h : Group} (hi : exec i s = issueWord x ok body s) (hs : s.Issues a g b) (hp : Passes x g imm)
    (hok : ok ⟨a, g, b, x, imm, g.pc⟩ = true) (hb : (body s ⟨a, g, b, x, imm, g.pc⟩).Ends u a mv f) (hu : u.grp a = some h)
    (hlive : (f h).state ≠ .exited) : Completes i s u a (mv.apply (g.pc + 4) (f h)) := by
  obtain ⟨v, cls, n, hdone, touch⟩ := hb
  have hv : v.grp a = some (f h) := by rw [touch.group, hu]; rfl
  obtain ⟨t, ht, retired⟩ := completes_of hi hs hp hok hdone hv hlive
  exact ⟨t, ht, retired.of_touch touch⟩

end

/-! ### Words that end their run -/

theorem State.retire_of_ends {u : State} {i : Iss} (hend : i.x.e = true) (hstep : i.g.inStep = false) (mv : PcMove) (cls n : Nat) :
    u.retire i mv cls n = ((u.retireWord i mv cls n).endRun i.agent).groupExit i := by
  unfold State.retire
  simp [hend, hstep]

theorem State.groupExit_issue (s : State) (i : Iss) : (s.groupExit i).issue = s.issue := by
  have hpacket : ∀ e : BitVec 64, (s.tracePacket i.core i.blk.ctx (slotOf i.agent) false 9 0 (some e)).issue = s.issue := fun _ =>
    tracePacket_fixed (p := State.issue) (fun _ _ _ => rfl) (fun _ _ _ => rfl) ..
  unfold State.groupExit
  split
  · rfl
  · refine ite_fixed (p := State.issue) ?_ rfl
    rw [countUp_issue, updCore_issue, updBlk_issue, hpacket]

/-- A word that ends its run gives its group's slot up (03 R63). -/
theorem State.retire_leaves {u : State} {i : Iss} (hend : i.x.e = true) (hstep : i.g.inStep = false) (mv : PcMove) (cls n : Nat) :
    i.agent ∉ (u.retire i mv cls n).issue := by
  rw [retire_of_ends hend hstep, groupExit_issue]
  intro h
  simpa using (List.mem_filter.1 h).2

end Sys2Proof.Machine

namespace Sys2Proof.Machine

/-! ### What a stop record leaves alone -/

/-- What a write of memory by the part leaves alone, with the books kept of capsules, stops and broadcasts. -/
structure Bystander {β : Type} (p : State → β) : Prop where
  bytes : ∀ (s : State) (who : Option (Nat × Nat)) (pa n data : Nat), p (s.performBytes who pa n data) = p s
  logs : ∀ (s : State) (l : List CapLog), p { s with capLogs := l } = p s
  marks : ∀ (s : State) (l : List (Nat × Nat)), p { s with markings := l } = p s
  records : ∀ (s : State) (l : List StopRec), p { s with stopRecs := l } = p s
  broadcast : ∀ (s : State) (c : Nat), p (s.broadcast c) = p s

namespace Bystander
variable {β : Type} {p : State → β} (hp : Bystander p)
include hp

theorem write64 (s : State) (pa : Nat) (v : BitVec 64) : p (s.write64 pa v) = p s := hp.bytes s none pa 8 v.toNat

theorem setLock (s : State) (line st ctx holder adopter : Nat) : p (s.setLock line st ctx holder adopter) = p s := hp.write64 s line _

theorem deliver (s : State) (line : Nat) : p (s.deliver line) = p s := hp.bytes s none _ 192 _

theorem freeLine (s : State) (line : Nat) : p (s.freeLine line) = p s := by
  unfold State.freeLine
  exact ite_fixed ((hp.setLock ..).trans (hp.deliver ..)) (hp.setLock ..)

theorem finishLog (s : State) (c : CapLog) : p (s.finishLog c) = p s := by
  have happlied : ∀ t : State, p (t.applyEntries c.line c.vas) = p t := fun t => foldl_fixed (p := p) (fun _ _ => hp.bytes ..) _ _
  unfold State.finishLog
  refine ite_fixed ((hp.freeLine ..).trans ?_) ?_ <;> exact (hp.write64 ..).trans ((happlied _).trans (hp.logs ..))

theorem settleLine (s : State) (line : Nat) : p (s.settleLine line) = p s := by
  unfold State.settleLine
  split
  · exact hp.finishLog ..
  · exact ite_fixed (hp.finishLog ..) rfl

theorem capMark (s : State) (me line : Nat) : p (s.capMark me line) = p s := by
  have hlock : ∀ st ctx holder adopter, p ((s.settleLine line).setLock line st ctx holder adopter) = p s :=
    fun _ _ _ _ => (hp.setLock ..).trans (hp.settleLine s line)
  unfold State.capMark
  exact ite_fixed (hlock ..) (ite_fixed (hlock ..) (hp.settleLine s line))

theorem drainMarksOf (s : State) (core : Nat) : p (s.drainMarksOf core) = p s :=
  (foldl_fixed (fun _ _ => hp.capMark ..) _ _).trans (hp.marks ..)

theorem putStop (s : State) (r : StopRec) : p (s.putStop r) = p s := by
  have hwrites : ∀ t : State, p (t.stopBroadcast r.agent) = p t := fun t => by
    unfold State.stopBroadcast
    split
    · exact ite_fixed (hp.broadcast ..) rfl
    · rfl
  exact (hwrites _).trans ((hp.write64 ..).trans ((hp.write64 ..).trans (hp.write64 ..)))

/-- A stop record performs what its core has under way, and changes nothing else of what p looks at. -/
theorem stopRecord {s : State} {r : StopRec} (hacc : p (s.accDrain (coreOf r.agent)) = p s)
    (hdrain : p ((s.accDrain (coreOf r.agent)).drainCore (coreOf r.agent)) = p (s.accDrain (coreOf r.agent))) :
    p (s.stopRecord r) = p s := by
  have hrelease : p (s.release (coreOf r.agent) r.agent 5).1 = p s :=
    (hp.drainMarksOf ..).trans (hdrain.trans hacc)
  unfold State.stopRecord
  exact ite_fixed ((hp.putStop ..).trans hrelease) ((hp.records ..).trans hrelease)

end Bystander

theorem groups_bystander : Bystander State.groups := ⟨fun _ _ _ _ _ => rfl, fun _ _ => rfl, fun _ _ => rfl, fun _ _ => rfl, fun _ _ => rfl⟩
theorem blocks_bystander : Bystander State.blocks := ⟨fun _ _ _ _ _ => rfl, fun _ _ => rfl, fun _ _ => rfl, fun _ _ => rfl, fun _ _ => rfl⟩

theorem ctxState_bystander (c : Nat) : Bystander fun s => (s.ctx c).state where
  bytes := fun _ _ _ _ _ => rfl
  logs := fun _ _ => rfl
  marks := fun _ _ => rfl
  records := fun _ _ => rfl
  broadcast := fun s d => by
    by_cases h : c = d
    · rw [h, State.broadcast, State.updCtx_ctx_self]
    · rw [State.broadcast, State.updCtx_ctx_ne _ _ h]

/-! ### A core with nothing under way -/

namespace State

@[simp] theorem updGrp_work (s : State) (a : Nat) (f : Group → Group) : (s.updGrp a f).work = s.work := rfl
@[simp] theorem disarm_groups (s : State) (kind : WatchKind) : (s.disarm kind).groups = s.groups := rfl

theorem accDrain_of_idle {s : State} {core : Nat} (h : (s.core core).accQ = []) : s.accDrain core = s := by rw [accDrain, h]; rfl

theorem drainCore_of_quiet {s : State} (h : s.writes = []) (core : Nat) : s.drainCore core = s := by
  have hself : s = { s with writes := [] } := by rw [← h]
  rw [drainCore, h]
  exact hself.symm

theorem mark_of_noCapsule {s : State} {a : Nat} {g : Group} (hg : s.grp a = some g) (hrole : g.cap.role = 0) : s.mark a = s := by
  rw [mark, hg]
  exact if_pos hrole

theorem dropWaits_grp_self (s : State) (a : Nat) : (s.dropWaits a).grp a = (s.grp a).map fun g => { g with going := [] } :=
  amGet_amUpd_self ..
theorem dropWaits_grp_ne {s : State} {a k : Nat} (h : k ≠ a) : (s.dropWaits a).grp k = s.grp k := amGet_amUpd_ne _ _ h
@[simp] theorem dropWaits_regs (s : State) (a : Nat) : (s.dropWaits a).regs = s.regs := rfl

theorem mark_groups (s : State) (a : Nat) : (s.mark a).groups = s.groups := by
  unfold mark
  split
  · rfl
  · exact ite_fixed rfl rfl

theorem mark_regs (s : State) (a : Nat) : (s.mark a).regs = s.regs := by
  unfold mark
  split
  · rfl
  · exact ite_fixed rfl rfl

theorem accDrain_regs (s : State) (core : Nat) : (s.accDrain core).regs = s.regs :=
  foldl_fixed (p := State.regs) (fun s _ => by
    unfold accStep
    dsimp only
    split
    · rfl
    · exact ite_fixed (p := State.regs) rfl rfl) _ _

theorem traced_of_regs {s t : State} (h : t.regs = s.regs) (ctx : Nat) : t.traced ctx = s.traced ctx := by
  simp only [traced, reg, h]

end State

/-! ### The registers that a trap writes (08 R162) -/

section
variable {s : State} {a ctx cause : Nat} {g d : Group} {addr aux : BitVec 64} {resume : BitVec 57} {fromB : Bool}

/-- The state before a trap writes its registers: accepted work has ended, and the group has left its slot and its waits. -/
def State.trapping (s : State) (a : Nat) : State := (((s.accDrain (coreOf a)).dropWaits a).leaveSlot a).mark a

/-- The group that takes a trap (08 R162), whose frame is still to be written. -/
def Group.trapped (g : Group) (cause : Nat) (addr aux : BitVec 64) (resume : BitVec 57) (fromB : Bool) (before : Nat) (e : PendEntry) : Group :=
  { g.exchange fromB with
    state := .trapped, trapMode := true, xpc := resume, xmode := (g.exchange fromB).mode, xcause := BitVec.ofNat 8 cause, xaddr := addr,
    xaux := aux, exts := [], runWords := 0, dep := none, fate := none, woke := false, sent := false, stopCause := before, entry := some e }

theorem State.trapping_regs : (s.trapping a).regs = s.regs := by
  rw [trapping, mark_regs, leaveSlot_regs, dropWaits_regs, accDrain_regs]

theorem State.beginTrap_of_untraced (h : s.traced ctx = false) : ∃ before e, e.cause = cause ∧ e.framed = false ∧
    s.beginTrap a ctx g cause addr aux resume fromB = (s.trapping a).updGrp a fun g => g.trapped cause addr aux resume fromB before e := by
  refine ⟨if g.state = .issuing then 2 else g.state.code,
    ⟨cause, decide (cause = cWatchpoint ∨ cause = cBreakpoint) && (s.trapping a).cobRouted ctx, false⟩, rfl, rfl, ?_⟩
  have htraced : ∀ f, ((s.trapping a).updGrp a f).traced ctx = false := fun f =>
    (traced_of_regs (s := s) (by rw [updGrp_regs, trapping_regs]) ctx).trans h
  exact State.tracePacket_of_untraced (htraced _) ..

theorem State.trapping_groups : (s.trapping a).groups = ((s.accDrain (coreOf a)).dropWaits a).groups := by
  rw [trapping, mark_groups, leaveSlot_groups]

theorem State.trapping_grp_self (hd : (s.accDrain (coreOf a)).grp a = some d) : (s.trapping a).grp a = some { d with going := [] } := by
  rw [grp_of_groups trapping_groups, dropWaits_grp_self, hd, Option.map_some]

theorem State.trapping_grp_ne {k : Nat} (h : k ≠ a) : (s.trapping a).grp k = (s.accDrain (coreOf a)).grp k := by
  rw [grp_of_groups trapping_groups, dropWaits_grp_ne h]

theorem State.trapping_mem : (s.trapping a).mem = s.mem := by
  rw [trapping, mark_mem, leaveSlot_mem, dropWaits_mem, accDrain_mem]

theorem Group.trapped_eq {before : Nat} {e : PendEntry} : ({ g with going := [] } : Group).trapped cause addr aux resume fromB before e =
    { g with
      xpc := resume, xmode := g.mode, xcause := BitVec.ofNat 8 cause, xaddr := addr, xaux := aux, trapMode := true,
      state := .trapped, exts := [], runWords := 0, dep := none, fate := none, woke := false, sent := false, going := [],
      path0 := (if fromB then g.path1 else g.path0), path1 := (if fromB then g.path0 else g.path1), onB := false,
      cap := { g.cap with onB := g.cap.onB ^^ fromB }, stopCause := before, entry := some e } := by
  cases fromB
  · simp [Group.trapped, Group.exchange]
  · simp [Group.trapped, Group.exchange]

end

theorem trapRegisters : Claims.TrapRegisters := by
  intro s a ctx cause g d addr aux resume fromB _ hd htraced _
  obtain ⟨before, e, hcause, hframed, hbegin⟩ := State.beginTrap_of_untraced (a := a) (g := g) (cause := cause) (addr := addr) (aux := aux)
    (resume := resume) (fromB := fromB) htraced
  simp only [hbegin]
  refine ⟨_, e, ?_, rfl, hcause, hframed, Group.trapped_eq (before := before), fun k hk => ?_, State.trapping_mem⟩
  · rw [State.updGrp_grp_self, State.trapping_grp_self hd]
    rfl
  · rw [State.updGrp_grp_ne _ _ hk, State.trapping_grp_ne hk]

theorem trapIsTaken : Claims.TrapIsTaken := by
  intro s a cause g b addr aux xpc fromB hg hb htrap hstep
  simp [State.takeTrap, State.stepResume, hg, hb, htrap, hstep]

/-- Settles O8: the branches of `State.beginTrap` and of `State.takeTrap`. -/
theorem trapEntry : Obligations.TrapEntry := ⟨trapRegisters, trapIsTaken⟩

/-! ### The double trap (08 R165) -/

/-- The trap registers of a double trap, and no entry or access under way. -/
def Group.doubleTrapped (g : Group) (cause : Nat) (addr : BitVec 64) (xpc : BitVec 57) : Group :=
  { g with xpc := xpc, xcause := 0x1A, xaddr := addr, xaux := BitVec.ofNat 64 cause, entry := none, going := [] }

/-- Before its stop is recorded, the state in which a group has entered HALTED (21 R390). -/
def State.halted (s : State) (a cause : Nat) : State :=
  ((((s.accDrain (coreOf a)).mark a).updGrp a fun g => g.halt cause).leaveSlot a).disarm (.group a)

theorem State.enterHalted_of_grp {s : State} {a cause : Nat} {g : Group} (hg : s.grp a = some g) :
    ∃ r : StopRec, r.agent = a ∧ s.enterHalted a cause = (s.halted a cause).stopRecord r := by
  refine ⟨(s.halted a cause).stopRec a cause g.state.code g.pc0, ?_, ?_⟩
  · unfold State.stopRec
    split <;> rfl
  · rw [State.enterHalted, hg]
    rfl

section
variable {s : State} {a cause : Nat} {g : Group} {b : Block}

/-- A group of an idle core that holds no capsule halts: what p looks at is as in the state before the record. -/
theorem Bystander.enterHalted_of_idle {β : Type} {p : State → β} (hp : Bystander p) (hg : s.grp a = some g) (hwrites : s.writes = [])
    (hidle : (s.core (coreOf a)).accQ = []) (hrole : g.cap.role = 0) :
    p (s.enterHalted a cause) = p (((s.updGrp a fun g => g.halt cause).leaveSlot a).disarm (.group a)) := by
  obtain ⟨r, hr, henter⟩ := State.enterHalted_of_grp (cause := cause) hg
  have hhalted : s.halted a cause = ((s.updGrp a fun g => g.halt cause).leaveSlot a).disarm (.group a) := by
    rw [State.halted, State.accDrain_of_idle hidle, State.mark_of_noCapsule hg hrole]
  have hacc : (s.halted a cause).accDrain (coreOf a) = s.halted a cause :=
    State.accDrain_of_idle (by rw [hhalted]; exact hidle)
  have hdrain : (s.halted a cause).drainCore (coreOf a) = s.halted a cause :=
    State.drainCore_of_quiet (by rw [hhalted]; exact hwrites) _
  rw [henter, hp.stopRecord (by rw [hr, hacc]) (by rw [hr, hacc, hdrain]), hhalted]

theorem State.faultCtx_of_running {c cause detail : Nat} (h : (s.ctx c).state = .running) : (s.faultCtx c cause detail).ctx c =
    { s.ctx c with state := .faulted, fcause := BitVec.ofNat 8 cause, fdetail := BitVec.ofNat 56 detail, sealed := false } := by
  rw [State.faultCtx, h]
  dsimp only
  rw [setCtxState_ctx_self, write64_ctx, updCtx_ctx_self]

@[simp] theorem State.setCtxState_groups (s : State) (c : Nat) (st : CState) : (s.setCtxState c st).groups = s.groups := rfl

theorem State.faultCtx_groups (s : State) (c cause detail : Nat) : (s.faultCtx c cause detail).groups = s.groups := by
  unfold State.faultCtx
  split <;> simp only [setCtxState_groups, write64_groups, updCtx_groups]

end

/-- The state in which a double trap halts its group. -/
def State.doubling (s : State) (a cause : Nat) (addr : BitVec 64) (xpc : BitVec 57) : State :=
  (s.updGrp a fun g => { g with xpc := xpc, xcause := 0x1A, xaddr := addr, xaux := BitVec.ofNat 64 cause, entry := none }).dropWaits a

section
variable {s : State} {a cause : Nat} {g : Group} {b : Block} {addr aux : BitVec 64} {xpc : BitVec 57} {fromB : Bool}

theorem State.doubling_grp_self (hg : s.grp a = some g) :
    (s.doubling a cause addr xpc).grp a = some (g.doubleTrapped cause addr xpc) := by
  rw [doubling, dropWaits_grp_self, updGrp_grp_self, hg]
  rfl

theorem State.doubling_grp_ne {k : Nat} (h : k ≠ a) : (s.doubling a cause addr xpc).grp k = s.grp k := by
  rw [doubling, dropWaits_grp_ne h, updGrp_grp_ne _ _ h]

theorem State.doubling_work (s : State) (a cause : Nat) (addr : BitVec 64) (xpc : BitVec 57) (f : Group → Group) :
    ((((s.doubling a cause addr xpc).updGrp a f).leaveSlot a).disarm (.group a)).work = s.work := by
  rw [disarm_work, leaveSlot_work, updGrp_work, doubling, dropWaits_work, updGrp_work]

theorem State.takeTrap_of_trapMode (hg : s.grp a = some g) (htrap : g.trapMode = true) (hstep : g.inStep = false)
    (hblk : ((s.doubling a cause addr xpc).enterHalted a 0x1A).blk g.block = some b) :
    s.takeTrap a cause addr aux xpc fromB = ((s.doubling a cause addr xpc).enterHalted a 0x1A).faultCtx b.ctx 0x1A a := by
  have hdouble : s.takeTrap a cause addr aux xpc fromB = s.doubleTrap a cause addr xpc xpc := by
    simp only [takeTrap, stepResume, hg, htrap, hstep, if_true, Bool.false_eq_true, if_false]
  rw [hdouble, doubleTrap, hg]
  simp only [hstep, Bool.false_eq_true, if_false]
  rw [doubling] at hblk ⊢
  rw [hblk]

end

section
variable {s : State} {a cause : Nat} {g : Group} {addr : BitVec 64} {xpc : BitVec 57} (hg : s.grp a = some g) (hwrites : s.writes = [])
  (hidle : (s.core (coreOf a)).accQ = []) (hrole : g.cap.role = 0)
include hg hwrites hidle hrole

theorem Bystander.doubling {β : Type} {p : State → β} (hp : Bystander p) : p ((s.doubling a cause addr xpc).enterHalted a 0x1A) =
    p ((((s.doubling a cause addr xpc).updGrp a fun g => g.halt 0x1A).leaveSlot a).disarm (.group a)) :=
  hp.enterHalted_of_idle (State.doubling_grp_self hg) hwrites hidle hrole

theorem State.doubling_blk (k : Nat) : ((s.doubling a cause addr xpc).enterHalted a 0x1A).blk k = s.blk k := by
  rw [State.blk, blocks_bystander.doubling hg hwrites hidle hrole, blocks_of_work (doubling_work ..), State.blk]

theorem State.doubling_ctxState (c : Nat) : (((s.doubling a cause addr xpc).enterHalted a 0x1A).ctx c).state = (s.ctx c).state := by
  rw [(ctxState_bystander c).doubling hg hwrites hidle hrole, ctx_of_work (doubling_work ..)]

theorem State.doubling_groups : ((s.doubling a cause addr xpc).enterHalted a 0x1A).groups =
    ((s.doubling a cause addr xpc).updGrp a fun g => g.halt 0x1A).groups := by
  rw [groups_bystander.doubling hg hwrites hidle hrole, disarm_groups, leaveSlot_groups]

end

/-- Settles O10: the group is halted before its context is faulted, and the record of its stop changes neither. -/
theorem doubleTrapHalts : Obligations.DoubleTrapHalts := by
  intro s a cause g b addr aux xpc fromB hg hb htrap hstep _ hslot hrunning hwrites _ hrole hidle t
  have ht : t = _ := State.takeTrap_of_trapMode hg htrap hstep ((State.doubling_blk hg hwrites hidle hrole _).trans hb)
  have hstate := (State.doubling_ctxState (cause := cause) (addr := addr) (xpc := xpc) hg hwrites hidle hrole b.ctx).trans hrunning
  have hctx := State.faultCtx_of_running (cause := 0x1A) (detail := a) hstate
  have hgroups := (State.faultCtx_groups _ b.ctx 0x1A a).trans
    (State.doubling_groups (cause := cause) (addr := addr) (xpc := xpc) hg hwrites hidle hrole)
  rw [← ht] at hctx hgroups
  clear_value t
  refine ⟨(g.doubleTrapped cause addr xpc).halt 0x1A, ?_, rfl, by rw [hctx], by rw [hctx]; rfl, ?_, fun k hk => ?_⟩
  · rw [State.grp_of_groups hgroups, State.updGrp_grp_self, State.doubling_grp_self hg]
    rfl
  · rw [hctx]
    exact toNat_ofNat_of_lt hslot
  · rw [State.grp_of_groups hgroups, State.updGrp_grp_ne _ _ hk, State.doubling_grp_ne hk]

end Sys2Proof.Machine

namespace Sys2Proof.Machine

/-! ### Numbers in bytes and in elements -/

theorem readLE_mod (m : List Host.Cell) (a : Nat) {n k : Nat} (h : k ≤ n) : readLE m a n % 256 ^ k = readLE m a k := by
  induction k generalizing a n with
  | zero => simp [readLE, Nat.mod_one]
  | succ k ih =>
    obtain ⟨n, rfl⟩ : ∃ j, n = j + 1 := ⟨n - 1, by omega⟩
    have hbyte := (byteAt m a).isLt
    have hlow : ((byteAt m a).toNat + 256 * readLE m (a + 1) n) % 256 = (byteAt m a).toNat := by omega
    have hrest : ((byteAt m a).toNat + 256 * readLE m (a + 1) n) / 256 = readLE m (a + 1) n := by omega
    rw [readLE, readLE, ← ih (a + 1) (Nat.le_of_succ_le_succ h), Nat.pow_succ', Nat.mod_mul, hlow, hrest]

/-- The bytes inside a number read. -/
theorem readLE_slice (m : List Host.Cell) (a : Nat) {n i k : Nat} (h : i + k ≤ n) :
    readLE m a n / 256 ^ i % 256 ^ k = readLE m (a + i) k := by
  induction i generalizing a n with
  | zero => rw [Nat.pow_zero, Nat.div_one, readLE_mod m a (by omega)]; rfl
  | succ i ih =>
    obtain ⟨n, rfl⟩ : ∃ j, n = j + 1 := ⟨n - 1, by omega⟩
    have hbyte := (byteAt m a).isLt
    have hrest : readLE m a (n + 1) / 256 = readLE m (a + 1) n := by rw [readLE]; omega
    rw [Nat.pow_succ', ← Nat.div_div_eq_div_mul, hrest, ih (a + 1) (by omega), show a + 1 + i = a + (i + 1) by omega]

/-- The bytes inside a number written. -/
theorem readLE_writeLE_slice {m : List Host.Cell} (a : Nat) {n v i k : Nat} (hm : Memory.wf m = true) (h : i + k ≤ n) :
    readLE (writeLE m a n v) (a + i) k = v / 256 ^ i % 256 ^ k := by
  obtain ⟨j, rfl⟩ : ∃ j, n = i + j := ⟨n - i, by omega⟩
  rw [← readLE_slice _ a h, readLE_writeLE a _ v hm, Nat.pow_add, Nat.mod_mul_right_div_self,
    Nat.mod_mod_of_dvd _ (Nat.pow_dvd_pow 256 (by omega))]

theorem two_pow_64_mul (k : Nat) : 2 ^ (64 * k) = 256 ^ (8 * k) := by
  rw [show (256 : Nat) = 2 ^ 8 from rfl, ← Nat.pow_mul, ← Nat.mul_assoc]

theorem ofElems_lt (w : Nat) (l : List Nat) : ofElems w l < 2 ^ (w * l.length) := by
  induction l with
  | nil => simp [ofElems]
  | cons x xs ih =>
    have hx : x % 2 ^ w < 2 ^ w := Nat.mod_lt _ (Nat.two_pow_pos w)
    calc ofElems w (x :: xs) < 2 ^ w + 2 ^ w * ofElems w xs := Nat.add_lt_add_right hx _
      _ = 2 ^ w * (ofElems w xs + 1) := by ring
      _ ≤ 2 ^ w * 2 ^ (w * xs.length) := Nat.mul_le_mul_left _ ih
      _ = 2 ^ (w * (x :: xs).length) := by rw [← Nat.pow_add, List.length_cons, Nat.mul_succ, Nat.add_comm]

theorem ofElems_append (w : Nat) (l r : List Nat) : ofElems w (l ++ r) = ofElems w l + 2 ^ (w * l.length) * ofElems w r := by
  induction l with
  | nil => simp [ofElems]
  | cons x xs ih =>
    rw [List.cons_append, ofElems, ih, ofElems, List.length_cons, Nat.mul_succ, Nat.pow_add]
    ring

theorem ofElems_digit (w : Nat) (l : List Nat) (i : Nat) : ofElems w l / 2 ^ (w * i) % 2 ^ w = l.getD i 0 % 2 ^ w := by
  have hpos := Nat.two_pow_pos w
  induction l generalizing i with
  | nil => simp [ofElems]
  | cons x xs ih =>
    cases i with
    | zero => simp [ofElems]
    | succ i =>
      have hrest : ofElems w (x :: xs) / 2 ^ w = ofElems w xs := by
        rw [ofElems, Nat.add_mul_div_left _ _ hpos, Nat.div_eq_of_lt (Nat.mod_lt _ hpos), Nat.zero_add]
      rw [Nat.mul_succ, Nat.add_comm, Nat.pow_add, ← Nat.div_div_eq_div_mul, hrest, ih]
      rfl

/-! ### The bytes of a trap frame (08 R161) -/

/-- The first thirteen words of a trap frame. -/
def Group.frameWords (g : Group) : List Nat :=
  (List.range 8).map (fun i => (g.sreg i).toNat) ++ [g.xpc.toNat, g.xmode.toNat, g.xcause.toNat, g.xaddr.toNat, g.xaux.toNat]

theorem Group.frame_eq (g : Group) : g.frame = ofElems 64 g.frameWords + 2 ^ 832 * g.maskWord := by
  rw [Group.frameWords, ofElems_append, List.length_map, List.length_range, Group.frame, Nat.mul_comm _ (2 ^ 512), Nat.mul_comm _ (2 ^ 832)]

theorem Group.maskWord_eq (g : Group) : g.maskWord = (if g.path0.isSome then 16 else 0) + (if g.path1.isSome then 32 else 0) +
    ((g.path0.map fun p => p.mask.toNat * 256).getD 0) + ((g.path1.map fun p => p.mask.toNat * 65536).getD 0) := by
  cases h0 : g.path0 <;> cases h1 : g.path1 <;> simp [Group.maskWord, h0, h1]

theorem Group.maskWord_lt (g : Group) : g.maskWord < 2 ^ 32 := by
  have hmask : ∀ (q : Option Path) (n : Nat), ((q.map fun p => p.mask.toNat * n).getD 0) ≤ 255 * n := by
    rintro (_ | p) n
    · exact Nat.zero_le _
    · exact Nat.mul_le_mul_right n (Nat.le_of_lt_succ p.mask.isLt)
  have h0 := hmask g.path0 256
  have h1 := hmask g.path1 65536
  rw [g.maskWord_eq]
  split <;> split <;> omega

theorem Group.frame_word (g : Group) {i : Nat} (hi : i < 13) : g.frame / 256 ^ (8 * i) % 256 ^ 8 = g.frameWords.getD i 0 % 2 ^ 64 := by
  obtain ⟨j, hj⟩ : ∃ j, 832 = 64 * i + (64 + j) := ⟨832 - 64 * i - 64, by omega⟩
  have hhigh : g.frame = ofElems 64 g.frameWords + 2 ^ (64 * i) * (2 ^ 64 * (2 ^ j * g.maskWord)) := by
    rw [g.frame_eq, hj, Nat.pow_add, Nat.pow_add]
    ring
  rw [← two_pow_64_mul, hhigh, Nat.add_mul_div_left _ _ (Nat.two_pow_pos _), show (256 : Nat) ^ 8 = 2 ^ 64 from rfl, Nat.add_mul_mod_self_left,
    ofElems_digit]

theorem Group.frame_maskWord (g : Group) : g.frame / 256 ^ 104 = g.maskWord := by
  have hlow := ofElems_lt 64 g.frameWords
  rw [show g.frameWords.length = 13 from rfl, two_pow_64_mul] at hlow
  rw [g.frame_eq, show (832 : Nat) = 64 * 13 from rfl, two_pow_64_mul, Nat.add_mul_div_left _ _ (Nat.pow_pos (by decide)),
    Nat.div_eq_of_lt hlow, Nat.zero_add]

/-- What memory holds once a group's frame is written at pa: its words, the masks and flags of the paths, and zeros. -/
theorem frame_written {m : List Host.Cell} (pa : Nat) (g : Group) (hm : Memory.wf m = true) :
    let r := readLE (writeLE m pa 128 g.frame)
    (∀ i, i < 13 → r (pa + 8 * i) 8 = g.frameWords.getD i 0 % 2 ^ 64) ∧ r (pa + 104) 4 = g.maskWord ∧ r (pa + 108) 20 = 0 := by
  refine ⟨fun i hi => ?_, ?_, ?_⟩
  · rw [readLE_writeLE_slice pa hm (by omega), g.frame_word hi]
  · rw [readLE_writeLE_slice pa hm (by omega), g.frame_maskWord]
    exact Nat.mod_eq_of_lt g.maskWord_lt
  · have hzero : g.frame / 256 ^ 108 = 0 := by
      rw [show (256 : Nat) ^ 108 = 256 ^ 104 * 2 ^ 32 from Nat.pow_add 256 104 4, ← Nat.div_div_eq_div_mul, g.frame_maskWord]
      exact Nat.div_eq_of_lt g.maskWord_lt
    rw [readLE_writeLE_slice pa hm (by omega), hzero, Nat.zero_mod]

/-! ### The end of trap entry (08 R162) -/

theorem State.isMemory_of_isHbmOrSecond {s : State} {pa : Nat} (h : s.isHbmOrSecond pa = true) : s.isMemory pa = true := by
  unfold State.isHbmOrSecond at h
  unfold State.isMemory
  cases hr : s.region pa <;> simp [hr] at h ⊢

theorem State.frameHole_of_isMemory {s : State} {pa : Nat} (h : s.isMemory pa = true) : s.frameHole pa = false := by
  unfold State.isMemory at h
  unfold State.frameHole
  cases hr : s.region pa <;> simp [hr] at h ⊢

/-- A plain write of HBM or of the second tier is one of bytes at their home (11 R227). -/
theorem State.performWrite_of_isHbmOrSecond {s : State} {w : PendWrite} (h : s.isHbmOrSecond w.pa = true) (hred : w.red = none) :
    s.performWrite w = (s.dropGuest (dieOf w.core) (w.pa / 256)).performBytes (some (w.ctx, w.va)) w.pa w.size w.data := by
  unfold State.isHbmOrSecond at h
  unfold State.performWrite
  cases hr : s.region w.pa <;> simp [hr] at h ⊢ <;> rw [hred]

namespace State
theorem performBytes_mem (s : State) (who : Option (Nat × Nat)) (pa n data : Nat) :
    (s.performBytes who pa n data).mem = writeLE s.mem pa n data := rfl
@[simp] theorem dropGuest_groups (s : State) (die line : Nat) : (s.dropGuest die line).groups = s.groups := rfl
@[simp] theorem l1Store_groups (s : State) (core pa n data : Nat) : (s.l1Store core pa n data).groups = s.groups := rfl

@[simp] theorem dropGuest_kept (s : State) (die line : Nat) : (s.dropGuest die line).kept = s.kept := rfl
@[simp] theorem l1Store_kept (s : State) (core pa n data : Nat) : (s.l1Store core pa n data).kept = s.kept := rfl

/-- The map of memory is that of the HBM and of the second tier that the part has. -/
theorem isHbmOrSecond_of_kept {s t : State} (h : t.kept = s.kept) (pa : Nat) : t.isHbmOrSecond pa = s.isHbmOrSecond pa := by
  have hcd : t.liveCd = s.liveCd := (congrArg State.liveCd h :)
  have hxd : t.liveXd = s.liveXd := (congrArg State.liveXd h :)
  simp only [isHbmOrSecond, region, hcd, hxd]

/-- A taint changes poison alone. -/
theorem frameTaint_fixed {β : Type} {p : State → β} (hp : ∀ (s : State) (l : List Nat), p { s with poison := l } = p s) (s : State)
    (g : Group) (pa : Nat) : p (s.frameTaint g pa) = p s := ite_fixed (hp ..) rfl
end State

/-- The state in which a group's frame stands at pa (08 R161). -/
def State.framed (s : State) (a ctx f pa : Nat) (g : Group) : State :=
  (((s.drainCore (coreOf a)).l1Store (coreOf a) pa 128 g.frame).performWrite
    ⟨a, coreOf a, ctx, f, pa, 128, g.frame, none, 0, []⟩).frameTaint g pa

section
variable {s t : State} {a : Nat} {g : Group} {b : Block} {e : PendEntry} {pa : Nat}

theorem State.finishEntry_framed (hg : s.grp a = some g) (hb : s.blk g.block = some b) (he : g.entry = some e) (hframed : e.framed = false)
    (hdirect : s.direct b.ctx (s.frameVa b.ctx a) .write true = (.ok pa, t)) (hmem : t.isMemory pa = true)
    (hreach : t.inReach (coreOf a) pa = true) :
    s.finishEntry a = (t.framed a b.ctx (s.frameVa b.ctx a) pa g).startHandler a b.ctx e (s.frameVa b.ctx a) := by
  simp [State.finishEntry, hg, he, hb, hframed, hdirect, State.frameHole_of_isMemory hmem, hreach, State.framed]

section
variable (hhome : t.isHbmOrSecond pa = true) (hquiet : t.writes = []) (ctx f : Nat)
include hhome hquiet

/-- Writing a frame at its home changes memory and, where it takes a poisoned register, the poison of its first sector. -/
theorem State.framed_eq : t.framed a ctx f pa g =
    (((t.l1Store (coreOf a) pa 128 g.frame).dropGuest (dieOf (coreOf a)) (pa / 256)).performBytes (some (ctx, f)) pa 128 g.frame).frameTaint
      g pa := by
  have hhome' : (t.l1Store (coreOf a) pa 128 g.frame).isHbmOrSecond pa = true := by rw [isHbmOrSecond_of_kept (l1Store_kept ..), hhome]
  rw [State.framed, State.drainCore_of_quiet hquiet, State.performWrite_of_isHbmOrSecond hhome' rfl]

theorem State.framed_mem : (t.framed a ctx f pa g).mem = writeLE t.mem pa 128 g.frame := by
  rw [framed_eq hhome hquiet, frameTaint_mem, performBytes_mem, dropGuest_mem, l1Store_mem]

theorem State.framed_groups : (t.framed a ctx f pa g).groups = t.groups := by
  rw [framed_eq hhome hquiet, frameTaint_fixed (p := State.groups) fun _ _ => rfl, performBytes_groups, dropGuest_groups, l1Store_groups]

theorem State.framed_kept : (t.framed a ctx f pa g).kept = t.kept := by
  rw [framed_eq hhome hquiet, frameTaint_fixed (p := State.kept) fun _ _ => rfl, performBytes_kept, dropGuest_kept, l1Store_kept]

/-- A frame that takes a poisoned register is poisoned (22 R406). -/
theorem State.framed_poison (hpoison : ∃ r ∈ g.poison, r.file = .scalar ∧ r.reg < 8) : pa / 64 ∈ (t.framed a ctx f pa g).poison := by
  have hany : (g.poison.any fun r => r.file == .scalar && decide (r.reg < 8)) = true := by simpa using hpoison
  rw [framed_eq hhome hquiet, State.frameTaint, hany, isMemory_of_isHbmOrSecond, Bool.and_self, if_pos rfl]
  · exact List.mem_cons_self
  · rw [isHbmOrSecond_of_kept (performBytes_kept ..), isHbmOrSecond_of_kept (dropGuest_kept ..), isHbmOrSecond_of_kept (l1Store_kept ..),
      hhome]

end

/-- A group in trap mode whose entry is complete (08 R162): its handler is next. -/
def Group.handling (g : Group) (f pc clk : Nat) : Group :=
  { g with mode := 0, s := vset g.s 0 (BitVec.ofNat 64 f), entry := none, dep := none, stopCause := 0, promo := 0,
           readyClk := clk, path0 := g.path0.map fun p => { p with pc := BitVec.ofNat 57 pc },
           poison := g.cleaned .scalar 0 0 }

theorem Group.moveTo_of_trapMode (h : g.trapMode = true) (pc : BitVec 57) :
    g.moveTo pc = { g with path0 := g.path0.map fun p => { p with pc := pc } } := by
  simp [Group.moveTo, Group.setPath, Group.path, h]

theorem Group.mask_of_trapMode (h : g.trapMode = true) : g.mask = 0xFF := if_pos h

theorem State.enterHandler_of_user (hcobbler : e.cobbler = false) (ctx f : Nat) : s.enterHandler a ctx e f = s.updGrp a fun g =>
    (({ g with mode := 0, entry := none, dep := none, readyClk := s.clk.toNat, promo := 0, stopCause := 0 } : Group).setS 0
      (BitVec.ofNat 64 f)).moveTo (BitVec.ofNat 57 (s.handlerVa ctx e)) := by
  simp [State.enterHandler, hcobbler]

theorem State.enterHandler_grp (hg : s.grp a = some g) (hcobbler : e.cobbler = false) (htrap : g.trapMode = true) (ctx f : Nat) :
    (s.enterHandler a ctx e f).grp a = some (g.handling f (s.handlerVa ctx e) s.clk.toNat) := by
  rw [enterHandler_of_user hcobbler, updGrp_grp_self, hg, Option.map_some, Group.moveTo_of_trapMode]
  · rfl
  · exact htrap

theorem State.startHandler_of_migrating {at' : Nat} {ctx : Nat} (f : Nat)
    (h : s.translate (coreOf a) ctx (s.handlerVa ctx e) .fetch true = .migrating at') : s.startHandler a ctx e f =
      (s.arm (.group a) at' 8).updGrp a fun g => { g with dep := some .watch, entry := some { e with framed := true } } := by
  rw [State.startHandler, h]

theorem State.startHandler_of_fetch {ctx : Nat} (f : Nat)
    (h : ∀ at', s.translate (coreOf a) ctx (s.handlerVa ctx e) .fetch true ≠ .migrating at') :
    s.startHandler a ctx e f = s.enterHandler a ctx e f := by
  unfold State.startHandler
  split
  · next at' hat => exact absurd hat (h at')
  · rfl

theorem State.startHandler_mem (hcobbler : e.cobbler = false) (ctx f : Nat) : (s.startHandler a ctx e f).mem = s.mem := by
  unfold State.startHandler
  split
  · rfl
  · rw [enterHandler_of_user hcobbler]
    rfl

end

/-- Settles O9: the frame's bytes are those of a number written, and what follows the frame changes no memory. -/
theorem trapEntryReachesTheHandler : Obligations.TrapEntryReachesTheHandler := by
  intro s t a g b e pa hg hb he hcobbler hframed htrap hdirect htg hhome hreach hquiet hm htvec base f pc v u found
  have hv : v = u.startHandler a b.ctx e f :=
    State.finishEntry_framed hg hb he hframed hdirect (State.isMemory_of_isHbmOrSecond hhome) hreach
  have humem : u.mem = writeLE t.mem pa 128 g.frame := State.framed_mem hhome hquiet b.ctx f
  have hukept : u.kept = t.kept := State.framed_kept hhome hquiet b.ctx f
  have huclk : u.clk = t.clk := (congrArg State.clk hukept :)
  have huctxs : u.ctxs = t.ctxs := (congrArg State.ctxs hukept :)
  have hug : u.grp a = some g := (State.grp_of_groups (State.framed_groups hhome hquiet b.ctx f) a).trans htg
  have huctx : u.ctx b.ctx = t.ctx b.ctx := congrArg (fun m => (amGet m b.ctx).getD Ctx.reset) huctxs
  have hpc : u.handlerVa b.ctx e = pc := by simp [State.handlerVa, hcobbler, huctx, htvec, pc, base]
  have hvmem : v.mem = writeLE t.mem pa 128 g.frame := by rw [hv, State.startHandler_mem hcobbler, humem]
  obtain ⟨hwords, hmask, hzeros⟩ := frame_written pa g hm
  have hread : ∀ at' n, v.read at' n = readLE (writeLE t.mem pa 128 g.frame) at' n := fun at' n => congrArg (readLE · at' n) hvmem
  refine ⟨rfl, fun k hk => ?scalar, ?xpc, ?xmode, ?xcause, ?xaddr, ?xaux, ?masks, ?zeros, fun k hk => ?beside,
    fun hpoison => State.framed_poison hhome hquiet b.ctx f hpoison, fun at' hat => ?migrating, fun hfetch => ?entered⟩
  case scalar =>
    rw [hread, hwords k (by omega)]
    interval_cases k <;> exact Nat.mod_eq_of_lt (BitVec.isLt _)
  case xpc => rw [hread]; exact (hwords 8 (by decide)).trans (Nat.mod_eq_of_lt (g.xpc.isLt.trans (by decide)))
  case xmode => rw [hread]; exact (hwords 9 (by decide)).trans (Nat.mod_eq_of_lt (g.xmode.isLt.trans (by decide)))
  case xcause => rw [hread]; exact (hwords 10 (by decide)).trans (Nat.mod_eq_of_lt (g.xcause.isLt.trans (by decide)))
  case xaddr => rw [hread]; exact (hwords 11 (by decide)).trans (Nat.mod_eq_of_lt g.xaddr.isLt)
  case xaux => rw [hread]; exact (hwords 12 (by decide)).trans (Nat.mod_eq_of_lt g.xaux.isLt)
  case masks => rw [hread, hmask, g.maskWord_eq]
  case zeros => rw [hread, hzeros]
  case beside => rw [hvmem, byteAt_writeLE_out _ _ hm hk]
  case migrating =>
    rw [hv, State.startHandler_of_migrating f (by rw [hpc]; exact hat), State.updGrp_grp_self]
    exact congrArg (Option.map _) hug
  case entered =>
    have hgrp : v.grp a = some (g.handling f pc t.clk.toNat) := by
      rw [hv, State.startHandler_of_fetch f (by rw [hpc]; exact hfetch), State.enterHandler_grp hug hcobbler htrap, hpc, huclk]
    exact ⟨_, hgrp, Group.mask_of_trapMode htrap, rfl⟩

/-! ### Return from a trap (08 R164) -/

section
variable {s r : State} {a : Nat} {g : Group} {b : Block} {p : Path} {pa : Nat}

theorem exec_tret (s : State) : exec .tret s = issueWord (insnN 0x061 (sigN.priv.ends) true) always tretBody s := rfl

theorem passes_bare {op : Nat} {sg : Sig} (hfmt : sg = sigN.ends ∨ sg = sigN.priv.ends) (hclear : g.Clear)
    (hpriv : sg.privileged = true → g.trapMode = true) : Passes (insnN op sg true) g 0 where
  privilege := hpriv
  immediate := by rcases hfmt with rfl | rfl <;> rfl
  form := by rcases hfmt with rfl | rfl <;> simp [Insn.formOk, insnN, sigN, Sig.ends, Sig.priv, hclear.1, RegKind.fits]
  step := fun h => absurd h (by rw [hclear.2]; exact Bool.false_ne_true)

/-- `tret` takes the 64 bytes of the frame where they lie in memory that its core can reach, unpoisoned. -/
theorem tretBody_returns {x : Insn} (hwrites : s.writes = [])
    (hdirect : s.direct b.ctx (s.frameVa b.ctx a) .read true = (.ok pa, r)) (hmem : r.isMemory pa = true)
    (hreach : r.inReach (coreOf a) pa = true) (hclean : r.poisoned pa 64 = false) (htraced : r.traced b.ctx = false) :
    tretBody s ⟨a, g, b, x, 0, g.pc⟩ = .done (r.trapReturn a (r.read pa 64)) .stay (energyClass x.op) 1 := by
  have hframe : r.frameRead a pa = (some (false, r.read pa 64), r) := by
    unfold State.frameRead
    split
    · next hchip => simp [State.isMemory, hchip] at hmem
    · rw [if_pos hmem, hclean]
  simp [tretBody, Iss.ctx, Iss.core, Iss.packet, State.drainCore_of_quiet hwrites, hdirect, State.frameHole_of_isMemory hmem, hreach, hframe,
    State.tracePacket_of_untraced htraced]

theorem vget_foldl_vset_low (v : Vector (BitVec 64) 32) (f : Nat → BitVec 64) (n k : Nat) (hn : n ≤ 32) :
    vget ((List.range n).foldl (fun v j => vset v j (f j)) v) k 0 = if k < n then f k else vget v k 0 := by
  induction n with
  | zero => simp
  | succ n ih =>
    rw [List.range_succ, List.foldl_append, List.foldl_cons, List.foldl_nil]
    by_cases hk : k = n
    · rw [hk, vget_vset_self _ _ _ (by omega), if_pos (by omega)]
    · rw [vget_vset_ne _ _ _ hk, ih (by omega)]
      congr 1
      simp only [eq_iff_iff]
      omega

/-- A group outside capsules as `tret` leaves it (08 R164). -/
def Group.returned (g : Group) (vals clk : Nat) : Group :=
  { g with
    s := (List.range 8).foldl (fun v k => vset v k (BitVec.ofNat 64 (vals / 2 ^ (64 * k)))) g.s, mode := g.xmode,
    path0 := g.path0.map fun p => { p with pc := g.xpc &&& ~~~3#57 }, trapMode := false, state := .ready, onB := true, cob := false,
    cobRun := false, stopCause := 0, readyClk := clk, promo := 0, dep := none, cap := { g.cap with reenter := false } }

theorem State.trapReturn_grp {vals : Nat} (hg : r.grp a = some g) (hrole : g.cap.role = 0) (hpoison : g.poison = []) :
    (r.trapReturn a vals).grp a = some (g.returned vals r.clk.toNat) := by
  rw [State.trapReturn, State.updGrp_grp_self, hg]
  simp [Group.returned, hrole, hpoison]

theorem Group.returned_sreg (g : Group) (vals clk k : Nat) :
    (g.returned vals clk).sreg k = if k < 8 then BitVec.ofNat 64 (vals / 2 ^ (64 * k)) else g.sreg k :=
  vget_foldl_vset_low g.s (fun k => BitVec.ofNat 64 (vals / 2 ^ (64 * k))) 8 k (by decide)

/-- A double word of the 64 bytes read. -/
theorem State.read_word (r : State) (pa : Nat) {k : Nat} (hk : k < 8) :
    BitVec.ofNat 64 (r.read pa 64 / 2 ^ (64 * k)) = BitVec.ofNat 64 (r.read (pa + 8 * k) 8) := by
  have hslice : r.read pa 64 / 256 ^ (8 * k) % 256 ^ 8 = r.read (pa + 8 * k) 8 := readLE_slice r.mem pa (by omega)
  rw [two_pow_64_mul, ← hslice]
  apply BitVec.eq_of_toNat_eq
  simp only [BitVec.toNat_ofNat, show (256 : Nat) ^ 8 = 2 ^ 64 from rfl, Nat.mod_mod]

end

/-- Settles O18: the meaning of `tret`, and then the end of a word that leaves its group READY. -/
theorem trapReturnRestores : Obligations.TrapReturnRestores := by
  intro s r a g b p pa hs hclear htrap hpath hwrites hrole _ hdirect hgroups hmem hreach hclean htraced
  let i : Iss := ⟨a, g, b, insnN 0x061 (sigN.priv.ends) true, 0, g.pc⟩
  have hbody := tretBody_returns (g := g) (x := insnN 0x061 (sigN.priv.ends) true) hwrites hdirect hmem hreach hclean htraced
  have hdone := issueWord_done hs (passes_bare (op := 0x061) (.inr rfl) hclear fun _ => htrap) (ok := always) rfl hbody
  have hgrp := State.trapReturn_grp (vals := r.read pa 64) ((hgroups a).trans hs.group) hrole hs.clean
  have hretired := retire_retired (i := i) (mv := .stay) (cls := energyClass i.x.op) (n := 1) hgrp (by simp [Group.returned])
  obtain ⟨gs, cs, rs, l, hrest⟩ := hretired.rest
  obtain ⟨h, hh, hsame, hstate⟩ := hretired.group
  have hready : h.state = .ready := by
    rcases hstate with hst | ⟨hst, -⟩
    · exact hst
    · exact absurd hst (by simp [Group.returned, PcMove.apply])
  have hregs : h.s = (g.returned (r.read pa 64) r.clk.toNat).s := by rw [hsame]; rfl
  have hsreg : ∀ k, h.sreg k = (g.returned (r.read pa 64) r.clk.toNat).sreg k := fun k => congrArg (vget · k 0) hregs
  refine ⟨_, h, (exec_tret s).trans hdone, hh, fun k hk => ?_, fun k hk => ?_, ?_, ?_, ?_, fun k hk => ?_⟩
  · rw [hsreg, Group.returned_sreg, if_pos hk, State.read_word r pa hk]
  · rw [hsreg, Group.returned_sreg, if_neg (by omega)]
  · rw [hsame, hready]
    simp [PcMove.apply, Group.returned, hpath]
  · exact State.retire_leaves (i := i) rfl hclear.2 _ _ _
  · rw [hrest]; rfl
  · exact (hretired.others k hk).trans ((State.updGrp_grp_ne _ _ hk).trans (hgroups k))

end Sys2Proof.Machine

namespace Sys2Proof.Machine

/-! ### The one access of a word to its divergence stack (08 R158) -/

section
variable {s u : State} {a : Nat} {g : Group} {b : Block} {c : Acc} {p q : Place} {pa v n : Nat}

theorem State.place_of_checkWp (h : s.checkWp g b c p = .ok q) : q = p := by
  unfold State.checkWp at h
  split at h
  · exact (AccChk.ok.inj h).symm
  · split at h
    · cases h
    · exact (AccChk.ok.inj h).symm

/-- A place in memory is not in the on-chip range. -/
theorem State.region_of_checkPhys {pa' : Nat} (h : s.checkPhys g b c pa' = .ok (.mem pa)) : s.region pa ≠ .chip := by
  have hplace : ∀ {q : Place}, s.checkWp g b c q = .ok (.mem pa) → q = .mem pa := fun h => (place_of_checkWp h).symm
  have hsame : s.checkWp g b c (.mem pa') = .ok (.mem pa) → pa' = pa := fun h => Place.mem.inj (hplace h)
  unfold State.checkPhys at h
  split at h
  · cases h
  · split at h
    · cases h
    · split at h
      · cases h
      · cases hplace h
  · split at h
    · cases h
    · cases hplace h
  · next x hr =>
    split at h
    · rw [← hsame h, hr]; nofun
    · cases hplace h
  · next hr _ _ => rw [← hsame h]; exact hr

theorem State.aligned_of_checkAcc (h : s.checkAcc a g b c = .ok p) (haligned : c.aligned = true) : c.va % c.n = 0 := by
  by_contra hmis
  simp [State.checkAcc, haligned, hmis] at h

theorem State.region_of_checkAcc (h : s.checkAcc a g b c = .ok (.mem pa)) (hscr : c.scr = false) : s.region pa ≠ .chip := by
  unfold State.checkAcc at h
  split at h
  · cases h
  · rw [hscr, if_neg Bool.false_ne_true] at h
    split at h
    · cases h
    · split at h
      · cases h
      · split at h
        · exact region_of_checkPhys h
        all_goals cases h

theorem piecesOf_sixteen {va : Nat} (h : va % 16 = 0) : piecesOf va 16 = [(0, 16)] := by
  simp [piecesOf, h]

/-- An entry pushed leaves the groups. -/
theorem pushed_groups {k : Nat} {e : StackEntry} (h : s.checkAcc a g b (Claims.stackAcc s a b k .write (some e.code)) = .ok (.mem pa)) :
    (Claims.pushed s a b k pa e).groups = s.groups :=
  State.storePieces_groups (State.region_of_checkAcc h rfl) (piecesOf_sixteen (State.aligned_of_checkAcc h rfl)) ..

theorem shut_of_reachable {scope : Nat} {home : Bool} (h : Claims.reachable s a g scope home c.n q = true) :
    s.shut (coreOf a) (s.loadReaches (coreOf a) a g.acqClk scope home [(c, q)]) = none := by
  unfold Claims.reachable State.loadReaches at h
  unfold State.shut State.loadReaches
  cases q with
  | mem pa => cases hgoes : s.goesHome (coreOf a) g.acqClk scope home pa c.n <;> simp_all [Claims.loadAcc]
  | ext pa => cases hvalue : s.extValue a pa c.n <;> simp_all [Claims.loadAcc]
  | chip pa => simpa using h
  | scr core off => simpa using h

/-- What a read of a place that gives a value needs (`Claims.readAt`), as the model asks it of a load. -/
structure Reads (s u : State) (a : Nat) (g : Group) (scope : Nat) (home : Bool) (c : Acc) (q : Place) (v : Nat) : Prop where
  shut : s.shut (coreOf a) (s.loadReaches (coreOf a) a g.acqClk scope home [(c, q)]) = none
  replied : s.extMissing a [(c, q)] = []
  entries : s.entriesFree (coreOf a) (s.loadMisses (coreOf a) g.acqClk scope home [(c, q)]) = true
  value : (s.takeEntries (coreOf a) (s.loadMisses (coreOf a) g.acqClk scope home [(c, q)])).readPlace (coreOf a) a g.acqClk scope home c q =
    (⟨v, false⟩, u)

theorem reads_of_readAt {scope : Nat} {home : Bool} (h : Claims.readAt s a g scope home c.n q = some (v, u)) :
    Reads s u a g scope home c q v := by
  unfold Claims.readAt at h
  split at h
  · cases h
  next hreach =>
  have hshut := shut_of_reachable (s := s) (a := a) (g := g) (c := c) (q := q) (scope := scope) (home := home) (by simpa using hreach)
  cases q with
  | mem pa =>
    dsimp only at h
    split at h
    · cases h
    next hread =>
    obtain ⟨hclean, hfree⟩ : s.poisoned pa c.n = false ∧
        s.entriesFree (coreOf a) (Claims.misses s a g scope home pa c.n) = true := by simpa using hread
    refine ⟨hshut, rfl, hfree, ?_⟩
    have hstays : ∀ ks, (s.takeEntries (coreOf a) ks).poisoned pa c.n = false := fun ks => by
      rw [← hclean]; exact ite_fixed (p := fun t : State => t.poisoned pa c.n) rfl rfl
    have hvalue := Option.some.inj h
    simp only [State.readPlace, State.settlePoison, hstays, Bool.false_and, Bool.false_eq_true, if_false]
    exact congrArg (fun r : Nat × State => ((⟨r.1, false⟩ : ReadOut), r.2)) hvalue
  | chip pa =>
    dsimp only at h
    split at h
    · cases h
    next hbad =>
    refine ⟨hshut, rfl, rfl, ?_⟩
    have hvalue := Option.some.inj h
    rw [Bool.not_eq_true] at hbad
    rw [hvalue] at hbad
    show State.readPlace s _ _ _ _ _ _ _ = _
    simp only [State.readPlace, hvalue, hbad]
  | scr core off =>
    dsimp only at h
    split at h
    · cases h
    next hbad =>
    refine ⟨hshut, rfl, rfl, ?_⟩
    obtain ⟨rfl, rfl⟩ := Prod.mk.inj (Option.some.inj h)
    rw [Bool.not_eq_true] at hbad
    show State.readPlace s _ _ _ _ _ _ _ = _
    simp only [State.readPlace, hbad]
  | ext pa =>
    dsimp only at h
    split at h
    · cases h
    next x hx =>
    refine ⟨hshut, by simp [State.extMissing, hx], rfl, ?_⟩
    show State.readPlace s _ _ _ _ _ _ _ = _
    split at h
    · next w hw =>
      obtain ⟨rfl, rfl⟩ := Prod.mk.inj (Option.some.inj h)
      simp only [State.readPlace, hw, Bool.false_eq_true, if_false]
    · cases h

end

section
variable {s u w : State} {a : Nat} {i : Iss} {mv : PcMove} {f : Group → Group}

theorem Iss.ends_guarded_one {c : Acc} {p : Place} {k : State → List (Acc × Place) → Res} (h : s.checkAcc i.agent i.g i.blk c = .ok p)
    (hk : (k s [(c, p)]).Ends u i.agent mv f) : (i.guarded s [c] k).Ends u i.agent mv f := by
  have hone : i.guarded s [c] k =
      (k s [(c, p)]).counting i.core 10 (s.dieHits i.core i.ctx (([c].filter fun c => !c.scr).map fun c => c.va)) := by
    simp [Iss.guarded, Iss.guardedBy, h, AccChk.faults, AccChk.waits, placesOf]
  rw [hone]
  exact hk.counting ..

theorem Iss.ends_store_nil {k : State → Res} (hk : (k s).Ends u i.agent mv f) : (i.store s [] k).Ends u i.agent mv f := hk.counting ..

theorem Iss.ends_store_one {c : Acc} {p : Place} {k : State → Res} (h : s.checkAcc i.agent i.g i.blk c = .ok p)
    (hk : (k (s.storePlace i c p)).Ends u i.agent mv f) : (i.store s [c] k).Ends u i.agent mv f := by
  unfold Iss.store
  exact Iss.ends_guarded_one h hk

theorem Iss.ends_load_one {c : Acc} {q : Place} {v : Nat} {k : State → List Nat → Res} (h : s.checkAcc i.agent i.g i.blk c = .ok q)
    (hquiet : c.quiet = true) (hread : Claims.readAt s i.agent i.g 0 false c.n q = some (v, w)) (hk : (k w [v]).Ends u i.agent mv f) :
    (i.load s 0 false [c] k).Ends u i.agent mv f := by
  obtain ⟨hshut, hreplied, hentries, hvalue⟩ := reads_of_readAt hread
  refine Iss.ends_guarded_one h ?_
  simp only [Iss.core, hshut, hreplied, hentries, State.readPlaces, hvalue, State.dataTrap]
  simpa [hquiet] using hk

/-! ### The divergence stack as one word sees it -/

section
variable (k : Nat) (b : Block) (kind : Access) (data : Option Nat)

theorem stackAcc_va : (Claims.stackAcc s a b k kind data).va = (Claims.stackAcc s a b k kind none).va := rfl
theorem stackAcc_size : (Claims.stackAcc s a b k kind data).n = 16 := rfl
theorem stackAcc_data : (Claims.stackAcc s a b k kind data).data = data := rfl

end

theorem Iss.entryAcc_eq (k : Nat) (kind : Access) (data : Option Nat) :
    i.entryAcc s k kind data = Claims.stackAcc s i.agent i.blk k kind data := rfl

theorem Iss.storePlace_entry (n pa : Nat) (e : StackEntry) :
    s.storePlace i (Claims.stackAcc s i.agent i.blk n .write (some e.code)) (.mem pa) = Claims.pushed s i.agent i.blk n pa e := by
  rw [State.storePlace, Claims.pushed, stackAcc_va, stackAcc_size, stackAcc_data, Option.getD_some, Iss.core, Iss.ctx]

theorem Iss.writeStack_one (d n : Nat) (e : StackEntry) (k : State → Res) :
    i.writeStack ⟨d, [(n, e)]⟩ s k = i.store s [Claims.stackAcc s i.agent i.blk n .write (some e.code)] k := by
  rw [Iss.writeStack, List.reverse_singleton, List.map_singleton, Iss.entryAcc_eq]

theorem Iss.entryAt_bare (d n : Nat) (k : State → StackEntry → Res) : i.entryAt ⟨d, []⟩ n s k =
    i.load s 0 false [Claims.stackAcc s i.agent i.blk n .read none] fun s vs => k s (StackEntry.ofCode (vs.headD 0)) := by
  rw [Iss.entryAt, List.find?_nil, Iss.entryAcc_eq]

theorem Iss.ends_writeStack_nil {d : Nat} {k : State → Res} (hk : (k s).Ends u i.agent mv f) :
    (i.writeStack ⟨d, []⟩ s k).Ends u i.agent mv f := Iss.ends_store_nil hk

theorem Iss.ends_writeStack_one {d n pa : Nat} {e : StackEntry} {k : State → Res}
    (h : s.checkAcc i.agent i.g i.blk (Claims.stackAcc s i.agent i.blk n .write (some e.code)) = .ok (.mem pa))
    (hk : (k (Claims.pushed s i.agent i.blk n pa e)).Ends u i.agent mv f) : (i.writeStack ⟨d, [(n, e)]⟩ s k).Ends u i.agent mv f := by
  rw [Iss.writeStack_one]
  refine Iss.ends_store_one h ?_
  rwa [Iss.storePlace_entry]

/-- The entry on top of the stack, read from memory. -/
theorem Iss.ends_entryAt {d n v : Nat} {q : Place} {k : State → StackEntry → Res}
    (h : s.checkAcc i.agent i.g i.blk (Claims.stackAcc s i.agent i.blk n .read none) = .ok q)
    (hread : Claims.readAt s i.agent i.g 0 false 16 q = some (v, w)) (hk : (k w (StackEntry.ofCode v)).Ends u i.agent mv f) :
    (i.entryAt ⟨d, []⟩ n s k).Ends u i.agent mv f := by
  rw [Iss.entryAt_bare]
  exact Iss.ends_load_one (k := fun s vs => k s (StackEntry.ofCode (vs.headD 0))) h rfl hread hk

/-- The search for an entry ends at the top of the stack where that entry is the one. -/
theorem Iss.ends_scan_top {d n v : Nat} {q : Place} {test : StackEntry → Bool}
    {k : State → Option (Nat × StackEntry × List StackEntry) → Res}
    (h : s.checkAcc i.agent i.g i.blk (Claims.stackAcc s i.agent i.blk n .read none) = .ok q)
    (hread : Claims.readAt s i.agent i.g 0 false 16 q = some (v, w)) (htest : test (StackEntry.ofCode v) = true)
    (hk : (k w (some (n, StackEntry.ofCode v, []))).Ends u i.agent mv f) : (i.scan ⟨d, []⟩ test k (n + 1) [] s).Ends u i.agent mv f :=
  Iss.ends_entryAt h hread (by simpa only [htest, if_true] using hk)

theorem Stk.remove_top (n : Nat) : Stk.remove ⟨n + 1, []⟩ n [] = ⟨n, []⟩ := rfl

theorem Iss.refill_empty (k : State → Option Path → Stk → Res) : i.refill ⟨0, []⟩ s k = k s none ⟨0, []⟩ := rfl

/-- A slot finds no path in a stack of one join entry (08 R157). -/
theorem Iss.refill_join {e : StackEntry} (hjoin : e.join = true) (k : State → Option Path → Stk → Res) :
    i.refill ⟨1, [(0, e)]⟩ s k = k s none ⟨1, [(0, e)]⟩ := by
  simp [Iss.refill, Iss.scan, Iss.entryAt, hjoin]

end

end Sys2Proof.Machine

namespace Sys2Proof.Machine

/-! ### Paths of a group (08 R157) -/

namespace Group

@[simp] theorem setPath_state (g : Group) (p : Option Path) : (g.setPath p).state = g.state := by
  unfold setPath; split <;> rfl

theorem setPath_depth (g : Group) (p : Option Path) : ({ g.setPath p with depth := g.depth } : Group) = g.setPath p := by
  unfold setPath; split <;> rfl

theorem setPath_moveTo (g : Group) (p : Path) (d : Nat) (pc : BitVec 57) :
    ({ g.setPath (some p) with depth := d } : Group).moveTo pc = { g.setPath (some { p with pc := pc }) with depth := d } := by
  unfold setPath
  split
  · next h => simp [moveTo, setPath, path, h]
  · next h => simp [moveTo, setPath, path, h]

end Group

section
variable {s u : State} {i : Iss} {a : Nat} {g h h' : Group} {b : Block} {mv : PcMove} {f : Group → Group}

theorem completes_to {x : Insn} {imm : BitVec 64} {ok : Iss → Bool} {body : State → Iss → Res} {o : Instr}
    (ho : exec o s = issueWord x ok body s) (hs : s.Issues a g b) (hp : Passes x g imm) (hok : ok ⟨a, g, b, x, imm, g.pc⟩ = true)
    {r : Res} (hb : body s ⟨a, g, b, x, imm, g.pc⟩ = r) (hr : r.Ends u a mv f) (hu : u.grp a = some h) (hf : mv.apply (g.pc + 4) (f h) = h')
    (hlive : (f h).state ≠ .exited) : Completes o s u a h' :=
  hf ▸ completes_of_ends ho hs hp hok (hb ▸ hr) hu hlive

/-! ### `vbr` (09 R179) -/

/-- The path that goes on where a path splits. -/
def Iss.near (i : Iss) (p : Path) : Path := { p with pc := i.next, mask := p.mask &&& ~~~(i.g.preg i.x.d), tag := i.g.splitC }

/-- The group of a path that splits. -/
def Iss.splitGroup (i : Iss) (p : Path) (other : Option Path) (t : Stk) (g : Group) : Group :=
  let g := { g.setPath (some (i.near p)) with
              splitC := nextSplit i.g.splitC, depth := t.depth }
  match other with
  | none => g
  | some q => if g.onB then { g with path0 := some q } else { g with path1 := some q }

theorem Iss.ends_split (p : Path) (other : Option Path) (t : Stk) (cls n : Nat) :
    (Res.done (i.split s p other t) mv cls n).Ends s i.agent mv (i.splitGroup p other t) := Res.ends_updGrp ..

theorem Iss.splitGroup_free {p q : Path} (htrap : i.g.trapMode = false) : i.splitGroup p (some q) ⟨i.g.depth, []⟩ i.g =
    { i.g with path0 := some (if i.g.onB then q else i.near p), path1 := some (if i.g.onB then i.near p else q),
               splitC := nextSplit i.g.splitC } := by
  cases honB : i.g.onB <;> simp [Iss.splitGroup, Group.setPath, htrap, honB]

theorem Iss.splitGroup_state {p : Path} (other : Option Path) (t : Stk) : (i.splitGroup p other t g).state = g.state := by
  cases other with
  | none => exact g.setPath_state _
  | some q => cases honB : (g.setPath (some (i.near p))).onB <;> simp [Iss.splitGroup, honB]

theorem vbrBody_all (hall : i.masked = i.g.mask) : vbrBody s i = i.jump (i.packet s 2 1 none) i.target := if_pos hall

theorem vbrBody_none (hmask : i.masked ≠ i.g.mask) (hnone : i.masked = 0) : vbrBody s i = i.fin (i.packet s 2 0 none) := by
  rw [vbrBody, if_neg hmask, if_pos hnone]

section
variable (hmask : i.masked ≠ i.g.mask) (hsome : i.masked ≠ 0)
include hmask hsome

theorem vbrBody_handler (htrap : i.g.trapMode = true) : vbrBody s i = .trap s cIllegalOperand 0 0 := by
  rw [vbrBody, if_neg hmask, if_neg hsome, if_pos htrap, Iss.illegal]

variable {p : Path} (htrap : i.g.trapMode = false) (hpath : i.g.path = some p)
include htrap hpath

theorem vbrBody_free (hother : i.g.otherPath = none) : vbrBody s i =
    .done (i.split (i.packet s 3 i.masked.toNat none) p (some ⟨i.target, i.masked, i.g.splitC + 1, p.tag⟩) ⟨i.g.depth, []⟩) .stay
      (energyClass i.x.op) 1 := by
  rw [vbrBody, if_neg hmask, if_neg hsome]
  simp [htrap, hpath, hother]

theorem vbrBody_push (hother : i.g.otherPath ≠ none) : vbrBody s i =
    pushEntry s ⟨i.g.depth, []⟩ ⟨i.target, i.masked, false, i.g.splitC + 1, p.tag⟩ fun t => i.writeStack t s fun s =>
      .done (i.split (i.packet s 3 i.masked.toNat none) p none t) .stay (energyClass i.x.op) 1 := by
  rw [vbrBody, if_neg hmask, if_neg hsome]
  simp [htrap, hpath, hother]

end

theorem pushEntry_full {t : Stk} {e : StackEntry} {k : Stk → Res} (hfull : 256 ≤ t.depth) :
    pushEntry s t e k = .trap s cDivstackOverflow 0 0 := if_pos hfull

theorem pushEntry_room {t : Stk} {e : StackEntry} {k : Stk → Res} (hroom : t.depth < 256) : pushEntry s t e k = k (t.push e) :=
  if_neg (Nat.not_le.2 hroom)

theorem exec_vbr (r : BitVec 7) (o : BitVec 14) (s : State) :
    exec (.vbr r o) s = issueWord (insnC 0x048 ((sigS .pred).ends) true r o none) always vbrBody s := rfl

theorem passes_branch {op : Nat} {k : RegKind} {r : BitVec 7} {o : BitVec 14} {m : BitVec 64} (hm : signedImm g.exts 14 o.toNat = some m)
    (hr : k.fits g.kregs r.toNat = true) (hstep : g.inStep = false) : Passes (insnC op ((sigS k).ends) true r o none) g m where
  privilege := nofun
  immediate := hm
  form := by simp [Insn.formOk, insnC, sigS, Sig.ends, Format.immWidth, RegKind.code_fits, hr]
  step := fun h => absurd h (by rw [hstep]; exact Bool.false_ne_true)

end

theorem splitsOfPaths : Claims.SplitsOfPaths := by
  intro s a g b r o m p hs hstep hm hr hpath t
  have hp : Passes (insnC 0x048 ((sigS .pred).ends) true r o none) g m := passes_branch hm (decide_eq_true hr) hstep
  let i : Iss := ⟨a, g, b, insnC 0x048 ((sigS .pred).ends) true r o none, m, g.pc⟩
  have hpacket : ∀ {t : State}, t.grp a = some g → ∀ type payload w1, (Claims.packet t a g b type payload w1).grp a = some g :=
    fun ht _ _ _ => (packet_grp ..).trans ht
  have hlive : ∀ other t, (i.splitGroup p other t g).state ≠ .exited := fun other t => by
    rw [Iss.splitGroup_state]; exact hs.live
  refine ⟨fun hall => ?all, fun hnone hmask => ?none, fun hsome hmask htrap => ?handler, fun hsome hmask htrap hother => ?free,
    fun hsome hmask htrap hother hfull => ?full, ?pushed⟩
  case all => exact completes_to (exec_vbr r o s) hs hp rfl (vbrBody_all hall) (Res.ends_done ..) (hpacket hs.group 2 1 none) rfl hs.live
  case none =>
    exact completes_to (exec_vbr r o s) hs hp rfl (vbrBody_none hmask hnone) (Res.ends_done ..) (hpacket hs.group 2 0 none) rfl hs.live
  case handler => exact traps_of_body (exec_vbr r o s) hs hp rfl (vbrBody_handler hmask hsome htrap)
  case free =>
    exact completes_to (exec_vbr r o s) hs hp rfl (vbrBody_free (i := i) hmask hsome htrap hpath hother) (Iss.ends_split ..)
      (hpacket hs.group 3 _ none) (Iss.splitGroup_free (i := i) htrap) (hlive _ _)
  case full =>
    refine traps_of_body (exec_vbr r o s) hs hp rfl ?_
    rw [vbrBody_push (i := i) hmask hsome htrap hpath hother, pushEntry_full hfull]
  case pushed =>
    intro pa hsome hmask htrap hother hroom far hcheck
    have hgroups := State.grp_of_groups (pushed_groups hcheck) a
    refine completes_to (mv := .stay) (f := i.splitGroup p none ⟨g.depth + 1, [(g.depth, far)]⟩) (exec_vbr r o s) hs hp rfl
      (vbrBody_push (i := i) hmask hsome htrap hpath hother) ?_
      (hpacket (hgroups.trans hs.group) 3 _ none) ?_ (hlive _ _)
    · rw [pushEntry_room hroom]
      exact Iss.ends_writeStack_one hcheck (Iss.ends_split ..)
    · rfl

end Sys2Proof.Machine

namespace Sys2Proof.Machine

section
variable {s u w : State} {i : Iss} {a : Nat} {g h : Group} {b : Block} {mv : PcMove} {p : Path}

/-! ### `vjoin` (09 R180) -/

/-- A group's path and the depth of its stack as a join or an exit leaves them. -/
def Group.onPath (p : Option Path) (d : Nat) (g : Group) : Group := { g.setPath p with depth := d }

@[simp] theorem Group.onPath_state (p : Option Path) (d : Nat) (g : Group) : (g.onPath p d).state = g.state := g.setPath_state p

theorem Group.onPath_moveTo (p : Path) (d : Nat) (pc : BitVec 57) (g : Group) :
    (g.onPath (some p) d).moveTo pc = g.onPath (some { p with pc := pc }) d := g.setPath_moveTo p d pc

theorem Group.onPath_of_depth {d : Nat} (hd : g.depth = d) (p : Option Path) : g.onPath p d = g.setPath p := hd ▸ g.setPath_depth p

theorem Iss.setPaths_eq (s : State) (p : Option Path) (t : Stk) : i.setPaths s p t = s.updGrp i.agent (Group.onPath p t.depth) := rfl

theorem mergeTags_eq (x y z : BitVec 16) : mergeTags x y z = (if x.getLsbD 0 then y else z, if x.getLsbD 0 then z else y) := by
  unfold mergeTags
  split <;> rfl

/-- What `vjoin` does once it has looked for the path's sibling in the stack. -/
def Iss.joined (i : Iss) (p : Path) (s : State) (r : Option (Nat × StackEntry × List StackEntry)) : Res :=
  match r with
  | none => i.fin (i.setPaths s (some { p with tag := 0, ptag := 0 }) ⟨i.g.depth, []⟩)
  | some (n, e, above) =>
    if e.join then
      i.writeStack (Stk.remove ⟨i.g.depth, []⟩ n above) s fun s =>
        i.fin (i.setPaths (i.packet s 4 (p.mask ||| e.mask).toNat none)
          (some ⟨p.pc, p.mask ||| e.mask, (mergeTags p.tag p.ptag e.ptag).1, (mergeTags p.tag p.ptag e.ptag).2⟩)
          (Stk.remove ⟨i.g.depth, []⟩ n above))
    else i.park s ⟨i.g.depth, []⟩ ⟨i.next, p.mask, true, p.tag, p.ptag⟩

theorem vjoinBody_handler (htrap : i.g.trapMode = true) : vjoinBody s i = .trap s cIllegalOperand 0 0 := by
  simp [vjoinBody, htrap, Iss.illegal]

section
variable (htrap : i.g.trapMode = false) (hpath : i.g.path = some p)
include htrap hpath

theorem vjoinBody_unsplit (hsplit : p.tag.toNat < 2) : vjoinBody s i = i.fin s := by
  simp [vjoinBody, htrap, hpath, hsplit]

theorem vjoinBody_beside (hsplit : 2 ≤ p.tag.toNat) (hbeside : Claims.siblingBeside i.g p.tag = true) :
    vjoinBody s i = i.park s ⟨i.g.depth, []⟩ ⟨i.next, p.mask, true, p.tag, p.ptag⟩ := by
  have hother : i.otherIs p.tag = true := hbeside
  simp [vjoinBody, htrap, hpath, Nat.not_lt.2 hsplit, hother]

theorem vjoinBody_apart (hsplit : 2 ≤ p.tag.toNat) (hbeside : Claims.siblingBeside i.g p.tag = false) :
    vjoinBody s i = i.scan ⟨i.g.depth, []⟩ (fun e => e.tag == (p.tag ^^^ 1)) (i.joined p) i.g.depth [] s := by
  have hother : i.otherIs p.tag = false := hbeside
  simp only [vjoinBody, htrap, hpath, Nat.not_lt.2 hsplit, hother, if_false, Bool.false_eq_true]
  rfl

end

/-- The path waits at its join: the only entry of the stack is its own (09 R180). -/
theorem Iss.ends_park {e : StackEntry} {pa : Nat} (hjoin : e.join = true)
    (h : s.checkAcc i.agent i.g i.blk (Claims.stackAcc s i.agent i.blk 0 .write (some e.code)) = .ok (.mem pa)) :
    (i.park s ⟨0, []⟩ e).Ends (Claims.pushed s i.agent i.blk 0 pa e) i.agent .stay (Group.onPath none 1) := by
  rw [Iss.park, pushEntry_room (by decide), Stk.push, Iss.refill_join hjoin]
  refine Iss.ends_writeStack_one h ?_
  rw [Iss.setPaths_eq]
  exact Res.ends_updGrp ..

/-- A path without a sibling goes on as one that was never split (09 R180). -/
theorem Iss.ends_alone : (i.joined p s none).Ends s i.agent .next (Group.onPath (some { p with tag := 0, ptag := 0 }) i.g.depth) := by
  rw [Iss.joined, Iss.setPaths_eq]
  exact Res.ends_updGrp ..

/-- The path merges with its sibling on top of the stack (09 R180). -/
theorem Iss.ends_merge {e : StackEntry} {n : Nat} (hdepth : i.g.depth = n + 1) (hjoin : e.join = true) :
    (i.joined p s (some (n, e, []))).Ends (i.packet s 4 (p.mask ||| e.mask).toNat none) i.agent .next
      (Group.onPath (some ⟨p.pc, p.mask ||| e.mask, if p.tag.getLsbD 0 then p.ptag else e.ptag,
        if p.tag.getLsbD 0 then e.ptag else p.ptag⟩) n) := by
  rw [Iss.joined, if_pos hjoin, hdepth, Stk.remove_top, mergeTags_eq]
  refine Iss.ends_writeStack_nil ?_
  rw [Iss.setPaths_eq]
  exact Res.ends_updGrp ..

end

theorem exec_vjoin (s : State) : exec .vjoin s = issueWord (insnN 0x049 (sigN.ends) true) always vjoinBody s := rfl

theorem joinsOfPaths : Claims.JoinsOfPaths := by
  intro s a g b p hs hclear
  have hp : Passes (insnN 0x049 (sigN.ends) true) g 0 := passes_bare (.inl rfl) hclear nofun
  let i : Iss := ⟨a, g, b, insnN 0x049 (sigN.ends) true, 0, g.pc⟩
  refine ⟨fun htrap => traps_of_body (exec_vjoin s) hs hp rfl (vjoinBody_handler htrap), fun htrap hpath =>
    ⟨fun hsplit => ?unsplit, fun hsplit hbeside hdepth => ?alone, ?waits, ?merges⟩⟩
  case unsplit =>
    exact completes_to (exec_vjoin s) hs hp rfl (vjoinBody_unsplit (i := i) htrap hpath hsplit) (Res.ends_done ..) hs.group rfl hs.live
  case alone =>
    have hbody := vjoinBody_apart (s := s) (i := i) htrap hpath hsplit hbeside
    rw [hdepth] at hbody
    refine completes_to (exec_vjoin s) hs hp rfl hbody (Iss.ends_alone (i := i)) hs.group
      ((Group.onPath_moveTo ..).trans (Group.onPath_of_depth rfl _)) ?_
    rw [Group.onPath_state]; exact hs.live
  case waits =>
    intro pa hsplit hbeside hdepth wait hcheck
    have hbody := vjoinBody_beside (s := s) (i := i) htrap hpath hsplit hbeside
    rw [hdepth] at hbody
    refine completes_to (exec_vjoin s) hs hp rfl hbody (Iss.ends_park rfl hcheck)
      ((State.grp_of_groups (pushed_groups hcheck) a).trans hs.group) rfl ?_
    rw [Group.onPath_state]; exact hs.live
  case merges =>
    intro q n v u h hsplit hbeside hdepth hcheck hread e hjoin htag hu hlive
    have hbody := vjoinBody_apart (s := s) (i := i) htrap hpath hsplit hbeside
    rw [hdepth] at hbody
    refine completes_to (exec_vjoin s) hs hp rfl hbody (Iss.ends_scan_top hcheck hread (beq_iff_eq.2 htag) (Iss.ends_merge hdepth hjoin))
      ((packet_grp ..).trans hu) (Group.onPath_moveTo ..) ?_
    rw [Group.onPath_state]; exact hlive

end Sys2Proof.Machine

namespace Sys2Proof.Machine

/-! ### `exit` (09 R181) -/

section
variable {s u w : State} {i : Iss} {a : Nat} {g h : Group} {b : Block} {p : Path}

/-- What `exit` does once it has looked for the path's sibling in the stack. -/
def Iss.departed (i : Iss) (p : Path) (s : State) (r : Option (Nat × StackEntry × List StackEntry)) : Res :=
  match r with
  | none => i.refill ⟨i.g.depth, []⟩ s i.exitEnd
  | some (n, e, above) =>
    if e.join then
      if e.mask = 0 then
        i.retirePath Config.stackEntries ⟨e.pc, e.mask, (mergeTags p.tag p.ptag e.ptag).1, (mergeTags p.tag p.ptag e.ptag).2⟩
          (Stk.remove ⟨i.g.depth, []⟩ n above) s
      else
        i.exitEnd s (some ⟨e.pc, e.mask, (mergeTags p.tag p.ptag e.ptag).1, (mergeTags p.tag p.ptag e.ptag).2⟩)
          (Stk.remove ⟨i.g.depth, []⟩ n above)
    else pushEntry s ⟨i.g.depth, []⟩ ⟨0, 0, true, p.tag, p.ptag⟩ fun t => i.refill t s i.exitEnd

theorem exitBody_handler (htrap : i.g.trapMode = true) : exitBody s i = .trap s cIllegalOperand 0 0 := by
  simp [exitBody, htrap, Iss.illegal]

section
variable (htrap : i.g.trapMode = false) (hpath : i.g.path = some p)
include htrap hpath

theorem exitBody_unsplit (hsplit : p.tag.toNat < 2) : exitBody s i = i.refill ⟨i.g.depth, []⟩ s i.exitEnd := by
  simp [exitBody, htrap, hpath, Iss.retirePath, hsplit]

theorem exitBody_beside (hsplit : 2 ≤ p.tag.toNat) (hbeside : Claims.siblingBeside i.g p.tag = true) :
    exitBody s i = pushEntry s ⟨i.g.depth, []⟩ ⟨0, 0, true, p.tag, p.ptag⟩ fun t => i.refill t s i.exitEnd := by
  have hother : i.otherIs p.tag = true := hbeside
  simp [exitBody, htrap, hpath, Iss.retirePath, Nat.not_lt.2 hsplit, hother]

theorem exitBody_apart (hsplit : 2 ≤ p.tag.toNat) (hbeside : Claims.siblingBeside i.g p.tag = false) :
    exitBody s i = i.scan ⟨i.g.depth, []⟩ (fun e => e.tag == (p.tag ^^^ 1)) (i.departed p) i.g.depth [] s := by
  have hother : i.otherIs p.tag = false := hbeside
  simp only [exitBody, htrap, hpath, Iss.retirePath, Nat.not_lt.2 hsplit, hother, if_false, Bool.false_eq_true]
  rfl

end

/-- The last path of a group exits. -/
def Iss.isLast (i : Iss) (p : Option Path) (d : Nat) : Bool := p.isNone && i.g.otherPath.isNone && d == 0

/-- What follows the writes of an exit to the stack. -/
theorem Iss.exitEnd_eq (s : State) (p : Option Path) (t : Stk) : i.exitEnd s p t = i.writeStack t s fun s =>
    .done (if i.isLast p t.depth then ((i.packet s 7 i.g.mask.toNat none).updGrp i.agent (Group.onPath p t.depth)).updGrp i.agent
        fun g => { g with state := .exited }
      else (i.packet s 7 i.g.mask.toNat none).updGrp i.agent (Group.onPath p t.depth)) .stay (energyClass i.x.op) 1 := by
  have hpacket : ∀ s : State, i.packet (i.setPaths s p t) 7 i.g.mask.toNat none =
      (i.packet s 7 i.g.mask.toNat none).updGrp i.agent (Group.onPath p t.depth) := fun s => by
    rw [Iss.setPaths_eq, Iss.packet, State.tracePacket_updGrp, Iss.packet]
  simp only [Iss.exitEnd, hpacket]
  rfl

theorem Iss.ends_exitEnd {q : Option Path} {d : Nat} (hlast : i.isLast q d = false) :
    (i.exitEnd s q ⟨d, []⟩).Ends (i.packet s 7 i.g.mask.toNat none) i.agent .stay (Group.onPath q d) := by
  rw [Iss.exitEnd_eq]
  refine Iss.ends_writeStack_nil ?_
  rw [hlast, if_neg Bool.false_ne_true]
  exact Res.ends_updGrp ..

/-- The path exits and leaves an entry at the bottom of the stack. -/
theorem Iss.ends_exitEnd_pushed {e : StackEntry} {pa : Nat} (hjoin : e.join = true)
    (h : s.checkAcc i.agent i.g i.blk (Claims.stackAcc s i.agent i.blk 0 .write (some e.code)) = .ok (.mem pa)) :
    (pushEntry s ⟨0, []⟩ e fun t => i.refill t s i.exitEnd).Ends
      (i.packet (Claims.pushed s i.agent i.blk 0 pa e) 7 i.g.mask.toNat none) i.agent .stay (Group.onPath none 1) := by
  rw [pushEntry_room (by decide), Stk.push, Iss.refill_join hjoin, Iss.exitEnd_eq]
  refine Iss.ends_writeStack_one h ?_
  rw [show i.isLast none 1 = false from Bool.and_false _, if_neg Bool.false_ne_true]
  exact Res.ends_updGrp ..

/-- The slot takes the ready path on top of the stack (08 R157). -/
theorem Iss.ends_refill_ready {q : Place} {n v : Nat}
    (hcheck : s.checkAcc i.agent i.g i.blk (Claims.stackAcc s i.agent i.blk n .read none) = .ok q)
    (hread : Claims.readAt s i.agent i.g 0 false 16 q = some (v, u)) (hready : (StackEntry.ofCode v).join = false) :
    (i.refill ⟨n + 1, []⟩ s i.exitEnd).Ends (i.packet u 7 i.g.mask.toNat none) i.agent .stay
      (Group.onPath (some (StackEntry.ofCode v).path) n) := by
  unfold Iss.refill
  refine Iss.ends_scan_top hcheck hread ?_ ?_
  · rw [hready]; rfl
  · dsimp only
    rw [Stk.remove_top]
    exact Iss.ends_exitEnd rfl

/-- The sibling on top of the stack goes on in the place of the path that exits. -/
theorem Iss.ends_departed {e : StackEntry} {n : Nat} (hdepth : i.g.depth = n + 1) (hjoin : e.join = true) (hmask : e.mask ≠ 0) :
    (i.departed p s (some (n, e, []))).Ends (i.packet s 7 i.g.mask.toNat none) i.agent .stay
      (Group.onPath (some ⟨e.pc, e.mask, if p.tag.getLsbD 0 then p.ptag else e.ptag, if p.tag.getLsbD 0 then e.ptag else p.ptag⟩) n) := by
  rw [Iss.departed, if_pos hjoin, if_neg hmask, hdepth, Stk.remove_top, mergeTags_eq]
  exact Iss.ends_exitEnd rfl

end

section
variable {s u t : State} {i : Iss} {a : Nat} {g h : Group} {b : Block} {p : Path}

/-- A group whose last path has exited. -/
def Group.ended (g : Group) : Group := { g.onPath none 0 with state := .exited }

theorem Group.ended_eq (htrap : g.trapMode = false) (hother : g.otherPath = none) :
    g.ended = { g with path0 := none, path1 := none, depth := 0, state := .exited } := by
  obtain honB | honB := Bool.eq_false_or_eq_true g.onB
  · have hpath : g.path0 = none := by simpa [Group.otherPath, honB] using hother
    simp [Group.ended, Group.onPath, Group.setPath, htrap, honB, hpath]
  · have hpath : g.path1 = none := by simpa [Group.otherPath, honB] using hother
    simp [Group.ended, Group.onPath, Group.setPath, htrap, honB, hpath]

theorem Iss.ends_exitEnd_last (hlast : i.isLast none 0 = true) (huntraced : s.traced i.ctx = false) :
    (i.exitEnd s none ⟨0, []⟩).Ends s i.agent .stay Group.ended := by
  rw [Iss.exitEnd_eq]
  refine Iss.ends_writeStack_nil ?_
  rw [hlast, if_pos rfl, Iss.packet, State.tracePacket_of_untraced huntraced]
  exact ⟨_, _, _, rfl, (Touch.updGrp ..).trans (Touch.updGrp ..)⟩

/-- What ends a run changes no more than the end of a word does. -/
theorem State.endRun_retired (mv : PcMove) (cls n : Nat) (hg : u.grp i.agent = some g) :
    Retired u ((u.retireWord i mv cls n).endRun i.agent) i.agent (mv.apply i.next g) := by
  obtain ⟨e, x⟩ := retireWord_touch u i mv cls n
  have hword : AtEnd (({ g with energy := g.energy + e } : Group).retireWord i.next mv i.g.exts.length (i.g.inStep && i.x.op != 0x291))
      (mv.apply i.next g) := (retireWord_atEnd _ _ _ _ _).energy
  exact ((x.trans (Touch.slots _ _ _)).trans (Touch.updGrp _ _ _)).retired hg (hword.ended _ _)

/-- The end of a group (21 R401). -/
theorem State.groupExit_ended (hg : s.grp i.agent = some h) (hstate : h.state = .exited) (huntraced : s.traced i.ctx = false) :
    s.groupExit i = ((s.updBlk h.block fun b => { b with energy := b.energy + h.energy }).updCore i.core
      fun c => { c with energy := c.energy + h.energy }).countUp i.core 15 h.energy.toNat := by
  have hpacket : s.tracePacket i.core i.blk.ctx (slotOf i.agent) false 9 0 (some h.energy) = s := State.tracePacket_of_untraced huntraced ..
  simp only [State.groupExit, hg, hstate, hpacket, if_true]

section
variable (hg : s.grp i.agent = some h) (hstate : h.state = .exited) (huntraced : s.traced i.ctx = false)
include hg hstate huntraced

theorem State.groupExit_groups : (s.groupExit i).groups = s.groups := by
  rw [groupExit_ended hg hstate huntraced]
  rfl

theorem State.groupExit_mem : (s.groupExit i).mem = s.mem := by
  rw [groupExit_ended hg hstate huntraced]
  rfl

theorem State.groupExit_blk (hb : s.blk h.block = some b) :
    (s.groupExit i).blk h.block = some { b with energy := b.energy + h.energy } := by
  rw [groupExit_ended hg hstate huntraced]
  exact (s.updBlk_blk_self ..).trans (congrArg _ hb)

end

theorem Retired.regs (x : Retired u t a g) : t.regs = u.regs := by
  obtain ⟨gs, cs, rs, l, rfl⟩ := x.rest
  rfl

theorem Retired.blocks (x : Retired u t a g) : t.blocks = u.blocks := by
  obtain ⟨gs, cs, rs, l, rfl⟩ := x.rest
  rfl

theorem Retired.mem (x : Retired u t a g) : t.mem = u.mem := by
  obtain ⟨gs, cs, rs, l, rfl⟩ := x.rest
  rfl

end

theorem exec_exit (s : State) : exec .exit s = issueWord (insnN 0x04A (sigN.ends) true) always exitBody s := rfl

theorem exitsOfPaths : Claims.ExitsOfPaths := by
  intro s a g b p hs hclear
  have hp : Passes (insnN 0x04A (sigN.ends) true) g 0 := passes_bare (.inl rfl) hclear nofun
  let i : Iss := ⟨a, g, b, insnN 0x04A (sigN.ends) true, 0, g.pc⟩
  have hlive : ∀ {h : Group}, h.state ≠ .exited → ∀ q d, (h.onPath q d).state ≠ .exited := fun hh q d => by
    rw [Group.onPath_state]; exact hh
  refine ⟨fun htrap => traps_of_body (exec_exit s) hs hp rfl (exitBody_handler htrap), fun htrap hpath =>
    ⟨fun hsplit hdepth htraced hother => ?last, fun hsplit hdepth hother => ?leaves, ?beside, ?stacked⟩⟩
  case last =>
    have hbody := exitBody_unsplit (s := s) (i := i) htrap hpath hsplit
    have hlast : i.isLast none 0 = true := by rw [Iss.isLast, hother]; rfl
    obtain ⟨u, cls, n, hdone, htouch⟩ := Iss.ends_exitEnd_last (i := i) hlast htraced
    rw [hdepth, Iss.refill_empty, hdone] at hbody
    have hug : u.grp a = some g.ended := by rw [htouch.group, hs.group]; rfl
    have hended := (State.endRun_retired (i := i) .stay cls n hug).of_touch htouch
    obtain ⟨h, hh, hsame, hstate⟩ := hended.group
    rw [PcMove.apply, Group.ended_eq htrap hother] at hsame hstate
    have hexited : h.state = .exited := hstate.resolve_right fun hready => absurd hready.1 nofun
    have huntraced := (State.traced_of_regs hended.regs b.ctx).trans htraced
    have hexec := (exec_exit s).trans (issueWord_done hs hp rfl hbody)
    have hslot := State.retire_leaves (u := u) (i := i) rfl hclear.2 .stay cls n
    rw [State.retire_of_ends rfl hclear.2] at hexec hslot
    have hgroups := State.groupExit_groups (i := i) hh hexited huntraced
    have hblock : h.block = g.block := by rw [hsame]
    have hblk : ((u.retireWord i .stay cls n).endRun a).blk h.block = some b := by
      rw [State.blk, hended.blocks, hblock]; exact hs.block
    refine ⟨_, h, { b with energy := b.energy + h.energy }, hexec, (State.grp_of_groups hgroups a).trans hh, hexited, ?_, ?_, ?_, ?_, hslot,
      (State.groupExit_mem (i := i) hh hexited huntraced).trans hended.mem,
      fun k hk => (State.grp_of_groups hgroups k).trans (hended.others k hk), ?_, rfl⟩
    · rw [hsame]
    · rw [hsame]
    · rw [hsame]
    · rw [hsame]
    · rw [← hblock]; exact State.groupExit_blk (i := i) hh hexited huntraced hblk
  case leaves =>
    have hbody := exitBody_unsplit (s := s) (i := i) htrap hpath hsplit
    rw [hdepth, Iss.refill_empty] at hbody
    have hbeside : g.otherPath.isNone = false := by simpa [Option.isSome_iff_ne_none] using hother
    have hlast : i.isLast none 0 = false := (Bool.and_true _).trans hbeside
    exact completes_to (exec_exit s) hs hp rfl hbody (Iss.ends_exitEnd hlast) ((packet_grp ..).trans hs.group)
      (Group.onPath_of_depth hdepth none) (hlive hs.live _ _)
  case beside =>
    intro pa hsplit hbeside hdepth gone hcheck
    have hbody := exitBody_beside (s := s) (i := i) htrap hpath hsplit hbeside
    rw [hdepth] at hbody
    exact completes_to (exec_exit s) hs hp rfl hbody (Iss.ends_exitEnd_pushed rfl hcheck)
      ((packet_grp ..).trans ((State.grp_of_groups (pushed_groups hcheck) a).trans hs.group)) rfl (hlive hs.live _ _)
  case stacked =>
    intro q n v u h hdepth hcheck hread hu hstate e
    refine ⟨fun hsplit hready => ?_, fun hsplit hbeside hjoin htag hmask => ?_⟩
    · have hbody := exitBody_unsplit (s := s) (i := i) htrap hpath hsplit
      rw [hdepth] at hbody
      exact completes_to (exec_exit s) hs hp rfl hbody (Iss.ends_refill_ready hcheck hread hready) ((packet_grp ..).trans hu) rfl
        (hlive hstate _ _)
    · have hbody := exitBody_apart (s := s) (i := i) htrap hpath hsplit hbeside
      rw [hdepth] at hbody
      exact completes_to (exec_exit s) hs hp rfl hbody
        (Iss.ends_scan_top hcheck hread (beq_iff_eq.2 htag) (Iss.ends_departed hdepth hjoin hmask)) ((packet_grp ..).trans hu) rfl
        (hlive hstate _ _)

/-- Settles O13: each clause by the branch of its word's meaning that it speaks of. -/
theorem divergenceWords : Obligations.DivergenceWords := ⟨splitsOfPaths, joinsOfPaths, exitsOfPaths⟩

end Sys2Proof.Machine

namespace Sys2Proof.Machine

/-! ### Where each group stands, which no write of memory by the part and no result of accumulator work changes -/

/-- A group's state, what it waits for, and its stop cause. -/
def Group.standing (g : Group) : GState × Option Dep × Nat := (g.state, g.dep, g.stopCause)

/-- Where each group stands. -/
def State.standings (s : State) : AMap (GState × Option Dep × Nat) := amMap (fun _ => Group.standing) s.groups

theorem State.standings_get (s : State) (a : Nat) : amGet s.standings a = (s.grp a).map Group.standing := amGet_amMap ..

theorem State.updGrp_standings (s : State) (a : Nat) {f : Group → Group} (hf : ∀ g, (f g).standing = g.standing) :
    (s.updGrp a f).standings = s.standings := by
  rw [State.standings, State.updGrp, amUpd]
  dsimp only
  split
  · rfl
  · next g hg =>
    rw [amMap_amSet, hf]
    exact amSet_of_amGet ((s.standings_get a).trans (congrArg _ hg))

theorem Group.taint_standing (g : Group) (f : RegFile) (n l : Nat) (bad : Bool) : (g.taint f n l bad).standing = g.standing := by
  unfold Group.taint
  split <;> rfl

theorem Core.taints_standing (c : Core) (op : AccOp) (g : Group) : (c.taints op g).standing = g.standing := by
  unfold Core.taints
  split
  · rfl
  · split
    · exact g.taint_standing ..
    · exact foldl_fixed (fun g _ => g.taint_standing ..) _ _
    · exact foldl_fixed (fun g _ => ((g.taint ..).taint_standing ..).trans (g.taint_standing ..)) _ _
    · rfl

theorem Group.setV_standing (g : Group) (n l v : Nat) : (g.setV n l v).standing = g.standing := rfl
theorem Group.setK_standing (g : Group) (n l v : Nat) : (g.setK n l v).standing = g.standing := rfl

theorem Core.written_standing (c : Core) (op : AccOp) (g : Group) : (c.written op g).standing = g.standing := by
  unfold Core.written
  split
  · rfl
  · exact foldl_fixed (fun g _ => g.setV_standing ..) _ _
  · exact foldl_fixed (fun g _ => by rw [Group.setK_standing, Group.setV_standing]) _ _
  · rfl

theorem Core.results_standing (c : Core) (op : AccOp) (g : Group) : (c.results op g).standing = g.standing :=
  (c.taints_standing op _).trans (c.written_standing op g)

namespace State

theorem accStep_standings (s : State) (core : Nat) : (s.accStep core).standings = s.standings := by
  unfold accStep
  dsimp only
  split
  · rfl
  · exact ite_fixed (s.updGrp_standings _ ((s.core core).results_standing _)) rfl

theorem accDrain_standings (s : State) (core : Nat) : (s.accDrain core).standings = s.standings :=
  foldl_fixed (fun s _ => s.accStep_standings core) _ _

theorem coreByteSet_standings (s : State) (c : Nat) (b : CoreByte) (v : Nat) : (s.coreByteSet c b v).standings = s.standings := by
  cases b with
  | vreg a n i => exact s.updGrp_standings a fun _ => rfl
  | kreg a n i => exact s.updGrp_standings a fun _ => rfl
  | sreg a i => exact s.updGrp_standings a fun _ => rfl
  | stat i => exact ite_fixed rfl rfl
  | _ => rfl

theorem coreByteClean_standings (s : State) (c : Nat) (b : CoreByte) : (s.coreByteClean c b).standings = s.standings := by
  cases b with
  | vreg a n i => exact s.updGrp_standings a fun _ => rfl
  | kreg a n i => exact s.updGrp_standings a fun _ => rfl
  | sreg a i => exact s.updGrp_standings a fun _ => rfl
  | _ => rfl

theorem coreWinWrite_standings (s : State) (c off n data : Nat) : (s.coreWinWrite c off n data).standings = s.standings := by
  unfold coreWinWrite coreWinClean
  rw [foldl_fixed (p := standings) fun s i => ite_fixed (s.coreByteClean_standings c _) rfl,
    foldl_fixed (p := standings) fun s i => s.coreByteSet_standings c _ _, accDrain_standings]

theorem chipWrite_standings (s : State) (pa n data : Nat) : (s.chipWrite pa n data).standings = s.standings := by
  have hwrite := congrFun (congrFun (congrFun (congrFun chipWrite_def s) pa) n) data
  beta_reduce at hwrite
  generalize s.chipLoc pa = l at hwrite
  rw [hwrite]
  cases l with
  | core c off => exact s.coreWinWrite_standings c off n data
  | _ => rfl

theorem extWrite_groups (s : State) (w : PendWrite) : (s.extWrite w).groups = s.groups := by
  have hnote : (s.noteRefused w.pa).groups = s.groups := by
    unfold noteRefused
    split
    · exact ite_fixed rfl rfl
    · rfl
  unfold extWrite
  refine ite_fixed hnote ?_
  split <;> exact post_groups ..

theorem standings_of_groups {s t : State} (h : t.groups = s.groups) : t.standings = s.standings := congrArg (amMap _) h

theorem performWrite_standings (s : State) (w : PendWrite) : (s.performWrite w).standings = s.standings := by
  unfold performWrite
  split
  · rfl
  · exact s.chipWrite_standings ..
  · exact standings_of_groups (s.extWrite_groups w)
  · refine ite_fixed rfl ?_
    split
    · rfl
    · exact standings_of_groups (s.extWrite_groups w)
  · rfl

theorem drainCore_standings (s : State) (core : Nat) : (s.drainCore core).standings = s.standings := foldl_fixed performWrite_standings _ _

theorem standings_bystander : Bystander standings :=
  ⟨fun _ _ _ _ _ => rfl, fun _ _ => rfl, fun _ _ => rfl, fun _ _ => rfl, fun _ _ => rfl⟩

/-- The record of a stop leaves where every group stands. -/
theorem stopRecord_standings (s : State) (r : StopRec) : (s.stopRecord r).standings = s.standings :=
  standings_bystander.stopRecord (s.accDrain_standings _) ((s.accDrain _).drainCore_standings _)

/-- A group halts (21 R390). -/
theorem enterHalted_standing {s : State} {a cause : Nat} {g : Group} (hg : s.grp a = some g) :
    ∃ h, (s.enterHalted a cause).grp a = some h ∧ h.standing = (.halted, none, cause) := by
  obtain ⟨r, -, henter⟩ := enterHalted_of_grp (cause := cause) hg
  have hdrained : ((s.accDrain (coreOf a)).grp a).map Group.standing = some g.standing := by
    rw [← standings_get, accDrain_standings, standings_get, hg, Option.map_some]
  obtain ⟨d, hd, -⟩ := Option.map_eq_some_iff.1 hdrained
  have hhalted : (s.halted a cause).grp a = some (d.halt cause) := by
    rw [halted, grp_of_groups (disarm_groups ..), grp_of_groups (leaveSlot_groups ..), updGrp_grp_self, grp_of_groups (mark_groups ..), hd,
      Option.map_some]
  have hstands : ((s.enterHalted a cause).grp a).map Group.standing = some (.halted, none, cause) := by
    rw [henter, ← standings_get, stopRecord_standings, standings_get, hhalted]
    rfl
  exact Option.map_eq_some_iff.1 hstands

end State

end Sys2Proof.Machine

namespace Sys2Proof.Machine

/-! ### Events of a group between its words (08 R152, R154, R166, R167) -/

section
variable {s u : State} {a : Nat} {g : Group}

theorem exec_asyncTrapDelivery (hcan : s.canDeliver a = true) : exec (.asyncTrapDelivery a) s = .next (s.deliverTrap a) :=
  congrArg Host.Outcome.next (if_pos hcan)

theorem exec_groupBroadcastStop (hcan : s.canStop a = true) : exec (.groupBroadcastStop a) s = .next (s.stopGroup a) :=
  congrArg Host.Outcome.next (if_pos hcan)

theorem exec_reentry (hcan : s.canReenter a = true) : exec (.reentry a) s = .next (s.reenter a) :=
  congrArg Host.Outcome.next (if_pos hcan)

/-- An event that changes one group, on top of a state with the groups as they were. -/
theorem groupTo_of_updGrp {i : Instr} {f : Group → Group} {h : Group} (hexec : exec i s = .next (u.updGrp a f))
    (hgroups : u.groups = s.groups) (hg : s.grp a = some g) (hf : f g = h) : Claims.GroupTo i s a h := by
  refine ⟨_, hexec, ?_, fun b hb => (State.updGrp_grp_ne _ _ hb).trans (State.grp_of_groups hgroups b)⟩
  rw [State.updGrp_grp_self, State.grp_of_groups hgroups, hg, Option.map_some, hf]

variable (hg : s.grp a = some g)
include hg

/-! #### Arbitration and promotion -/

theorem arbitrate_grp {core quad : Nat} {w : Group} (hwin : s.issueWinner (core * 4 + quad) = some (a, w)) :
    ∃ h, (s.arbitrate core quad).grp a = some h ∧ h.state = (if g.state = .ready then .issuing else g.state) ∧ h.promo = 0 ∧
      h.runWords = 0 ∧ h.exts = [] ∧ h.onB = g.nextOnB := by
  refine ⟨(if quadOf a = core * 4 + quad then { g with yielded := false } else g : Group).win, ?_, ?_⟩
  · simp only [State.arbitrate, hwin]
    exact (amGet_amUpd_self ..).trans (by rw [amGet_amMap, ← State.grp, hg]; rfl)
  · split <;> exact ⟨rfl, rfl, rfl, rfl, rfl⟩

theorem issueArbitration_gives {core quad : Nat} {w : Group} (hcan : s.canArbitrate core quad = true)
    (hwin : s.issueWinner (core * 4 + quad) = some (a, w)) :
    Claims.Does (.issueArbitration core quad) s fun t => t.issue = s.issue ++ [a] ∧ ∃ h, t.grp a = some h ∧
      h.state = (if g.state = .ready then .issuing else g.state) ∧ h.promo = 0 ∧ h.runWords = 0 ∧ h.exts = [] ∧ h.onB = g.nextOnB := by
  refine ⟨s.arbitrate core quad, congrArg Host.Outcome.next (if_pos hcan), ?_, arbitrate_grp hg hwin⟩
  simp only [State.arbitrate, hwin]

theorem issuePromotion_promotes (heligible : g.eligible = true) (hslot : a ∉ s.issue) (hpromo : g.promo < 7)
    (hlong : g.readyClk + 4096 * (g.promo + 1) ≤ s.clk.toNat) :
    Claims.GroupTo (.issuePromotion a) s a { g with promo := g.promo + 1 } := by
  have hcan : s.canPromote a = true := by simp [State.canPromote, hg, heligible, hslot, hpromo, hlong]
  exact groupTo_of_updGrp (f := Group.promoted) (congrArg Host.Outcome.next (if_pos hcan)) rfl hg rfl

/-! #### The end of a wait -/

/-- What the end of a wait brings about leaves the groups, but of a wait for a result. -/
theorem waitEnds_groups {d : Dep} (hdep : g.dep = some d) (hother : ∀ y n, d ≠ .yseq y n) : (s.waitEnds a).groups = s.groups := by
  simp only [State.waitEnds, hg, hdep]
  split
  · rfl
  · next y n h => exact absurd (Option.some.inj h) (hother y n)
  · rfl

theorem waitEnds_yseq {y : BitVec 2} {n : BitVec 16} (hdep : g.dep = some (.yseq y n)) :
    s.waitEnds a = s.updGrp a fun g => { g with woke := true } := by
  simp only [State.waitEnds, hg, hdep]

section
variable {b : Block} {d : Dep} (hb : s.blk g.block = some b) (hdep : g.dep = some d) (hentry : g.entry = none)
  (hreenter : g.cap.reenter = false) (hctx : (s.ctx b.ctx).state ≠ .faulted) (hmet : s.depMet a g b d = true)
include hb hdep hentry hreenter hctx hmet

theorem exec_dependenceResolved : exec (.dependenceResolved a) s = .next (s.resolve a) := by
  have hcan : s.canResolve a = true := by simp [State.canResolve, hg, hb, hdep, hentry, hreenter, hctx, hmet]
  exact congrArg Host.Outcome.next (if_pos hcan)

end

/-- A wait that no trap ends (08 R152). -/
theorem resolve_resumes {d : Dep} (hdep : g.dep = some d) (hentry : g.entry = none) (hplain : g.fate = none ∨ ∃ y n, d = .yseq y n) :
    s.resolve a = (s.waitEnds a).updGrp a fun g => g.resume s.clk.toNat := by
  simp only [State.resolve, hg, hdep]
  split
  · next x t w f h hfate =>
    rcases hplain with hnone | ⟨y, n, rfl⟩
    · rw [hnone] at hfate; cases hfate
    · cases h
  · rw [hentry]; rfl

theorem dependenceResolved_resumes {b : Block} {d : Dep} (hb : s.blk g.block = some b) (hdep : g.dep = some d) (hentry : g.entry = none)
    (hreenter : g.cap.reenter = false) (hctx : (s.ctx b.ctx).state ≠ .faulted) (hmet : s.depMet a g b d = true) (hfate : g.fate = none)
    (hother : ∀ y n, d ≠ .yseq y n) : Claims.GroupTo (.dependenceResolved a) s a (Claims.resumedAt g s.clk.toNat) := by
  have hexec := exec_dependenceResolved hg hb hdep hentry hreenter hctx hmet
  rw [resolve_resumes hg hdep hentry (.inl hfate)] at hexec
  exact groupTo_of_updGrp hexec (waitEnds_groups hg hdep hother) hg rfl

theorem dependenceResolved_wakes {b : Block} {y : BitVec 2} {n : BitVec 16} (hb : s.blk g.block = some b)
    (hdep : g.dep = some (.yseq y n)) (hentry : g.entry = none) (hreenter : g.cap.reenter = false) (hctx : (s.ctx b.ctx).state ≠ .faulted)
    (hseq : (g.yreg y.toNat).seq = n) :
    Claims.GroupTo (.dependenceResolved a) s a { Claims.resumedAt g s.clk.toNat with woke := true } := by
  have hexec := exec_dependenceResolved hg hb hdep hentry hreenter hctx (beq_iff_eq.2 hseq)
  rw [resolve_resumes hg hdep hentry (.inr ⟨y, n, rfl⟩), waitEnds_yseq hg hdep] at hexec
  refine ⟨_, hexec, ?_, fun c hc => (State.updGrp_grp_ne _ _ hc).trans (State.updGrp_grp_ne _ _ hc)⟩
  rw [State.updGrp_grp_self, State.updGrp_grp_self, hg]
  rfl

/-! #### Watches and limits -/

theorem wake_resumes (hdep : g.dep = some .watch) (hentry : g.entry = none) (hreenter : g.cap.reenter = false) :
    s.wake a = (s.disarm (.group a)).updGrp a fun g => { (g.resume s.clk.toNat) with woke := true } := by
  have hgrp : (s.disarm (.group a)).grp a = some g := hg
  simp only [State.wake, hgrp, hentry, hreenter, hdep, Option.isSome_none, Bool.false_eq_true, if_false, if_true]
  rfl

theorem watchFire_wakes {i : Nat} {w : Watch} (hw : s.watches[i]? = some w) (hfired : w.fired = true) (hkind : w.kind = .group a)
    (hentry : g.entry = none) (hreenter : g.cap.reenter = false) (hdep : g.dep = some .watch) :
    Claims.GroupTo (.watchFire i) s a { Claims.resumedAt g s.clk.toNat with woke := true } := by
  have hcan : s.canWatch i = true := by simp [State.canWatch, hw, hfired, hkind]
  have hfire : s.fireWatch i = s.wake a := by simp only [State.fireWatch, hw, hkind]
  have hexec : exec (.watchFire i) s = .next (s.fireWatch i) := congrArg Host.Outcome.next (if_pos hcan)
  rw [hfire, wake_resumes hg hdep hentry hreenter] at hexec
  exact groupTo_of_updGrp hexec (State.disarm_groups ..) hg rfl

theorem vwaitExpire_wakes (hdep : g.dep = some .watch) (hsent : g.sent = true) (hentry : g.entry = none) (hreenter : g.cap.reenter = false)
    (hover : s.vwaitOver (s.groupCtx g) g.waitClk = true) :
    Claims.GroupTo (.vwaitExpire a) s a { Claims.resumedAt g s.clk.toNat with woke := true } := by
  have hcan : s.canExpire a = true := by simp [State.canExpire, hg, hdep, hsent, hentry, hreenter, hover]
  have hexec : exec (.vwaitExpire a) s = .next (s.wake a) := congrArg Host.Outcome.next (if_pos hcan)
  rw [wake_resumes hg hdep hentry hreenter] at hexec
  exact groupTo_of_updGrp hexec (State.disarm_groups ..) hg rfl

theorem hostWindowPoll_asks {pa : Nat} {value : BitVec 64} (hpa : s.polledPa a = some pa) (hcan : s.canPoll a = true) :
    exec (.hostWindowPoll a value) s = .next (s.extAsk a (s.groupCtx g) pa 8) := by
  have hpoll : s.poll a = s.extAsk a (s.groupCtx g) pa 8 := by simp only [State.poll, hpa, hg]
  exact congrArg Host.Outcome.next ((if_pos hcan).trans hpoll)

/-! #### Phases, pending traps and results -/

theorem phaseOverrun_pends {b : Block} (hb : s.blk g.block = some b) (hover : g.phOver = false) (hbound : b.phaseBound g ≠ 0)
    (hlong : b.phaseBound g ≤ g.phTimer) : Claims.GroupTo (.phaseOverrun a) s a { g with pendPhase := true, phOver := true } := by
  have hcan : s.canOverrun a = true := by simp [State.canOverrun, hg, hb, hover, hbound, hlong]
  exact groupTo_of_updGrp (f := Group.overrun) (congrArg Host.Outcome.next (if_pos hcan)) rfl hg rfl

section
variable {p : Path} (hpath : (if g.nextOnB then g.path1 else g.path0) = some p)
include hpath

theorem deliverTrap_fp {aux : BitVec 64} (hfp : g.pendFp = some aux) :
    s.deliverTrap a = (s.updGrp a fun g => { g with pendFp := none }).takeBetween a cFpException 0 aux p.pc g.nextOnB := by
  simp only [State.deliverTrap, hg, hpath, hfp]

theorem deliverTrap_phase (hfp : g.pendFp = none) :
    s.deliverTrap a = (s.updGrp a fun g => { g with pendPhase := false }).takeBetween a cPhaseOverrun 0 0 p.pc g.nextOnB := by
  simp only [State.deliverTrap, hg, hpath, hfp]

end

theorem vredLand_lands {r : PendVred} {rest : List PendVred} (hvreds : g.vreds = r :: rest) (hcan : s.canLand a = true)
    (hquiet : r.flags &&& fpEnables g.fpstat = 0) :
    Claims.GroupTo (.vredLand a) s a { g with vreds := rest, y := vset g.y r.y.toNat ⟨r.value, (g.yreg r.y.toNat).seq + 1⟩,
                                              fpstat := addFlags g.fpstat r.flags, poison := g.cleaned .yreg r.y.toNat 0 } := by
  refine groupTo_of_updGrp (f := Group.landOne) (congrArg Host.Outcome.next (if_pos hcan)) rfl hg ?_
  simp only [Group.landOne, hvreds, hquiet, if_true]
  rfl

/-! #### Stops and re-entries -/

/-- A group at a boundary is not HALTED yet. -/
theorem not_halted_of_canStop (hcan : s.canStop a = true) : g.state ≠ .halted := by
  intro hhalted
  simp [State.canStop, hg, State.atBoundary, hhalted, GState.waits] at hcan

theorem groupBroadcastStop_halts (hcan : s.canStop a = true) (hparked : g.state ≠ .parked) :
    Claims.Does (.groupBroadcastStop a) s fun t => ∃ h, t.grp a = some h ∧ h.state = .halted ∧ h.dep = none ∧
      h.stopCause = (if (s.ctx (s.groupCtx g)).state = .faulted then 0x22 else 0x21) := by
  have hstop : s.stopGroup a = s.enterHalted a (if (s.ctx (s.groupCtx g)).state = .faulted then 0x22 else 0x21) := by
    simp [State.stopGroup, hg, hparked, not_halted_of_canStop hg hcan]
  obtain ⟨h, hh, hstands⟩ := State.enterHalted_standing (cause := if (s.ctx (s.groupCtx g)).state = .faulted then 0x22 else 0x21) hg
  obtain ⟨hstate, hdep, hcause⟩ := Prod.mk.inj hstands |>.imp_right Prod.mk.inj
  exact ⟨_, (exec_groupBroadcastStop hcan).trans (congrArg Host.Outcome.next hstop), h, hh, hstate, hdep, hcause⟩

theorem unpark_grp : ∃ h, (s.unpark a g).grp a = some h := by
  unfold State.unpark
  dsimp only
  split
  · exact ⟨g, hg⟩
  · split
    · exact ⟨_, State.setGrp_grp_self ..⟩
    · exact ⟨g, hg⟩

theorem groupBroadcastStop_unparks (hcan : s.canStop a = true) (hparked : g.state = .parked) :
    Claims.Does (.groupBroadcastStop a) s fun t => ∃ h, t.grp a = some h ∧ h.state = .halted := by
  refine ⟨_, exec_groupBroadcastStop hcan, ?_⟩
  obtain ⟨h, hh⟩ := unpark_grp hg
  simp only [State.stopGroup, hg, hparked, if_true, hh, Option.any_some]
  split
  · next hhalted => exact ⟨h, hh, beq_iff_eq.1 hhalted⟩
  · obtain ⟨k, hk, hstands⟩ := State.enterHalted_standing
      (cause := if (s.ctx (s.groupCtx g)).state = .faulted then 0x22 else 0x21) hh
    exact ⟨k, hk, (Prod.mk.inj hstands).1⟩

/-- What the line answers to the re-entry of a group (17 R340). -/
def State.reentry (s : State) (a : Nat) (g : Group) := s.capReenter g.cap.line (s.groupCtx g) a g.cap.role g.cap.cseq

/-- A group goes on after its re-entry. -/
def State.goesOn (s : State) (a : Nat) (g : Group) (role : Nat) (regs : Vector (BitVec 64) 16) (pc : BitVec 57) : State :=
  ((s.reentry a g).2.updGrp a fun g => g.reentered role s.clk.toNat regs pc).acquire a 4

theorem reenter_resume {regs : Vector (BitVec 64) 16} {pc : BitVec 57} (hr : (s.reentry a g).1 = .resume regs pc) :
    s.reenter a = s.goesOn a g g.cap.role regs pc := by
  unfold State.reentry at hr
  simp only [State.reenter, hg, hr]
  rfl

theorem reenter_taken {regs : Vector (BitVec 64) 16} {pc : BitVec 57} (hr : (s.reentry a g).1 = .taken regs pc) :
    s.reenter a = s.goesOn a g 0 regs pc := by
  unfold State.reentry at hr
  simp only [State.reenter, hg, hr]
  rfl

theorem reenter_abandon (hr : (s.reentry a g).1 = .abandon) : s.reenter a = s.goesOn a g 0 g.cap.shadow g.cap.ownpc := by
  unfold State.reentry at hr
  simp only [State.reenter, hg, hr]
  rfl

theorem reenter_wait (hr : (s.reentry a g).1 = .wait) : s.reenter a = (s.reentry a g).2.arm (.group a) g.cap.line 8 := by
  unfold State.reentry at *
  simp only [State.reenter, hg, hr]

end

theorem watchFire_rearms {s : State} {i m k : Nat} {w : Watch} (hw : s.watches[i]? = some w) (hfired : w.fired = true)
    (hkind : w.kind = .node m k) : exec (.watchFire i) s = .next { s with watches := s.watches.set i { w with fired := false } } := by
  have hcan : s.canWatch i = true := by simp [State.canWatch, hw, hfired, hkind]
  have hfire : s.fireWatch i = { s with watches := s.watches.set i { w with fired := false } } := by simp only [State.fireWatch, hw, hkind]
  exact congrArg Host.Outcome.next ((if_pos hcan).trans hfire)

/-- Settles O53: each event by its guard and what it then does. -/
theorem groupEvents : Obligations.GroupEvents := by
  intro s a g hg now
  refine ⟨fun _ _ _ => issueArbitration_gives hg, issuePromotion_promotes hg, fun _ _ => dependenceResolved_resumes hg,
    fun _ _ _ => dependenceResolved_wakes hg, fun _ => phaseOverrun_pends hg,
    fun hcan p hpath => ⟨fun aux hfp => ?fp, fun hfp => ?phase⟩, fun _ _ => vredLand_lands hg, fun _ _ => watchFire_wakes hg,
    fun _ _ _ _ => watchFire_rearms, vwaitExpire_wakes hg, fun _ _ => hostWindowPoll_asks hg, groupBroadcastStop_unparks hg,
    groupBroadcastStop_halts hg, fun hcan => ?reentry⟩
  case fp => rw [exec_asyncTrapDelivery hcan, deliverTrap_fp hg hpath hfp]
  case phase => rw [exec_asyncTrapDelivery hcan, deliverTrap_phase hg hpath hfp]
  case reentry =>
    have hexec := exec_reentry hcan
    refine ⟨fun regs pc hr => ?_, fun regs pc hr => ?_, fun hr => ?_, fun hr => ?_⟩
    · rw [hexec, reenter_resume hg hr]; rfl
    · rw [hexec, reenter_taken hg hr]; rfl
    · rw [hexec, reenter_abandon hg hr]; rfl
    · rw [hexec, reenter_wait hg hr]; rfl

end Sys2Proof.Machine
